-- ==== Sys2Proof/Word.lean ====
section
/-! DEFINITION. The word and byte types of the device and the plainest accessors of its vectors. -/
namespace Sys2Proof

/-- A byte. -/
abbrev Byte := BitVec 8

/-- A word of D-space: a tag of 4 bits over 16 data bits (R6, R347). -/
structure Word where
  /-- The tag, bits 19 to 16. -/
  tag : BitVec 4
  /-- The data, bits 15 to 0. -/
  data : BitVec 16
  deriving DecidableEq, Repr, Inhabited

/-- Element `i` of a vector; the type's default where `i` is out of range. -/
def vAt {α : Type} [Inhabited α] {n : Nat} (v : Vector α n) (i : Nat) : α := v[i]?.getD default

/-- A vector with element `i` replaced; unchanged where `i` is out of range. -/
def vSet {α : Type} {n : Nat} (v : Vector α n) (i : Nat) (a : α) : Vector α n := v.setIfInBounds i a

/-- A vector with element `i` changed by `f`. -/
def vUpd {α : Type} [Inhabited α] {n : Nat} (v : Vector α n) (i : Nat) (f : α → α) : Vector α n :=
  vSet v i (f (vAt v i))

/-- A vector with every element changed by `f`. -/
def vMap {α β : Type} {n : Nat} (f : α → β) (v : Vector α n) : Vector β n :=
  ⟨(v.toList.map f).toArray, by simp⟩

end Sys2Proof
end

