-- ==== Sys2Proof/Syntax.lean ====
section
/-! DEFINITION. The commands of the block: one constructor of `Instr` for each row of the opcode table, with the row's operands. -/
namespace Sys2Proof

/-- The channel that delivers a command packet (R259). -/
inductive Chan where
  /-- The Pradom host link. -/
  | host
  /-- The management sideband. -/
  | sideband
  deriving DecidableEq, Repr, Inhabited

/-- A command packet without its opcode, which the row fixes (R244). -/
structure CmdIn where
  /-- The channel it arrives on. -/
  chan : Chan
  /-- FLG (R245). -/
  flg : BitVec 8
  /-- QID. -/
  qid : BitVec 8
  /-- TAG. -/
  tag : BitVec 16
  /-- SES. -/
  ses : BitVec 16
  /-- PLEN. -/
  plen : BitVec 32
  /-- SEQ. -/
  seq : BitVec 32
  /-- The bytes after the header: parameters, payload and, with AUTH, the GCM tag. -/
  body : List Byte
  deriving DecidableEq, Repr, Inhabited

/-- One Doltor instruction as a core executes it: the core, its prefix bytes in order, its immediate (little-endian,
its unused high bits ignored), and for the resumable operations how many elements or transfers an interrupt lets pass. -/
structure Fetch where
  /-- The core (R15). -/
  core : Fin 16
  /-- The prefix bytes in order (R381). -/
  pre : List Byte
  /-- The immediate (R380). -/
  imm : BitVec 32
  /-- The elements or transfers after which an interrupt ends this command, none where no interrupt comes (R405, R394). -/
  lim : Option Nat
  deriving DecidableEq, Repr, Inhabited

/-- The operand fields of one Wadi slot word (R159). -/
structure SlotArgs where
  /-- Field A. -/
  a : BitVec 4
  /-- Field B. -/
  b : BitVec 4
  /-- Field IMM. -/
  imm : BitVec 16
  deriving DecidableEq, Repr, Inhabited

/-- How a cache-maintenance operation names its lines (R444, R462). -/
structure MopArgs where
  /-- The core that writes CCH_MOP. -/
  core : Fin 16
  /-- MODE. -/
  mode : BitVec 2
  /-- TILE. -/
  tile : BitVec 2
  deriving DecidableEq, Repr, Inhabited

/-- Which buffered or written-back store fails on the array (R422, R445). -/
inductive StoreFail where
  /-- None fails now: an error that is pending is taken. -/
  | pending
  /-- The oldest store of the core's store buffer. -/
  | buffered
  /-- The write-back of a dirty line. -/
  | line (tile : Fin 4) (set : Fin 1024) (way : Fin 8)
  deriving DecidableEq, Repr, Inhabited

/-- What a vendor JTAG instruction does where the debug level opens it (R213, R527). -/
inductive Vendor where
  /-- A core is halted. -/
  | haltCore (core : Fin 16)
  /-- A halted core goes on. -/
  | resumeCore (core : Fin 16)
  /-- A halted core executes one instruction. -/
  | stepCore (core : Fin 16)
  /-- A word of a domain's D-space is read. -/
  | readD (dom : BitVec 8) (da : BitVec 32)
  /-- A word of a domain's D-space is written. -/
  | writeD (dom : BitVec 8) (da : BitVec 32) (tag : BitVec 4) (data : BitVec 16)
  /-- A port of X-space is read. -/
  | readX (core : Fin 16) (port : BitVec 16)
  /-- A port of X-space is written. -/
  | writeX (core : Fin 16) (port data : BitVec 16)
  /-- The test mode is entered. -/
  | testMode
  deriving DecidableEq, Repr, Inhabited

/-- The address phase of a boot window read (R228, R229). -/
structure BootRead where
  /-- The address bytes as clocked in. -/
  addr : BitVec 32
  /-- The count of bytes the controller clocks out. -/
  len : Nat
  /-- The blocks that the verifier takes, one after another, while they are clocked out (R234, R235). -/
  during : Nat
  deriving DecidableEq, Repr, Inhabited

/-- A READ_STATUS of the boot window (R230). -/
structure StatusRead where
  /-- The count of data bytes the controller clocks out. -/
  n : Nat
  /-- The byte from which the window is ready, where it becomes ready during the command. -/
  ready : Option Nat
  deriving DecidableEq, Repr, Inhabited

/-- A codeword reprogrammed on a die (R116, R122). -/
structure Rewrite where
  /-- The die. -/
  die : Fin 8
  /-- Its row passes its write-verify. -/
  ok : Bool
  deriving DecidableEq, Repr, Inhabited

/-- A copy pass of a Barchan engine (R116, R128). -/
structure CopyPass where
  /-- The engine. -/
  engine : Fin 4
  /-- The codeword whose copy fails its write-verify, if one does. -/
  bad : Option (Fin 64)
  deriving DecidableEq, Repr, Inhabited

/-- The uncertainty of a measurement, at most 2 %, in parts per thousand (R78). -/
structure Uncertainty where
  /-- That of C. -/
  c : Fin 21
  /-- That of ESR. -/
  esr : Fin 21
  deriving DecidableEq, Repr, Inhabited

/-- The commands of the block. -/
inductive Instr where
  /-- POWER_ON_RESET (R524): VMAIN passes VMAIN_OK after having been below VMAIN_FAIL, and the whole device restarts with reset kind POR. -/
  | powerOnReset
  /-- VMAIN_OK_FILTER_EXPIRY (R91): VMAIN has stayed above VMAIN_OK for the 10,000-tick filter, which permits a start. -/
  | vmainOkFilterExpiry
  /-- VIO_VALID_EXPIRY (R335): VIO has been above 1.66 V for 10,000 ticks, one of the three conditions of internal reset release. -/
  | vioValidExpiry
  /-- INTERNAL_RESET_RELEASE (R335): The last of VMAIN_OK, VIO valid and RESETn high occurs, the straps are sampled and the start sequence begins. -/
  | internalResetRelease (straps : BitVec 4) (dnu : Bool)
  /-- MOUNT (R528): Recovery completes; the MOUNT record is written, READY goes high, PWR_PHASE becomes SERVICE and a READY message is sent. -/
  | mount
  /-- PIN_RESET (R335): RESETn is low for 1 us or longer outside a power-loss sequence and a sealed halt, which causes a PIN reset. -/
  | pinReset
  /-- FATAL_RELEASE (R524): A POR or RESETn releases a sealed halt, and the device starts with reset kind FATAL. -/
  | fatalRelease
  /-- SOFT_RESET (R524): After the REGCPL of a write of SOFTRST with SRKEY 0x35 has been sent, the cores, caches, engines and translation units restart. -/
  | softReset
  /-- CROSSING_HUNG (R544): A crossing reset handshake is not acknowledged within 100 ticks, and the crossing is marked hung. -/
  | crossingHung (island : Fin 13)
  /-- LINK_HOT_RESET (R313): TS1 with HOTRST set arrives on every lane; the device discards unadmitted host packets, ends sessions, resets the link state and retrains. -/
  | linkHotReset
  /-- WATCHDOG_EXPIRY (R539): The watchdog count runs out; WDOG_EXP latches and a WDOG reset follows within 10 us. -/
  | watchdogExpiry
  /-- VMAIN_FAIL (R93): VMAIN falls through VMAIN_FAIL, and the power-loss sequence starts by closing admission and switching the rails to VHOLD. -/
  | vmainFail
  /-- FLUSH_BEGIN (R93): Once the manifest is complete, each Wadi sequencer starts draining the staged records of its die. -/
  | flushBegin
  /-- C_LIVE_ESTIMATE (R93): From 1,000 ticks into the flush, every 100 ticks, C_live is re-estimated and V_res is recomputed. -/
  | cLiveEstimate (vholdMv chargeNc meanMv : Nat)
  /-- FLUSH_STOP_AT_V_RES (R93): VHOLD falls to V_res, the flush stops, and the checkpoint and a STOPPED completion marker are written. -/
  | flushStopAtVRes
  /-- FLUSH_COMPLETE (R93): Staging is fully written, and the directory checkpoint and the CLEAN completion marker are written. -/
  | flushComplete
  /-- CONVERTER_OFF (R93): After the completion marker is written, the converter turns off; if VMAIN has returned, the device waits for VMAIN_OK and starts with POR. -/
  | converterOff (floor : Bool)
  /-- VIO_LOW (R91): VIO falls below VIO_LOW for 1 us; fault VIO_LOW is raised and the boot window, MSDA and TDO go high-impedance. -/
  | vioLow
  /-- WARN_ENTER (R92): PFAILn has been low for 2 us; the device enters WARN, suspends Barchan work and scrubbing and sends a window-change message. -/
  | warnEnter
  /-- WARN_EXIT (R92): PFAILn has been high for 1,000 ticks, and WARN ends. -/
  | warnExit
  /-- CHARGER_STOP (R76): VHOLD reaches 15.0 V and the charger stops; after a start this may begin the first measurement. -/
  | chargerStop
  /-- CHARGER_RESUME (R76): VHOLD falls below 14.9 V outside a measurement, and the charger resumes. -/
  | chargerResume
  /-- CHG_TIMEOUT (R77): VHOLD has not reached 15.0 V within 2,000,000 ticks of the start of charging; fault CHG_TIMEOUT is raised and charging continues. -/
  | chgTimeout
  /-- VHOLD_OVER (R77): VHOLD is above 16.0 V for 1 us; the charger turns off and fault VHOLD_OVER is raised. -/
  | vholdOver (vholdMv : Nat)
  /-- MEASUREMENT_START (R79): On one of its occasions, and once outstanding credits fit the 14.0 V window, the charger turns off and the 200 mA load is applied. -/
  | measurementStart
  /-- MEASUREMENT_PERIOD_EXPIRY (R79): MPER x 100 s of device time elapse and a periodic measurement is requested. -/
  | measurementPeriodExpiry
  /-- TEMPERATURE_MEASUREMENT_TRIGGER (R79): Junction temperature has moved by 15 C or more since the last measurement, and a measurement is requested. -/
  | temperatureMeasurementTrigger
  /-- MEASUREMENT_COMPLETE (R78): VHOLD falls to 14.0 V; C and ESR are computed, C_use, V_floor and CFAIL are updated and the charger resumes. -/
  | measurementComplete (stepMv : Nat) (unc : Uncertainty)
  /-- MEASUREMENT_SKIP (R79): A periodic or temperature measurement cannot begin within 1,000,000 ticks; it is skipped and MEASSKIP is set. -/
  | measurementSkip
  /-- HOLDUP_DISCHARGE_COMPLETE (R102): The HOLDUP_TEST MODE 1 discharge reaches V_floor; EDEL is recorded and recharging begins. -/
  | holdupDischargeComplete (edelUj : Nat)
  /-- WINDOW_RECOMPUTE (R82): Every 10 ticks Oasis recomputes the hold window W from VHOLD, C_use, V_floor and the rule budget. -/
  | windowRecompute (vholdMv : Nat)
  /-- CREDIT_WAIT_EXPIRY (R88): A waiting append reaches CWAIT x 1,000 ticks; it is answered ST_NOCRED and releases its buffer space, and a train member aborts its train. -/
  | creditWaitExpiry
  /-- QUEUE_HEAD_ADMIT (R251): The cause blocking the head of a queue clears and the packet is admitted, the arbiter serving queues by URG class and round robin. -/
  | queueHeadAdmit
  /-- STAGING_DRAIN_WRITE (R16): A Wadi sequencer takes staged records, encrypts and codes them, and issues codeword writes to its die. -/
  | stagingDrainWrite (die : Fin 8)
  /-- CODEWORD_WRITE_COMPLETE (R116): A codeword's write-verify ends; credits return, ARRAY replies are sent, and a failing row is replaced by a spare row or the tail ring. -/
  | codewordWriteComplete (die : Fin 8) (ok : Bool) (loops : Nat)
  /-- TAIL_RING_AGE_TIMEOUT (R117): A record in a partly filled codeword has been in staging for 2,000 ticks, and the codeword is written to the tail ring. -/
  | tailRingAgeTimeout (die : Fin 8)
  /-- TIMED_EXPIRY_RECLAIM (R54): Every record of a TIMED segment has expired; its space returns to Playa and TRIM records with cause 3 are written. -/
  | timedExpiryReclaim
  /-- EARLY_MERGE_RETRY (R74): The Playa free count rises above the floor, and the merge of a held early-log half is retried. -/
  | earlyMergeRetry
  /-- CARAVAN_INACTIVITY_TIMEOUT (R66): More than 50,000 ticks pass between the admission of one train member and the next, and the train aborts with cause 0x0005. -/
  | caravanInactivityTimeout
  /-- CARAVAN_ABORT_ANSWER_END (R66): No packet with CHAIN set has arrived for 50,000 ticks after an abort, and the answering of late members ends. -/
  | caravanAbortAnswerEnd
  /-- CODEWORD_READ (R121): A shell reads a codeword with its margin, decodes it, re-reads if needed and acts by the margin table. -/
  | codewordRead (g : Nat) (cw : Fin 64) (margin : BitVec 6) (soft reread uncorr : Bool)
  /-- CODEWORD_REFRESH (R122): A codeword is written to the tail ring, reprogrammed at home with write-verify, and its tail entry retired. -/
  | codewordRefresh (w : Rewrite)
  /-- REGION_RECALIBRATION (R124): A region's pilot codewords are read and its read references are moved to the midpoints. -/
  | regionRecalibration (die : Fin 8)
  /-- TEMPERATURE_RECALIBRATION_TRIGGER (R124): Junction temperature has moved 10 C or more since a die's last full recalibration with AUTO = 1, and every region of the die is recalibrated. -/
  | temperatureRecalibrationTrigger (die : Fin 8)
  /-- ARRAY_RECALIBRATE_START (R146): A write of ARY_CAL.START starts recalibration of every region of the die. -/
  | arrayRecalibrateStart (die : Fin 8)
  /-- PATROL_READ (R125): The scrub patrol reads a codeword when its bank is idle, at the rate set by ARY_SCRUB.PERIOD. -/
  | patrolRead (g : Nat) (cw : Fin 64) (margin : BitVec 6) (soft reread uncorr last : Bool)
  /-- PATROL_START (R147): A write of ARY_SCRUB.START starts a patrol of the die now. -/
  | patrolStart (die : Fin 8)
  /-- WEAR_LEVEL_MOVE_START (R133): The programme-count spread on a die exceeds WLTHR x 1,024, and the most-worn segment is moved to the least-worn free slot. -/
  | wearLevelMoveStart (die : Fin 8)
  /-- SLOT_EVACUATION_START (R137): A slot marked failing is evacuated to a reserved spare slot or a Playa slot, then retired. -/
  | slotEvacuationStart
  /-- SEGMENT_MOVE_COPY_PASS_COMPLETE (R128): A copy pass of a segment move ends; dirty codewords are recopied, or the move commits with a SEALED entry. -/
  | segmentMoveCopyPassComplete (p : CopyPass)
  /-- SEGMENT_MOVE_INVALIDATION_ACK (R128): Every translation unit acknowledges; held writes are released, the old slot returns to Playa and DONE is journalled. -/
  | segmentMoveInvalidationAck (engine : Fin 4)
  /-- SHARED_SEGMENT_COMPACTION (R134): A shared log segment is rewritten with its retained records, re-sealed and committed by the move sequence. -/
  | sharedSegmentCompaction (g : Nat)
  /-- HEAP_OBJECT_MOVE (R135): A live heap object is marked MRK, copied, and its header replaced by a FWD word. -/
  | heapObjectMove (engine : Fin 4) (src dst : Nat) (da : BitVec 32) (copied last : Bool)
  /-- CARD_SCAN (R460): Barchan clears and scans each marked card of remembered segments for references into a compaction source. -/
  | cardScan (src : Nat) (engine : Fin 4)
  /-- SIROCCO_SAMPLE (R142): Every 1,000 ticks junction temperature is sampled and the Sirocco throttle level is set. -/
  | siroccoSample (temp : Int)
  /-- RULE_EXECUTION_START (R171): After a trigger record's write is issued, a pending execution of a binding starts on that die's sequencer. -/
  | ruleExecutionStart (die : Fin 8)
  /-- ANOP (R160): Array slot operation with no effect. -/
  | anop (die : Fin 8) (w : SlotArgs)
  /-- ASEEK (R160): Sets a handle's read cursor so that the records up to its snapshot total at most IMM KiB; the step waits. -/
  | aseek (die : Fin 8) (w : SlotArgs) (rereads : Nat)
  /-- ARDR (R160): Copies up to 4,096 stored plaintext bytes from a handle's cursor into a buffer and sets an index register to the count. -/
  | ardr (die : Fin 8) (w : SlotArgs) (rereads : Nat)
  /-- AAPP (R160): Appends the record in a buffer to an output stream with encryption, coding and write-verify. -/
  | aapp (die : Fin 8) (w : SlotArgs)
  /-- SNOP (R160): Seal slot operation with no effect. -/
  | snop (die : Fin 8) (w : SlotArgs)
  /-- SREC (R160): Computes a buffer record's CRC and extends the handle's chain, filling CRC and CHAIN. -/
  | srec (die : Fin 8) (w : SlotArgs)
  /-- SCRC (R160): Writes the CRC-32C of a buffer's payload into an index register. -/
  | scrc (die : Fin 8) (w : SlotArgs)
  /-- MNOP (R160): Move slot operation with no effect. -/
  | mnop (die : Fin 8) (w : SlotArgs)
  /-- MHDR (R160): Writes a record header for a handle into a buffer, holding the handle's stream until CEND. -/
  | mhdr (die : Fin 8) (w : SlotArgs)
  /-- MCPY (R160): Copies payload and length from one buffer to another. -/
  | mcpy (die : Fin 8) (w : SlotArgs)
  /-- MTRG (R160): Places the trigger record's 32-byte header in a buffer as payload. -/
  | mtrg (die : Fin 8) (w : SlotArgs)
  /-- MSET (R160): Sets an index register to an immediate. -/
  | mset (die : Fin 8) (w : SlotArgs)
  /-- CNOP (R160): Control slot operation with no effect. -/
  | cnop (die : Fin 8) (w : SlotArgs)
  /-- CEND (R160): Waits for every AAPP of the execution to complete write-verify, then ends the execution. -/
  | cend (die : Fin 8) (w : SlotArgs)
  /-- CLOOP (R160): Runs the next A instructions IMM times. -/
  | cloop (die : Fin 8) (w : SlotArgs)
  /-- CBRZ (R160): Branches forward to instruction IMM if the named index register is zero. -/
  | cbrz (die : Fin 8) (w : SlotArgs)
  /-- CWAIT (R160): Waits for every AAPP issued so far to complete write-verify. -/
  | cwait (die : Fin 8) (w : SlotArgs)
  /-- SHORT_COMMAND_PACKET (R247): A command packet of fewer than 16 bytes is delivered and answered ST_BADLEN. -/
  | shortCommandPacket (b : List Byte)
  /-- IDENTIFY (R263): Returns the part, stepping, variant, lifecycle, identity and link figures. -/
  | identify (c : CmdIn)
  /-- GET_STATUS (R264): Returns the status summary, the array health page or the queue status words. -/
  | getStatus (c : CmdIn)
  /-- SESSION_OPEN (R194): Verifies the host signature and opens a session with ephemeral ECDH key agreement and a signed reply. -/
  | sessionOpen (c : CmdIn)
  /-- SESSION_CLOSE (R266): Ends the carrying session or a named session. -/
  | sessionClose (c : CmdIn)
  /-- ATTEST (R209): Returns the signed attestation report or a certificate page. -/
  | attest (c : CmdIn)
  /-- STREAM_CREATE (R268): Creates a stream with fixed attributes, a new key and a CREATE device record. -/
  | streamCreate (c : CmdIn)
  /-- STREAM_OPEN (R269): Opens a stream, holding a context entry and setting its acknowledge mode. -/
  | streamOpen (c : CmdIn)
  /-- STREAM_CLOSE (R269): Closes a stream and releases its held context. -/
  | streamClose (c : CmdIn)
  /-- STREAM_APPEND (R270): Appends a record to a stream, staging it and replying at its durability point, or joins a Caravan train. -/
  | streamAppend (c : CmdIn)
  /-- STREAM_READ (R271): Returns records from a sequence number or device time, or a plaintext segment image. -/
  | streamRead (c : CmdIn)
  /-- STREAM_SEAL (R273): Writes earlier records, seals the open segment and, with FINAL = 1, makes the stream SEALED. -/
  | streamSeal (c : CmdIn)
  /-- STREAM_TRIM (R58): Raises the first retained sequence number and writes a TRIM record with cause 1. -/
  | streamTrim (c : CmdIn)
  /-- STREAM_INFO (R275): Returns the stream's state, attributes, sequence range and horizon. -/
  | streamInfo (c : CmdIn)
  /-- STREAM_DELETE (R60): Puts the stream in DELETING, destroys its keys, writes a DELETE record and returns its segments to Playa. -/
  | streamDelete (c : CmdIn)
  /-- BOOT_STAGE (R222): Writes payload bytes into the MIRAGE slot at an offset, optionally restarting the slot. -/
  | bootStage (c : CmdIn)
  /-- BOOT_COMMIT (R223): Checks the manifest and the staged root, writes tree nodes and the slot seal, and sets the slot VALID. -/
  | bootCommit (c : CmdIn)
  /-- BOOT_ACTIVATE (R225): Swaps the boot roles, sets a trial, or confirms a trial, optionally raising the rollback floor. -/
  | bootActivate (c : CmdIn)
  /-- RULE_LOAD (R164): Verifies and checks a bundle file, computes its worst case and stores it. -/
  | ruleLoad (c : CmdIn)
  /-- RULE_BIND (R166): Attaches a loaded bundle to its trigger and handle streams within the rule budget. -/
  | ruleBind (c : CmdIn)
  /-- RULE_UNLOAD (R170): Unbinds a binding, or unbinds and removes a bundle, after pending executions complete. -/
  | ruleUnload (c : CmdIn)
  /-- EXT_LOAD (R279): Receives a chunk of an extension program file and, on FINAL, checks, stores and starts the program. -/
  | extLoad (c : CmdIn)
  /-- UOP_LOAD (R485): Checks a user microcode file and commits it, holding user decode until running routines finish. -/
  | uopLoad (c : CmdIn)
  /-- USER_MICROCODE_COMMIT (R486): Once every running user routine has ended, the user microcode RAM, decode table and OUTP range are replaced and decode resumes. -/
  | userMicrocodeCommit
  /-- FAULT_READ (R281): Returns the fault summary or a range of history entries. -/
  | faultRead (c : CmdIn)
  /-- FAULT_CLEAR (R282): Clears selected latches and optionally the history and FLT_FIRST. -/
  | faultClear (c : CmdIn)
  /-- FAULT_INJECT (R510): Presents a fault state at a source with a given detail, which latches and reacts under its policy. -/
  | faultInject (c : CmdIn)
  /-- POWER_STATE (R283): Requests RUN, DOZE, REST or OFF, replying once the transition is committed. -/
  | powerState (c : CmdIn)
  /-- HOLDUP_TEST (R102): Makes a capacitor measurement, or with MODE 1 a metered discharge and recharge, and returns the results. -/
  | holdupTest (c : CmdIn)
  /-- PROVISION (R189): Verifies the owner signature, generates the store keys, creates stream 0 and enters OWNED. -/
  | provision (c : CmdIn)
  /-- KEY_ROTATE (R286): Rotates a stream key, transfers ownership, sets or clears a host key, or replaces the policy word. -/
  | keyRotate (c : CmdIn)
  /-- COUNTER_BUMP (R207): Durably increments a host monotonic counter and returns the new value. -/
  | counterBump (c : CmdIn)
  /-- SANITIZE (R212): Destroys keys, erases owner state, removes the store and starts a background overwrite, leaving the device UNOWNED. -/
  | sanitize (c : CmdIn)
  /-- SANITIZE_OVERWRITE_COMPLETE (R212): The background overwrite of every mapped slot with zeros completes. -/
  | sanitizeOverwriteComplete
  /-- DEBUG_UNLOCK (R213): Issues a challenge, checks a signed response to raise the debug level, or relocks to level 0. -/
  | debugUnlock (c : CmdIn)
  /-- DEBUG_CHALLENGE_EXPIRY (R213): A challenge has been outstanding for 60,000,000 ticks and is no longer valid. -/
  | debugChallengeExpiry
  /-- REST_ENTRY_DRAINED (R536): With O = 0, REST entry stops Barchan work, cleans and powers off the caches, replies, disables the link and stops the cores. -/
  | restEntryDrained
  /-- OFF_ENTRY_DRAINED (R537): With staging drained, OFF entry writes the checkpoint and clean-shutdown marker, replies and enters HALT. -/
  | offEntryDrained
  /-- WAKE_EVENT (R533): Host TS1, a sideband packet, a qualifying fault latch or a failing slot wakes the device from DOZE or REST. -/
  | wakeEvent (cause : BitVec 4)
  /-- IDLE_ENTRY (R534): The device has been quiescent for 100 ticks in RUN and enters IDLE. -/
  | idleEntry
  /-- IDLE_EXIT (R533): Any request returns the device from IDLE to RUN within 1 us. -/
  | idleExit
  /-- LINK_DETECT_TS1_START (R295): 1 ms after internal reset release, the device starts sending TS1 at 2.5 Gb/s. -/
  | linkDetectTs1Start
  /-- LINK_TS1_RECEIVED (R295): TS1 is received on lane 0 in DETECT or LOWPOWER, and the link moves to CONFIG or RECOVERY. -/
  | linkTs1Received
  /-- LINK_CONFIG_COMPLETE (R296): Every lane of the width has exchanged its TS2 blocks, and the link goes to RATE or ACTIVE. -/
  | linkConfigComplete (lanes : BitVec 4) (peer : BitVec 3)
  /-- LINK_RATE_CHANGE_IDLE_END (R296): The 10 us of electrical idle after a rate change ends, and CONFIG repeats at the new rate. -/
  | linkRateChangeIdleEnd
  /-- BLOCK_LOCK_LOST (R293): A lane sees 16 sync-header errors in 64 blocks or no AM block in 20,000 rows, and the link enters RECOVERY. -/
  | blockLockLost
  /-- LINK_RECOVERY_COMPLETE (R295): Block lock and deskew are re-established and the link returns to ACTIVE. -/
  | linkRecoveryComplete
  /-- LINK_RECOVERY_TIMEOUT (R298): RECOVERY has not reached ACTIVE within 2 ms; the link goes to DETECT, LINK_DOWN is raised and a LINK reset follows. -/
  | linkRecoveryTimeout
  /-- LINK_RETRAIN (R322): A write of HW_CTRL.RETRAIN enters RECOVERY and applies RATECAP. -/
  | linkRetrain (v : BitVec 32)
  /-- LINK_COUNTER_CLEAR (R323): Any write to HW_LINKSTAT clears the RECOVERY and resend counters. -/
  | linkCounterClear
  /-- HOST_LINK_DATA_PACKET (R302): A data link packet is received and accepted, discarded as a duplicate, or answered by NAK. -/
  | hostLinkDataPacket (crc : Option (BitVec 32)) (lseq xtag : BitVec 16) (typ lfl : Byte) (payload : List Byte)
  /-- REGWR (R308): A register write link packet is accepted and completed with a REGCPL. -/
  | regwr (lseq xtag ofs : BitVec 16) (data : BitVec 32)
  /-- CMD (R309): A CMD link packet adds to the command-packet assembly, and its LAST delivers the command packet to its queue. -/
  | cmd (lseq : BitVec 16) (lfl : Byte) (payload : List Byte)
  /-- CMD_ASSEMBLY_TIMEOUT (R309): An assembly receives no further CMD link packet for 10,000 ticks and is delivered as received. -/
  | cmdAssemblyTimeout
  /-- ACK (R303): An ACK releases every unacknowledged data link packet up to the number it names. -/
  | ack (n : BitVec 16)
  /-- NAK (R303): A NAK releases packets up to its number and makes the transmitter resend every later packet. -/
  | nak (n : BitVec 16)
  /-- CREDIT (R306): A host CREDIT link packet updates the reply, data and message limits, releasing waiting replies and messages. -/
  | credit (rdl rhl msl cfl : BitVec 16)
  /-- REPLAY_TIMEOUT (R303): No ACK or NAK advance for 10 us makes the transmitter resend; after the fourth resend the link enters RECOVERY. -/
  | replayTimeout
  /-- CREDIT_SEND_TIMER (R306): At least every 10 us the device sends a CREDIT link packet with its current limits. -/
  | creditSendTimer
  /-- SIDEBAND_WRITE (R317): An I2C write transfer ends and its command packet enters queue 0 or is rejected in transport. -/
  | sidebandWrite (addr : BitVec 7) (bytes : List Byte)
  /-- SIDEBAND_READ (R316): An I2C read transfer returns the pending reply, no reply or a transport rejection. -/
  | sidebandRead (addr : BitVec 7) (len : Nat)
  /-- SIDEBAND_BUS_TIMEOUT (R317): SCL is held low for 25 ms; the transfer is abandoned and MSDA released. -/
  | sidebandBusTimeout (partialWrite : Bool)
  /-- SIDEBAND_REPLY_DISCARD (R317): An unread sideband reply is discarded 1,000,000 ticks after it became ready. -/
  | sidebandReplyDiscard
  /-- READ (R228): Boot window command 0x03 reads verified image bytes in 1-1-1 mode. -/
  | read (r : BootRead)
  /-- FAST_READ (R228): Boot window command 0x0B reads image bytes with 8 dummy clocks. -/
  | fastRead (r : BootRead)
  /-- QUAD_OUTPUT_FAST_READ (R228): Boot window command 0x6B reads image bytes in 1-1-4 mode. -/
  | quadOutputFastRead (r : BootRead)
  /-- QUAD_IO_FAST_READ (R228): Boot window command 0xEB reads image bytes in 1-4-4 mode. -/
  | quadIoFastRead (r : BootRead)
  /-- READ_STATUS (R230): Boot window command 0x05 returns the status byte with WIP. -/
  | readStatus (r : StatusRead)
  /-- READ_IDENTIFICATION (R230): Boot window command 0x9F returns 0x3D, 0xC5, 0x1A. -/
  | readIdentification (n : Nat)
  /-- READ_SFDP (R232): Boot window command 0x5A returns the SFDP parameter space. -/
  | readSfdp (r : BootRead)
  /-- ENTER_4_BYTE_ADDRESS_MODE (R229): Boot window command 0xB7 selects 4-byte addressing. -/
  | enter4ByteAddressMode
  /-- EXIT_4_BYTE_ADDRESS_MODE (R229): Boot window command 0xE9 selects 3-byte addressing. -/
  | exit4ByteAddressMode
  /-- IGNORED_FLASH_COMMAND (R231): A write-enable, programme, erase or write-status opcode is accepted and ignored. -/
  | ignoredFlashCommand
  /-- UNKNOWN_BOOT_OPCODE (R231): Any other opcode is ignored and BTIO stays released until BTCS_n rises. -/
  | unknownBootOpcode
  /-- BOOT_SEAL_VERIFIED (R233): The seal of the served slot verifies after reset release. -/
  | bootSealVerified
  /-- BOOT_WINDOW_READY (R233): The first PREVER bytes have verified; WIP becomes 0 and READY is set. -/
  | bootWindowReady
  /-- BOOT_BLOCK_VERIFY (R234): The verifier fetches a block and verifies it against ROOT through the tree nodes. -/
  | bootBlockVerify (ok : Bool)
  /-- BOOT_WINDOW_CLOSE (R238): A write of BTW_CTRL.CLOSE closes the boot window. -/
  | bootWindowClose
  /-- BOOT_WINDOW_AUTO_CLOSE (R238): 60,000,000 ticks after ready, with KEEP at 0, the boot window closes. -/
  | bootWindowAutoClose
  /-- BOOT_KEEP_WRITE (R241): A write of BTW_CTRL.KEEP holds the window open, or closes it at once if written 0 after the automatic-close point. -/
  | bootKeepWrite (keep : Bool)
  /-- JTAG_EXTEST (R341): EXTEST makes the boundary register drive the pins, silencing the boot window and sideband. -/
  | jtagExtest (cells : BitVec 17)
  /-- JTAG_IDCODE (R341): IDCODE selects the 32-bit identification register. -/
  | jtagIdcode
  /-- JTAG_BYPASS (R341): BYPASS selects the one-bit bypass register. -/
  | jtagBypass
  /-- JTAG_SAMPLE_PRELOAD (R341): SAMPLE/PRELOAD samples or preloads the boundary register. -/
  | jtagSamplePreload (pins cells : BitVec 17)
  /-- JTAG_VENDOR_INSTRUCTION (R213): A vendor instruction acts if the debug level opens it, and otherwise behaves as BYPASS. -/
  | jtagVendorInstruction (ir : BitVec 5) (act : Vendor)
  /-- JTAG_TAP_RESET (R544): TRST_n or Test-Logic-Reset resets the TAP controller and instruction register only. -/
  | jtagTapReset
  /-- FAULT_LATCH (R498): A source's fault state lasts 20 ns and latches, writing history, FLT_FIRST, FAULTn, interrupt and message. -/
  | faultLatch (src : Nat) (det : BitVec 32) (persists : Bool)
  /-- BROKEN_WIRE (R496): A source's rails are equal for 1 us; source 0 latches and the failing source is masked. -/
  | brokenWire (src : Nat) (level : Bool)
  /-- BROKEN_WIRE_RECOVERED (R496): A masked source's rails have been opposite for 1 us and it is unmasked. -/
  | brokenWireRecovered (src : Nat)
  /-- ESCALATION_TIMER_EXPIRY (R507): A class escalation timer runs out and the device makes a fatal escalation. -/
  | escalationTimerExpiry (cls : Fin 3)
  /-- THERM_HALT_TIMER_EXPIRY (R507): The 10-tick THERM_HALT timer runs out and the device makes a fatal escalation with ESCSRC 7. -/
  | thermHaltTimerExpiry
  /-- ENTROPY_HEALTH_FAIL (R187): A continuous entropy test fails; ENTROPY_FAIL is raised and the DRBG stops. -/
  | entropyHealthFail (adaptive : Bool)
  /-- FLT_ACK_WRITE (R504): A write names a latched source as acknowledged, which can stop a CE or UC escalation timer. -/
  | fltAckWrite (v : BitVec 16)
  /-- FAULT_LATCH_CLEAR (R501): A write of 1 to FLT_LATCHk clears latches, a fault in the same window winning. -/
  | faultLatchClear (k : Fin 6) (v : BitVec 16)
  /-- FLT_HSEL_WRITE (R518): A write captures a history entry or FLT_FIRST into FLT_HDATA, then empties FLT_FIRST or the history if asked. -/
  | fltHselWrite (v : BitVec 16)
  /-- FLT_FORCE_WRITE (R511): A write of FLT_FORCEk drives or releases source rails at the fault state. -/
  | fltForceWrite (k : Fin 6) (v : BitVec 16)
  /-- WATCHDOG_ARM (R539): A write of PWR_WDCTL.EN = 1 arms the watchdog count. -/
  | watchdogArm (core : Fin 16) (k : BitVec 4)
  /-- WATCHDOG_KICK (R539): A write of KICK restarts the watchdog count with the current K. -/
  | watchdogKick (core : Fin 16) (k : BitVec 4)
  /-- TIME_CAPTURE (R552): A write of TBX_TCAP.CAP captures device time into TBX_TIME0 to TBX_TIME3. -/
  | timeCapture
  /-- COUNTER_SELECT (R216): A write of VTF_CSEL captures the selected monotonic counter into VTF_CVAL0 to VTF_CVAL3. -/
  | counterSelect (v : BitVec 16)
  /-- HOST_LINK_MIRROR_CAPTURE (R560): An IN from an even HLK_ mirror port captures the whole 32-bit host-window register for the reading core. -/
  | hostLinkMirrorCapture (core : Fin 16) (k : Fin 128)
  /-- WAKE_CAUSE_READ (R550): A read of PWR_WAKE returns the wake cause and clears it. -/
  | wakeCauseRead
  /-- RULE_BUDGET_WRITE (R112): A write of OAS_RULE_BUDGET sets E_rule and recomputes W, or is refused with BUDREJ when below the committed budget. -/
  | ruleBudgetWrite (v : BitVec 16)
  /-- PATCH_LOCK (R483): UCD_CTRL.LOCKSET, or leaving STARTUP unlocked, locks the patch RAM and match registers and closes PATCHH. -/
  | patchLock (leave : Bool)
  /-- PATCH_WORD_WRITE (R492): A write of UCD_PDATAL stores a microword with parity at UCD_PADDR and increments the address. -/
  | patchWordWrite (lo : BitVec 16)
  /-- CACHE_CLEAN (R444): CCH_MOP GO with OP clean writes dirty lines back by address, range or set/way. -/
  | cacheClean (m : MopArgs)
  /-- CACHE_INVALIDATE (R444): CCH_MOP GO with OP invalidate discards lines by address, range or set/way. -/
  | cacheInvalidate (m : MopArgs)
  /-- CACHE_CLEAN_INVALIDATE (R444): CCH_MOP GO with OP both cleans then invalidates lines by address, range or set/way. -/
  | cacheCleanInvalidate (m : MopArgs)
  /-- CACHE_MAINTENANCE_COMPLETE (R444): Every line of a maintenance operation is done and BUSY clears. -/
  | cacheMaintenanceComplete
  /-- CACHE_WAY_POWER_DOWN (R442): A write of 0 to a CCH_PWR bit removes the way from allocation and starts its clean-and-invalidate sweep. -/
  | cacheWayPowerDown (tile : Fin 4) (ways : BitVec 8)
  /-- CACHE_WAY_SWEEP_COMPLETE (R442): The power-down sweep ends, the way is unpowered, and a pending power-up takes effect. -/
  | cacheWaySweepComplete (tile : Fin 4)
  /-- CACHE_WAY_POWER_UP (R442): A write of 1 to a CCH_PWR bit powers the way up with every line invalid. -/
  | cacheWayPowerUp (tile : Fin 4) (ways : BitVec 8)
  /-- TLB_INVALIDATE_DOMAIN (R455): MMU_INV OP domain invalidates every TLB entry of a domain in every core. -/
  | tlbInvalidateDomain (core : Fin 16) (dom : BitVec 8)
  /-- TLB_INVALIDATE_ADDRESS (R455): MMU_INV OP domain and address invalidates entries covering an address. -/
  | tlbInvalidateAddress (core : Fin 16) (dom : BitVec 8)
  /-- TLB_INVALIDATE_ALL (R455): MMU_INV OP all invalidates every entry in every TLB. -/
  | tlbInvalidateAll (core : Fin 16)
  /-- TLB_INVALIDATE_SEGNO (R455): MMU_INV OP SEGNO removes every entry mapping a segment. -/
  | tlbInvalidateSegno (core : Fin 16)
  /-- TLB_INVALIDATION_COMPLETE (R455): Every TLB has acknowledged the invalidation and BUSY clears. -/
  | tlbInvalidationComplete
  /-- SEAL_XTS_ENCRYPT (R564): SEAL_CTL GO with OP 1 encrypts words with a stream's current key and tweak. -/
  | sealXtsEncrypt (core : Fin 16)
  /-- SEAL_XTS_DECRYPT (R564): SEAL_CTL GO with OP 2 decrypts words with a stream's current key and tweak. -/
  | sealXtsDecrypt (core : Fin 16)
  /-- SEAL_CHAIN_EXTEND (R564): SEAL_CTL GO with OP 3 replaces the chain value with SHA-256 of it and the message. -/
  | sealChainExtend (core : Fin 16)
  /-- SEAL_VERIFY (R564): SEAL_CTL GO with OP 4 verifies an ECDSA signature against the owner key. -/
  | sealVerify (core : Fin 16)
  /-- SEAL_OPERATION_COMPLETE (R567): A seal operation ends, BUSY clears and OK and ERR are set. -/
  | sealOperationComplete (core : Fin 16)
  /-- REGISTER_WRITE (R11): A write to a host-window register or port without behaviour of its own acts by the field access codes. -/
  | registerWrite (host : Bool) (core : Fin 16) (addr : BitVec 16) (v : BitVec 32)
  /-- INTERRUPT_ENTRY (R419): At a retirement boundary a pending enabled interrupt above the current level is taken through its vector. -/
  | interruptEntry (core : Fin 16) (req : BitVec 8)
  /-- MACHINE_CHECK (R418): A machine check enters L7 vector 0x01F, or stops the core if NEST(7) is 1. -/
  | machineCheck (core : Fin 16) (par : Option (BitVec 15))
  /-- POWER_FAIL_ENTRY (R418): Power fail enters L7 vector 0x020 whatever NEST(7) is, unless a power-fail handler is running. -/
  | powerFailEntry (core : Fin 16)
  /-- DEFERRED_STORE_ERROR (R422): A buffered store to an array segment later fails and enters L6 vector 0x021 as an interrupt. -/
  | deferredStoreError (core : Fin 16) (fail : StoreFail)
  /-- NOINT_EXPIRY (R421): A NOINT count of beats runs out and interrupts of L1 to L6 can be taken again. -/
  | nointExpiry (core : Fin 16)
  /-- SPILL_ENGINE_SPILL (R361): With more than 12 entries in a bank, the spill engine moves the oldest entries to the spill area. -/
  | spillEngineSpill (core : Fin 16)
  /-- SPILL_ENGINE_REFILL (R361): With fewer than 4 entries and spilled entries present, the spill engine refills the bank. -/
  | spillEngineRefill (core : Fin 16)
  /-- HEAP_MRK_WAIT_END (R459): A header tagged MRK changes and the waiting access reads it again and proceeds. -/
  | heapMrkWaitEnd (core : Fin 16)
  /-- NOP (R388): Does nothing. -/
  | iNop (f : Fetch)
  /-- DUP (R388): Duplicates the top entry. -/
  | iDup (f : Fetch)
  /-- DROP (R388): Discards the top entry. -/
  | iDrop (f : Fetch)
  /-- SWAP (R388): Exchanges the top two entries. -/
  | iSwap (f : Fetch)
  /-- OVER (R388): Copies the second entry to the top. -/
  | iOver (f : Fetch)
  /-- ROT (R388): Rotates the top three entries. -/
  | iRot (f : Fetch)
  /-- PICK (R388): Copies the entry at a given depth to the top. -/
  | iPick (f : Fetch)
  /-- DUP2 (R388): Duplicates the top pair. -/
  | iDup2 (f : Fetch)
  /-- DROP2 (R388): Discards the top pair. -/
  | iDrop2 (f : Fetch)
  /-- SWAP2 (R388): Exchanges the top two pairs. -/
  | iSwap2 (f : Fetch)
  /-- TAGOF (R388): Pushes the tag of the top entry as FIX. -/
  | iTagof (f : Fetch)
  /-- SETTAG (R350): Replaces the tag of the top entry with a permitted code. -/
  | iSettag (f : Fetch)
  /-- PUSHNIL (R388): Pushes a NIL word. -/
  | iPushnil (f : Fetch)
  /-- SPILL8 (R362): Moves the oldest 8 bank entries below SSP. -/
  | iSpill8 (f : Fetch)
  /-- PUSH8 (R388): Pushes a sign-extended 8-bit literal as FIX. -/
  | iPush8 (f : Fetch)
  /-- PUSH16 (R388): Pushes a 16-bit literal as FIX. -/
  | iPush16 (f : Fetch)
  /-- PUSHR (R388): Pushes a 16-bit literal as RAW. -/
  | iPushr (f : Fetch)
  /-- PUSHC (R388): Pushes a 16-bit literal as CHR. -/
  | iPushc (f : Fetch)
  /-- PUSHREF (R388): Pushes a 32-bit literal as a REFH REFL pair. -/
  | iPushref (f : Fetch)
  /-- PUSHCODE (R388): Pushes a 32-bit literal as a CODE pair. -/
  | iPushcode (f : Fetch)
  /-- MKREF (R389): Makes a reference pair from two FIX or RAW words. -/
  | iMkref (f : Fetch)
  /-- REFADD (R389): Adds a signed FIX offset to a reference modulo 2^32. -/
  | iRefadd (f : Fetch)
  /-- REFPART (R389): Splits a reference or CODE pair into two RAW words. -/
  | iRefpart (f : Fetch)
  /-- ANCH (R458): Builds an anchor from a reference into a SEG page. -/
  | iAnch (f : Fetch)
  /-- ALD (R458): Resolves an anchor through the heap window and pushes the reference. -/
  | iAld (f : Fetch)
  /-- LD (R390): Loads a D-space word at a reference plus offset. -/
  | iLd (f : Fetch)
  /-- ST (R390): Stores a word at a reference plus offset. -/
  | iSt (f : Fetch)
  /-- LDP (R351): Loads a reference pair atomically. -/
  | iLdp (f : Fetch)
  /-- STP (R351): Stores a reference pair atomically. -/
  | iStp (f : Fetch)
  /-- LDI (R392): Loads a D-space word with a wide offset, or two I-space bytes with prefix 0xDC. -/
  | iLdi (f : Fetch)
  /-- IST (R392): Writes two bytes of I-space under an IWRITE capability. -/
  | iIst (f : Fetch)
  /-- LDM (R394): Loads a block of entries under MSK, resumably. -/
  | iLdm (f : Fetch)
  /-- STM (R394): Stores a block of entries under MSK, resumably. -/
  | iStm (f : Fetch)
  /-- IN (R393): Reads a port named by the immediate. -/
  | iIn (f : Fetch)
  /-- OUT (R393): Writes a value to a port named by the immediate. -/
  | iOut (f : Fetch)
  /-- INS (R393): Reads a port named by a stack entry. -/
  | iIns (f : Fetch)
  /-- OUTS (R393): Writes a value to a port named by a stack entry. -/
  | iOuts (f : Fetch)
  /-- ADD (R395): Adds two FIX words, trapping on overflow. -/
  | iAdd (f : Fetch)
  /-- SUB (R395): Subtracts two FIX words, trapping on overflow. -/
  | iSub (f : Fetch)
  /-- MUL (R395): Multiplies two FIX words, trapping on overflow. -/
  | iMul (f : Fetch)
  /-- NEG (R395): Negates a FIX word, trapping on overflow. -/
  | iNeg (f : Fetch)
  /-- DIV (R395): Divides FIX words, truncating, on the iterative divider. -/
  | iDiv (f : Fetch)
  /-- MOD (R395): Computes the FIX remainder with the sign of the dividend. -/
  | iMod (f : Fetch)
  /-- ADDW (R396): Wrapping 16-bit add. -/
  | iAddw (f : Fetch)
  /-- SUBW (R396): Wrapping 16-bit subtract. -/
  | iSubw (f : Fetch)
  /-- ADCW (R396): Wrapping add with carry. -/
  | iAdcw (f : Fetch)
  /-- SBCW (R396): Wrapping subtract with borrow. -/
  | iSbcw (f : Fetch)
  /-- MULW (R396): Signed 32-bit product of two words. -/
  | iMulw (f : Fetch)
  /-- MULUW (R396): Unsigned 32-bit product of two words. -/
  | iMuluw (f : Fetch)
  /-- NEGW (R396): Wrapping negate. -/
  | iNegw (f : Fetch)
  /-- DIVW (R396): Signed wrapping divide giving quotient and remainder. -/
  | iDivw (f : Fetch)
  /-- DIVUW (R396): Unsigned 32-by-16 divide giving quotient and remainder. -/
  | iDivuw (f : Fetch)
  /-- AND (R396): Bitwise AND. -/
  | iAnd (f : Fetch)
  /-- OR (R396): Bitwise OR. -/
  | iOr (f : Fetch)
  /-- XOR (R396): Bitwise XOR. -/
  | iXor (f : Fetch)
  /-- NOT (R396): Bitwise NOT. -/
  | iNot (f : Fetch)
  /-- SHL (R397): Shift left by a count. -/
  | iShl (f : Fetch)
  /-- SHR (R397): Logical shift right by a count. -/
  | iShr (f : Fetch)
  /-- SAR (R397): Arithmetic shift right by a count. -/
  | iSar (f : Fetch)
  /-- ROL (R397): Rotate left by a count. -/
  | iRol (f : Fetch)
  /-- ROR (R397): Rotate right by a count. -/
  | iRor (f : Fetch)
  /-- LADD (R396): 32-bit add of LNG pairs. -/
  | iLadd (f : Fetch)
  /-- LSUB (R396): 32-bit subtract of LNG pairs. -/
  | iLsub (f : Fetch)
  /-- CEQ (R400): Writes predicates with 20-bit equality. -/
  | iCeq (f : Fetch)
  /-- CNE (R400): Writes predicates with 20-bit inequality. -/
  | iCne (f : Fetch)
  /-- CLT (R400): Writes predicates with signed less-than on FIX. -/
  | iClt (f : Fetch)
  /-- CLE (R400): Writes predicates with signed less-or-equal on FIX. -/
  | iCle (f : Fetch)
  /-- CLTU (R400): Writes predicates with unsigned less-than. -/
  | iCltu (f : Fetch)
  /-- CLEU (R400): Writes predicates with unsigned less-or-equal. -/
  | iCleu (f : Fetch)
  /-- CTAG (R400): Writes predicates with a tag test. -/
  | iCtag (f : Fetch)
  /-- CST (R400): Writes predicates from an ST condition. -/
  | iCst (f : Fetch)
  /-- BR (R401): Branches with a delay slot. -/
  | iBr (f : Fetch)
  /-- CALL (R401): Pushes a return address and branches with a delay slot. -/
  | iCall (len : Fin 8) (f : Fetch)
  /-- JMPI (R401): Jumps to a CODE pair with a delay slot. -/
  | iJmpi (f : Fetch)
  /-- CALLI (R401): Calls through a CODE pair with a delay slot. -/
  | iCalli (len : Fin 8) (f : Fetch)
  /-- RET (R401): Returns to a CODE pair with a delay slot. -/
  | iRet (f : Fetch)
  /-- LOOP (R403): Sets up a counted hardware loop. -/
  | iLoop (len : Fin 8) (f : Fetch)
  /-- MOVS (R404): Copies words from SRC to DST, repeatably. -/
  | iMovs (f : Fetch)
  /-- CMPS (R405): Compares words at SRC and DST, repeatably, writing predicates. -/
  | iCmps (f : Fetch)
  /-- FILL (R404): Fills words at DST with a value, repeatably. -/
  | iFill (f : Fetch)
  /-- SCAN (R405): Compares words at SRC with a value, repeatably. -/
  | iScan (f : Fetch)
  /-- CRCS (R406): Updates a CRC state with words from SRC, repeatably. -/
  | iCrcs (f : Fetch)
  /-- CRCB (R406): Updates a CRC state with one byte. -/
  | iCrcb (f : Fetch)
  /-- CRCW (R406): Updates a CRC state with two bytes. -/
  | iCrcw (f : Fetch)
  /-- PAR (R406): Replaces a word with its parity. -/
  | iPar (f : Fetch)
  /-- BREV (R406): Bit-reverses a word. -/
  | iBrev (f : Fetch)
  /-- SWL (R417): Switches level, entering a higher level's vector or ending the current level. -/
  | iSwl (f : Fetch)
  /-- RETL (R416): Returns through LNK_RA and LNK_ST and resumes any valid micro-save. -/
  | iRetl (f : Fetch)
  /-- NOINT (R421): Holds interrupts of L1 to L6 for a count of beats. -/
  | iNoint (f : Fetch)
  /-- SETDOM (R407): Sets the current domain under a DOMAIN capability. -/
  | iSetdom (f : Fetch)
  /-- RDC (R408): Pushes selected control state. -/
  | iRdc (f : Fetch)
  /-- WRC (R408): Writes selected control state. -/
  | iWrc (f : Fetch)
  /-- PUSHST (R407): Pushes ST. -/
  | iPushst (f : Fetch)
  /-- POPST (R368): Writes the flags of ST. -/
  | iPopst (f : Fetch)
  /-- SYNC (R423): Completes earlier sync-port writes and buffered stores. -/
  | iSync (f : Fetch)
  /-- SYNCI (R426): Makes earlier IST writes to a block visible to this core's fetch. -/
  | iSynci (f : Fetch)
  /-- WAITI (R407): Retires and waits until an interrupt is taken. -/
  | iWaiti (f : Fetch)
  /-- CDERIVE (R365): Derives a narrowed capability into a slot. -/
  | iCderive (f : Fetch)
  /-- CCLR (R365): Makes a capability slot NULL. -/
  | iCclr (f : Fetch)
  /-- CXFER (R365): Copies a capability to a slot of a lower level. -/
  | iCxfer (f : Fetch)
  /-- CSTORE (R365): Stores a capability as four CAPW words. -/
  | iCstore (f : Fetch)
  /-- CLOAD (R365): Loads four CAPW words into a capability slot. -/
  | iCload (f : Fetch)
  /-- USER_INSTRUCTION (R487): An opcode 0xF0 to 0xFF runs its user micro-routine, whose only effects are those of END. -/
  | userInstruction (opc : Byte) (f : Fetch)
  /-- STREAM_DELETION_COMPLETE (R60): After STREAM_DELETE has replied, the stream's segments finish returning to the Playa pool and the stream leaves DELETING for ABSENT, freeing its ID for reuse. -/
  | streamDeletionComplete
  deriving DecidableEq, Repr

end Sys2Proof
end

