-- ==== Sys2Proof/WellFormed.lean ====
section
/-! DEFINITION. Which terms of `Instr` spell a command of the block: what the types of the operands do not say. -/
namespace Sys2Proof

/-- Whether a byte is a prefix (R381). -/
def isPrefix (b : Byte) : Bool :=
  let n := b.toNat
  (decide (0xE0 ≤ n) && decide (n ≤ 0xEF)) || (decide (0xD8 ≤ n) && decide (n ≤ 0xDA)) || decide (n = 0xDC) || decide (n = 0xDD)

/-- Whether the bytes before an opcode are prefixes (R381). -/
def fetchWf (f : Fetch) : Bool := f.pre.all isPrefix

/-- Words of all segments, the metadata segments among them (R126, R436). -/
def segWords : Nat := 0x202000 * 131072

/-- Whether a command is well formed. -/
def Instr.wf (i : Instr) : Bool :=
  match i with
  | .powerOnReset => true
  | .vmainOkFilterExpiry => true
  | .vioValidExpiry => true
  | .internalResetRelease _ _ => true
  | .mount => true
  | .pinReset => true
  | .fatalRelease => true
  | .softReset => true
  | .crossingHung _ => true
  | .linkHotReset => true
  | .watchdogExpiry => true
  | .vmainFail => true
  | .flushBegin => true
  | .cLiveEstimate _ _ _ => true
  | .flushStopAtVRes => true
  | .flushComplete => true
  | .converterOff _ => true
  | .vioLow => true
  | .warnEnter => true
  | .warnExit => true
  | .chargerStop => true
  | .chargerResume => true
  | .chgTimeout => true
  | .vholdOver _ => true
  | .measurementStart => true
  | .measurementPeriodExpiry => true
  | .temperatureMeasurementTrigger => true
  | .measurementComplete _ _ => true
  | .measurementSkip => true
  | .holdupDischargeComplete _ => true
  | .windowRecompute _ => true
  | .creditWaitExpiry => true
  | .queueHeadAdmit => true
  | .stagingDrainWrite _ => true
  | .codewordWriteComplete _ _ _ => true
  | .tailRingAgeTimeout _ => true
  | .timedExpiryReclaim => true
  | .earlyMergeRetry => true
  | .caravanInactivityTimeout => true
  | .caravanAbortAnswerEnd => true
  | .codewordRead g _ _ _ _ _ => decide (g < 0x202000)
  | .codewordRefresh _ => true
  | .regionRecalibration _ => true
  | .temperatureRecalibrationTrigger _ => true
  | .arrayRecalibrateStart _ => true
  | .patrolRead g _ _ _ _ _ _ => decide (g < 0x202000)
  | .patrolStart _ => true
  | .wearLevelMoveStart _ => true
  | .slotEvacuationStart => true
  | .segmentMoveCopyPassComplete _ => true
  | .segmentMoveInvalidationAck _ => true
  | .sharedSegmentCompaction g => decide (g < 2097152)
  | .heapObjectMove _ src dst _ _ _ => decide (src < segWords) && decide (dst < segWords)
  | .cardScan src _ => decide (src < 0x202000)
  | .siroccoSample _ => true
  | .ruleExecutionStart _ => true
  | .anop _ _ => true
  | .aseek _ _ _ => true
  | .ardr _ _ _ => true
  | .aapp _ _ => true
  | .snop _ _ => true
  | .srec _ _ => true
  | .scrc _ _ => true
  | .mnop _ _ => true
  | .mhdr _ _ => true
  | .mcpy _ _ => true
  | .mtrg _ _ => true
  | .mset _ _ => true
  | .cnop _ _ => true
  | .cend _ _ => true
  | .cloop _ _ => true
  | .cbrz _ _ => true
  | .cwait _ _ => true
  | .shortCommandPacket b => decide (b.length < 16)
  | .identify _ => true
  | .getStatus _ => true
  | .sessionOpen _ => true
  | .sessionClose _ => true
  | .attest _ => true
  | .streamCreate _ => true
  | .streamOpen _ => true
  | .streamClose _ => true
  | .streamAppend _ => true
  | .streamRead _ => true
  | .streamSeal _ => true
  | .streamTrim _ => true
  | .streamInfo _ => true
  | .streamDelete _ => true
  | .bootStage _ => true
  | .bootCommit _ => true
  | .bootActivate _ => true
  | .ruleLoad _ => true
  | .ruleBind _ => true
  | .ruleUnload _ => true
  | .extLoad _ => true
  | .uopLoad _ => true
  | .userMicrocodeCommit => true
  | .faultRead _ => true
  | .faultClear _ => true
  | .faultInject _ => true
  | .powerState _ => true
  | .holdupTest _ => true
  | .provision _ => true
  | .keyRotate _ => true
  | .counterBump _ => true
  | .sanitize _ => true
  | .sanitizeOverwriteComplete => true
  | .debugUnlock _ => true
  | .debugChallengeExpiry => true
  | .restEntryDrained => true
  | .offEntryDrained => true
  | .wakeEvent cause => decide (1 ≤ cause.toNat) && decide (cause.toNat ≤ 4)
  | .idleEntry => true
  | .idleExit => true
  | .linkDetectTs1Start => true
  | .linkTs1Received => true
  | .linkConfigComplete _ _ => true
  | .linkRateChangeIdleEnd => true
  | .blockLockLost => true
  | .linkRecoveryComplete => true
  | .linkRecoveryTimeout => true
  | .linkRetrain _ => true
  | .linkCounterClear => true
  | .hostLinkDataPacket _ _ _ _ _ _ => true
  | .regwr _ _ _ _ => true
  | .cmd _ _ _ => true
  | .cmdAssemblyTimeout => true
  | .ack _ => true
  | .nak _ => true
  | .credit _ _ _ _ => true
  | .replayTimeout => true
  | .creditSendTimer => true
  | .sidebandWrite _ _ => true
  | .sidebandRead _ _ => true
  | .sidebandBusTimeout _ => true
  | .sidebandReplyDiscard => true
  | .read _ => true
  | .fastRead _ => true
  | .quadOutputFastRead _ => true
  | .quadIoFastRead _ => true
  | .readStatus _ => true
  | .readIdentification _ => true
  | .readSfdp _ => true
  | .enter4ByteAddressMode => true
  | .exit4ByteAddressMode => true
  | .ignoredFlashCommand => true
  | .unknownBootOpcode => true
  | .bootSealVerified => true
  | .bootWindowReady => true
  | .bootBlockVerify _ => true
  | .bootWindowClose => true
  | .bootWindowAutoClose => true
  | .bootKeepWrite _ => true
  | .jtagExtest _ => true
  | .jtagIdcode => true
  | .jtagBypass => true
  | .jtagSamplePreload _ _ => true
  | .jtagVendorInstruction ir _ => decide (2 < ir.toNat) && decide (ir.toNat ≠ 31)
  | .jtagTapReset => true
  | .faultLatch src _ _ => decide (src < 96)
  | .brokenWire src _ => decide (src < 96)
  | .brokenWireRecovered src => decide (src < 96)
  | .escalationTimerExpiry _ => true
  | .thermHaltTimerExpiry => true
  | .entropyHealthFail _ => true
  | .fltAckWrite _ => true
  | .faultLatchClear _ _ => true
  | .fltHselWrite _ => true
  | .fltForceWrite _ _ => true
  | .watchdogArm _ _ => true
  | .watchdogKick _ _ => true
  | .timeCapture => true
  | .counterSelect _ => true
  | .hostLinkMirrorCapture _ _ => true
  | .wakeCauseRead => true
  | .ruleBudgetWrite _ => true
  | .patchLock _ => true
  | .patchWordWrite _ => true
  | .cacheClean _ => true
  | .cacheInvalidate _ => true
  | .cacheCleanInvalidate _ => true
  | .cacheMaintenanceComplete => true
  | .cacheWayPowerDown _ _ => true
  | .cacheWaySweepComplete _ => true
  | .cacheWayPowerUp _ _ => true
  | .tlbInvalidateDomain _ _ => true
  | .tlbInvalidateAddress _ _ => true
  | .tlbInvalidateAll _ => true
  | .tlbInvalidateSegno _ => true
  | .tlbInvalidationComplete => true
  | .sealXtsEncrypt _ => true
  | .sealXtsDecrypt _ => true
  | .sealChainExtend _ => true
  | .sealVerify _ => true
  | .sealOperationComplete _ => true
  | .registerWrite _ _ _ _ => true
  | .interruptEntry _ _ => true
  | .machineCheck _ _ => true
  | .powerFailEntry _ => true
  | .deferredStoreError _ _ => true
  | .nointExpiry _ => true
  | .spillEngineSpill _ => true
  | .spillEngineRefill _ => true
  | .heapMrkWaitEnd _ => true
  | .iNop f => fetchWf f
  | .iDup f => fetchWf f
  | .iDrop f => fetchWf f
  | .iSwap f => fetchWf f
  | .iOver f => fetchWf f
  | .iRot f => fetchWf f
  | .iPick f => fetchWf f
  | .iDup2 f => fetchWf f
  | .iDrop2 f => fetchWf f
  | .iSwap2 f => fetchWf f
  | .iTagof f => fetchWf f
  | .iSettag f => fetchWf f
  | .iPushnil f => fetchWf f
  | .iSpill8 f => fetchWf f
  | .iPush8 f => fetchWf f
  | .iPush16 f => fetchWf f
  | .iPushr f => fetchWf f
  | .iPushc f => fetchWf f
  | .iPushref f => fetchWf f
  | .iPushcode f => fetchWf f
  | .iMkref f => fetchWf f
  | .iRefadd f => fetchWf f
  | .iRefpart f => fetchWf f
  | .iAnch f => fetchWf f
  | .iAld f => fetchWf f
  | .iLd f => fetchWf f
  | .iSt f => fetchWf f
  | .iLdp f => fetchWf f
  | .iStp f => fetchWf f
  | .iLdi f => fetchWf f
  | .iIst f => fetchWf f
  | .iLdm f => fetchWf f
  | .iStm f => fetchWf f
  | .iIn f => fetchWf f
  | .iOut f => fetchWf f
  | .iIns f => fetchWf f
  | .iOuts f => fetchWf f
  | .iAdd f => fetchWf f
  | .iSub f => fetchWf f
  | .iMul f => fetchWf f
  | .iNeg f => fetchWf f
  | .iDiv f => fetchWf f
  | .iMod f => fetchWf f
  | .iAddw f => fetchWf f
  | .iSubw f => fetchWf f
  | .iAdcw f => fetchWf f
  | .iSbcw f => fetchWf f
  | .iMulw f => fetchWf f
  | .iMuluw f => fetchWf f
  | .iNegw f => fetchWf f
  | .iDivw f => fetchWf f
  | .iDivuw f => fetchWf f
  | .iAnd f => fetchWf f
  | .iOr f => fetchWf f
  | .iXor f => fetchWf f
  | .iNot f => fetchWf f
  | .iShl f => fetchWf f
  | .iShr f => fetchWf f
  | .iSar f => fetchWf f
  | .iRol f => fetchWf f
  | .iRor f => fetchWf f
  | .iLadd f => fetchWf f
  | .iLsub f => fetchWf f
  | .iCeq f => fetchWf f
  | .iCne f => fetchWf f
  | .iClt f => fetchWf f
  | .iCle f => fetchWf f
  | .iCltu f => fetchWf f
  | .iCleu f => fetchWf f
  | .iCtag f => fetchWf f
  | .iCst f => fetchWf f
  | .iBr f => fetchWf f
  | .iCall _ f => fetchWf f
  | .iJmpi f => fetchWf f
  | .iCalli _ f => fetchWf f
  | .iRet f => fetchWf f
  | .iLoop _ f => fetchWf f
  | .iMovs f => fetchWf f
  | .iCmps f => fetchWf f
  | .iFill f => fetchWf f
  | .iScan f => fetchWf f
  | .iCrcs f => fetchWf f
  | .iCrcb f => fetchWf f
  | .iCrcw f => fetchWf f
  | .iPar f => fetchWf f
  | .iBrev f => fetchWf f
  | .iSwl f => fetchWf f
  | .iRetl f => fetchWf f
  | .iNoint f => fetchWf f
  | .iSetdom f => fetchWf f
  | .iRdc f => fetchWf f
  | .iWrc f => fetchWf f
  | .iPushst f => fetchWf f
  | .iPopst f => fetchWf f
  | .iSync f => fetchWf f
  | .iSynci f => fetchWf f
  | .iWaiti f => fetchWf f
  | .iCderive f => fetchWf f
  | .iCclr f => fetchWf f
  | .iCxfer f => fetchWf f
  | .iCstore f => fetchWf f
  | .iCload f => fetchWf f
  | .userInstruction opc f => decide (0xF0 ≤ opc.toNat) && fetchWf f
  | .streamDeletionComplete => true

end Sys2Proof
end

