-- ==== Sys2Proof/Decode.lean ====
section
/-! DEFINITION. The commands that words spell. No row of the opcode table gives bits: the block takes its commands by name. The spec gives
opcode bytes to the commands of the boot window only. -/
namespace Sys2Proof

/-- The command that a word of the opcode table spells: none, since the table gives no row any bits. See log 3 (DESIGN CHOICE, unsafe). -/
def decodeTableWord (_nbits _w : Nat) : Option Instr := none

/-- The opcodes that the boot window accepts and ignores (R231). -/
def ignoredOpcodes : List Byte := [0x06, 0x04, 0x02, 0x32, 0x20, 0x52, 0xD8, 0x60, 0xC7, 0x01]

/-- The command that an opcode byte of the boot window picks, with the address phase or the count of data bytes that follows it (R228,
R231). -/
def bootCommand (opc : Byte) (r : BootRead) (q : StatusRead) : Instr :=
  match opc.toNat with
  | 0x03 => .read r
  | 0x0B => .fastRead r
  | 0x6B => .quadOutputFastRead r
  | 0xEB => .quadIoFastRead r
  | 0x05 => .readStatus q
  | 0x9F => .readIdentification q.n
  | 0x5A => .readSfdp r
  | 0xB7 => .enter4ByteAddressMode
  | 0xE9 => .exit4ByteAddressMode
  | _ => if ignoredOpcodes.contains opc then .ignoredFlashCommand else .unknownBootOpcode

end Sys2Proof
end

