-- ==== Sys2Proof/Config.lean ====
section
/-! DEFINITION. What one device fixes and the spec leaves open: constants without a body, so that no proof can see a value.
The cryptographic functions stand here too: the spec names their standards and not their tables. -/
namespace Sys2Proof

/-- A value the spec leaves open, of `w` bits, by the index of the occasion. See log 10 (DESIGN CHOICE, safe). -/
opaque Config.freeBits : (w : Nat) → Nat → BitVec w

/-- A choice the spec leaves open, by the index of the occasion. See log 10 (DESIGN CHOICE, safe). -/
opaque Config.freeBool : Nat → Bool

/-- SHA-256 of a message (R203, R194). See log 11 (DESIGN CHOICE, safe). -/
opaque Config.sha256 : List Byte → Vector Byte 32

/-- HKDF-SHA-256 of input key, salt and info, to a length (R195). See log 11 (DESIGN CHOICE, safe). -/
opaque Config.hkdf : List Byte → List Byte → List Byte → (n : Nat) → Vector Byte n

/-- The AES-256-GCM key stream of a key and nonce (R196). See log 11 (DESIGN CHOICE, safe). -/
opaque Config.gcmStream : List Byte → List Byte → (n : Nat) → Vector Byte n

/-- The AES-256-GCM tag of key, nonce, additional data and ciphertext (R196). See log 11 (DESIGN CHOICE, safe). -/
opaque Config.gcmTag : List Byte → List Byte → List Byte → List Byte → Vector Byte 16

/-- Whether a P-256 signature of a message verifies under a public key (R186). See log 11 (DESIGN CHOICE, safe). -/
opaque Config.ecdsaVerify : List Byte → List Byte → List Byte → Bool

/-- The device identity key's P-256 signature of a message; its nonces are deterministic (R184, R186). See log 13 (DEDUCED, safe). -/
opaque Config.dikSign : List Byte → Vector Byte 64

/-- Whether 64 bytes are a point of P-256. See log 11 (DESIGN CHOICE, safe). -/
opaque Config.onCurve : List Byte → Bool

/-- The public point of a P-256 private key (R195). See log 11 (DESIGN CHOICE, safe). -/
opaque Config.ecdhPublic : List Byte → Vector Byte 64

/-- The P-256 shared secret of a private key and a point (R195). See log 11 (DESIGN CHOICE, safe). -/
opaque Config.ecdh : List Byte → List Byte → Vector Byte 32

/-- The DRBG's output by the index of the request (R187). See log 11 (DESIGN CHOICE, safe). -/
opaque Config.drbg : Nat → (n : Nat) → Vector Byte n

/-- AES-256-XTS of a key, tweak and data (R202). See log 11 (DESIGN CHOICE, safe). -/
opaque Config.xtsEnc : List Byte → List Byte → List Byte → List Byte

/-- The inverse of the XTS encryption (R202). See log 11 (DESIGN CHOICE, safe). -/
opaque Config.xtsDec : List Byte → List Byte → List Byte → List Byte

/-- The device's unique identity, DEVID (R184). -/
opaque Config.devId : Vector Byte 8

/-- The device's certificate chain, by page (R209). -/
opaque Config.cert : Nat → List Byte

/-- The public key that verifies DEBUG_UNLOCK level 2 (R213). -/
opaque Config.factoryKey : List Byte

/-- SHA-256 of the Hamada mask-ROM start-up code (R209). -/
opaque Config.hamadaHash : Vector Byte 32

/-- SHA-256 of the firmware image in use (R209). -/
opaque Config.fwHash : Vector Byte 32

/-- The version of the firmware in use (R263). -/
opaque Config.fwVersion : BitVec 32

/-- The bytes PATCHH measures, of the patch words written and the enabled match settings: the spec gives their order and not their layout
(R483). See log 28 (DESIGN CHOICE, safe). -/
opaque Config.patchBytes : List (Nat × BitVec 24) → List (Nat × BitVec 24) → List Byte

/-- The bytes of the Hamada mask ROM: the spec gives their place and not their content (R356). -/
opaque Config.romByte : Nat → BitVec 8

/-- Whether MULLO and MULHI of user microcode take their operands as signed: the spec does not say (R479). See log 38 (DESIGN CHOICE, safe). -/
opaque Config.mulHiSigned : Bool

end Sys2Proof
end

