-- ==== Sys2Proof/Machine/State.lean ====
section
/-! DEFINITION. The state of the device: every register, FIFO, buffer, counter, mode and pin the spec gives it, the queue of
commands that wait, the outcomes' reasons, and the state after reset. -/
namespace Sys2Proof.Machine
open Sys2Proof

/-- Why the machine stops with a fault. No command of this block faults. -/
inductive Fault where
  /-- Raised by no command; the type needs a member. Safe. -/
  | none_
  deriving DecidableEq, Repr, Inhabited

/-- Why the machine gives a command no meaning. -/
inductive Refusal where
  /-- Raised by the dispatcher for a row without a meaning. Safe: nothing is claimed of it. -/
  | notModelled (mnemonic : String)
  /-- Raised by a command whose operands spell no command of its row. Safe: the command cannot occur. -/
  | illFormed (mnemonic : String)
  deriving DecidableEq, Repr, Inhabited

/-- Ordering variants (R1). -/
inductive Variant where
  | ia | ib
  deriving DecidableEq, Repr, Inhabited

/-- Retention classes (R28). -/
inductive SClass where
  | pinned | ring | timed
  deriving DecidableEq, Repr, Inhabited

/-- Stream states other than ABSENT (R31). -/
inductive SState where
  | closed | opened | sealed | deleting
  deriving DecidableEq, Repr, Inhabited

/-- What a segment holds (R48, R70). -/
inductive SegKind where
  | owned | shared | early
  deriving DecidableEq, Repr, Inhabited

/-- Media states (R139). -/
inductive Media where
  | normal | sabkha | readonly
  deriving DecidableEq, Repr, Inhabited

/-- Train states that last (R68). -/
inductive TrainSt where
  | opened | committed
  deriving DecidableEq, Repr, Inhabited

/-- Status codes of a reply (R260). -/
inductive Status where
  | ok | okArray | badOpc | badParam | badLen | noStream | auth | replay | noCap | noCred | noCtx | quota | budget
  | sabkha | readOnly | breach | fault | halted
  deriving DecidableEq, Repr, Inhabited

/-- What else the completion of a job does, beside sending its replies. -/
inductive JobKind where
  /-- Nothing else. -/
  | plain
  /-- STREAM_APPEND or AAPP in ARRAY mode. -/
  | append
  /-- The evictions of an open train: its replies wait for their TRIM records (R53). -/
  | train
  /-- STREAM_SEAL waiting for the records up to a number: the stream, FINAL and the number (R59). -/
  | sealWait (sid : Nat) (final : Bool) (upto : Nat)
  /-- STREAM_DELETE: the stream (R60). -/
  | deleteJob (sid : Nat)
  /-- POWER_STATE DOZE, REST or OFF, by its STATE number (R283). -/
  | power (st : Nat)
  /-- HOLDUP_TEST by its mode (R102). -/
  | holdup (mode1 : Bool)
  /-- UOP_LOAD (R486). -/
  | uopLoad
  /-- RULE_UNLOAD (R170): the number it names, whether that is a bundle, and SHRINK. -/
  | ruleUnload (num : Nat) (bundle shrink : Bool)
  deriving DecidableEq, Repr, Inhabited

/-- Fault classes, in ascending order (R497). -/
inductive FClass where
  | ce | uc | fa
  deriving DecidableEq, Repr, Inhabited

/-- Session roles (R192). -/
inductive Role where
  | host | owner
  deriving DecidableEq, Repr, Inhabited

/-- Lifecycle states (R188, R208). -/
inductive Life where
  | unowned | owned | rollback
  deriving DecidableEq, Repr, Inhabited

/-- Link states (R295). -/
inductive LState where
  | detect | config | rate | active | recovery | lowpower | disabled | hotreset
  deriving DecidableEq, Repr, Inhabited

/-- Boot slot states (R219). -/
inductive BSt where
  | empty | staging | valid | bad
  deriving DecidableEq, Repr, Inhabited

/-- The occasion of a capacitor measurement (R79). -/
inductive MeasWhy where
  | first | periodic | temperature | command
  deriving DecidableEq, Repr, Inhabited

/-- Phases (R527). -/
inductive Phase where
  | startup | test | recovery | service | halt
  deriving DecidableEq, Repr, Inhabited

/-- Reset kinds (R524). -/
inductive Kind where
  | por | pin | link | soft | wdog | fatal
  deriving DecidableEq, Repr, Inhabited

/-- Power states (R533). -/
inductive PState where
  | run | idle | doze | rest | off
  deriving DecidableEq, Repr, Inhabited

/-- The stage of a power-loss sequence or of a sealed halt (R93, R508). -/
inductive PlStage where
  /-- No sequence runs. -/
  | none
  /-- Steps 1 to 4: closed, switched, writing the manifest. -/
  | manifest
  /-- Steps 5 and 6: flushing. -/
  | flush
  /-- Step 7 done: the completion marker is written. -/
  | marked
  /-- Step 8 done: the converter is off. -/
  | off
  deriving DecidableEq, Repr, Inhabited

/-- Where a D-space page lies physically (R448). -/
inductive Phys where
  /-- Word address in working SRAM. -/
  | sram (n : Nat)
  /-- Segment word address: SEGNO × 131,072 + word offset. -/
  | seg (n : Nat)
  /-- X-space port. -/
  | xalias (n : Nat)
  deriving DecidableEq, Repr, Inhabited

/-- A cached line address: the word address divided by 32, with its space (R436). -/
inductive LAddr where
  /-- Line of working SRAM. -/
  | sram (n : Nat)
  /-- Line of array-backed segments. -/
  | seg (n : Nat)
  deriving DecidableEq, Repr, Inhabited

/-- A command packet as delivered (R244). -/
structure Packet where
  /-- Channel. -/
  chan : Chan
  /-- OPC. -/
  opc : BitVec 16
  /-- FLG. -/
  flg : BitVec 8
  /-- QID. -/
  qid : BitVec 8
  /-- TAG. -/
  tag : BitVec 16
  /-- SES. -/
  ses : BitVec 16
  /-- PLEN. -/
  plen : BitVec 32
  /-- SEQ. -/
  seq : BitVec 32
  /-- The bytes after the header as delivered. -/
  body : List Byte
  deriving DecidableEq, Repr, Inhabited

/-- The empty packet. -/
def Packet.empty : Packet :=
  { chan := .host, opc := 0, flg := 0, qid := 0, tag := 0, ses := 0, plen := 0, seq := 0, body := [] }

/-- A reply (R249): its header fields, its result data in plaintext, and the session that protects it. -/
structure Reply where
  /-- The channel that delivered the command (R259). -/
  chan : Chan
  /-- The queue of the command, carried in XTAG. -/
  qid : BitVec 8
  /-- NOREPLY was set (R245). -/
  noreply : Bool
  /-- OPC. -/
  opc : BitVec 16
  /-- STS. -/
  sts : Status
  /-- TAG. -/
  tag : BitVec 16
  /-- SES. -/
  ses : BitVec 16
  /-- CRED, filled when the reply is formed (R86). -/
  cred : BitVec 32
  /-- RES. -/
  res : BitVec 32
  /-- Result data. -/
  data : List Byte
  /-- The SEQ of the command and the keys of its session, where the reply is protected (R196, R199, R248). -/
  prot : Option (BitVec 32 × List Byte)
  /-- The bytes on the wire, filled when the reply is formed. -/
  wire : List Byte
  /-- Its place in the order of forming (R310). -/
  ord : Nat
  deriving DecidableEq, Repr, Inhabited

/-- The empty reply. -/
def Reply.empty : Reply :=
  { chan := .host, qid := 0, noreply := false, opc := 0, sts := .ok, tag := 0, ses := 0, cred := 0, res := 0, data := [],
    prot := none, wire := [], ord := 0 }

/-- The default policy of each source: REPORT 0 or TIMED 1 (R497, R505). -/
def defaultPolicies : Vector (BitVec 2) 96 :=
  Vector.ofFn fun (i : Fin 96) =>
    let n := i.val
    if n = 0 ∨ n = 1 ∨ n = 6 ∨ n = 7 ∨ n = 19 ∨ (24 ≤ n ∧ n ≤ 43) then 1 else 0

/-- One entry of the 3,072-entry stream-context cache (R31, R32), least recently used first in the list. -/
structure CtxEntry where
  /-- stream of the entry (R31; 20 bits). -/
  sid : Nat
  /-- held by STREAM_OPEN until STREAM_CLOSE (R31; 1 bit). -/
  held : Bool
  deriving DecidableEq, Repr, Inhabited

/-- CtxEntry as it stands at reset. -/
def CtxEntry.reset : CtxEntry :=
  { sid := 0
    held := false }

/-- A stream's attributes as created (R30, R268). -/
structure Attr where
  /-- retention class (R30; 3 names). -/
  cls : SClass
  /-- SHARED placement (R30; 1 bit). -/
  shared : Bool
  /-- default acknowledge mode ARRAY (R30; 1 bit). -/
  defArray : Bool
  /-- EARLY attribute (R30; 1 bit). -/
  early : Bool
  /-- quota in segments, 0 unlimited (R30; 22 bits). -/
  quota : Nat
  /-- TIMED period in ticks (R30; 48 bits). -/
  period : Nat
  deriving DecidableEq, Repr, Inhabited

/-- Attr as it stands at reset. -/
def Attr.reset : Attr :=
  { cls := .pinned
    shared := false
    defArray := false
    early := false
    quota := 0
    period := 0 }

/-- Where a record stands: a segment and the byte offset in its image (R49). -/
structure Place where
  /-- logical segment (R49; 22 bits). -/
  segno : Nat
  /-- byte offset in the image (R49; 18 bits). -/
  off : Nat
  deriving DecidableEq, Repr, Inhabited

/-- Place as it stands at reset. -/
def Place.reset : Place :=
  { segno := 0
    off := 0 }

/-- One record of a stream (R34), with what the device keeps about it until it is durable. -/
structure Rec where
  /-- sequence number (R34; 48 bits). -/
  seq : Nat
  /-- record flags, SIDF[31:20] (R35; 12 bits). -/
  sidf : Nat
  /-- timestamp (R40; 64 bits). -/
  ts : Nat
  /-- payload (R34; 1 to 65,536 bytes). -/
  payload : List Byte
  /-- CRC-32C of bytes 0-19 and the payload (R36; 32 bits). -/
  crc : BitVec 32
  /-- full chain value after this record (R203; 32 bytes). -/
  chain : List Byte
  /-- KEYREF of the key that encrypts the record (R201; 32 bits). -/
  key : Nat
  /-- segment position once the Wadi sequencer has placed it (R49; optional). -/
  place : Option Place
  /-- codewords holding a part of it whose write-verify is still awaited (R46; codeword indices). -/
  cws : List Nat
  /-- write-verify complete for every codeword of the record (R46; 1 bit). -/
  written : Bool
  /-- admitted in ARRAY mode (R45; 1 bit). -/
  array : Bool
  /-- its reply was formed (R93; 1 bit). -/
  acked : Bool
  /-- its append was sent with NOREPLY (R245; 1 bit). -/
  nrep : Bool
  /-- member of a WITHDRAWN train (R69; 1 bit). -/
  withdrawn : Bool
  /-- the uncommitted or undrained Caravan train it belongs to (R63; optional). -/
  train : Option Nat
  /-- hold credits still charged for it (R19; credits). -/
  credits : Nat
  /-- tick at which it entered staging (R117; ticks). -/
  stagedAt : Nat
  /-- admitted command that completes when the record is written (R254; optional). -/
  job : Option Nat
  /-- appended by a rule bundle (R165; 1 bit). -/
  byRule : Bool
  /-- early-log record it was merged from, until it is written (R74; optional (half, index)). -/
  early : Option (Nat × Nat)
  deriving DecidableEq, Repr, Inhabited

/-- Rec as it stands at reset. -/
def Rec.reset : Rec :=
  { seq := 0
    sidf := 0
    ts := 0
    payload := []
    crc := 0
    chain := []
    key := 0
    place := none
    cws := []
    written := false
    array := false
    acked := false
    nrep := false
    withdrawn := false
    train := none
    credits := 0
    stagedAt := 0
    job := none
    byRule := false
    early := none }

/-- One stream: its state, attributes, numbering, chain, keys, segments and records (R27 to R60). -/
structure Stream where
  /-- state (R31; 4 names; ABSENT is no entry). -/
  st : SState
  /-- attributes (R30; structure). -/
  attr : Attr
  /-- generation (R29; 32 bits). -/
  gen : Nat
  /-- acknowledge mode of the last STREAM_OPEN is ARRAY (R33; 1 bit). -/
  openArray : Bool
  /-- first retained sequence number (R58; 48 bits). -/
  first : Nat
  /-- next sequence number (R37; 48 bits). -/
  next : Nat
  /-- chain value after the last record (R203; 32 bytes). -/
  chain : List Byte
  /-- live keys, newest first (R201; up to 4 KEYREFs). -/
  keys : List Nat
  /-- segments that hold its records, oldest first (R52; SEGNOs). -/
  segs : List Nat
  /-- its open owned segment (R48; optional SEGNO). -/
  openSeg : Option Nat
  /-- records in sequence order (R21; records). -/
  recs : List Rec
  /-- lost sequence ranges (R98; ranges). -/
  lost : List (Nat × Nat)
  /-- execution that holds the stream, by its sequencer (R172; optional die). -/
  heldBy : Option Nat
  /-- chain value after the last record on the array (R98; 32 bytes). -/
  chainW : List Byte
  deriving DecidableEq, Repr, Inhabited

/-- Stream as it stands at reset. -/
def Stream.reset : Stream :=
  { st := .closed
    attr := Attr.reset
    gen := 1
    openArray := false
    first := 1
    next := 1
    chain := []
    keys := []
    segs := []
    openSeg := none
    recs := []
    lost := []
    heldBy := none
    chainW := [] }

/-- One stream's entry in a seal trailer (R50). -/
structure SegEntry where
  /-- stream (R50; 20 bits). -/
  sid : Nat
  /-- SEGNO of the segment holding its previous record (R50; 32 bits). -/
  prev : Nat
  /-- first sequence number in the segment (R50; 48 bits). -/
  first : Nat
  /-- last sequence number in the segment (R50; 48 bits). -/
  last : Nat
  /-- records in the segment (R50; 32 bits). -/
  count : Nat
  /-- chain value after LAST (R50; 32 bytes). -/
  chain : List Byte
  deriving DecidableEq, Repr, Inhabited

/-- SegEntry as it stands at reset. -/
def SegEntry.reset : SegEntry :=
  { sid := 0
    prev := 0xFFFFFFFF
    first := 0
    last := 0
    count := 0
    chain := [] }

/-- The seal trailer of a sealed segment (R50), without the parts computed from the records. -/
structure SealInfo where
  /-- seal cause (R50; 16 bits). -/
  cause : Nat
  /-- byte offset of the trailer (R50; 18 bits). -/
  used : Nat
  /-- records in the segment (R50; 32 bits). -/
  nrec : Nat
  /-- SEAL_TS (R50; 64 bits). -/
  sealTs : Nat
  /-- seal-counter value of the first seal (R204; 64 bits). -/
  sctr : Nat
  /-- seal-counter value of the latest compaction re-seal (R134; 64 bits). -/
  csctr : Nat
  /-- device time of the latest compaction (R134; 64 bits). -/
  cts : Nat
  /-- LOST offset, 0 if none (R98; 18 bits). -/
  lostOff : Nat
  /-- one entry per stream, ascending SID (R50; 64 bytes each). -/
  entries : List SegEntry
  deriving DecidableEq, Repr, Inhabited

/-- SealInfo as it stands at reset. -/
def SealInfo.reset : SealInfo :=
  { cause := 0
    used := 0
    nrec := 0
    sealTs := 0
    sctr := 0
    csctr := 0
    cts := 0
    lostOff := 0
    entries := [] }

/-- One logical segment that is open or sealed (R48 to R51). -/
structure SegSt where
  /-- owned, shared or early log (R49; 3 names). -/
  kind : SegKind
  /-- owning stream of an owned segment (R49; 32 bits). -/
  owner : Nat
  /-- retention class of a shared segment (R48; 3 names). -/
  cls : SClass
  /-- fill position (R51; 18 bits). -/
  fill : Nat
  /-- OPEN_TS (R49; 64 bits). -/
  openTs : Nat
  /-- mount count at opening (R49; 32 bits). -/
  mount : Nat
  /-- KEYREF (R49; 32 bits). -/
  key : Nat
  /-- streams with records in the segment (R49; stream IDs). -/
  sids : List Nat
  /-- running trailer entries (R50; entries). -/
  entries : List SegEntry
  /-- its seal, none while open (R50; optional). -/
  sealed : Option SealInfo
  /-- deleted streams whose records are still in the segment (R202; stream IDs). -/
  dead : List Nat
  /-- codewords found uncorrectable (R123; codeword indices). -/
  uncorr : List Nat
  /-- codewords whose home position is written (R117; codeword indices). -/
  home : List Nat
  /-- its reclaim has begun: its TRIM records are formed (R54; 1 bit). -/
  expiring : Bool
  /-- data units whose key has been destroyed, as they stand at rest (R60; (offset, ciphertext)). -/
  ghost : List (Nat × List Byte)
  deriving DecidableEq, Repr, Inhabited

/-- SegSt as it stands at reset. -/
def SegSt.reset : SegSt :=
  { kind := .owned
    owner := 0xFFFFFFFF
    cls := .pinned
    fill := 64
    openTs := 0
    mount := 0
    key := 0
    sids := []
    entries := []
    sealed := none
    dead := []
    uncorr := []
    home := []
    expiring := false
    ghost := [] }

/-- One live entry of a die's tail ring (R117, R118). -/
structure TailEntry where
  /-- segment of the codeword (R117; 22 bits). -/
  segno : Nat
  /-- codeword (R117; 6 bits). -/
  cw : Nat
  /-- ring position (R118; 15 bits). -/
  pos : Nat
  deriving DecidableEq, Repr, Inhabited

/-- TailEntry as it stands at reset. -/
def TailEntry.reset : TailEntry :=
  { segno := 0
    cw := 0
    pos := 0 }

/-- A codeword write issued to a die and not yet verified (R116). -/
structure CwWrite where
  /-- die (R116; 3 bits). -/
  die : Nat
  /-- segment (R116; 22 bits). -/
  segno : Nat
  /-- GEN of the map entry the write was issued through (R127; 12 bits). -/
  gen : Nat
  /-- codeword (R116; 6 bits). -/
  cw : Nat
  /-- goes to the tail ring, not the home position (R117; 1 bit). -/
  tail : Bool
  /-- records with a part in the codeword that this write makes durable (R46; (SID, SEQ) pairs). -/
  covers : List (Nat × Nat)
  /-- command that waits for this write (a seal) (R59; optional). -/
  job : Option Nat
  deriving DecidableEq, Repr, Inhabited

/-- CwWrite as it stands at reset. -/
def CwWrite.reset : CwWrite :=
  { die := 0
    segno := 0
    gen := 0
    cw := 0
    tail := false
    covers := []
    job := none }

/-- A valid entry of the segment map or of the metadata map (R126). -/
structure MapEntry where
  /-- MIG: a move is in progress (R126; 1 bit). -/
  mig : Bool
  /-- KIND (R126; 2 bits). -/
  kind : Nat
  /-- GEN (R126; 12 bits). -/
  gen : Nat
  /-- physical slot, numbered (16 x die + bank) x 16,614 + slot (R126; die, bank and slot). -/
  slot : Nat
  deriving DecidableEq, Repr, Inhabited

/-- MapEntry as it stands at reset. -/
def MapEntry.reset : MapEntry :=
  { mig := false
    kind := 0
    gen := 0
    slot := 0 }

/-- What the device keeps about one slot (R116, R133, R136, R137); a slot not listed is good, free and never programmed. -/
structure SlotInfo where
  /-- programme count (R133; count). -/
  prog : Nat
  /-- marked failing (R116; 1 bit). -/
  failing : Bool
  /-- rows marked failing, each with a spare row of the bank in its place (R116; row numbers 0 to 15). -/
  badRows : List Nat
  /-- retired (R137; 1 bit). -/
  retired : Bool
  /-- mapped or the target of a move (R138; 1 bit). -/
  used : Bool
  /-- GEN the shell keeps for the slot (R127; 12 bits). -/
  gen : Nat
  /-- SEGNO the shell keeps for the slot (R127; optional SEGNO). -/
  seg : Option Nat
  /-- source slot kept until the boot window closes (R237; 1 bit). -/
  held : Bool
  /-- waiting to be overwritten after SANITIZE (R212; 1 bit). -/
  zeroing : Bool
  deriving DecidableEq, Repr, Inhabited

/-- SlotInfo as it stands at reset. -/
def SlotInfo.reset : SlotInfo :=
  { prog := 0
    failing := false
    badRows := []
    retired := false
    used := false
    gen := 0
    seg := none
    held := false
    zeroing := false }

/-- A segment move in one Barchan engine (R128). -/
structure MoveSt where
  /-- segment (R128; 22 bits). -/
  segno : Nat
  /-- slot A (R128; slot). -/
  src : Nat
  /-- slot B (R128; slot). -/
  dst : Nat
  /-- GEN at START (R128; 12 bits). -/
  gen : Nat
  /-- codewords written during the copy (R128; 64-bit mask). -/
  dirty : List Nat
  /-- recopy passes made (R128; count). -/
  passes : Nat
  /-- writes to the segment are held (R128; 1 bit). -/
  hold : Bool
  /-- SEALED journalled: the move is committed (R128; 1 bit). -/
  sealed : Bool
  /-- evacuation of a failing slot (R137; 1 bit). -/
  evac : Bool
  /-- the target is a reserved spare slot (R137; 1 bit). -/
  spare : Bool
  /-- commits a compaction image (R134; 1 bit). -/
  compact : Bool
  deriving DecidableEq, Repr, Inhabited

/-- MoveSt as it stands at reset. -/
def MoveSt.reset : MoveSt :=
  { segno := 0
    src := 0
    dst := 0
    gen := 0
    dirty := []
    passes := 0
    hold := false
    sealed := false
    evac := false
    spare := false
    compact := false }

/-- One array die and its shell ports (R144 to R151). -/
structure Die where
  /-- CAL: recalibration in progress (R145; 1 bit). -/
  cal : Bool
  /-- regions still to recalibrate in the full recalibration (R124; count). -/
  calLeft : Nat
  /-- PATROL: patrol in progress (R145; 1 bit). -/
  patrol : Bool
  /-- codewords the current patrol has read (R125; by segment number). -/
  patDone : List (Nat × BitVec 64)
  /-- regions that the mount found below SCRUBTHR, patrolled ahead of their turn (R125; 16 x 65 regions). -/
  prio : BitVec 1040
  /-- lowest MARGIN in the current patrol (R145; 6 bits). -/
  margMin : BitVec 6
  /-- lowest MARGIN of the last completed patrol (R143; 6 bits). -/
  lastPatrolMin : BitVec 6
  /-- ARY_CAL.AUTO (R146; 1 bit). -/
  auto : Bool
  /-- ARY_CAL.LASTREG (R146; 7 bits). -/
  lastReg : BitVec 7
  /-- ARY_SCRUB.PERIOD (R147; 8 bits). -/
  period : BitVec 8
  /-- ARY_THR.RECALTHR (R148; 6 bits). -/
  recalThr : BitVec 6
  /-- ARY_THR.SCRUBTHR (R148; 6 bits). -/
  scrubThr : BitVec 6
  /-- spare rows left by bank (R113; 16 counts). -/
  bankRows : Vector Nat 16
  /-- reserved spare slots left by bank (R113; 16 counts). -/
  bankSpare : Vector Nat 16
  /-- ARY_CECNT (R150; 16 bits). -/
  ceCnt : BitVec 16
  /-- ARY_UCCNT (R150; 16 bits). -/
  ucCnt : BitVec 16
  /-- ARY_HIST0 to ARY_HIST7 (R151; 8 x 16 bits). -/
  hist : Vector (BitVec 16) 8
  /-- junction temperature at the last full recalibration (R124; degrees C). -/
  calTemp : Int
  /-- live tail-ring entries, oldest first (R118; up to 32,768 entries). -/
  tailLive : List TailEntry
  /-- tail-ring write position (R117; 15 bits). -/
  tailPos : Nat
  /-- codewords queued for refresh (R122; (SEGNO, codeword)). -/
  refresh : List (Nat × Nat)
  /-- refreshes of each region in the current patrol (R128; (65 x bank + region, count)). -/
  regRef : List (Nat × Nat)
  /-- regions queued for recalibration (R121; (bank, region)). -/
  recal : List (Nat × Nat)
  /-- Wadi bank operations since a Barchan engine last took one beside queued Wadi work (R132; count). -/
  turn : Nat
  deriving DecidableEq, Repr, Inhabited

/-- Die as it stands at reset. -/
def Die.reset : Die :=
  { cal := false
    calLeft := 0
    patrol := false
    patDone := []
    prio := 0
    margMin := 0x3F
    lastPatrolMin := 0x3F
    auto := true
    lastReg := 0
    period := 0x07
    recalThr := 0x0C
    scrubThr := 0x14
    bankRows := Vector.replicate 16 512
    bankSpare := Vector.replicate 16 64
    ceCnt := 0
    ucCnt := 0
    hist := Vector.replicate 8 0
    calTemp := 25
    tailLive := []
    tailPos := 0
    refresh := []
    regRef := []
    recal := []
    turn := 0 }

/-- The array: maps, slots, moves, media state and the Barchan ports (R113 to R155). -/
structure ArraySt where
  /-- array dies D0 to D7 (R15; 8 dies). -/
  dies : Vector Die 8
  /-- open and sealed segments (R48; by SEGNO). -/
  segs : List (Nat × SegSt)
  /-- segment map and metadata map, valid entries only (R126; by SEGNO). -/
  map : List (Nat × MapEntry)
  /-- slots whose record differs from a fresh slot (R127; by slot number). -/
  slots : List (Nat × SlotInfo)
  /-- codeword writes in flight, oldest first (R116; list). -/
  writes : List CwWrite
  /-- move in progress in each Barchan engine (R128; 4 engines). -/
  moves : Vector (Option MoveSt) 4
  /-- media state (R139; 3 names). -/
  media : Media
  /-- failing slots waiting for evacuation (R137; slots). -/
  evacPending : List Nat
  /-- Sirocco level (R142; 0 to 2). -/
  sirocco : Nat
  /-- BCH_CTRL.PAUSE (R153; 1 bit). -/
  pause : Bool
  /-- BCH_CTRL.WLTHR (R153; 8 bits). -/
  wlThr : BitVec 8
  /-- retired slots (R136; count). -/
  retired : Nat
  /-- codewords needing a re-read since provisioning (R143; count). -/
  ceTotal : Nat
  /-- uncorrectable codewords since provisioning (R143; count). -/
  ucTotal : Nat
  /-- open shared segment of each retention class (R48; by class). -/
  openShared : List (SClass × Nat)
  /-- segments whose remembered bit is set (R460; heap SEGNOs). -/
  remembered : List Nat
  /-- cards that are set (R460; card table, by SEGNO x 1,024 + card). -/
  cards : List (Nat × Bool)
  /-- compaction sources waiting for a clean full scan (R135; heap SEGNOs). -/
  heapDone : List Nat
  /-- heap segment whose objects each Barchan engine moves (R154; 4 engines). -/
  heapEng : Vector (Option Nat) 4
  /-- segments of the metadata map that have been unmapped (R126; SEGNOs). -/
  metaGone : List Nat
  /-- codewords of heap and metadata segments found uncorrectable (R123; (SEGNO, codeword)). -/
  heapBad : List (Nat × Nat)
  deriving DecidableEq, Repr, Inhabited

/-- ArraySt as it stands at reset. -/
def ArraySt.reset : ArraySt :=
  { dies := Vector.replicate 8 Die.reset
    segs := []
    map := []
    slots := []
    writes := []
    moves := Vector.replicate 4 none
    media := .normal
    evacPending := []
    sirocco := 0
    pause := false
    wlThr := 0x40
    retired := 0
    ceTotal := 0
    ucTotal := 0
    openShared := []
    remembered := []
    cards := []
    heapDone := []
    heapEng := Vector.replicate 4 none
    metaGone := []
    heapBad := [] }

/-- A command packet waiting in a queue (R251). -/
structure QPkt where
  /-- the packet (R244; bytes). -/
  pkt : Packet
  /-- tick at which it was first refused a charge (R88; optional ticks). -/
  waitFrom : Option Nat
  /-- why the head cannot be admitted (CAUSE) (R326; 4 bits). -/
  cause : Nat
  /-- it has passed the checks of R247 (R256; 1 bit). -/
  passed : Bool
  /-- its parameters and payload in plaintext, once it has passed (R196; bytes). -/
  plain : List Byte
  /-- keys of the session it passed under (R199; 72 bytes or none). -/
  keys : List Byte
  /-- role of the session it passed under (R192; optional). -/
  role : Option Role
  /-- owner key held when it arrived (R193; 64 bytes or none). -/
  owner : List Byte
  /-- CH credits it holds (R304; link credits). -/
  ch : Nat
  /-- since when a train member waits for credit, a stream or a pending slot (R66; optional ticks). -/
  pausedAt : Option Nat
  /-- fewer than 16 bytes were delivered (R247; 1 bit). -/
  short : Bool
  /-- CD credits it holds (R304; link credits). -/
  cd : Nat
  deriving DecidableEq, Repr, Inhabited

/-- QPkt as it stands at reset. -/
def QPkt.reset : QPkt :=
  { pkt := Packet.empty
    waitFrom := none
    cause := 0
    passed := false
    plain := []
    keys := []
    role := none
    owner := []
    ch := 0
    pausedAt := none
    short := false
    cd := 0 }

/-- One admitted member of a Caravan train (R63). -/
structure TrainMember where
  /-- stream (R63; 20 bits). -/
  sid : Nat
  /-- sequence number (R63; 48 bits). -/
  seq : Nat
  /-- its reply, without status and result (R65; header). -/
  rep : Reply
  /-- its payload length (R61; bytes). -/
  len : Nat
  /-- timestamp (R40; 64 bits). -/
  ts : Nat
  /-- credits charged (R63; credits). -/
  credits : Nat
  /-- its mode is ARRAY (R65; 1 bit). -/
  array : Bool
  /-- pending slots it took (R176; binding numbers). -/
  bindings : List Nat
  deriving DecidableEq, Repr, Inhabited

/-- TrainMember as it stands at reset. -/
def TrainMember.reset : TrainMember :=
  { sid := 0
    seq := 0
    rep := Reply.empty
    len := 0
    ts := 0
    credits := 0
    array := false
    bindings := [] }

/-- A Caravan train (R61 to R69). -/
structure Train where
  /-- the model's name of the train (R62; number). -/
  tid : Nat
  /-- its queue (R61; 6 bits). -/
  qid : Nat
  /-- OPEN or COMMITTED (a drained, aborted or withdrawn train is dropped) (R68; names). -/
  st : TrainSt
  /-- admitted members in order (R61; up to 64). -/
  members : List TrainMember
  /-- payload total (R61; bytes). -/
  total : Nat
  /-- device time of the first admission (R67; ticks). -/
  firstAt : Nat
  /-- tick of the latest admission (R66; ticks). -/
  lastAt : Nat
  /-- numbering and chain before the train's first member in each stream (R66; (SID, next, chain)). -/
  back : List (Nat × Nat × List Byte)
  /-- descriptor credits charged (R64; credits). -/
  descr : Nat
  /-- evictions for its members whose TRIM records its replies wait for (R53; optional job). -/
  trimJob : Option Nat
  /-- CONTRACT payloads of ended executions, written if the train becomes WITHDRAWN (R176; list). -/
  ran : List (List Byte)
  deriving DecidableEq, Repr, Inhabited

/-- Train as it stands at reset. -/
def Train.reset : Train :=
  { tid := 0
    qid := 0
    st := .opened
    members := []
    total := 0
    firstAt := 0
    lastAt := 0
    back := []
    descr := 0
    trimJob := none
    ran := [] }

/-- The answering of late members after an abort in one queue (R66). -/
structure AbortAns where
  /-- abort cause (R66; 16 bits). -/
  cause : Nat
  /-- status of the answers (R66; status). -/
  sts : Status
  /-- index of the packet that caused the abort (R66; 8 bits). -/
  index : Nat
  /-- tick at which the answering ends without a further packet (R66; ticks). -/
  untilAt : Nat
  deriving DecidableEq, Repr, Inhabited

/-- AbortAns as it stands at reset. -/
def AbortAns.reset : AbortAns :=
  { cause := 0
    sts := .ok
    index := 0
    untilAt := 0 }

/-- An admitted command that has not completed (R251, R254). -/
structure Job where
  /-- the model's name of the job (R254; number). -/
  id : Nat
  /-- writes it still waits for (R254; count). -/
  waits : Nat
  /-- replies to send when it completes (R254; replies). -/
  replies : List Reply
  /-- it is a barrier (R255; 1 bit). -/
  barrier : Bool
  /-- what else its completion does (R254; names). -/
  kind : JobKind
  deriving DecidableEq, Repr, Inhabited

/-- Job as it stands at reset. -/
def Job.reset : Job :=
  { id := 0
    waits := 0
    replies := []
    barrier := false
    kind := .plain }

/-- A partly received extension program file (R279). -/
structure ExtPartial where
  /-- TOTAL of its chunks (R279; 32 bits). -/
  total : Nat
  /-- bytes received (R279; bytes). -/
  bytes : List Byte
  deriving DecidableEq, Repr, Inhabited

/-- ExtPartial as it stands at reset. -/
def ExtPartial.reset : ExtPartial :=
  { total := 0
    bytes := [] }

/-- The command engine: queues, trains, jobs and the context cache (R244 to R259). -/
structure Engine where
  /-- packets arrived and not admitted, head first (R251; 64 lists). -/
  queues : Vector (List QPkt) 64
  /-- queue last served in the urgent class (R252; 6 bits). -/
  rrUrg : Nat
  /-- queue last served in the normal class (R252; 6 bits). -/
  rrNorm : Nat
  /-- queue whose barrier holds admission in every queue (R255; optional queue). -/
  barQ : Option Nat
  /-- open and committed trains (R62; list). -/
  trains : List Train
  /-- queues that answer the late members of an aborted train (R66; by queue). -/
  aborts : List (Nat × AbortAns)
  /-- admitted commands not completed (R254; list). -/
  jobs : List Job
  /-- next name of a job or train (R254; number). -/
  nextId : Nat
  /-- context cache, least recently used first (R31; up to 3,072). -/
  ctx : List CtxEntry
  /-- credits returned since the previous reply formed for the host link (R86; 32 bits). -/
  credRet : Nat
  /-- partial extension file received (R279; optional). -/
  extFile : Option ExtPartial
  deriving DecidableEq, Repr, Inhabited

/-- Engine as it stands at reset. -/
def Engine.reset : Engine :=
  { queues := Vector.replicate 64 []
    rrUrg := 63
    rrNorm := 63
    barQ := none
    trains := []
    aborts := []
    jobs := []
    nextId := 0
    ctx := []
    credRet := 0
    extFile := none }

/-- A record in an early-log half (R71). -/
structure EarlyRec where
  /-- stream (R71; 20 bits). -/
  sid : Nat
  /-- generation of the stream at acceptance (R74; 32 bits). -/
  gen : Nat
  /-- flags, EARLY included (R71; 12 bits). -/
  sidf : Nat
  /-- timestamp (R72; 64 bits). -/
  ts : Nat
  /-- payload (R72; bytes). -/
  payload : List Byte
  /-- early-log segment that holds it (R49; 21 bits). -/
  segno : Nat
  /-- its byte offset in the segment's image (R49; 18 bits). -/
  off : Nat
  /-- number it was given by a merge that is not yet written (R74; optional 48 bits). -/
  merging : Option Nat
  /-- 1-based index in the half (R71; 48 bits). -/
  index : Nat
  /-- chain of the half after the record (R203; 32 bytes). -/
  chain : List Byte
  /-- write-verify complete (R46; 1 bit). -/
  written : Bool
  /-- hold credits still charged for it (R19; credits). -/
  credits : Nat
  /-- its reply was formed (R100; 1 bit). -/
  acked : Bool
  /-- append that completes when it is written (R254; optional). -/
  job : Option Nat
  deriving DecidableEq, Repr, Inhabited

/-- EarlyRec as it stands at reset. -/
def EarlyRec.reset : EarlyRec :=
  { sid := 0
    gen := 0
    sidf := 0
    ts := 0
    payload := []
    segno := 0
    off := 0
    merging := none
    index := 0
    chain := []
    written := false
    credits := 0
    acked := false
    job := none }

/-- One half of the early log (R70 to R74). -/
structure Half where
  /-- unmerged records in index order (R72; records). -/
  recs : List EarlyRec
  /-- records accepted by the start that fills it (R71; 48 bits). -/
  count : Nat
  /-- stored bytes (R71; bytes). -/
  used : Nat
  /-- chain of the half (R203; 32 bytes). -/
  chain : List Byte
  /-- the half is held (R74; 1 bit). -/
  held : Bool
  /-- records merged, for the MERGE record (R43; 32 bits). -/
  merged : Nat
  /-- records dropped, for the MERGE record (R74; 32 bits). -/
  dropped : Nat
  /-- lost early-log records (R98; index ranges). -/
  lost : List (Nat × Nat)
  /-- segment number of its sealed last segment (R43; 32 bits). -/
  lastSeg : Nat
  /-- its early-log segments (R49; by SEGNO, oldest first). -/
  segs : List (Nat × SegSt)
  /-- highest index written in the half since a start chose it (R99; 48 bits). -/
  top : Nat
  /-- start that chose it, by number (R73; number). -/
  born : Nat
  /-- a RING record of a held half waits for its oldest segment to be written (R53; 1 bit). -/
  ringWait : Bool
  deriving DecidableEq, Repr, Inhabited

/-- Half as it stands at reset. -/
def Half.reset : Half :=
  { recs := []
    count := 0
    used := 0
    chain := []
    held := false
    merged := 0
    dropped := 0
    lost := []
    lastSeg := 0xFFFFFFFF
    segs := []
    top := 0
    born := 0
    ringWait := false }

/-- The streams, staging order and early log (R27 to R74). -/
structure StoreSt where
  /-- streams that are not ABSENT (R27; by SID, ascending). -/
  streams : List (Nat × Stream)
  /-- generation of the latest creation of each ID (R29; by SID). -/
  gens : List (Nat × Nat)
  /-- records in staging (R17; (SID, SEQ), staging order). -/
  staging : List (Nat × Nat)
  /-- the store is mounted (R321; 1 bit). -/
  mounted : Bool
  /-- early list (R70; (SID, SEALED mark), up to 256). -/
  earlyList : List (Nat × Bool)
  /-- early-log halves (R73; 2 halves). -/
  halves : Vector Half 2
  /-- half in use by this start (R73; optional). -/
  curHalf : Option Nat
  /-- half the previous start used (R73; 1 bit). -/
  lastHalf : Nat
  /-- mount count of this start (R205; 32 bits). -/
  mountCount : Nat
  /-- device records journalled and not yet written (R43; by SEQ of stream 0: payload). -/
  devJournal : List (Nat × List Byte)
  /-- highest number in each stream whose reply was formed (R93; (SID, SEQ)). -/
  snapReply : List (Nat × Nat)
  /-- device records journalled that wait for credit (R84) or for a free slot (R569) (R84; (job, payload)). -/
  waiting : List (Option Nat × List Byte)
  /-- starts made, to order the halves by age (R73; number). -/
  starts : Nat
  /-- half in which this start has accepted early appends (R99; optional half). -/
  earlyUsed : Option Nat
  deriving DecidableEq, Repr, Inhabited

/-- StoreSt as it stands at reset. -/
def StoreSt.reset : StoreSt :=
  { streams := []
    gens := []
    staging := []
    mounted := false
    earlyList := []
    halves := Vector.replicate 2 Half.reset
    curHalf := none
    lastHalf := 1
    mountCount := 0
    devJournal := []
    snapReply := []
    waiting := []
    starts := 0
    earlyUsed := none }

/-- A capacitor measurement in progress or requested (R78, R79). -/
structure Meas where
  /-- the 200 mA load is applied, or VHOLD is not yet back at 15.0 V (R79; 1 bit). -/
  running : Bool
  /-- the internal load draws 200 mA (R78; 1 bit). -/
  loadOn : Bool
  /-- tick at which the load turned on (R78; ticks). -/
  loadAt : Nat
  /-- an occasion whose measurement has not begun (R79; names). -/
  want : Option MeasWhy
  /-- tick of that occasion (R79; ticks). -/
  wantAt : Nat
  /-- HOLDUP_TEST that waits for it (R102; optional). -/
  job : Option Nat
  /-- HOLDUP_TEST MODE 1 in progress: W is held at 0 (R102; 1 bit). -/
  mode1 : Bool
  /-- MODE 1 discharge to V_floor in progress (R102; 1 bit). -/
  discharging : Bool
  /-- MODE 1: the discharge and its recharge are done (R102; 1 bit). -/
  discharged : Bool
  /-- tick at which recharging began (R102; ticks). -/
  rechStart : Option Nat
  /-- CHGT of the test (R102; ticks). -/
  chgt : Nat
  deriving DecidableEq, Repr, Inhabited

/-- Meas as it stands at reset. -/
def Meas.reset : Meas :=
  { running := false
    loadOn := false
    loadAt := 0
    want := none
    wantAt := 0
    job := none
    mode1 := false
    discharging := false
    discharged := false
    rechStart := none
    chgt := 0 }

/-- The Oasis energy manager (R75 to R112). -/
structure Oasis where
  /-- measured VHOLD (R107; mV). -/
  vhold : Nat
  /-- charger delivering (R76; 1 bit). -/
  charging : Bool
  /-- start of charging, for CHG_TIMEOUT (R77; ticks). -/
  chgStart : Option Nat
  /-- CHG_TIMEOUT raised for this charge (R77; 1 bit). -/
  chgTimedOut : Bool
  /-- VHOLD when charging began at this start (R80; mV). -/
  startV : Nat
  /-- tick at which VHOLD passed 2.0 V (R80; ticks). -/
  rise2 : Option Nat
  /-- C_est (R80; nF). -/
  cEst : Option Nat
  /-- C_last (R80; nF). -/
  cLast : Option Nat
  /-- ESR_last (R81; mOhm). -/
  esrLast : Option Nat
  /-- C_use (R109; nF). -/
  cUse : Nat
  /-- ESR of this start's last measurement (R110; mOhm). -/
  esr : Option Nat
  /-- CFAIL (R107; 1 bit). -/
  cfail : Bool
  /-- a measurement was made in this start (R79; 1 bit). -/
  measured : Bool
  /-- measurement (R78; structure). -/
  meas : Meas
  /-- junction temperature at the last measurement (R79; degrees C). -/
  measTemp : Int
  /-- tick of the next periodic measurement (R79; ticks). -/
  measNext : Nat
  /-- MEASSKIP (R107; 1 bit). -/
  measSkip : Bool
  /-- device time of the last measurement (R102; 64 bits). -/
  measTs : Nat
  /-- delivered energy of the last MODE 1 test of this start (R102; (EDEL in uJ, V_floor in mV)). -/
  ederate : Option (Nat × Nat)
  /-- bytes of R82 (R111; bytes). -/
  winBytes : Nat
  /-- hold window W (R104; credits). -/
  win : Nat
  /-- the window has been computed since the reset (R82; 1 bit). -/
  winKnown : Bool
  /-- W at the previous WINDOW message (R87; credits). -/
  winMsg : Nat
  /-- outstanding count O (R84; credits). -/
  outst : Nat
  /-- OVER (R107; 1 bit). -/
  overV : Bool
  /-- WARN (R107; 1 bit). -/
  warn : Bool
  /-- OAS_CHGCFG.WARNARRAY (R108; 1 bit). -/
  warnArray : Bool
  /-- OAS_CHGCFG.CHGEN (R108; 1 bit). -/
  chgEn : Bool
  /-- OAS_CHGCFG.PWR (R108; 2 bits). -/
  pwr : BitVec 2
  /-- OAS_CHGCFG.MPER (R108; 4 bits). -/
  mper : BitVec 4
  /-- OAS_RULE_BUDGET.BUDGET (R112; 14 bits). -/
  budget : Nat
  /-- HW_HOLDCRED.CWAIT (R103; 12 bits). -/
  cwait : Nat
  /-- junction temperature last sampled (R264; degrees C). -/
  temp : Int
  deriving DecidableEq, Repr, Inhabited

/-- Oasis as it stands at reset. -/
def Oasis.reset : Oasis :=
  { vhold := 0
    charging := true
    chgStart := some 0
    chgTimedOut := false
    startV := 0
    rise2 := none
    cEst := none
    cLast := none
    esrLast := none
    cUse := 0
    esr := none
    cfail := false
    measured := false
    meas := Meas.reset
    measTemp := 25
    measNext := 600000000
    measSkip := false
    measTs := 0
    ederate := none
    winBytes := 0
    win := 0
    winKnown := false
    winMsg := 0
    outst := 0
    overV := false
    warn := false
    warnArray := false
    chgEn := true
    pwr := 1
    mper := 6
    budget := 0
    cwait := 0
    temp := 25 }

/-- One fault-history entry (R281, R499). -/
structure HistEntry where
  /-- device time (R281; 64 bits). -/
  ets : Nat
  /-- source (R281; 7 bits). -/
  src : Nat
  /-- class (R281; 3 names). -/
  cls : FClass
  /-- detail (R281; 32 bits). -/
  det : BitVec 32
  deriving DecidableEq, Repr, Inhabited

/-- HistEntry as it stands at reset. -/
def HistEntry.reset : HistEntry :=
  { ets := 0
    src := 0
    cls := .ce
    det := 0 }

/-- A running escalation timer (R507). -/
structure Esc where
  /-- tick at which it runs out (R507; ticks). -/
  due : Nat
  /-- source whose latch started it (R507; 7 bits). -/
  src : Nat
  deriving DecidableEq, Repr, Inhabited

/-- Esc as it stands at reset. -/
def Esc.reset : Esc :=
  { due := 0
    src := 0 }

/-- The fault collector (R495 to R523). -/
structure Faults where
  /-- latches (R521; 96 bits). -/
  latch : BitVec 96
  /-- acknowledged sources (R504; 96 bits). -/
  ack : BitVec 96
  /-- sources whose fault state persists (R498; 96 bits). -/
  present : BitVec 96
  /-- detail of a persisting fault state (R498; by source). -/
  detail : List (Nat × BitVec 32)
  /-- sources masked for a broken wire (R496; 96 bits). -/
  masked : BitVec 96
  /-- force bits (R522; 96 bits). -/
  force : BitVec 96
  /-- policies (R523; 96 x 2 bits). -/
  pol : Vector (BitVec 2) 96
  /-- policy in force at each source's latch (R505; 96 x 2 bits). -/
  latchedPol : Vector (BitVec 2) 96
  /-- history, oldest first (R499; up to 32). -/
  hist : List HistEntry
  /-- FLT_FIRST (R500; optional). -/
  first : Option HistEntry
  /-- HOVF (R514; 1 bit). -/
  hovf : Bool
  /-- FLT_DUP (R520; 16 bits). -/
  dup : BitVec 16
  /-- ESC (R514; 1 bit). -/
  esc : Bool
  /-- ESCSRC (R514; 7 bits). -/
  escSrc : Nat
  /-- FLT_CFG.FTHR (R515; 2 bits). -/
  fthr : BitVec 2
  /-- FLT_CFG.ITHR (R515; 2 bits). -/
  ithr : BitVec 2
  /-- FLT_CFG.ICORE (R515; 4 bits). -/
  icore : BitVec 4
  /-- FLT_TMR.KFA (R516; 5 bits). -/
  kfa : BitVec 5
  /-- FLT_TMR.KUC (R516; 5 bits). -/
  kuc : BitVec 5
  /-- FLT_TMR.KCE (R516; 5 bits). -/
  kce : BitVec 5
  /-- CE escalation timer (R507; optional). -/
  tmrCe : Option Esc
  /-- UC escalation timer (R507; optional). -/
  tmrUc : Option Esc
  /-- FA escalation timer (R507; optional). -/
  tmrFa : Option Esc
  /-- THERM_HALT timer (R507; optional ticks). -/
  tmrTherm : Option Nat
  /-- FLT_HSEL.SEL (R518; 6 bits). -/
  hsel : BitVec 6
  /-- entry captured in FLT_HDATA0 to FLT_HDATA6 (R519; 7 x 16 bits). -/
  hdata : Option HistEntry
  /-- LEGACY_SAFE in force (R506; 1 bit). -/
  legacy : Bool
  deriving DecidableEq, Repr, Inhabited

/-- Faults as it stands at reset. -/
def Faults.reset : Faults :=
  { latch := 0
    ack := 0
    present := 0
    detail := []
    masked := 0
    force := 0
    pol := defaultPolicies
    latchedPol := defaultPolicies
    hist := []
    first := none
    hovf := false
    dup := 0
    esc := false
    escSrc := 0
    fthr := 1
    ithr := 0
    icore := 0
    kfa := 0
    kuc := 0x0A
    kce := 0x11
    tmrCe := none
    tmrUc := none
    tmrFa := none
    tmrTherm := none
    hsel := 0
    hdata := none
    legacy := false }

/-- An open session (R194 to R199). -/
structure Session where
  /-- SES (R194; 16 bits). -/
  ses : Nat
  /-- role (R192; 2 names). -/
  role : Role
  /-- host key slot (R194; 2 bits). -/
  kid : Nat
  /-- K_hd, K_dh, N_hd, N_dh (R195; 72 bytes). -/
  keys : List Byte
  /-- highest SEQ accepted (R198; 32 bits). -/
  hi : Nat
  /-- SEQs accepted in the window (R198; values from HI - 1,023 to HI). -/
  seen : List Nat
  deriving DecidableEq, Repr, Inhabited

/-- Session as it stands at reset. -/
def Session.reset : Session :=
  { ses := 0
    role := .host
    kid := 0
    keys := []
    hi := 0
    seen := [] }

/-- An entry of the wrapped-key table (R185). -/
structure KeyEntry where
  /-- KEYREF (R185; 32 bits). -/
  ref : Nat
  /-- stream it belongs to (R184; SID, none for class, early and metadata keys). -/
  owner : Option Nat
  /-- nonce of its AES-256-GCM wrapping (R185; 12 bytes). -/
  nonce : List Byte
  /-- the key wrapped under KWRAP, with its tag; zeros once it is destroyed (R185; 80 bytes). -/
  wrapped : List Byte
  deriving DecidableEq, Repr, Inhabited

/-- KeyEntry as it stands at reset. -/
def KeyEntry.reset : KeyEntry :=
  { ref := 0
    owner := none
    nonce := []
    wrapped := [] }

/-- An outstanding DEBUG_UNLOCK challenge (R213). -/
structure Chal where
  /-- level (R213; 2 bits). -/
  level : Nat
  /-- CHAL (R213; 32 bytes). -/
  bytes : List Byte
  /-- tick at which it expires (R213; ticks). -/
  due : Nat
  deriving DecidableEq, Repr, Inhabited

/-- Chal as it stands at reset. -/
def Chal.reset : Chal :=
  { level := 0
    bytes := []
    due := 0 }

/-- The Ventifact key store, sessions, counters and debug lock (R184 to R218). -/
structure Trust where
  /-- lifecycle (R188; 3 names). -/
  life : Life
  /-- policy word (R190; 32 bits). -/
  pol : BitVec 32
  /-- owner key (R184; 64 bytes). -/
  owner : Option (List Byte)
  /-- host key slots (R184; 4 x 64 bytes). -/
  hosts : Vector (Option (List Byte)) 4
  /-- KWRAP (R184; 32 bytes). -/
  kwrap : Option (List Byte)
  /-- wrapped keys (R185; key table). -/
  keys : List KeyEntry
  /-- next KEYREF (R185; 32 bits). -/
  nextKey : Nat
  /-- monotonic counters (R205; 32 x 64 bits). -/
  counters : Vector Nat 32
  /-- next seal-counter value to issue (R206; 64 bits). -/
  sealNext : Nat
  /-- end of the reserved block (R206; 64 bits). -/
  sealEnd : Nat
  /-- increments made to each counter, against the 2^32 limit (R205; counts). -/
  bumps : Vector Nat 32
  /-- DRBGOK (R215; 1 bit). -/
  drbgOk : Bool
  /-- ENTFAIL (R215; 1 bit). -/
  entFail : Bool
  /-- open sessions (R194; up to 16). -/
  sessions : List Session
  /-- debug level (R213; 0 to 2). -/
  debug : Nat
  /-- outstanding challenges (R213; at most one a level). -/
  chals : List Chal
  /-- the latest BREACH record is INEXACT (R105; 1 bit). -/
  brInexact : Bool
  /-- failed DEBUG_UNLOCK signatures since POR (R213; count). -/
  dbgFails : Nat
  /-- VTF_AUTHCNT (R218; 16 bits). -/
  authCnt : BitVec 16
  /-- VTF_CSEL.INDEX (R216; 5 bits). -/
  csel : BitVec 5
  /-- captured counter value (R217; 64 bits). -/
  cval : BitVec 64
  /-- bytes over which PATCHH is closed (R483; bytes measured). -/
  patchH : List Byte
  /-- files in UCODEH, in load order (R210; bytes measured). -/
  ucodeH : List Byte
  /-- files in EXTH, in load order (R210; bytes measured). -/
  extH : List Byte
  /-- start of a running SANITIZE overwrite (R212; optional ticks). -/
  sanitize : Option Nat
  /-- a POR came after debug level 2 was opened (R213; 1 bit). -/
  porSinceD2 : Bool
  /-- the device has been provisioned before (R40; 1 bit). -/
  everOwned : Bool
  deriving DecidableEq, Repr, Inhabited

/-- Trust as it stands at reset. -/
def Trust.reset : Trust :=
  { life := .unowned
    pol := 0
    owner := none
    hosts := Vector.replicate 4 none
    kwrap := none
    keys := []
    nextKey := 0
    counters := Vector.replicate 32 0
    sealNext := 0
    sealEnd := 0
    bumps := Vector.replicate 32 0
    drbgOk := false
    entFail := false
    sessions := []
    debug := 0
    chals := []
    brInexact := false
    dbgFails := 0
    authCnt := 0
    csel := 0
    cval := 0
    patchH := []
    ucodeH := []
    extH := []
    sanitize := none
    porSinceD2 := false
    everOwned := false }

/-- A data link packet of the device, held for replay until it is acknowledged (R301). -/
structure TxPkt where
  /-- LSEQ (R301; 16 bits). -/
  lseq : Nat
  /-- TYPE (R300; 8 bits). -/
  typ : BitVec 8
  /-- LFL (R299; 8 bits). -/
  lfl : BitVec 8
  /-- XTAG (R299; 16 bits). -/
  xtag : BitVec 16
  /-- payload (R299; bytes). -/
  payload : List Byte
  /-- CRC (R299; 32 bits). -/
  crc : BitVec 32
  /-- times it was sent as the oldest (R303; count). -/
  sent : Nat
  deriving DecidableEq, Repr, Inhabited

/-- TxPkt as it stands at reset. -/
def TxPkt.reset : TxPkt :=
  { lseq := 0
    typ := 0
    lfl := 0
    xtag := 0
    payload := []
    crc := 0
    sent := 1 }

/-- A command packet being assembled from CMD link packets (R309). -/
structure Assembly where
  /-- bytes received (R309; bytes). -/
  bytes : List Byte
  /-- CH credits held (R304; link credits). -/
  ch : Nat
  /-- CD credits held (R305; link credits). -/
  cd : Nat
  /-- tick at which a stalled assembly is delivered (R309; ticks). -/
  due : Nat
  deriving DecidableEq, Repr, Inhabited

/-- Assembly as it stands at reset. -/
def Assembly.reset : Assembly :=
  { bytes := []
    ch := 0
    cd := 0
    due := 0 }

/-- A message packet formed and waiting for MS credit (R311, R312). -/
structure Msg where
  /-- MTYPE (R311; 16 bits). -/
  typ : Nat
  /-- place in the order of forming (R310; number). -/
  ord : Nat
  /-- MERGED (R312; 1 bit). -/
  merged : Bool
  /-- device time when formed (R311; 64 bits). -/
  mts : Nat
  /-- BODY (R311; 16 bytes). -/
  body : List Byte
  deriving DecidableEq, Repr, Inhabited

/-- Msg as it stands at reset. -/
def Msg.reset : Msg :=
  { typ := 0
    ord := 0
    merged := false
    mts := 0
    body := [] }

/-- The Pradom host link and the host-window registers it holds (R289 to R326). -/
structure Link where
  /-- link state (R295; 8 names). -/
  ls : LState
  /-- trained width (R323; 3 bits). -/
  width : Nat
  /-- rate (R323; 2 bits). -/
  rate : BitVec 2
  /-- rate that RATE moves to (R296; 2 bits). -/
  target : BitVec 2
  /-- NARROW (R323; 1 bit). -/
  narrow : Bool
  /-- LANEOK (R323; 4 bits). -/
  laneOk : BitVec 4
  /-- RTCNT (R323; 8 bits). -/
  rtCnt : BitVec 8
  /-- RPCNT (R323; 8 bits). -/
  rpCnt : BitVec 8
  /-- HW_CTRL.RATECAP (R322; 2 bits). -/
  rateCap : BitVec 2
  /-- HW_CTRL.SBCLR (R322; 1 bit). -/
  sbClr : Bool
  /-- SOFTRST accepted, REGCPL not yet sent (R322; 1 bit). -/
  softReq : Bool
  /-- RETRAIN running (R322; 1 bit). -/
  retrain : Bool
  /-- RATES of the last training sequence the host sent (R294; 3 bits). -/
  peer : BitVec 3
  /-- the device sends TS1 (R295; 1 bit). -/
  ts1 : Bool
  /-- tick at which RECOVERY or RATE was entered, or the release of the internal reset (R298; ticks). -/
  recAt : Nat
  /-- E, the next LSEQ expected (R302; 16 bits). -/
  rxE : Nat
  /-- a NAK was sent and LSEQ = E is still awaited (R302; 1 bit). -/
  nakOut : Bool
  /-- next LSEQ to send (R301; 16 bits). -/
  txSeq : Nat
  /-- replay buffer, oldest first (R301; 64 KiB). -/
  replay : List TxPkt
  /-- tick of the last ACK or NAK advance (R303; ticks). -/
  advAt : Nat
  /-- last ACK or NAK link packet sent (R302; (is it a NAK, number)). -/
  lastAck : Option (Bool × Nat)
  /-- CDL, CHL and RGL of the last CREDIT link packet sent (R306; 3 x 16 bits). -/
  lastCred : Nat × Nat × Nat
  /-- REGCPL packets formed and held back by a full replay buffer (R310; (order, packet)). -/
  cpls : List (Nat × TxPkt)
  /-- next number of the order of forming (R310; number). -/
  ordNext : Nat
  /-- open command-packet assembly (R309; optional). -/
  asm : Option Assembly
  /-- CH credits held by packets (R304; count). -/
  chUsed : Nat
  /-- CD credits held by packets (R304; count). -/
  cdUsed : Nat
  /-- CH charged to date (R306; 16 bits). -/
  chCum : Nat
  /-- CD charged to date (R306; 16 bits). -/
  cdCum : Nat
  /-- RG charged to date (R306; 16 bits). -/
  rgCum : Nat
  /-- the host's first CREDIT has arrived (R306; 1 bit). -/
  credSeen : Bool
  /-- RDL (R306; 16 bits). -/
  rdLim : Nat
  /-- RHL (R306; 16 bits). -/
  rhLim : Nat
  /-- MSL (R306; 16 bits). -/
  msLim : Nat
  /-- RDL unlimited (R306; 1 bit). -/
  rdInf : Bool
  /-- RHL unlimited (R306; 1 bit). -/
  rhInf : Bool
  /-- MSL unlimited (R306; 1 bit). -/
  msInf : Bool
  /-- RD charged to date (R306; 16 bits). -/
  rdCum : Nat
  /-- RH charged to date (R306; 16 bits). -/
  rhCum : Nat
  /-- MS charged to date (R306; 16 bits). -/
  msCum : Nat
  /-- tick of the last CREDIT sent (R306; ticks). -/
  credAt : Nat
  /-- replies formed and not fully sent, oldest first (R310; list). -/
  replies : List Reply
  /-- bytes of the oldest reply already sent (R310; bytes). -/
  rplOff : Nat
  /-- messages waiting for MS credit (R312; at most one per type). -/
  msgs : List Msg
  /-- messages sent since ACTIVE (R311; 32 bits). -/
  mseq : Nat
  /-- HW_STAT.MSGP (R321; 4 bits). -/
  msgp : BitVec 4
  /-- HW_MSGCFG.HIRQEN (R325; 1 bit). -/
  hirqEn : Bool
  /-- HW_MSGCFG.FTHR (R325; 2 bits). -/
  fthr : BitVec 2
  /-- HW_MSGCFG.EN (R325; 4 bits). -/
  msgEn : BitVec 4
  /-- HW_BREACH.NEW (R105; 1 bit). -/
  brNew : Bool
  /-- HW_BREACH.INEXACT (R105; 1 bit). -/
  brInexact : Bool
  /-- HW_BREACH.BCNT (R105; 24 bits). -/
  brCnt : BitVec 24
  /-- the link goes DISABLED once the replay buffer is empty (R314; 1 bit). -/
  eiosAfter : Bool
  deriving DecidableEq, Repr, Inhabited

/-- Link as it stands at reset. -/
def Link.reset : Link :=
  { ls := .disabled
    width := 0
    rate := 0
    target := 0
    narrow := false
    laneOk := 0
    rtCnt := 0
    rpCnt := 0
    rateCap := 2
    sbClr := false
    softReq := false
    retrain := false
    peer := 0
    ts1 := false
    recAt := 0
    rxE := 0
    nakOut := false
    txSeq := 0
    replay := []
    advAt := 0
    lastAck := none
    lastCred := (0, 0, 0)
    cpls := []
    ordNext := 0
    asm := none
    chUsed := 0
    cdUsed := 0
    chCum := 0
    cdCum := 0
    rgCum := 0
    credSeen := false
    rdLim := 0
    rhLim := 0
    msLim := 0
    rdInf := false
    rhInf := false
    msInf := false
    rdCum := 0
    rhCum := 0
    msCum := 0
    credAt := 0
    replies := []
    rplOff := 0
    msgs := []
    mseq := 0
    msgp := 0
    hirqEn := false
    fthr := 1
    msgEn := 0xF
    brNew := false
    brInexact := false
    brCnt := 0
    eiosAfter := false }

/-- The management sideband (R315 to R317, R561, R562). -/
structure Side where
  /-- reply ready and not read through SCRC (R317; optional bytes). -/
  reply : Option (List Byte)
  /-- tick at which the reply became ready (R317; ticks). -/
  readyAt : Nat
  /-- a packet entered queue 0 and its reply has not been read or discarded (R317; 1 bit). -/
  busy : Bool
  /-- the next read returns SBSTAT 0x02 (R317; 1 bit). -/
  rejected : Bool
  /-- WASM (R561; 1 bit). -/
  wasm : Bool
  /-- MGT_REJ (R562; 16 bits). -/
  rejCnt : BitVec 16
  /-- bytes the last read transfer returned (R316; bytes). -/
  out : List Byte
  /-- whether the last transfer was acknowledged (R317; 1 bit). -/
  ack : Bool
  deriving DecidableEq, Repr, Inhabited

/-- Side as it stands at reset. -/
def Side.reset : Side :=
  { reply := none
    readyAt := 0
    busy := false
    rejected := false
    wasm := false
    rejCnt := 0
    out := []
    ack := true }

/-- One boot slot (R219). -/
structure BSlot where
  /-- state (R219; 4 names). -/
  st : BSt
  /-- image bytes (R222; 64 MiB, unlisted bytes read 0xFF). -/
  image : List Host.Cell
  /-- manifest of the slot seal (R220; 128 bytes). -/
  manifest : List Byte
  /-- Merkle tree nodes in the slot (R221; levels of 32-byte nodes, leaves first). -/
  nodes : List (List (List Byte))
  /-- DIK signature of the slot seal (R223; 64 bytes). -/
  dsig : List Byte
  deriving DecidableEq, Repr, Inhabited

/-- BSlot as it stands at reset. -/
def BSlot.reset : BSlot :=
  { st := .empty
    image := []
    manifest := []
    nodes := []
    dsig := [] }

/-- The boot window (R219 to R243). -/
structure Boot where
  /-- S0 and S1 (R219; 2 slots). -/
  slots : Vector BSlot 2
  /-- slot with the role ACTIVE (R219; 1 bit). -/
  active : Nat
  /-- TRIAL pending (R225; 1 bit). -/
  trialPend : Bool
  /-- FALLBACK (R236; 1 bit). -/
  fallback : Bool
  /-- slot served in this start (R240; optional). -/
  served : Option Nat
  /-- slot served in the last run (R227; optional). -/
  lastServed : Option Nat
  /-- manifest of the served image (R220; 128 bytes). -/
  manifest : List Byte
  /-- bytes of the served slot, kept for the window (R237; bytes). -/
  image : List Host.Cell
  /-- the window answers commands (R233; 1 bit). -/
  answering : Bool
  /-- seal of the served slot verified (R233; 1 bit). -/
  sealOk : Bool
  /-- READY (R240; 1 bit). -/
  ready : Bool
  /-- tick of ready (R238; ticks). -/
  readyAt : Nat
  /-- OPEN (R240; 1 bit). -/
  isOpen : Bool
  /-- FELLBACK (R240; 1 bit). -/
  fellBack : Bool
  /-- TRIAL (R240; 1 bit). -/
  trial : Bool
  /-- NOIMG (R240; 1 bit). -/
  noImg : Bool
  /-- EARLY (R240; 1 bit). -/
  early : Bool
  /-- BTW_EARLY (R243; 16 bits). -/
  earlyCnt : BitVec 16
  /-- blocks that failed this start (R236; block indices). -/
  failed : List Nat
  /-- first block that failed (R242; 1 + 14 bits). -/
  failBlk : Option Nat
  /-- DONE (R240; 1 bit). -/
  done : Bool
  /-- ADDR4 (R240; 1 bit). -/
  addr4 : Bool
  /-- tree nodes of the served slot, kept for the window (R234; levels of 32-byte nodes, leaves first). -/
  nodes : List (List (List Byte))
  /-- tree nodes and leaves verified in this start (R234; (level, index, 32 bytes)). -/
  tree : List (Nat × Nat × List Byte)
  /-- blocks verified (R234; block indices). -/
  verified : List Nat
  /-- block the verifier takes next in ascending order (R234; block index). -/
  nextBlk : Nat
  /-- block an early read moved the verifier to (R235; optional). -/
  jump : Option Nat
  /-- KEEP (R241; 1 bit). -/
  keep : Bool
  /-- window released for VIO_LOW (R91; 1 bit). -/
  vioReleased : Bool
  /-- bytes the last command drove; none when BTIO stayed high-impedance (R231; optional bytes). -/
  out : Option (List Byte)
  deriving DecidableEq, Repr, Inhabited

/-- Boot as it stands at reset. -/
def Boot.reset : Boot :=
  { slots := Vector.replicate 2 BSlot.reset
    active := 0
    trialPend := false
    fallback := false
    served := none
    lastServed := none
    manifest := []
    image := []
    answering := false
    sealOk := false
    ready := false
    readyAt := 0
    isOpen := true
    fellBack := false
    trial := false
    noImg := false
    early := false
    earlyCnt := 0
    failed := []
    failBlk := none
    done := false
    addr4 := false
    nodes := []
    tree := []
    verified := []
    nextBlk := 0
    jump := none
    keep := false
    vioReleased := false
    out := none }

/-- One sequencer instruction of a bundle, its four slot words (R159). -/
structure Insn where
  /-- array slot (R159; 32 bits). -/
  arr : BitVec 32
  /-- seal slot (R159; 32 bits). -/
  sea : BitVec 32
  /-- move slot (R159; 32 bits). -/
  mov : BitVec 32
  /-- control slot (R159; 32 bits). -/
  ctl : BitVec 32
  deriving DecidableEq, Repr, Inhabited

/-- Insn as it stands at reset. -/
def Insn.reset : Insn :=
  { arr := 0
    sea := 0
    mov := 0
    ctl := 0 }

/-- A loaded bundle (R163, R164). -/
structure Bundle where
  /-- its file (R163; bytes). -/
  file : List Byte
  /-- its instructions (R163; 1 to 4,096). -/
  insns : List Insn
  /-- STEPS (R163; 32 bits). -/
  steps : Nat
  /-- EU (R163; 32 bits). -/
  eu : Nat
  /-- ARRAY_BYTES (R163; 32 bits). -/
  arrayBytes : Nat
  /-- MAXREC (R163; 32 bits). -/
  maxRec : Nat
  /-- NHANDLE (R163; 2 bits). -/
  nhandle : Nat
  /-- HKIND (R163; 3 bits). -/
  hkind : Nat
  /-- RULE_ID (R163; 16 bytes). -/
  ruleId : List Byte
  /-- marked breached (R174; 1 bit). -/
  breached : Bool
  deriving DecidableEq, Repr, Inhabited

/-- Bundle as it stands at reset. -/
def Bundle.reset : Bundle :=
  { file := []
    insns := []
    steps := 0
    eu := 0
    arrayBytes := 0
    maxRec := 0
    nhandle := 0
    hkind := 0
    ruleId := []
    breached := false }

/-- A binding of a bundle (R165, R166). -/
structure Binding where
  /-- bundle number (R166; 1 to 32). -/
  bundle : Nat
  /-- H0 to H3 (R165; 4 streams). -/
  h : Vector (Option Nat) 4
  /-- FMASK (R165; 8 bits). -/
  fmask : BitVec 8
  /-- DEPTH (R168; 1 to 255). -/
  depth : Nat
  /-- RULE_UNLOAD that waits for its executions (R170; optional job). -/
  closing : Option Nat
  deriving DecidableEq, Repr, Inhabited

/-- Binding as it stands at reset. -/
def Binding.reset : Binding :=
  { bundle := 0
    h := Vector.replicate 4 none
    fmask := 0
    depth := 1
    closing := none }

/-- A pending execution (R168, R171). -/
structure Pend where
  /-- binding (R168; 1 to 64). -/
  binding : Nat
  /-- trigger stream (R171; 20 bits). -/
  sid : Nat
  /-- trigger sequence number (R171; 48 bits). -/
  seq : Nat
  /-- snapshots of H0 to H3 (R158; 4 x 48 bits). -/
  snaps : Vector Nat 4
  /-- uncommitted train of the trigger (R176; optional). -/
  train : Option Nat
  /-- die to which the trigger's write was issued (R171; optional die). -/
  issued : Option Nat
  deriving DecidableEq, Repr, Inhabited

/-- Pend as it stands at reset. -/
def Pend.reset : Pend :=
  { binding := 0
    sid := 0
    seq := 0
    snaps := Vector.replicate 4 0
    train := none
    issued := none }

/-- One sequencer buffer (R158). -/
structure WBuf where
  /-- payload (R158; up to 4,096 payload bytes). -/
  bytes : List Byte
  /-- record header written by MHDR and SREC (R160; 32 bytes). -/
  hdr : List Byte
  /-- handle of the header (R160; 2 bits). -/
  hdl : Nat
  /-- chain value SREC computed (R160; 32 bytes). -/
  chain : List Byte
  deriving DecidableEq, Repr, Inhabited

/-- WBuf as it stands at reset. -/
def WBuf.reset : WBuf :=
  { bytes := []
    hdr := []
    hdl := 0
    chain := [] }

/-- The buffers, index registers and cursors a step reads and writes (R156, R158). -/
structure WCtx where
  /-- BUF0 to BUF7 (R158; 8 x 4,224 bytes). -/
  buf : Vector WBuf 8
  /-- X0 to X7 (R158; 8 x 48 bits). -/
  x : Vector (BitVec 48) 8
  /-- read cursor: stored-byte offset within the handle's retained records (R158; 4 cursors). -/
  cur : Vector Nat 4
  /-- sequence number at which the cursor's record run begins (R158; 4 x 48 bits). -/
  curSeq : Vector Nat 4
  deriving DecidableEq, Repr, Inhabited

/-- WCtx as it stands at reset. -/
def WCtx.reset : WCtx :=
  { buf := Vector.replicate 8 WBuf.reset
    x := Vector.replicate 8 0
    cur := Vector.replicate 4 0
    curSeq := Vector.replicate 4 0 }

/-- A running execution on a sequencer (R156 to R174). -/
structure Run where
  /-- the execution (R171; structure). -/
  pend : Pend
  /-- state as it stood when the step began (R156; structure). -/
  base : WCtx
  /-- state with the step's effects (R156; structure). -/
  cur : WCtx
  /-- streams as they stood when the step began, where an AAPP of the step has appended to them (R156; (SID, next number, chain)). -/
  pre : List (Nat × Nat × List Byte)
  /-- instruction being executed (R159; instruction index). -/
  idx : Nat
  /-- running CLOOPs (R160; (first, last, left), innermost first). -/
  loops : List (Nat × Nat × Nat)
  /-- metered steps (R174; count). -/
  mSteps : Nat
  /-- metered energy (R174; mEU). -/
  mEu : Nat
  /-- metered record bytes appended (R174; bytes). -/
  mBytes : Nat
  /-- metered records appended (R174; count). -/
  mRecs : Nat
  /-- AAPPs whose write-verify is awaited (R160; (SID, SEQ)). -/
  aapps : List (Nat × Nat)
  /-- stream of the last AAPP (R175; optional SID). -/
  ostream : Option Nat
  /-- first sequence number appended (R175; 48 bits). -/
  ofirst : Nat
  /-- last sequence number appended (R175; 48 bits). -/
  olast : Nat
  /-- the array slot of the step has completed (R156; 1 bit). -/
  doneA : Bool
  /-- the seal slot of the step has completed (R156; 1 bit). -/
  doneS : Bool
  /-- the move slot of the step has completed (R156; 1 bit). -/
  doneM : Bool
  deriving DecidableEq, Repr, Inhabited

/-- Run as it stands at reset. -/
def Run.reset : Run :=
  { pend := Pend.reset
    base := WCtx.reset
    cur := WCtx.reset
    pre := []
    idx := 0
    loops := []
    mSteps := 0
    mEu := 0
    mBytes := 0
    mRecs := 0
    aapps := []
    ostream := none
    ofirst := 0
    olast := 0
    doneA := false
    doneS := false
    doneM := false }

/-- The rule side of the Wadi sequencers (R156 to R183). -/
structure Wadi where
  /-- loaded bundles (R164; up to 32, by number). -/
  bundles : List (Nat × Bundle)
  /-- bindings (R166; up to 64, by number). -/
  bindings : List (Nat × Binding)
  /-- pending executions not yet started, trigger order (R183; up to 16,320). -/
  pend : List Pend
  /-- running execution of each sequencer (R16; 8 sequencers). -/
  seqs : Vector (Option Run) 8
  /-- the sequencer's next step is drain work (R171; 8 bits). -/
  drainNext : Vector Bool 8
  /-- BUDREJ (R180; 1 bit). -/
  budRej : Bool
  /-- WDI_BRCNT (R182; 16 bits). -/
  brCnt : BitVec 16
  deriving DecidableEq, Repr, Inhabited

/-- Wadi as it stands at reset. -/
def Wadi.reset : Wadi :=
  { bundles := []
    bindings := []
    pend := []
    seqs := Vector.replicate 8 none
    drainNext := Vector.replicate 8 false
    budRej := false
    brCnt := 0 }

/-- A capability: four words W0 to W3, each tagged CAPW in memory (R364). -/
structure Cap where
  /-- KIND and RIGHTS (R364; 16 bits). -/
  w0 : BitVec 16
  /-- W1 (R364; 16 bits). -/
  w1 : BitVec 16
  /-- W2 (R364; 16 bits). -/
  w2 : BitVec 16
  /-- W3 (R364; 16 bits). -/
  w3 : BitVec 16
  deriving DecidableEq, Repr, Inhabited

/-- Cap as it stands at reset. -/
def Cap.reset : Cap :=
  { w0 := 0
    w1 := 0
    w2 := 0
    w3 := 0 }

/-- A write a user routine holds for END (R479). -/
structure HeldWrite where
  /-- an OUTP, else an STW (R479; 1 bit). -/
  port : Bool
  /-- port or D-space address (R479; 32 bits). -/
  addr : BitVec 32
  /-- word to write (R479; 20 bits). -/
  val : Word
  deriving DecidableEq, Repr, Inhabited

/-- HeldWrite as it stands at reset. -/
def HeldWrite.reset : HeldWrite :=
  { port := false
    addr := 0
    val := { tag := 0, data := 0 } }

/-- A user routine's state: what the micro-save keeps (R478, R480). -/
structure Micro where
  /-- micro-address within the user region (R480; 9 bits). -/
  pc : Nat
  /-- MT0 to MT3 (R478; 4 x 20 bits). -/
  mt : Vector Word 4
  /-- micro-flag Z (R478; 1 bit). -/
  fz : Bool
  /-- micro-flag N (R478; 1 bit). -/
  fn : Bool
  /-- micro-flag C (R478; 1 bit). -/
  fc : Bool
  /-- micro-flag V (R478; 1 bit). -/
  fv : Bool
  /-- micro-flag T (R478; 1 bit). -/
  ft : Bool
  /-- held write (R479; optional). -/
  held : Option HeldWrite
  /-- microwords run so far (R487; 0 to 1,024). -/
  count : Nat
  deriving DecidableEq, Repr, Inhabited

/-- Micro as it stands at reset. -/
def Micro.reset : Micro :=
  { pc := 0
    mt := Vector.replicate 4 { tag := 0, data := 0 }
    fz := false
    fn := false
    fc := false
    fv := false
    ft := false
    held := none
    count := 0 }

/-- The state that belongs to one level of a core (R360). -/
structure LevelSt where
  /-- operand bank (R361; 0 to 16 entries, top first). -/
  bank : List Word
  /-- predicates P0 to P7 (R367; 8 bits). -/
  preds : BitVec 8
  /-- CS0 to CS15 (R366; 16 slots). -/
  caps : Vector Cap 16
  /-- SRC (R369; 32 bits). -/
  src : BitVec 32
  /-- DST (R369; 32 bits). -/
  dst : BitVec 32
  /-- CNT (R369; 16 bits). -/
  cnt : BitVec 16
  /-- LSTART (R369; 32 bits). -/
  lstart : BitVec 32
  /-- LEND (R369; 32 bits). -/
  lend : BitVec 32
  /-- LCNT (R369; 16 bits). -/
  lcnt : BitVec 16
  /-- MSK (R369; 16 bits). -/
  msk : BitVec 16
  /-- LNK_RA (R414; 32 bits, a CODE pair). -/
  lnkRa : BitVec 32
  /-- LNK_ST (R414; 16 bits). -/
  lnkSt : BitVec 16
  /-- SSB (R379; 32 bits). -/
  ssb : BitVec 32
  /-- SSP (R379; 32 bits). -/
  ssp : BitVec 32
  /-- SSL (R379; 32 bits). -/
  ssl : BitVec 32
  /-- current domain (R357; 8 bits). -/
  dom : BitVec 8
  /-- CORE_XCAUSE (R430; 16 bits). -/
  xcause : BitVec 16
  /-- CORE_FADDR (R431; 32 bits). -/
  faddr : BitVec 32
  /-- CORE_FDET (R432; 16 bits). -/
  fdet : BitVec 16
  /-- NEST (R435; 1 bit). -/
  nest : Bool
  /-- interrupted string operation whose guard has been evaluated (R405; optional address). -/
  resume : Option (BitVec 32)
  /-- micro-save (R480; optional). -/
  micro : Option Micro
  /-- PFLOST (L7 only) (R435; 1 bit). -/
  pfLost : Bool
  deriving DecidableEq, Repr, Inhabited

/-- LevelSt as it stands at reset. -/
def LevelSt.reset : LevelSt :=
  { bank := []
    preds := 1
    caps := Vector.replicate 16 Cap.reset
    src := 0
    dst := 0
    cnt := 0
    lstart := 0
    lend := 0
    lcnt := 0
    msk := 0
    lnkRa := 0
    lnkSt := 0
    ssb := 0
    ssp := 0
    ssl := 0
    dom := 0
    xcause := 0
    faddr := 0
    fdet := 0
    nest := false
    resume := none
    micro := none
    pfLost := false }

/-- A branch that has executed and whose delay slot has not yet retired (R402). -/
structure DSlot where
  /-- address of the branch (R402; 32 bits). -/
  br : BitVec 32
  /-- the branch was taken (R403; 1 bit). -/
  taken : Bool
  /-- where execution goes after the slot (R402; 32 bits). -/
  target : BitVec 32
  /-- bank before the branch, restored if the slot excepts (R402; operand bank). -/
  saved : List Word
  /-- SSP before the branch, restored with the bank (R402; 32 bits). -/
  ssp : BitVec 32
  deriving DecidableEq, Repr, Inhabited

/-- DSlot as it stands at reset. -/
def DSlot.reset : DSlot :=
  { br := 0
    taken := true
    target := 0
    saved := []
    ssp := 0 }

/-- A pending write to a sync port (R424, R425). -/
structure SyncW where
  /-- port (R424; 16 bits). -/
  port : BitVec 16
  /-- value (R424; 16 bits). -/
  val : BitVec 16
  /-- current domain of the writing level (R443; 8 bits). -/
  dom : BitVec 8
  /-- retirements left in the drained phases; none outside them (R425; 0 to 3). -/
  left : Option Nat
  deriving DecidableEq, Repr, Inhabited

/-- SyncW as it stands at reset. -/
def SyncW.reset : SyncW :=
  { port := 0
    val := 0
    dom := 0
    left := none }

/-- One TLB entry (R452, R453). -/
structure TlbEntry where
  /-- domain (R453; 8 bits). -/
  dom : BitVec 8
  /-- first DA covered (R453; 32 bits). -/
  base : Nat
  /-- words covered (R453; words). -/
  size : Nat
  /-- where the first word goes (R452; names). -/
  phys : Phys
  /-- side-effect page (R448; 1 bit). -/
  se : Bool
  /-- stores permitted (R448; 1 bit). -/
  wr : Bool
  /-- GEN (R452; 12 bits). -/
  gen : Nat
  /-- slot (R452; slot). -/
  slot : Nat
  /-- the KIND is packed (R452; 1 bit). -/
  packed : Bool
  /-- remembered bit of the segment (R460; 1 bit). -/
  remembered : Bool
  /-- level of the leaf, for CORE_FDET of a WRITE fault (R456; 2 bits). -/
  lvl : Nat
  deriving DecidableEq, Repr, Inhabited

/-- TlbEntry as it stands at reset. -/
def TlbEntry.reset : TlbEntry :=
  { dom := 0
    base := 0
    size := 0
    phys := .sram 0
    se := false
    wr := false
    gen := 0
    slot := 0
    packed := false
    remembered := false
    lvl := 0 }

/-- One core's SEAL_ ports (R563 to R567). -/
structure SealRegs where
  /-- BUSY (R567; 1 bit). -/
  busy : Bool
  /-- OK (R567; 1 bit). -/
  ok : Bool
  /-- ERR (R567; 4 bits). -/
  err : BitVec 4
  /-- OP (R565; 3 bits). -/
  op : BitVec 3
  /-- SIDH, SIDL, SRCH, SRCL, DSTH, DSTL, LEN, TWK0 to TWK3 (R566; 11 x 16 bits). -/
  args : Vector (BitVec 16) 11
  /-- operation running (R563; 0 none, 1 to 4). -/
  runOp : Nat
  /-- operands read at GO (R563; 11 x 16 bits). -/
  runArgs : Vector (BitVec 16) 11
  /-- current domain of the writing level at GO (R564; 8 bits). -/
  runDom : BitVec 8
  deriving DecidableEq, Repr, Inhabited

/-- SealRegs as it stands at reset. -/
def SealRegs.reset : SealRegs :=
  { busy := false
    ok := false
    err := 0
    op := 0
    args := Vector.replicate 11 0
    runOp := 0
    runArgs := Vector.replicate 11 0
    runDom := 0 }

/-- The capabilities the Hamada start-up code puts into the slots of L7 (R366). -/
def rootCaps : Vector Cap 16 :=
  #v[{ w0 := 0x1300, w1 := 0x0000, w2 := 0x43FF, w3 := 0 },
     { w0 := 0x2100, w1 := 0x0010, w2 := 0x0000, w3 := 0xEFFF },
     { w0 := 0x2100, w1 := 0x0100, w2 := 0x0000, w3 := 0xFFFF },
     { w0 := 0x3100, w1 := 0x00FF, w2 := 0, w3 := 0 },
     { w0 := 0x4F00, w1 := 0, w2 := 0, w3 := 20 },
     { w0 := 0x5700, w1 := 0, w2 := 0, w3 := 20 },
     { w0 := 0x6300, w1 := 0, w2 := 255, w3 := 0 },
     Cap.reset, Cap.reset, Cap.reset, Cap.reset, Cap.reset, Cap.reset, Cap.reset, Cap.reset, Cap.reset]

/-- The levels of a core after the start-up code: empty, with the root capabilities at L7 (R366). -/
def coreLevelsReset : Vector LevelSt 8 :=
  #v[LevelSt.reset, LevelSt.reset, LevelSt.reset, LevelSt.reset, LevelSt.reset, LevelSt.reset, LevelSt.reset,
     { LevelSt.reset with caps := rootCaps }]


/-- One Doltor core (R359 to R379, R411 to R435). -/
structure Core where
  /-- levels L0 to L7 (R359; 8 levels). -/
  lv : Vector LevelSt 8
  /-- ST (R368; 16 bits). -/
  st : BitVec 16
  /-- instruction address (R528; 32 bits). -/
  ia : BitVec 32
  /-- branch whose delay slot is next (R402; optional). -/
  slot : Option DSlot
  /-- beats left of a NOINT count (R421; 0 to 192 beats). -/
  ni : Nat
  /-- the core waits in WAITI (R407; 1 bit). -/
  waiti : Bool
  /-- the core is stopped (R418; 1 bit). -/
  stopped : Bool
  /-- the core has been started (R528; 1 bit). -/
  running : Bool
  /-- halted by a vendor JTAG instruction (R213; 1 bit). -/
  halted : Bool
  /-- a vendor JTAG instruction lets one instruction pass (R213; 1 bit). -/
  stepOne : Bool
  /-- VBASE (R429; 32 bits). -/
  vbase : BitVec 32
  /-- CORE_IEN.EN in bits 6 to 1 (R433; 6 bits). -/
  ien : BitVec 8
  /-- interrupt requests asserted at L1 to L6 (bits 6 to 1), fault collector apart (R434; 6 bits). -/
  ireq : BitVec 8
  /-- PF (R434; 1 bit). -/
  pfPend : Bool
  /-- DET of the pending machine check (R432; 8 bits). -/
  mcDet : BitVec 8
  /-- MC (R434; 1 bit). -/
  mcPend : Bool
  /-- Deferred Store Errors pending (R423; addresses). -/
  dsePend : List (BitVec 32)
  /-- a power-fail handler is running (R418; 1 bit). -/
  pfRun : Bool
  /-- UFE (R378; 1 bit). -/
  ufe : Bool
  /-- writes to sync ports that have not taken effect, oldest first (R424; list). -/
  sync : List SyncW
  /-- TLB (R453; up to 64). -/
  tlb : List TlbEntry
  /-- stores retired into the store buffer and not yet in the cache, oldest first (R422; (SWA, D-space address, word)). -/
  sbuf : List (Nat × Nat × Word)
  /-- its SEAL_ ports (R563; structure). -/
  sealR : SealRegs
  /-- last host-window capture (R560; 32 bits). -/
  mirror : BitVec 32
  /-- IST writes of the device not yet made visible to this core's fetch (R426; bytes by I-space address). -/
  ist : List Host.Cell
  /-- header tagged MRK the core waits on (R459; optional address). -/
  mrkWait : Option (BitVec 32)
  deriving DecidableEq, Repr, Inhabited

/-- Core as it stands at reset. -/
def Core.reset : Core :=
  { lv := coreLevelsReset
    st := 0xE000
    ia := 0
    slot := none
    ni := 0
    waiti := false
    stopped := false
    running := false
    halted := false
    stepOne := false
    vbase := 0x0003E000
    ien := 0
    ireq := 0
    pfPend := false
    mcDet := 0
    mcPend := false
    dsePend := []
    pfRun := false
    ufe := false
    sync := []
    tlb := []
    sbuf := []
    sealR := SealRegs.reset
    mirror := 0
    ist := []
    mrkWait := none }

/-- A domain descriptor (R447, R469 to R472). -/
structure Desc where
  /-- V (R471; 1 bit). -/
  v : Bool
  /-- START (R471; 2 bits). -/
  start : BitVec 2
  /-- root table (R470; 23 bits, [7:0] zero). -/
  root : BitVec 23
  /-- HWN (R471; 4 bits). -/
  hwn : BitVec 4
  /-- HWSEG (R472; 22 bits). -/
  hwseg : BitVec 22
  /-- HWBASE (R472; 32 bits, [16:0] zero). -/
  hwbase : BitVec 32
  deriving DecidableEq, Repr, Inhabited

/-- Desc as it stands at reset. -/
def Desc.reset : Desc :=
  { v := false
    start := 0
    root := 0
    hwn := 0
    hwseg := 0
    hwbase := 0 }

/-- The translation ports and descriptors (R447, R468 to R475). -/
structure Mmu where
  /-- domain descriptors (R447; 256 domains, those that differ from reset). -/
  desc : List (Nat × Desc)
  /-- MMU_DSEL.DOM (R469; 8 bits). -/
  dsel : BitVec 8
  /-- MMU_INV.OP (R473; 3 bits). -/
  invOp : BitVec 3
  /-- MMU_INV.DOM (R473; 8 bits). -/
  invDom : BitVec 8
  /-- MMU_IADDR (R474; 32 bits). -/
  iaddr : BitVec 32
  /-- BUSY (R475; 1 bit). -/
  busy : Bool
  /-- INVERR (R475; 1 bit). -/
  invErr : Bool
  deriving DecidableEq, Repr, Inhabited

/-- Mmu as it stands at reset. -/
def Mmu.reset : Mmu :=
  { desc := []
    dsel := 0
    invOp := 0
    invDom := 0
    iaddr := 0
    busy := false
    invErr := false }

/-- A valid line of a tile cache (R436, R439). -/
structure CLine where
  /-- set (R436; 10 bits). -/
  set : Nat
  /-- way (R436; 3 bits). -/
  way : Nat
  /-- line address (word address divided by 32) (R436; line address). -/
  la : LAddr
  /-- dirty (R436; 1 bit). -/
  dirty : Bool
  /-- NRU (R439; 1 bit). -/
  nru : Bool
  /-- words of a dirty line that differ from the backing store's copy (R436; word offset and word). -/
  words : List (Nat × Word)
  /-- D-space address of the last store to the line (R422; 32 bits). -/
  da : Nat
  /-- core that last stored to the line (R445; 4 bits). -/
  core : Nat
  deriving DecidableEq, Repr, Inhabited

/-- CLine as it stands at reset. -/
def CLine.reset : CLine :=
  { set := 0
    way := 0
    la := .sram 0
    dirty := false
    nru := false
    words := []
    da := 0
    core := 0 }

/-- One tile's cache (R436 to R446). -/
structure Tile where
  /-- valid lines (R436; up to 8,192 lines). -/
  lines : List CLine
  /-- CCH_WMASKt.r (R465; 7 x 8 bits). -/
  wmask : Vector (BitVec 8) 7
  /-- CCH_LOCKt (R466; 8 bits). -/
  lock : BitVec 8
  /-- CCH_PWRt.EN as written (R467; 8 bits). -/
  en : BitVec 8
  /-- ways powered (R442; 8 bits). -/
  powered : BitVec 8
  /-- ways being swept (R442; 8 bits). -/
  sweep : BitVec 8
  /-- swept ways with a pending power-up (R442; 8 bits). -/
  upAfter : BitVec 8
  /-- CCH_PWRt state before DOZE entry (R535; 8 bits). -/
  preDoze : BitVec 8
  deriving DecidableEq, Repr, Inhabited

/-- Tile as it stands at reset. -/
def Tile.reset : Tile :=
  { lines := []
    wmask := Vector.replicate 7 0xFF
    lock := 0
    en := 0xFF
    powered := 0xFF
    sweep := 0
    upAfter := 0
    preDoze := 0xFF }

/-- The caches and the maintenance engine (R436 to R467). -/
structure Cache where
  /-- tile caches T0 to T3 (R438; 4 tiles). -/
  tiles : Vector Tile 4
  /-- CCH_MOP.OP (R462; 2 bits). -/
  mop : BitVec 2
  /-- CCH_MOP.MODE (R462; 2 bits). -/
  mmode : BitVec 2
  /-- CCH_MOP.TILE (R462; 2 bits). -/
  mtile : BitVec 2
  /-- CCH_MADDR (R463; 32 bits). -/
  maddr : BitVec 32
  /-- CCH_MCNT (R463; 32 bits). -/
  mcnt : BitVec 32
  /-- BUSY (R464; 1 bit). -/
  busy : Bool
  /-- SKIP (R464; 1 bit). -/
  skip : Bool
  /-- ERR (R464; 1 bit). -/
  err : Bool
  /-- segment-map entries held in the map cache (R451; up to 524,288 SEGNOs). -/
  mapCache : List Nat
  deriving DecidableEq, Repr, Inhabited

/-- Cache as it stands at reset. -/
def Cache.reset : Cache :=
  { tiles := Vector.replicate 4 Tile.reset
    mop := 0
    mmode := 0
    mtile := 0
    maddr := 0
    mcnt := 0
    busy := false
    skip := false
    err := false
    mapCache := [] }

/-- An entry of the writable decode table (R484). -/
structure UEntry where
  /-- V (R486; 1 bit). -/
  v : Bool
  /-- FMT (R484; 2 bits). -/
  fmt : BitVec 2
  /-- X (R484; 1 bit). -/
  x : Bool
  /-- START (R484; 9 bits). -/
  start : Nat
  deriving DecidableEq, Repr, Inhabited

/-- UEntry as it stands at reset. -/
def UEntry.reset : UEntry :=
  { v := false
    fmt := 0
    x := false
    start := 0 }

/-- A checked user microcode file (R484). -/
structure UFile where
  /-- microwords (R484; up to 512). -/
  words : List (BitVec 24)
  /-- decode entries (R484; 16 entries). -/
  decode : List UEntry
  /-- OUTLO (R484; 16 bits). -/
  outLo : BitVec 16
  /-- OUTHI (R484; 16 bits). -/
  outHi : BitVec 16
  /-- the file, for UCODEH (R484; bytes). -/
  raw : List Byte
  deriving DecidableEq, Repr, Inhabited

/-- UFile as it stands at reset. -/
def UFile.reset : UFile :=
  { words := []
    decode := []
    outLo := 1
    outHi := 0
    raw := [] }

/-- A patch match register (R482, R493). -/
structure MatchReg where
  /-- EN (R493; 1 bit). -/
  en : Bool
  /-- ROMA (R493; 14 bits). -/
  roma : BitVec 14
  /-- TGT (R493; 10 bits). -/
  tgt : BitVec 10
  deriving DecidableEq, Repr, Inhabited

/-- MatchReg as it stands at reset. -/
def MatchReg.reset : MatchReg :=
  { en := false
    roma := 0
    tgt := 0 }

/-- The microcode store, patches and user microcode (R476 to R494). -/
structure Ucode where
  /-- patch RAM, parity in bit 24 (R476; 1,024 x 25 bits, those written). -/
  patch : List (Nat × BitVec 25)
  /-- LOCK (R489; 1 bit). -/
  lock : Bool
  /-- UCD_PADDR (R491; 10 bits). -/
  paddr : BitVec 10
  /-- UCD_PDATAH.HI (R492; 8 bits). -/
  pdatah : BitVec 8
  /-- UCD_MSEL.SEL (R493; 5 bits). -/
  msel : BitVec 5
  /-- match registers (R482; 32 registers). -/
  regs : Vector MatchReg 32
  /-- user microcode RAM, decode table and OUTP range (R484; optional). -/
  user : Option UFile
  /-- the file stored in the metadata region (R486; optional). -/
  stored : Option UFile
  /-- file whose commit holds decode (R486; optional file and job). -/
  commit : Option (UFile × Nat)
  /-- UCD_USTAT (R494; 16 bits). -/
  ustat : BitVec 16
  deriving DecidableEq, Repr, Inhabited

/-- Ucode as it stands at reset. -/
def Ucode.reset : Ucode :=
  { patch := []
    lock := false
    paddr := 0
    pdatah := 0
    msel := 0
    regs := Vector.replicate 32 MatchReg.reset
    user := none
    stored := none
    commit := none
    ustat := 0 }

/-- A stored extension program (R372 to R375). -/
structure Ext where
  /-- its file (R372; bytes). -/
  file : List Byte
  /-- PROG_ID (R372; 16 bytes). -/
  progId : List Byte
  /-- LEVEL (R372; 0 to 2). -/
  level : Nat
  /-- DOM (R372; 1 to 255). -/
  dom : Nat
  /-- ENTRY (R372; 32 bits). -/
  entry : Nat
  /-- core it runs on; none when stopped (R375; optional core). -/
  core : Option Nat
  deriving DecidableEq, Repr, Inhabited

/-- Ext as it stands at reset. -/
def Ext.reset : Ext :=
  { file := []
    progId := []
    level := 0
    dom := 0
    entry := 0
    core := none }

/-- The memories of the cores (R356, R357, R361). -/
structure MemSt where
  /-- writable I-space: firmware image and extension slots (R356; 16 MiB + 16 MiB, bytes that differ from 0). -/
  ispace : List Host.Cell
  /-- working SRAM words behind the caches (R448; 6,291,456 words, those that differ from 0). -/
  sram : List (Nat × Word)
  /-- words of array-backed segments behind the caches (R126; words by SWA, those that differ from what the segment bytes give). -/
  seg : List (Nat × Word)
  /-- stored extension programs by slot (R375; 16 slots). -/
  ext : List (Nat × Ext)
  deriving DecidableEq, Repr, Inhabited

/-- MemSt as it stands at reset. -/
def MemSt.reset : MemSt :=
  { ispace := []
    sram := []
    seg := []
    ext := [] }

/-- Reset, power states and watchdog (R524 to R550). -/
structure Pwr where
  /-- VMAIN_OK filter has ended (R335; 1 bit). -/
  vmainOk : Bool
  /-- VIO valid for 10,000 ticks (R335; 1 bit). -/
  vioOk : Bool
  /-- VMAIN stands above VMAIN_FAIL (R524; 1 bit). -/
  vmainHigh : Bool
  /-- tick at which VMAIN last passed VMAIN_OK (R91; ticks). -/
  vmainAt : Nat
  /-- VIO is below VIO_LOW (R91; 1 bit). -/
  vioLow : Bool
  /-- tick from which VIO has been above 1.66 V (R335; ticks). -/
  vioAt : Nat
  /-- tick from which RESETn is high again (R335; ticks). -/
  resetUntil : Nat
  /-- tick from which PFAILn is high again (R107; ticks). -/
  pfailUntil : Nat
  /-- internal reset released: the start sequence has run (R335; 1 bit). -/
  released : Bool
  /-- PHASE (R546; 3 bits). -/
  phase : Phase
  /-- KIND (R546; 3 bits). -/
  kind : Kind
  /-- device time at which this start resumed (R43; 64 bits). -/
  resume : Nat
  /-- power state (R546; 5 names). -/
  pstate : PState
  /-- power state being entered and the job of its POWER_STATE (R536; optional state and job). -/
  entry : Option (PState × Nat)
  /-- wake event held until entry completes (R538; optional cause). -/
  heldWake : Option Nat
  /-- stage of a power-loss sequence or sealed halt (R93; names). -/
  seq : PlStage
  /-- the sequence is a sealed halt (R508; 1 bit). -/
  fatal : Bool
  /-- VMAIN was removed during the halt (R532; 1 bit). -/
  vmainLost : Bool
  /-- PWR_DOZEMASK.WAYS (R547; 8 bits). -/
  dozeMask : BitVec 8
  /-- EN (R548; 1 bit). -/
  wdEn : Bool
  /-- K (R548; 4 bits). -/
  wdK : BitVec 4
  /-- tick at which the count runs out (R539; ticks). -/
  wdDue : Option Nat
  /-- core that armed it (R539; 4 bits). -/
  wdCore : Nat
  /-- CAUSE (R550; 4 bits). -/
  wakeCause : BitVec 4
  /-- FROM (R550; 1 bit). -/
  wakeFrom : Bool
  /-- sampled LANESEL[1:0] in [3:2], ADDR1 and ADDR0 in [1:0] (R332; 4 bits). -/
  straps : BitVec 4
  /-- a DNU ball was high at POR (R328; 1 bit). -/
  dnu : Bool
  /-- tick of the last command, for the 100 ticks of IDLE (R534; ticks). -/
  idleSince : Nat
  /-- tick of the next C_live estimate (R93; ticks). -/
  cliveNext : Nat
  /-- energy metered since the flush began (R93; nJ). -/
  meterNj : Nat
  /-- VHOLD when the flush began (R93; mV). -/
  meterMv : Nat
  deriving DecidableEq, Repr, Inhabited

/-- Pwr as it stands at reset. -/
def Pwr.reset : Pwr :=
  { vmainOk := false
    vioOk := false
    vmainHigh := true
    vmainAt := 0
    vioLow := false
    vioAt := 0
    resetUntil := 0
    pfailUntil := 0
    released := false
    phase := .startup
    kind := .por
    resume := 0
    pstate := .run
    entry := none
    heldWake := none
    seq := .none
    fatal := false
    vmainLost := false
    dozeMask := 0xFE
    wdEn := false
    wdK := 0
    wdDue := none
    wdCore := 0
    wakeCause := 0
    wakeFrom := false
    straps := 0
    dnu := false
    idleSince := 0
    cliveNext := 0
    meterNj := 0
    meterMv := 0 }

/-- Timebase and crossings (R540 to R555). -/
structure Tbx where
  /-- TBX_TIME0 to TBX_TIME3 (R553; 64 bits). -/
  tcap : BitVec 64
  /-- FLUSH (R554; 13 bits). -/
  flush : BitVec 13
  /-- hung crossings by island (R544; 13 bits). -/
  hung : BitVec 13
  /-- TBX_UNIMP (R555; 16 bits). -/
  unimp : BitVec 16
  deriving DecidableEq, Repr, Inhabited

/-- Tbx as it stands at reset. -/
def Tbx.reset : Tbx :=
  { tcap := 0
    flush := 0
    hung := 0
    unimp := 0 }

/-- One stream's entry in the flush manifest (R93). -/
structure ManEntry where
  /-- stream (R93; 20 bits). -/
  sid : Nat
  /-- first staged sequence number (R93; 48 bits). -/
  firstStaged : Nat
  /-- last assigned sequence number (R93; 48 bits). -/
  lastAssigned : Nat
  /-- highest sequence number whose reply was formed (R93; 48 bits). -/
  lastReplied : Nat
  deriving DecidableEq, Repr, Inhabited

/-- ManEntry as it stands at reset. -/
def ManEntry.reset : ManEntry :=
  { sid := 0
    firstStaged := 0
    lastAssigned := 0
    lastReplied := 0 }

/-- What the previous run left behind, in nonvolatile storage (R93, R96, R97). -/
structure EndState where
  /-- clean-shutdown marker (R97; 1 bit). -/
  clean : Bool
  /-- flush manifest (R93; optional). -/
  manifest : Option (List ManEntry)
  /-- unmerged early-log entries in the manifest (R93; (half, index)). -/
  early : List (Nat × Nat)
  /-- COMMITTED trains in the manifest (R93; trains). -/
  trains : List Train
  /-- completion marker (R93; (STOPPED, VHOLD in mV, unwritten bytes)). -/
  marker : Option (Bool × Nat × Nat)
  /-- marker cause FATAL (R97; 1 bit). -/
  fatal : Bool
  /-- device time at T0 (R100; 64 bits). -/
  lossTs : Nat
  /-- mount count of the run that lost power (R100; 32 bits). -/
  lossMount : Nat
  /-- last C_live (R100; nF). -/
  clive : Nat
  /-- open segments that hold bytes of a partly written record (R98; (SEGNO, LOST offset, end)). -/
  partials : List (Nat × Nat × Nat)
  /-- context-load journal since the last directory checkpoint (R99; SIDs). -/
  loads : List Nat
  /-- a start after a power loss has not yet acted on the previous end (R98; 1 bit). -/
  lost : Bool
  /-- lost ranges of the early log, as the start found them (R99; (SID, RFL, FIRST, LAST, ACKLAST)). -/
  lostEarly : List (Nat × Nat × Nat × Nat × Nat)
  /-- the previous run ended in a power loss (R97; 1 bit). -/
  power : Bool
  /-- counter 7 value in the directory checkpoint (R208; optional counter value). -/
  ckpt : Option Nat
  /-- the directory checkpoint: counter 7, device time and the chain state of every open segment (R93; bytes). -/
  ckptBody : List Byte
  /-- signature of the directory checkpoint (R204; 64 bytes). -/
  ckptSig : List Byte
  deriving DecidableEq, Repr, Inhabited

/-- EndState as it stands at reset. -/
def EndState.reset : EndState :=
  { clean := false
    manifest := none
    early := []
    trains := []
    marker := none
    fatal := false
    lossTs := 0
    lossMount := 0
    clive := 0
    partials := []
    loads := []
    lost := false
    lostEarly := []
    power := false
    ckpt := none
    ckptBody := []
    ckptSig := [] }

/-- The JTAG TAP (R341). -/
structure Jtag where
  /-- instruction register (R341; 5 bits). -/
  ir : BitVec 5
  /-- boundary register (R341; 17 cells). -/
  bsr : BitVec 17
  /-- value the selected data register captured (R341; 32 bits). -/
  dr : BitVec 32
  /-- a vendor JTAG test mode holds PWR_PHASE at TEST (R527; 1 bit). -/
  test : Bool
  deriving DecidableEq, Repr, Inhabited

/-- Jtag as it stands at reset. -/
def Jtag.reset : Jtag :=
  { ir := 1
    bsr := 0
    dr := 0xB5120A6B
    test := false }

/-- The whole device (block) and the queue of commands that wait for it. -/
structure State where
  /-- ordering variant of this part (R1; 2 names). -/
  variant : Variant
  /-- device time in ticks (R40; 64 bits). -/
  dtime : Nat
  /-- ticks counted since State.reset, against which timers run (R39; the model's own, not the spec's). -/
  tick : Nat
  /-- index of the next free value (R540; the model's own, not the spec's). -/
  fresh : Nat
  /-- streams and early log (R27; structure). -/
  store : StoreSt
  /-- array, maps and Barchan engines (R113; structure). -/
  arr : ArraySt
  /-- command engine (R251; structure). -/
  eng : Engine
  /-- energy manager (R82; structure). -/
  oas : Oasis
  /-- fault collector (R495; structure). -/
  flt : Faults
  /-- key store, sessions, counters (R184; structure). -/
  vtf : Trust
  /-- host link (R289; structure). -/
  link : Link
  /-- management sideband (R315; structure). -/
  side : Side
  /-- boot window (R219; structure). -/
  boot : Boot
  /-- rule bundles and executions (R156; structure). -/
  wadi : Wadi
  /-- Doltor cores (R15; 16 cores). -/
  cores : Vector Core 16
  /-- translation (R447; structure). -/
  mmu : Mmu
  /-- tile caches (R436; structure). -/
  cache : Cache
  /-- microcode (R476; structure). -/
  ucode : Ucode
  /-- I-space, SRAM and segment words (R355; structure). -/
  mem : MemSt
  /-- resets and power states (R524; structure). -/
  pwr : Pwr
  /-- timebase and crossings (R551; structure). -/
  tbx : Tbx
  /-- end of the previous run (R97; structure). -/
  prev : EndState
  /-- JTAG TAP (R341; structure). -/
  jtag : Jtag
  /-- commands that wait, first in, first out (R251; the model's own queue of commands). -/
  pending : List Instr
  deriving DecidableEq, Repr, Inhabited

/-- The machine right after the POR of a part as shipped (R188, R531), before its internal reset is released (R335). -/
def State.reset : State :=
  { variant := .ia
    dtime := 0
    tick := 0
    fresh := 0
    store := StoreSt.reset
    arr := ArraySt.reset
    eng := Engine.reset
    oas := Oasis.reset
    flt := Faults.reset
    vtf := Trust.reset
    link := Link.reset
    side := Side.reset
    boot := Boot.reset
    wadi := Wadi.reset
    cores := Vector.replicate 16 Core.reset
    mmu := Mmu.reset
    cache := Cache.reset
    ucode := Ucode.reset
    mem := MemSt.reset
    pwr := Pwr.reset
    tbx := Tbx.reset
    prev := EndState.reset
    jtag := Jtag.reset
    pending := [] }

/-- The state with its field variant replaced. -/
def State.setVariant (s : State) (v : Variant) : State := { s with variant := v }

/-- The state with its field dtime replaced. -/
def State.setDtime (s : State) (v : Nat) : State := { s with dtime := v }

/-- The state with its field tick replaced. -/
def State.setTick (s : State) (v : Nat) : State := { s with tick := v }

/-- The state with its field fresh replaced. -/
def State.setFresh (s : State) (v : Nat) : State := { s with fresh := v }

/-- The state with its field store replaced. -/
def State.setStore (s : State) (v : StoreSt) : State := { s with store := v }

/-- The state with its field arr replaced. -/
def State.setArr (s : State) (v : ArraySt) : State := { s with arr := v }

/-- The state with its field eng replaced. -/
def State.setEng (s : State) (v : Engine) : State := { s with eng := v }

/-- The state with its field oas replaced. -/
def State.setOas (s : State) (v : Oasis) : State := { s with oas := v }

/-- The state with its field flt replaced. -/
def State.setFlt (s : State) (v : Faults) : State := { s with flt := v }

/-- The state with its field vtf replaced. -/
def State.setVtf (s : State) (v : Trust) : State := { s with vtf := v }

/-- The state with its field link replaced. -/
def State.setLink (s : State) (v : Link) : State := { s with link := v }

/-- The state with its field side replaced. -/
def State.setSide (s : State) (v : Side) : State := { s with side := v }

/-- The state with its field boot replaced. -/
def State.setBoot (s : State) (v : Boot) : State := { s with boot := v }

/-- The state with its field wadi replaced. -/
def State.setWadi (s : State) (v : Wadi) : State := { s with wadi := v }

/-- The state with its field cores replaced. -/
def State.setCores (s : State) (v : Vector Core 16) : State := { s with cores := v }

/-- The state with its field mmu replaced. -/
def State.setMmu (s : State) (v : Mmu) : State := { s with mmu := v }

/-- The state with its field cache replaced. -/
def State.setCache (s : State) (v : Cache) : State := { s with cache := v }

/-- The state with its field ucode replaced. -/
def State.setUcode (s : State) (v : Ucode) : State := { s with ucode := v }

/-- The state with its field mem replaced. -/
def State.setMem (s : State) (v : MemSt) : State := { s with mem := v }

/-- The state with its field pwr replaced. -/
def State.setPwr (s : State) (v : Pwr) : State := { s with pwr := v }

/-- The state with its field tbx replaced. -/
def State.setTbx (s : State) (v : Tbx) : State := { s with tbx := v }

/-- The state with its field prev replaced. -/
def State.setPrev (s : State) (v : EndState) : State := { s with prev := v }

/-- The state with its field jtag replaced. -/
def State.setJtag (s : State) (v : Jtag) : State := { s with jtag := v }

/-- The state with its field pending replaced. -/
def State.setPending (s : State) (v : List Instr) : State := { s with pending := v }

end Sys2Proof.Machine
end

