-- ==== Sys2Proof/Machine/Bits.lean ====
section
/-! DEFINITION. Byte order, bit fields, check codes and the keyed stores that the operations share. -/
namespace Sys2Proof.Machine
open Sys2Proof

/-- The `n` low bytes of `v`, least significant first (R10). -/
def leB : Nat → Nat → List Byte
  | 0, _ => []
  | n + 1, v => BitVec.ofNat 8 v :: leB n (v / 256)

/-- The number that bytes spell, least significant first (R10). -/
def leN : List Byte → Nat
  | [] => 0
  | b :: bs => b.toNat + 256 * leN bs

/-- `n` bytes from offset `o`. -/
def bytesAt (l : List Byte) (o n : Nat) : List Byte := (l.drop o).take n

/-- The field of `n` bytes at offset `o`; bytes past the end count as 0. -/
def fieldAt (l : List Byte) (o n : Nat) : Nat := leN (bytesAt l o n)

/-- `n` zero bytes. -/
def zeros (n : Nat) : List Byte := List.replicate n 0

/-- Whether every byte is 0. -/
def allZero (l : List Byte) : Bool := l.all (· == 0)

/-- Bytes cut or filled with zeros to length `n`. -/
def padTo (n : Nat) (l : List Byte) : List Byte := l.take n ++ zeros (n - l.length)

/-- The low `w` bits of `v` from bit `lo`. -/
def bits (v lo w : Nat) : Nat := (v / 2 ^ lo) % 2 ^ w

/-- Bit `i` of `v`. -/
def bitN (v i : Nat) : Bool := v.testBit i

/-- A Boolean as a bit. -/
def b2n (b : Bool) : Nat := if b then 1 else 0

/-- The signed value of the low `w` bits of `v`. -/
def signedN (w v : Nat) : Int := if (v % 2 ^ w) < 2 ^ (w - 1) then ((v % 2 ^ w : Nat) : Int) else ((v % 2 ^ w : Nat) : Int) - (2 ^ w : Nat)

/-- A signed value as `w` bits. -/
def ofSigned (w : Nat) (v : Int) : Nat := (v % ((2 ^ w : Nat) : Int)).toNat

/-- The value counted up by `d` and held at `top`. -/
def satAdd (top v d : Nat) : Nat := min top (v + d)

/-- A count up by one, held at the largest value of the width. -/
def satInc {w : Nat} (v : BitVec w) : BitVec w := if v = BitVec.allOnes w then v else v + 1

/-- The value stored at a key, or none. -/
def look {α : Type} (k : Nat) : List (Nat × α) → Option α
  | [] => none
  | (j, a) :: m => if j = k then some a else look k m

/-- A store with a value put at a key, keys kept ascending. -/
def put {α : Type} (k : Nat) (a : α) : List (Nat × α) → List (Nat × α)
  | [] => [(k, a)]
  | (j, b) :: m => if k < j then (k, a) :: (j, b) :: m else if j = k then (k, a) :: m else (j, b) :: put k a m

/-- A store without a key. -/
def del {α : Type} (k : Nat) : List (Nat × α) → List (Nat × α)
  | [] => []
  | (j, b) :: m => if j = k then m else (j, b) :: del k m

/-- The value a memory holds at an address; an unlisted address reads as `d`. See log 9 (DESIGN CHOICE, unsafe). -/
def memGet {α : Type} (d : α) (m : List (Nat × α)) (k : Nat) : α := (look k m).getD d

/-- A memory with a value written; a value that an unlisted address reads as is not listed. -/
def memSet {α : Type} [DecidableEq α] (d : α) (m : List (Nat × α)) (k : Nat) (a : α) : List (Nat × α) :=
  if a = d then del k m else put k a m

/-- Whether the keys of a store rise strictly. -/
def keysRise {α : Type} : List (Nat × α) → Bool
  | [] => true
  | [_] => true
  | (j, _) :: (k, b) :: m => (decide (j < k)) && keysRise ((k, b) :: m)

/-- The canonical form of a memory: keys strictly rising, no entry equal to what an unlisted address reads as. See log 9 (DESIGN CHOICE, unsafe). -/
def Memory.wf {α : Type} [DecidableEq α] (d : α) (m : List (Nat × α)) : Bool :=
  keysRise m && m.all (fun e => decide (e.2 ≠ d))

/-- The bytes a memory holds from an address on. -/
def memBytes (d : Byte) (m : List Host.Cell) (k : Nat) : Nat → List Byte
  | 0 => []
  | n + 1 => memGet d m k :: memBytes d m (k + 1) n

/-- A memory with bytes written from an address on. -/
def memPutBytes (d : Byte) (m : List Host.Cell) (k : Nat) : List Byte → List Host.Cell
  | [] => m
  | b :: bs => memPutBytes d (memSet d m k b) (k + 1) bs

/-- `f` applied `n` times. -/
def iter {α : Type} (f : α → α) : Nat → α → α
  | 0, a => a
  | n + 1, a => iter f n (f a)

/-- One bit step of CRC-32C, reflected (R406). -/
def crc32Bit (s : BitVec 32) : BitVec 32 :=
  if s.getLsbD 0 then (s >>> 1) ^^^ 0x82F63B78#32 else s >>> 1

/-- A CRC-32C state updated by one byte (R406). -/
def crc32Byte (s : BitVec 32) (b : Byte) : BitVec 32 := iter crc32Bit 8 (s ^^^ b.zeroExtend 32)

/-- One bit step of CRC-16/CCITT (R406). -/
def crc16Bit (s : BitVec 16) : BitVec 16 :=
  if s.getLsbD 15 then (s <<< 1) ^^^ 0x1021#16 else s <<< 1

/-- A CRC-16/CCITT state updated by one byte (R406). -/
def crc16Byte (s : BitVec 16) (b : Byte) : BitVec 16 := iter crc16Bit 8 (s ^^^ (b.zeroExtend 16 <<< 8))

/-- CRC-32C of bytes, with initial value and final inversion of all ones (R36). See log 11 (DESIGN CHOICE, safe). -/
def crc32c (l : List Byte) : BitVec 32 := ~~~ (l.foldl crc32Byte 0xFFFFFFFF#32)

/-- The CRC-32C of bytes as it is stored: 4 bytes, little-endian (R36). -/
def crcBytes (l : List Byte) : List Byte := leB 4 (crc32c l).toNat

/-- A value rounded up to a multiple of `m`. -/
def roundUp (m v : Nat) : Nat := ((v + m - 1) / m) * m

/-- Quotient rounded up. -/
def ceilDiv (a b : Nat) : Nat := (a + b - 1) / b

/-- A list with the element at `i` changed by `f`. -/
def listUpd {α : Type} (f : α → α) : Nat → List α → List α
  | _, [] => []
  | 0, a :: l => f a :: l
  | n + 1, a :: l => a :: listUpd f n l

/-- Whether an option holds a value. -/
def some? {α : Type} (o : Option α) : Bool := o.isSome

end Sys2Proof.Machine
end

