-- ==== Sys2Proof/Machine/Ops.lean ====
section
/-! DEFINITION. The named operations over the state: reading and changing the parts that many commands touch. -/
namespace Sys2Proof.Machine
open Sys2Proof

/-- A command that completes in a next state. -/
def done (s : State) : Host.Outcome State Fault Refusal := .next s

/-- The effect if the command's condition holds, and no change where the event is not due. See log 1 (DESIGN CHOICE, safe). -/
def whenDue (c : Bool) (s : State) (t : State) : Host.Outcome State Fault Refusal := .next (if c then t else s)

/-- The index of the next free value, and the state that has used it. See log 10 (DESIGN CHOICE, safe). -/
def takeFresh (s : State) : Nat × State := (s.fresh, { s with fresh := s.fresh + 1 })

/-- A count of ticks that the board decides: a free value. See log 1 (DESIGN CHOICE, safe). -/
def freeTicks (s : State) : Nat × State := let f := takeFresh s; ((Config.freeBits 32 f.1).toNat, f.2)

/-- One die's state. -/
def dieOf (s : State) (d : Nat) : Die := vAt s.arr.dies d

/-- One die changed. -/
def updDie (s : State) (d : Nat) (f : Die → Die) : State := { s with arr.dies := vUpd s.arr.dies d f }

/-- One core's state. -/
def coreOf (s : State) (c : Nat) : Core := vAt s.cores c

/-- One core changed. -/
def updCore (s : State) (c : Nat) (f : Core → Core) : State := { s with cores := vUpd s.cores c f }

/-- Every core changed. -/
def updCores (s : State) (f : Core → Core) : State := { s with cores := vMap f s.cores }

/-- A stream that is not ABSENT. -/
def streamOf (s : State) (sid : Nat) : Option Stream := look sid s.store.streams

/-- One stream changed, if it is not ABSENT. -/
def updStream (s : State) (sid : Nat) (f : Stream → Stream) : State :=
  match look sid s.store.streams with
  | none => s
  | some st => { s with store.streams := put sid (f st) s.store.streams }

/-- One stream put in place. -/
def putStream (s : State) (sid : Nat) (st : Stream) : State := { s with store.streams := put sid st s.store.streams }

/-- An open or sealed segment. -/
def segOf (s : State) (g : Nat) : Option SegSt := look g s.arr.segs

/-- One segment changed, if it is open or sealed. -/
def updSeg (s : State) (g : Nat) (f : SegSt → SegSt) : State :=
  match look g s.arr.segs with
  | none => s
  | some x => { s with arr.segs := put g (f x) s.arr.segs }

/-- What the device keeps about a slot; a slot not listed is good, free and never programmed. -/
def slotOf (s : State) (n : Nat) : SlotInfo := (look n s.arr.slots).getD SlotInfo.reset

/-- One slot's record changed. -/
def updSlot (s : State) (n : Nat) (f : SlotInfo → SlotInfo) : State :=
  { s with arr.slots := memSet SlotInfo.reset s.arr.slots n (f (slotOf s n)) }

/-- One queue's waiting packets. -/
def queueOf (s : State) (q : Nat) : List QPkt := vAt s.eng.queues q

/-- One queue replaced. -/
def setQueue (s : State) (q : Nat) (l : List QPkt) : State := { s with eng.queues := vSet s.eng.queues q l }

/-- Whether a power-loss sequence or a sealed halt has begun (R93, R508). -/
def inLoss (s : State) : Bool := decide (s.pwr.seq ≠ .none)

/-- Whether the device is powered and started, with no loss sequence and not in OFF. -/
def alive (s : State) : Bool := s.pwr.released && !inLoss s && decide (s.pwr.phase ≠ .halt)

/-- Class order: CE 0, UC 1, FA 2 (R497). -/
def clsNum : FClass → Nat
  | .ce => 0
  | .uc => 1
  | .fa => 2

/-- Phase codes (R527). -/
def phaseNum : Phase → Nat
  | .startup => 0
  | .test => 1
  | .recovery => 2
  | .service => 3
  | .halt => 4

/-- Reset kind codes (R524). -/
def kindNum : Kind → Nat
  | .por => 1
  | .pin => 2
  | .link => 3
  | .soft => 4
  | .wdog => 5
  | .fatal => 6

/-- PSTATE as the registers show it (R321, R546): a core that runs never reads IDLE, REST or OFF. -/
def pstateNum : PState → Nat
  | .run => 0
  | .idle => 1
  | .doze => 2
  | .rest => 2
  | .off => 0

/-- Media state codes (R321). -/
def mediaNum : Media → Nat
  | .normal => 0
  | .sabkha => 1
  | .readonly => 2

/-- Lifecycle codes (R321). -/
def lifeNum : Life → Nat
  | .unowned => 0
  | .owned => 1
  | .rollback => 2

/-- Link state codes (R295). -/
def lstateNum : LState → Nat
  | .detect => 0
  | .config => 1
  | .rate => 2
  | .active => 3
  | .recovery => 4
  | .lowpower => 5
  | .disabled => 6
  | .hotreset => 7

/-- Status codes (R260). -/
def stsNum : Status → Nat
  | .ok => 0x0000
  | .okArray => 0x0001
  | .badOpc => 0x0100
  | .badParam => 0x0101
  | .badLen => 0x0102
  | .noStream => 0x0103
  | .auth => 0x0200
  | .replay => 0x0201
  | .noCap => 0x0202
  | .noCred => 0x0300
  | .noCtx => 0x0301
  | .quota => 0x0302
  | .budget => 0x0303
  | .sabkha => 0x0400
  | .readOnly => 0x0401
  | .breach => 0x0402
  | .fault => 0x0500
  | .halted => 0x0501

/-- Retention class codes (R30). -/
def clsCode : SClass → Nat
  | .pinned => 0
  | .ring => 1
  | .timed => 2

end Sys2Proof.Machine
end

