-- ==== Sys2Proof/Machine/LinkTx.lean ====
section
/-! DEFINITION. The transmit side of the host link: credits, the replay buffer, replies, completions and messages. -/
namespace Sys2Proof.Machine
open Sys2Proof

/-- Bytes a link packet takes in the replay buffer: header, payload and CRC (R299). See log 20 (DESIGN CHOICE, unsafe). -/
def txSize (p : TxPkt) : Nat := p.payload.length + 12

/-- Whether the replay buffer takes another packet of `n` payload bytes (R301). See log 20 (DESIGN CHOICE, unsafe). -/
def txRoom (l : Link) (n : Nat) : Bool :=
  decide (l.replay.length < 4096) && decide ((l.replay.map txSize).sum + n + 12 ≤ 65536)

/-- Whether a charge fits under a cumulative limit (R306). -/
def creditFits (cum charge lim : Nat) (inf : Bool) : Bool :=
  inf || decide ((lim + 131072 - (cum + charge)) % 65536 < 32768)

/-- The 8 header bytes of a link packet (R299). -/
def linkHead (typ lfl : Byte) (lseq len xtag : Nat) : List Byte := [typ, lfl] ++ leB 2 lseq ++ leB 2 len ++ leB 2 xtag

/-- The CRC of a link packet, over its header and its payload (R299). -/
def linkCrc (typ lfl : Byte) (lseq xtag : Nat) (payload : List Byte) : BitVec 32 :=
  crc32c (linkHead typ lfl lseq payload.length xtag ++ payload)

/-- The bytes of a data link packet of the device between its SOP row and its EOP block, PAD included (R299). See log 20 (DESIGN CHOICE, unsafe). -/
def linkFrame (p : TxPkt) : List Byte :=
  let b := linkHead p.typ p.lfl p.lseq p.payload.length p.xtag.toNat ++ p.payload ++ leB 4 p.crc.toNat
  b ++ zeros (roundUp 8 b.length - b.length)

/-- The link with one data link packet sent and held for replay (R301). -/
def sendData (l : Link) (typ lfl : BitVec 8) (xtag : BitVec 16) (payload : List Byte) (now : Nat) : Link :=
  let crc := linkCrc typ lfl l.txSeq xtag.toNat payload
  { l with
    replay := l.replay ++ [{ lseq := l.txSeq, typ := typ, lfl := lfl, xtag := xtag, payload := payload, crc := crc, sent := 1 }]
    advAt := if l.replay.isEmpty then now else l.advAt
    txSeq := (l.txSeq + 1) % 65536 }

/-- The device's link limits CDL, CHL and RGL: charged to date, less what is held, plus the pool (R304, R306).
See log 20 (DESIGN CHOICE, unsafe). -/
def credLimits (l : Link) : Nat × Nat × Nat :=
  ((l.cdCum + 65536 - l.cdUsed + 1024) % 65536, (l.chCum + 65536 - l.chUsed + 256) % 65536,
   (l.rgCum + 65536 - l.cpls.length + 32) % 65536)

/-- The link after a CREDIT link packet of the device (R306). -/
def sendCredit (l : Link) (now : Nat) : Link := { l with lastCred := credLimits l, credAt := now }

/-- CREDIT is sent where a limit has moved since the last one (R306). See log 20 (DESIGN CHOICE, unsafe). -/
def creditOnReturn (l : Link) (now : Nat) : Link :=
  if l.ls = .active ∧ credLimits l ≠ l.lastCred then sendCredit l now else l

/-- The payload of a message packet (R311). -/
def msgPayload (m : Msg) (mseq : Nat) : List Byte :=
  leB 2 m.typ ++ leB 2 (b2n m.merged) ++ leB 4 mseq ++ leB 8 m.mts ++ padTo 16 m.body

/-- The first completion that may be sent, with its place in the order of forming (R310). -/
def nextCpl (l : Link) : Option Nat :=
  match l.cpls with
  | (o, p) :: _ => if txRoom l p.payload.length then some o else none
  | [] => none

/-- The first message that may be sent (R304, R310). See log 51 (DESIGN CHOICE, unsafe). -/
def nextMsg (l : Link) : Option Nat :=
  match l.msgs with
  | m :: _ => if l.credSeen && creditFits l.msCum 1 l.msLim l.msInf && txRoom l 32 then some m.ord else none
  | [] => none

/-- The next bytes of the oldest reply (R310). -/
def rplChunk (l : Link) (r : Reply) : List Byte := (r.wire.drop l.rplOff).take 1024

/-- The reply whose next link packet may be sent (R304, R310). -/
def nextRpl (l : Link) : Option Nat :=
  match l.replies with
  | r :: _ =>
    let n := (rplChunk l r).length
    if l.credSeen && creditFits l.rdCum (ceilDiv n 64) l.rdLim l.rdInf
        && (decide (l.rplOff ≠ 0) || creditFits l.rhCum 1 l.rhLim l.rhInf) && txRoom l n then some r.ord else none
  | [] => none

/-- Whether the first order comes before the second; nothing comes after anything. -/
def before (a b : Option Nat) : Bool :=
  match a, b with
  | some x, some y => decide (x ≤ y)
  | some _, none => true
  | none, _ => false

/-- The oldest completion sent. -/
def sendCpl (l : Link) (now : Nat) : Link :=
  match l.cpls with
  | (_, p) :: rest => sendData { l with cpls := rest } 0x03 0 p.xtag p.payload now
  | [] => l

/-- The oldest message sent; MSEQ counts it (R311). -/
def sendMsg (l : Link) (now : Nat) : Link :=
  match l.msgs with
  | m :: rest =>
    sendData { l with msgs := rest, mseq := l.mseq + 1, msCum := (l.msCum + 1) % 65536 } 0x30 0 0
      (msgPayload m (l.mseq + 1)) now
  | [] => l

/-- The next RPL link packet of the oldest reply sent (R310). -/
def sendRpl (l : Link) (now : Nat) : Link :=
  match l.replies with
  | r :: rest =>
    let c := rplChunk l r
    let first := decide (l.rplOff = 0)
    let last := decide (r.wire.length ≤ l.rplOff + 1024)
    let lfl : BitVec 8 := BitVec.ofNat 8 (b2n first + 2 * b2n last)
    let l' := { l with
      rdCum := (l.rdCum + ceilDiv c.length 64) % 65536
      rhCum := if first then (l.rhCum + 1) % 65536 else l.rhCum
      replies := if last then rest else l.replies
      rplOff := if last then 0 else l.rplOff + 1024 }
    sendData l' 0x20 lfl (BitVec.ofNat 16 (r.qid.toNat % 64)) c now
  | [] => l

/-- One packet sent, if any may be (R310). -/
def pumpOne (l : Link) (now : Nat) : Link :=
  let c := nextCpl l
  let m := nextMsg l
  let r := nextRpl l
  if before c m && before c r then sendCpl l now
  else if before m r then sendMsg l now
  else match r with
    | some _ => sendRpl l now
    | none => l

/-- A bound on the packets that wait. -/
def pumpFuel (l : Link) : Nat :=
  l.cpls.length + l.msgs.length + (l.replies.map fun r => r.wire.length / 1024 + 1).sum

/-- Every packet sent that credit and the replay buffer admit, in the order of forming (R310). -/
def pumpLink (l : Link) (now : Nat) : Link :=
  if l.ls = .active then creditOnReturn (iter (fun x => pumpOne x now) (pumpFuel l) l) now else l

/-- The device with its link's waiting packets sent as far as they may be. -/
def pump (s : State) : State := { s with link := pumpLink s.link s.tick }

/-- A message formed, if its type is enabled: its HW_STAT.MSGP bit is set, and it replaces a waiting one of its type (R312). -/
def formMsg (typ : Nat) (body : List Byte) (s : State) : State :=
  let l := s.link
  if l.msgEn.getLsbD (typ - 1) && alive s then
    let m : Msg := { typ := typ, ord := l.ordNext, merged := l.msgs.any (fun x => x.typ == typ), mts := s.dtime, body := body }
    pump { s with link := { l with
      msgs := l.msgs.filter (fun x => x.typ != typ) ++ [m]
      msgp := l.msgp ||| (1#4 <<< (typ - 1))
      ordNext := l.ordNext + 1 } }
  else s

/-- A READY message (R311). See log 44 (DESIGN CHOICE, unsafe). -/
def readyMsg (s : State) (earlyOk : Bool) : State :=
  formMsg 4 [BitVec.ofNat 8 (phaseNum s.pwr.phase), BitVec.ofNat 8 (b2n s.store.mounted + 2 * b2n earlyOk)] s

/-- The key stream combined with bytes: AES-GCM enciphers and deciphers alike (R196). -/
def gcmXor (key nonce : List Byte) (l : List Byte) : List Byte :=
  (l.zip (Config.gcmStream key nonce l.length).toList).map fun p => p.1 ^^^ p.2

/-- The nonce of a session direction and SEQ (R196). -/
def gcmNonce (n : List Byte) (seq : BitVec 32) : List Byte := n ++ leB 4 seq.toNat ++ zeros 4

/-- The 16 header bytes of a reply (R249). -/
def replyHeader (r : Reply) : List Byte :=
  leB 2 r.opc.toNat ++ leB 2 (stsNum r.sts) ++ leB 2 r.tag.toNat ++ leB 2 r.ses.toNat ++ leB 4 r.cred.toNat
    ++ leB 4 r.res.toNat

/-- The bytes of a reply on the wire, protected where it must be (R196, R249). Keys are K_hd, K_dh, N_hd, N_dh in order. -/
def replyWire (r : Reply) : List Byte :=
  let h := replyHeader r
  match r.prot with
  | none => h ++ r.data
  | some (seq, keys) =>
    let k := bytesAt keys 32 32
    let n := gcmNonce (bytesAt keys 68 4) seq
    let c := gcmXor k n r.data
    h ++ c ++ (Config.gcmTag k n h c).toList

/-- Whether NOREPLY suppresses a reply (R245). -/
def suppressed (r : Reply) : Bool := r.noreply && (decide (r.sts = .ok) || decide (r.sts = .okArray))

/-- A reply formed and handed to its channel (R86, R249, R259, R310). None is formed once a loss sequence has begun (R93).
See log 44 (DESIGN CHOICE, unsafe). -/
def formReply (r : Reply) (s : State) : State :=
  if inLoss s then s
  else match r.chan with
    | .sideband =>
      let r' := { r with cred := 0 }
      { s with side := { s.side with reply := some (replyWire r'), readyAt := s.tick } }
    | .host =>
      if suppressed r then s
      else
        let r1 := { r with cred := BitVec.ofNat 32 (min 0xFFFFFFFF s.eng.credRet), ord := s.link.ordNext }
        let r2 := { r1 with wire := replyWire r1 }
        pump { s with
          eng.credRet := 0
          link.replies := s.link.replies ++ [r2]
          link.ordNext := s.link.ordNext + 1 }

end Sys2Proof.Machine
end

