-- ==== Sys2Proof/Machine/FaultOps.lean ====
section
/-! DEFINITION. The fault collector's operations and the start of a power-loss sequence, which a fault can cause. -/
namespace Sys2Proof.Machine
open Sys2Proof

/-- The class of a source (R497). -/
def srcClass (n : Nat) : FClass :=
  if n = 1 ∨ n = 7 ∨ n = 9 ∨ (24 ≤ n ∧ n ≤ 27) then .fa
  else if n = 4 ∨ n = 13 ∨ n = 14 ∨ n = 16 ∨ (20 ≤ n ∧ n ≤ 23) ∨ (44 ≤ n ∧ n ≤ 59) ∨ (68 ≤ n ∧ n ≤ 76) ∨ n = 78
    ∨ 80 ≤ n then .ce
  else .uc

/-- Whether a source keeps its policy (R497). -/
def srcLocked (n : Nat) : Bool := n == 7 || n == 9

/-- Whether a class is at or above a threshold; threshold 3 is none (R515). -/
def atOrAbove (c : FClass) (thr : BitVec 2) : Bool := decide (thr ≠ 3) && decide (thr.toNat ≤ clsNum c)

/-- Bit `n` of a word of 96 source bits set or cleared. -/
def setBit96 (v : BitVec 96) (n : Nat) (b : Bool) : BitVec 96 :=
  if b then v ||| (1#96 <<< n) else v &&& ~~~(1#96 <<< n)

/-- Steps 1 to 3 of the power-loss sequence, or of a sealed halt (R93, R508): admission closes, the rails move to the VHOLD
converter and the charger stops, the link goes DISABLED, and every running core has power fail pending. A sequence that runs
already is not changed (R509), and none runs in OFF (R537). See log 50 (DESIGN CHOICE, unsafe). -/
def lossBegin (fatal : Bool) (s : State) : State :=
  if inLoss s || decide (s.pwr.pstate = .off) then s
  else
    { s with
      pwr := { s.pwr with
        seq := .manifest
        fatal := fatal
        phase := if fatal then .halt else s.pwr.phase
        entry := none }
      link := { s.link with ls := .disabled, ts1 := false, softReq := false, msgs := [] }
      oas := { s.oas with charging := false, meas := { s.oas.meas with loadOn := false } }
      cores := vMap (fun c => if c.running && !c.stopped then { c with pfPend := true } else c) s.cores
      prev := { s.prev with
        power := true, clean := false, fatal := fatal, lossTs := s.dtime, lossMount := s.store.mountCount, manifest := none,
        marker := none } }

/-- A fatal escalation with its source (R507, R509). See log 50 (DESIGN CHOICE, unsafe). -/
def escalate (src : Nat) (s : State) : State :=
  lossBegin true { s with flt := { s.flt with esc := true, escSrc := src } }

/-- The history with an entry added (R499): the history, and whether an entry was lost. -/
def addHist (h : List HistEntry) (e : HistEntry) : List HistEntry × Bool :=
  if h.length < 32 then (h ++ [e], false)
  else match e.cls with
    | .fa =>
      let idx := (h.zipIdx.filter (fun p => decide (p.1.cls ≠ .fa))).map (·.2)
      match idx.getLast? with
      | none => (h, true)
      | some i => (h.eraseIdx i ++ [e], true)
    | _ => (h, true)

/-- The length of a class's escalation timer in ticks (R507). -/
def escLen (k : BitVec 5) : Nat := 10 * 2 ^ k.toNat

/-- A class timer after a TIMED source of the class latches: it starts if it is stopped (R507). -/
def startEsc (t : Option Esc) (due src : Nat) : Option Esc :=
  match t with
  | some e => some e
  | none => some { due := due, src := src }

/-- The timers after a TIMED source latches (R507). -/
def startTimers (f : Faults) (src now : Nat) : Faults :=
  if src = 7 then { f with tmrTherm := match f.tmrTherm with | some t => some t | none => some (now + 10) }
  else match srcClass src with
    | .ce => { f with tmrCe := startEsc f.tmrCe (now + escLen f.kce) src }
    | .uc => { f with tmrUc := startEsc f.tmrUc (now + escLen f.kuc) src }
    | .fa => { f with tmrFa := startEsc f.tmrFa (now + escLen f.kfa) src }

/-- The TIMED sources of a class that are latched and not acknowledged, in source order. -/
def timedOpen (f : Faults) (c : FClass) : List Nat :=
  (List.range 96).filter fun n =>
    f.latch.getLsbD n && !f.ack.getLsbD n && decide (srcClass n = c) && decide (vAt f.latchedPol n = 1) && decide (n ≠ 7)

/-- The CE and UC timers stop when no TIMED source of the class remains latched and unacknowledged (R507). -/
def settleTimers (f : Faults) : Faults :=
  { f with
    tmrCe := if (timedOpen f .ce).isEmpty then none else f.tmrCe
    tmrUc := if (timedOpen f .uc).isEmpty then none else f.tmrUc }

/-- Whether the collector runs: after internal reset release and outside OFF (R503, R533). -/
def collectorOn (s : State) : Bool := s.pwr.released && decide (s.pwr.pstate ≠ .off)

/-- The collector's registers after a source goes from unlatched to latched (R498 to R500, R505, R507). -/
def latchRegs (f : Faults) (src : Nat) (det : BitVec 32) (dt now : Nat) : Faults :=
  let e : HistEntry := { ets := dt, src := src, cls := srcClass src, det := det }
  let h := addHist f.hist e
  let p := vAt f.pol src
  let f' := { f with
    latch := setBit96 f.latch src true
    ack := setBit96 f.ack src false
    latchedPol := vSet f.latchedPol src p
    hist := h.1
    hovf := f.hovf || h.2
    first := match f.first with | some x => some x | none => some e
    legacy := f.legacy || decide (p = 2) }
  if p = 1 then startTimers f' src now else f'

/-- A fault state at the collector input of a source, with its detail: it latches and reacts under its policy, or counts in FLT_DUP if the
source is latched already (R498, R499, R503 to R507). -/
def latchFault (src : Nat) (det : BitVec 32) (s : State) : State :=
  if !collectorOn s then s
  else if s.flt.latch.getLsbD src then { s with flt.dup := satInc s.flt.dup }
  else
    let s1 := { s with flt := latchRegs s.flt src det s.dtime s.tick }
    let s2 := if atOrAbove (srcClass src) s1.link.fthr then
      formMsg 3 ([BitVec.ofNat 8 src, BitVec.ofNat 8 (clsNum (srcClass src)), 0, 0] ++ leB 4 det.toNat) s1 else s1
    if vAt s.flt.pol src = 2 then lossBegin true s2 else s2

/-- A fault state on the rails of a source, as the collector sees it: nothing is seen of a masked source (R496). -/
def raiseFault (src : Nat) (det : BitVec 32) (s : State) : State := if s.flt.masked.getLsbD src then s else latchFault src det s

/-- One latch cleared (R501); a fault state that persists latches the source again at once (R498). See log 68 (DESIGN CHOICE, unsafe). -/
def clearLatch (s : State) (src : Nat) : State :=
  if !s.flt.latch.getLsbD src then s
  else
    let s1 := { s with flt := settleTimers { s.flt with
      latch := setBit96 s.flt.latch src false, ack := setBit96 s.flt.ack src false } }
    if (s1.flt.present.getLsbD src || (s1.flt.force.getLsbD src && decide (src < 80))) && !s1.flt.masked.getLsbD src then
      raiseFault src (if s1.flt.present.getLsbD src then (look src s1.flt.detail).getD 0 else 0) s1
    else s1

/-- Every latch of a set cleared, in source order. -/
def clearLatches (s : State) (set : BitVec 96) : State :=
  ((List.range 96).filter fun n => set.getLsbD n).foldl clearLatch s

/-- FAULTn is asserted (R503): a latched source at or above FTHR, LEGACY_SAFE, or a sealed halt; released until the collector
runs. -/
def faultN (s : State) : Bool :=
  collectorOn s &&
    ((List.range 96).any (fun n => s.flt.latch.getLsbD n && atOrAbove (srcClass n) s.flt.fthr) || s.flt.legacy || s.pwr.fatal)

/-- The L6 request of the collector is asserted (R504). -/
def faultIrq (s : State) : Bool :=
  (List.range 96).any fun n => s.flt.latch.getLsbD n && !s.flt.ack.getLsbD n && atOrAbove (srcClass n) s.flt.ithr

/-- READY is high: mounted, in SERVICE, with no power-loss sequence and no sealed halt (R329, R528, R508). -/
def readyPin (s : State) : Bool := s.store.mounted && decide (s.pwr.phase = .service) && !s.pwr.fatal && !inLoss s

/-- HIRQ is high (R312, R329, R508). -/
def hirqPin (s : State) : Bool := s.link.hirqEn && decide (s.link.msgp ≠ 0) && !s.pwr.fatal && !inLoss s

/-- A source's fault state begins: it persists until it ends (R498). -/
def faultStateBegin (src : Nat) (det : BitVec 32) (s : State) : State :=
  raiseFault src det { s with flt := { s.flt with present := setBit96 s.flt.present src true, detail := put src det s.flt.detail } }

/-- A source's fault state ends. -/
def faultStateEnd (src : Nat) (s : State) : State :=
  { s with flt := { s.flt with present := setBit96 s.flt.present src false, detail := del src s.flt.detail } }

end Sys2Proof.Machine
end

