-- ==== Sys2Proof/Machine/Window.lean ====
section
/-! DEFINITION. The hold window and the credit account of Oasis. Voltages in mV, capacitance in nF, ESR in mΩ. -/
namespace Sys2Proof.Machine
open Sys2Proof

/-- V_floor in units of 10 µV (R81). -/
def vFloorU (esr : Option Nat) : Nat :=
  match esr with
  | none => 450000
  | some e => if e ≤ 500 then 450000 else 450000 + (e - 500) * 51

/-- The ESR that V_floor uses: this start's last measurement, else the one before the start (R81). -/
def esrUsed (o : Oasis) : Option Nat :=
  match o.esr with
  | some e => some e
  | none => o.esrLast

/-- V_floor in mV, rounded down. See log 43 (DESIGN CHOICE, safe). -/
def vFloorMv (o : Oasis) : Nat := vFloorU (esrUsed o) / 100

/-- C_use before the first measurement of a start (R80). See log 50 (DESIGN CHOICE, unsafe). -/
def cUseStart (o : Oasis) : Nat :=
  let est := if 2000 ≤ o.startV then some 220000 else o.cEst
  match est, o.cLast with
  | none, _ => 0
  | some e, none => e * 9 / 10
  | some e, some l => min l (e * 9 / 10)

/-- The bytes of the hold window at a VHOLD of `v` mV (R82), in exact arithmetic. The energy a MODE 1 test delivered, where it is
lower, stands in for E_cap × 0.88 (R102). -/
def winBytesAt (o : Oasis) (v : Nat) : Nat :=
  let vf := vFloorU (esrUsed o)
  let vh := min v 15000 * 100
  let d := vh * vh - vf * vf
  let fixed := 4 * 10 ^ 18 + o.budget * 10 ^ 15
  let full := (33 * o.cUse * d - fixed) / (75 * 10 ^ 10)
  let plain := if vh ≤ vf then 0 else full
  let b := match o.ederate with
    | none => plain
    | some (edel, _) =>
      let den := 1500000 * 1500000 - vf * vf
      if vh ≤ vf ∨ den = 0 then plain
      else if 100 * edel * 10 ^ 13 * d < 44 * o.cUse * d * den then
        (75 * edel * 10 ^ 13 * d - fixed * den) / (75 * 10 ^ 10 * den)
      else plain
  min 33554432 b

/-- The bytes of the window now: 0 in a MODE 1 test (R102), the 14.0 V window in a measurement (R79). CHGEN written 0 during a
measurement's recharge: whether the window then follows VHOLD (R108) or stays that of 14.0 V until 15.0 V (R79), the spec does not say; the
model keeps that of 14.0 V. See log 50 (DESIGN CHOICE, unsafe). -/
def winBytesNow (o : Oasis) : Nat :=
  if o.meas.mode1 then 0 else if o.meas.running then winBytesAt o 14000 else winBytesAt o o.vhold

/-- The account size in credits (R83). See log 50 (DESIGN CHOICE, unsafe). -/
def accountSize (o : Oasis) : Nat := max o.win 4096

/-- The available count in credits (R84). -/
def available (o : Oasis) : Nat := accountSize o - o.outst

/-- HW_HOLDWIN.ARRAYONLY: the window is below 16,384 credits (R83, R104). -/
def arrayOnly (o : Oasis) : Bool := decide (o.win < 16384)

/-- The window-change message (R311). See log 51 (DESIGN CHOICE, unsafe). -/
def windowMsg (s : State) : State :=
  let o := s.oas
  let fl := b2n (arrayOnly o) + 2 * b2n o.overV + 4 * b2n o.warn + 8 * b2n o.meas.running + 16 * b2n s.link.brNew
  formMsg 1 (leB 4 o.win ++ leB 4 (available o) ++ [BitVec.ofNat 8 fl]) { s with oas.winMsg := o.win }

/-- OVER follows the account (R89): its change sends a window-change message (R87), and its start raises HOLD_OVER.
See log 50 (DESIGN CHOICE, unsafe). -/
def checkOver (s : State) : State :=
  let isOver := decide (accountSize s.oas < s.oas.outst)
  if isOver = s.oas.overV then s
  else
    let s1 := windowMsg { s with oas.overV := isOver }
    if isOver then raiseFault 4 (BitVec.ofNat 32 (s1.oas.outst - accountSize s1.oas)) s1 else s1

/-- Whether the window has moved by 1/16 or more of its value at the last message, or has crossed 16,384 credits (R87). -/
def winMoved (old new atMsg : Nat) : Bool :=
  (decide (new ≠ atMsg) && decide (atMsg ≤ 16 * (if new < atMsg then atMsg - new else new - atMsg)))
    || (decide (old < 16384) != decide (new < 16384))

/-- The window recomputed (R82), with its message and OVER (R87, R89). -/
def recomputeW (s : State) : State :=
  let b := winBytesNow s.oas
  let w := b / 64
  let s1 := { s with oas := { s.oas with winBytes := b, win := w, winKnown := true } }
  let s2 := if winMoved s.oas.win w s.oas.winMsg then windowMsg s1 else s1
  checkOver s2

/-- A charge made against the account (R84). -/
def chargeCredits (n : Nat) (s : State) : State := { s with oas.outst := s.oas.outst + n }

/-- Whether a charge is admitted now (R84). -/
def chargeFits (n : Nat) (s : State) : Bool := decide (n ≤ available s.oas)

/-- Credits returned to the account, to be reported in CRED (R85, R86). -/
def returnCredits (n : Nat) (s : State) : State :=
  if n = 0 then s
  else checkOver { s with oas.outst := s.oas.outst - n, eng.credRet := s.eng.credRet + n }

/-- The floor of V_res is reached: VHOLD² × C_live ≤ V_floor² × C_live + 2 × 6.1 mJ (R93). -/
def atVres (o : Oasis) (cliveNf vMv : Nat) : Bool :=
  let v := vMv * 100
  let vf := vFloorU (esrUsed o)
  decide (v * v * cliveNf ≤ vf * vf * cliveNf + 122 * 10 ^ 15)

end Sys2Proof.Machine
end

