-- ==== Sys2Proof/Machine/Media.lean ====
section
/-! DEFINITION. Slots, the Playa pool, spare capacity and the monotonic counters. -/
namespace Sys2Proof.Machine
open Sys2Proof

/-- Slots in a bank (R113). -/
def bankSlots : Nat := 16614

/-- Whether a slot is good and neither mapped, held, a move's target nor waiting to be zeroed (R138, R212, R237). -/
def slotFree (i : SlotInfo) : Bool := !i.used && !i.retired && !i.failing && !i.held && !i.zeroing

/-- The number of the first slot of a bank: (16 × die + bank) × 16,614 (R126). -/
def bankBase (d b : Nat) : Nat := (16 * d + b) * bankSlots

/-- The slots of the main cells (R113). The slots of the 1-bit metadata area, 64 in each bank, are numbered on from here.
See log 60 (DESIGN CHOICE, unsafe). -/
def mainSlots : Nat := 128 * bankSlots

/-- Whether a slot lies in the 1-bit metadata area (R113, R115). -/
def metaSlot (n : Nat) : Bool := decide (mainSlots ≤ n)

/-- The die of a slot number. -/
def slotDie (n : Nat) : Nat := if n < mainSlots then n / bankSlots / 16 else (n - mainSlots) / 64 / 16

/-- The bank of a slot number. -/
def slotBank (n : Nat) : Nat := if n < mainSlots then n / bankSlots % 16 else (n - mainSlots) / 64 % 16

/-- The number of a slot within its bank. -/
def slotIn (n : Nat) : Nat := if n < mainSlots then n % bankSlots else (n - mainSlots) % 64

/-- The segment number of unit 0 of the metadata area (R126). -/
def metaBase : Nat := 0x200000

/-- The units of 64 codewords of the metadata area: 2 GiB (R113). See log 60 (DESIGN CHOICE, unsafe). -/
def metaUnits : Nat := 8192

/-- The units that hold segments: two boot slots of 260, the extension program store, and 716 MiB of heap segments (R115).
See log 60 (DESIGN CHOICE, unsafe). -/
def metaSegs : Nat := 3448

/-- The slot in which a unit of the metadata area was made: spread over the dies, then over their banks. The spec gives the tables and not
the placement. See log 60 (DESIGN CHOICE, unsafe). -/
def unitSlot (i : Nat) : Nat := mainSlots + (16 * (i % 8) + i / 8 % 16) * 64 + i / 128

/-- The map entry of a segment (R126): an entry of the segment map, or of the metadata map, whose segments are mapped from manufacture.
See log 60 (DESIGN CHOICE, unsafe). -/
def mapLook (s : State) (g : Nat) : Option MapEntry :=
  match look g s.arr.map with
  | some e => some e
  | none =>
    if metaBase ≤ g ∧ g < metaBase + metaSegs ∧ s.arr.metaGone.contains g = false then
      some { mig := false, kind := if g - metaBase < 584 then 2 else 3, gen := 0, slot := unitSlot (g - metaBase) }
    else none

/-- The segment a slot holds. -/
def slotSeg (s : State) (n : Nat) : Option Nat :=
  match (slotOf s n).seg with
  | some g => some g
  | none =>
    let i := (n - mainSlots) / 1024 + 8 * ((n - mainSlots) / 64 % 16) + 128 * ((n - mainSlots) % 64)
    if metaSlot n then (match mapLook s (metaBase + i) with | some e => if e.slot = n then some (metaBase + i) else none | none => none)
    else none

/-- The listed slots of a bank, ascending. -/
def bankListed (s : State) (d b : Nat) : List (Nat × SlotInfo) :=
  s.arr.slots.filter fun e => decide (bankBase d b ≤ e.1) && decide (e.1 < bankBase d b + bankSlots)

/-- The slots of a bank that are not free, ascending, from 0 within the bank. -/
def bankTaken (s : State) (d b : Nat) : List Nat :=
  ((bankListed s d b).filter fun e => !slotFree e.2).map fun e => e.1 - bankBase d b

/-- The free slot of rank `k` where the taken ones are given in ascending order. -/
def nthFree (k : Nat) (taken : List Nat) : Nat := taken.foldl (fun c x => if x ≤ c then c + 1 else c) k

/-- Reserved spare slots left on a die (R113, R137). See log 60 (DESIGN CHOICE, unsafe). -/
def dieSpare (s : State) (d : Nat) : Nat := (dieOf s d).bankSpare.toList.sum

/-- Spare rows left on a die (R113, R149). -/
def dieRows (s : State) (d : Nat) : Nat := (dieOf s d).bankRows.toList.sum

/-- Free slots of a bank outside its reserved spare slots. See log 60 (DESIGN CHOICE, unsafe). -/
def bankFree (s : State) (d b : Nat) : Nat := bankSlots - (bankTaken s d b).length - vAt (dieOf s d).bankSpare b

/-- Free slots of a die in the Playa pool (R138). See log 60 (DESIGN CHOICE, unsafe). -/
def dieFree (s : State) (d : Nat) : Nat := ((List.range 16).map (bankFree s d)).sum

/-- The Playa free count (R138, R143). -/
def playaFree (s : State) : Nat := ((List.range 8).map (dieFree s)).sum

/-- The free count that R139 and R140 test: slots of each die's journal reserve count as not free (R138). -/
def playaFreeTest (s : State) : Nat := ((List.range 8).map fun d => dieFree s d - 4).sum

/-- How many of the lowest `lim` free slots of a die lie in banks below `b`. -/
def freeBelow (s : State) (d lim b : Nat) : Nat := min lim (((List.range b).map (bankFree s d)).sum)

/-- How many of the lowest `lim` free slots of a die lie in bank `b`: its share of the floor (R138). See log 60 (DESIGN CHOICE, unsafe). -/
def floorIn (s : State) (d lim b : Nat) : Nat := min (lim - freeBelow s d lim b) (bankFree s d b)

/-- The count of the lowest free slots of a die that an allocation may not take (R138): 64, or the 4 of the journal reserve where it
may draw on the floor, or none for stream 0 when nothing else is left. -/
inductive Draw where
  | playa
  | floor
  | journal
  deriving DecidableEq, Repr, Inhabited

/-- Slots kept back from an allocation. See log 60 (DESIGN CHOICE, unsafe). -/
def drawKeeps : Draw → Nat
  | .playa => 64
  | .floor => 4
  | .journal => 0

/-- Free slots of bank `b` that an allocation may take. -/
def bankAvail (s : State) (d : Nat) (w : Draw) (b : Nat) : Nat := bankFree s d b - floorIn s d (drawKeeps w) b

/-- Free slots of a die that an allocation may take. -/
def dieAvail (s : State) (d : Nat) (w : Draw) : Nat := ((List.range 16).map (bankAvail s d w)).sum

/-- The first element with the greatest measure. See log 60 (DESIGN CHOICE, unsafe). -/
def argMax (f : Nat → Nat) : List Nat → Option Nat
  | [] => none
  | a :: l =>
    match argMax f l with
    | none => some a
    | some b => if f b ≤ f a then some a else some b

/-- The first element with the least measure. See log 60 (DESIGN CHOICE, unsafe). -/
def argMin (f : Nat → Nat) : List Nat → Option Nat
  | [] => none
  | a :: l =>
    match argMin f l with
    | none => some a
    | some b => if f a ≤ f b then some a else some b

/-- The slot an allocation takes on a die: the bank with the most free slots it may take, and there the slot with the lowest
programme count (R119). See log 60 (DESIGN CHOICE, unsafe). -/
def allocOnDie (s : State) (d : Nat) (w : Draw) : Option Nat :=
  match argMax (bankAvail s d w) (List.range 16) with
  | none => none
  | some b =>
    if bankAvail s d w b = 0 then none
    else
      let kept := floorIn s d (drawKeeps w) b
      let taken := bankTaken s d b
      let listed := ((bankListed s d b).filter fun e => slotFree e.2).length
      let cands := (List.range (min (bankAvail s d w b) (listed + 1))).map fun i => bankBase d b + nthFree (kept + i) taken
      argMin (fun n => (slotOf s n).prog) cands

/-- The reserved spare slot an evacuation takes on a die: in the bank given first, else in the lowest bank with one left.
See log 60 (DESIGN CHOICE, unsafe). -/
def spareOnDie (s : State) (d b : Nat) : Option Nat :=
  match (b :: List.range 16).find? fun x => decide (0 < vAt (dieOf s d).bankSpare x) with
  | none => none
  | some x => some (bankBase d x + nthFree (bankFree s d x) (bankTaken s d x))

/-- OP: good slots, those not retired, less the reserved spare slots left and the user capacity (R136). -/
def overProv (s : State) : Int := 2126592 - (s.arr.retired : Int) - (((List.range 8).map (dieSpare s)).sum : Nat) - 2097152

/-- S, in slot equivalents (R136). -/
def spareCap (s : State) : Int :=
  ((((List.range 8).map (dieRows s)).sum / 16 + ((List.range 8).map (dieSpare s)).sum : Nat) : Int) + overProv s

/-- The Sabkha threshold T (R136). -/
def sabkhaT : Int := 20972

/-- A media-state message (R311). See log 51 (DESIGN CHOICE, unsafe). -/
def mediaMsg (s : State) : State :=
  formMsg 2 ([BitVec.ofNat 8 (mediaNum s.arr.media), BitVec.ofNat 8 s.arr.sirocco, 0, 0] ++ leB 4 (ofSigned 32 (spareCap s))
    ++ leB 4 (playaFree s)) s

/-- The lowest logical segment number not in use. See log 60 (DESIGN CHOICE, unsafe). -/
def freeSegno (s : State) : Nat :=
  nthFree 0 ((s.arr.map.filter fun e => decide (e.1 < metaBase)).map (·.1))

/-- Whether every logical segment number is in use (R126). -/
def segnosOut (s : State) (more : Nat) : Bool := decide (metaBase ≤ (s.arr.map.filter fun e => decide (e.1 < metaBase)).length + more)

/-- A segment number mapped to a slot, with its programme counted and its shell pair set (R126, R127). The spec gives GEN's increment at a
move and not the GEN of a new mapping: the model takes one more than the slot's last. See log 60 (DESIGN CHOICE, unsafe). -/
def mapSeg (s : State) (g slot kind : Nat) : State :=
  let gen := ((slotOf s slot).gen + 1) % 4096
  let s1 := updSlot s slot fun i => { i with used := true, prog := i.prog + 1, gen := gen, seg := some g }
  { s1 with arr.map := put g { mig := false, kind := kind, gen := gen, slot := slot } s1.arr.map }

/-- What a move leaves when its segment goes: the slot that does not hold the segment is free again, a reserved spare slot with it,
and a failing slot waits again for its retirement (R128, R137). See log 60 (DESIGN CHOICE, unsafe). -/
def dropMove (m : MoveSt) (s : State) : State :=
  let s1 := updSlot s (if m.sealed then m.src else m.dst) fun i => { i with used := false, seg := none }
  let s2 := if m.spare && !m.sealed then
      updDie s1 (slotDie m.dst) fun x => { x with bankSpare := vUpd x.bankSpare (slotBank m.dst) (· + 1) } else s1
  if m.evac then { s2 with arr.evacPending := s2.arr.evacPending ++ [m.src] } else s2

/-- The moves of a segment ended, because the segment goes. -/
def dropMoves (g : Nat) (s : State) : State :=
  let s1 := s.arr.moves.toList.foldl (fun t m => match m with | some x => if x.segno = g then dropMove x t else t | none => t) s
  { s1 with arr.moves := vMap (fun m => match m with | some x => if x.segno = g then none else m | none => m) s1.arr.moves }

/-- A segment unmapped; its slot returns to the Playa pool, unless the boot window holds it (R138, R237). -/
def unmapSeg (s0 : State) (g : Nat) : State :=
  let s := dropMoves g s0
  match mapLook s g with
  | none => { s with arr.segs := del g s.arr.segs }
  | some e =>
    let s1 := updSlot s e.slot fun i => { i with used := false, seg := none }
    { s1 with
      arr.map := del g s1.arr.map
      arr.metaGone := if metaBase ≤ g then s1.arr.metaGone ++ [g] else s1.arr.metaGone
      arr.segs := del g s1.arr.segs
      arr.writes := s1.arr.writes.filter fun w => w.segno != g
      arr.dies := vMap (fun x => { x with
        tailLive := x.tailLive.filter fun t => t.segno != g, refresh := x.refresh.filter fun e => e.1 != g }) s1.arr.dies
      arr.heapBad := s1.arr.heapBad.filter fun e => e.1 != g
      mem.seg := s1.mem.seg.filter fun e => e.1 / 131072 != g
      cache.mapCache := s1.cache.mapCache.filter (· != g) }

/-- The die of a segment. -/
def segDie (s : State) (g : Nat) : Nat :=
  match mapLook s g with
  | some e => slotDie e.slot
  | none => 0

/-- The GEN of a segment's map entry (R126, R127). -/
def segGen (s : State) (g : Nat) : Nat :=
  match mapLook s g with
  | some e => e.gen
  | none => 0

/-- A monotonic counter increased by one (R205). -/
def bumpCounter (i : Nat) (s : State) : State :=
  { s with vtf.counters := vUpd s.vtf.counters i (· + 1), vtf.bumps := vUpd s.vtf.bumps i (· + 1) }

/-- The next value of the seal counter, with its block reserved (R206). -/
def issueSeal (s : State) : Nat × State :=
  if s.vtf.sealNext < s.vtf.sealEnd then (s.vtf.sealNext, { s with vtf.sealNext := s.vtf.sealNext + 1 })
  else
    let base := vAt s.vtf.counters 0
    (base + 1, { s with vtf := { s.vtf with
      counters := vSet s.vtf.counters 0 (base + 65536), sealNext := base + 2, sealEnd := base + 65537 } })

end Sys2Proof.Machine
end

