-- ==== Sys2Proof/Machine/Records.lean ====
section
/-! DEFINITION. Records and segments: how a record enters staging, how the Wadi sequencers place and write it, seals, jobs. -/
namespace Sys2Proof.Machine
open Sys2Proof

/-- Hold credits of a record with a payload of `n` bytes (R19). -/
def creditsFor (n : Nat) : Nat := ceilDiv (32 + n) 64

/-- Stored size of a record with a payload of `n` bytes (R34). -/
def storedSize (n : Nat) : Nat := roundUp 16 (32 + n)

/-- Header bytes 0 to 19 of a record (R34). -/
def recHead20 (sid : Nat) (r : Rec) : List Byte :=
  leB 4 (sid + r.sidf * 2 ^ 20) ++ leB 6 r.seq ++ leB 2 (r.payload.length - 1) ++ leB 8 r.ts

/-- Header bytes 0 to 23: with the CRC (R36). -/
def recHead24 (sid : Nat) (r : Rec) : List Byte := recHead20 sid r ++ leB 4 r.crc.toNat

/-- A record in stored form (R34). -/
def recStored (sid : Nat) (r : Rec) : List Byte :=
  padTo (storedSize r.payload.length) (recHead24 sid r ++ r.chain.take 8 ++ r.payload)

/-- A chain value extended by a record (R203). -/
def chainNext (c : List Byte) (sid : Nat) (r : Rec) : List Byte :=
  (Config.sha256 (c ++ recHead24 sid r ++ r.payload)).toList

/-- ASCII bytes of a name. -/
def ascii (t : String) : List Byte := t.toList.map fun c => BitVec.ofNat 8 c.toNat

/-- The start value of a stream's chain (R203). -/
def chainStart (sid gen : Nat) : List Byte :=
  (Config.sha256 (ascii "ZZ-CHAIN-V1" ++ leB 4 sid ++ leB 4 gen ++ Config.devId.toList)).toList

/-- The start value of an early-log half's chain (R203). -/
def earlyChainStart (half mount : Nat) : List Byte :=
  (Config.sha256 (ascii "ZZ-EARLY-V1" ++ leB 1 half ++ leB 4 mount ++ Config.devId.toList)).toList

/-- A record with its check code and chain filled in, over the chain before it (R34, R36, R203). -/
def finishRec (c : List Byte) (sid : Nat) (r : Rec) : Rec :=
  let r1 := { r with crc := crc32c (recHead20 sid r ++ r.payload) }
  { r1 with chain := chainNext c sid r1 }

/-- The greatest sequence number (R38). -/
def seqMax : Nat := 0xFFFFFFFFFFFF

/-- A record admitted to a stream: it takes the next number and device time, extends the chain and enters staging, and its
credits are charged (R17, R21, R40, R43). -/
def addRec (sid : Nat) (r : Rec) (s : State) : State :=
  match streamOf s sid with
  | none => s
  | some st =>
    let r1 := finishRec st.chain sid { r with seq := st.next, stagedAt := s.tick, credits := creditsFor r.payload.length
                                              key := (st.keys.head?).getD 0 }
    let st1 := { st with next := st.next + 1, chain := r1.chain, recs := st.recs ++ [r1] }
    chargeCredits r1.credits
      { s with store := { s.store with
          streams := put sid st1 s.store.streams
          staging := s.store.staging ++ [(sid, st.next)] } }

/-- The record of a stream with a sequence number. -/
def recOf (st : Stream) (seq : Nat) : Option Rec := st.recs.find? fun r => r.seq == seq

/-- The record of a stream as it stands, if its stream and it exist. -/
def recAt (s : State) (sid seq : Nat) : Option Rec := (streamOf s sid).bind fun st => recOf st seq

/-- One record changed. -/
def updRec (s : State) (sid seq : Nat) (f : Rec → Rec) : State :=
  updStream s sid fun st => { st with recs := st.recs.map fun r => if r.seq = seq then f r else r }

/-- The payload of a device record (R43). -/
def devPayload (dtype subj : Nat) (body : List Byte) : List Byte := leB 2 dtype ++ zeros 2 ++ leB 4 subj ++ body

/-- SUBJ of a record that concerns no single stream. -/
def noSubj : Nat := 0xFFFFFFFF

/-- The open train that holds a stream (R63). -/
def trainHolding (s : State) (sid : Nat) : Option Train :=
  s.eng.trains.find? fun t => decide (t.st = .opened) && t.members.any fun m => m.sid == sid

/-- A device record written into stream 0 in ARRAY fashion, ahead of any host append that waits: it is journalled, and staged at
once if its charge fits, nothing waits before it, no open train holds stream 0 and no lost record of it has still to be named (R43, R63,
R84, R98). With no stream 0 there is none. -/
def writeDev (payload : List Byte) (job : Option Nat) (s : State) : State :=
  match streamOf s 0 with
  | none => s
  | some st =>
    if s.store.waiting.isEmpty && !s.prev.lost && (trainHolding s 0).isNone && chargeFits (creditsFor payload.length) s then
      let s1 := addRec 0 { Rec.reset with sidf := 0x010, ts := s.dtime, payload := payload, array := true, job := job } s
      { s1 with store.devJournal := put st.next payload s1.store.devJournal }
    else { s with store.waiting := s.store.waiting ++ [(job, payload)] }

/-- The device records that wait, staged as far as credit admits and once no open train holds stream 0 (R63, R84). -/
def releaseWaiting (s : State) : State :=
  let step := fun (t : State) =>
    match t.store.waiting with
    | [] => t
    | (j, p) :: rest =>
      if chargeFits (creditsFor p.length) t && (trainHolding t 0).isNone then writeDev' t j p rest else t
  iter step s.store.waiting.length s
where
  writeDev' (t : State) (j : Option Nat) (p : List Byte) (rest : List (Option Nat × List Byte)) : State :=
    let t1 := writeDev p j { t with store.waiting := [] }
    { t1 with store.waiting := rest }

/-- The bytes staged for a die: records placed on it and not written, and unplaced records of streams whose open segment is on
it (R119). -/
def stagedBytes (s : State) (d : Nat) : Nat :=
  (s.store.staging.map fun e =>
    match streamOf s e.1 with
    | none => 0
    | some st =>
      match recOf st e.2 with
      | none => 0
      | some r =>
        let g := match r.place with
          | some p => some p.segno
          | none => if st.attr.shared then (s.arr.openShared.find? fun x => x.1 == st.attr.cls).map (·.2) else st.openSeg
        match g with
        | some g => if segDie s g = d then 32 + r.payload.length else 0
        | none => 0).sum

/-- The open segment that takes a stream's next record (R48). -/
def openSegOf (s : State) (st : Stream) : Option Nat :=
  if st.attr.shared then (s.arr.openShared.find? fun x => x.1 == st.attr.cls).map (·.2) else st.openSeg

/-- Whether a record of a stored size fits in a segment before the space held back for the trailer, and the segment takes the
stream (R48, R50). -/
def segTakes (g : SegSt) (sid size : Nat) : Bool :=
  let n := if g.sids.contains sid then g.sids.length else g.sids.length + 1
  decide (n ≤ 32) && decide (g.fill + size + 64 + 64 * n + 64 ≤ 262144)

/-- Where an allocation for a record draws its slot: stream 0 and a record merged from the early log may draw on the floor and choose
among all the slots they may take (R119); stream 0 draws on the journal reserve last (R138). -/
def drawFor (s : State) (sid : Nat) (r : Rec) : Draw :=
  if sid = 0 then (if (List.range 8).any fun d => decide (0 < dieAvail s d .floor) then .floor else .journal)
  else if r.early.isSome then .floor else .playa

/-- The die on which a stream's next segment opens: of those with a slot to take, the one with the fewest staged bytes (R119). -/
def chooseDie (s : State) (w : Draw) : Option Nat :=
  argMin (stagedBytes s) ((List.range 8).filter fun d => decide (0 < dieAvail s d w))

/-- A new segment opened for a stream on a die (R48, R49, R119). -/
def openSegOn (s : State) (sid : Nat) (st : Stream) (d : Nat) (w : Draw) : Option (Nat × State) :=
  match if segnosOut s 0 then none else allocOnDie s d w with
  | none => none
  | some slot =>
    let g := freeSegno s
    let seg : SegSt := { SegSt.reset with
      kind := if st.attr.shared then .shared else .owned
      owner := if st.attr.shared then 0xFFFFFFFF else sid
      cls := st.attr.cls
      openTs := s.dtime
      mount := s.store.mountCount
      key := if st.attr.shared then clsCode st.attr.cls else (st.keys.head?).getD 0 }
    let s1 := mapSeg s g slot 0
    let s2 := { s1 with arr.segs := put g seg s1.arr.segs }
    let s3 := if st.attr.shared then
        { s2 with arr.openShared := (s2.arr.openShared.filter fun x => x.1 != st.attr.cls) ++ [(st.attr.cls, g)] }
      else updStream s2 sid fun x => { x with openSeg := some g }
    some (g, s3)

/-- The records with a part in a codeword whose write is awaited. -/
def coversOf (s : State) (g cw : Nat) : List (Nat × Nat) :=
  match segOf s g with
  | none => []
  | some seg => seg.sids.flatMap fun sid =>
    match streamOf s sid with
    | none => []
    | some st =>
      (st.recs.filter fun r => (match r.place with | some p => p.segno == g | none => false) && r.cws.contains cw).map
        fun r => (sid, r.seq)

/-- A codeword write issued to the segment's die (R116, R117). -/
def issueWrite (g cw : Nat) (tail : Bool) (job : Option Nat) (s : State) : State :=
  { s with arr.writes := s.arr.writes ++
      [{ die := segDie s g, segno := g, gen := segGen s g, cw := cw, tail := tail, covers := coversOf s g cw, job := job }] }

/-- An entry of a seal trailer after a record of its stream is placed (R50). -/
def entryAdd (es : List SegEntry) (sid prev seq : Nat) (chain : List Byte) : List SegEntry :=
  match es with
  | [] => [{ sid := sid, prev := prev, first := seq, last := seq, count := 1, chain := chain }]
  | e :: rest =>
    if e.sid = sid then { e with last := seq, count := e.count + 1, chain := chain } :: rest
    else if sid < e.sid then { sid := sid, prev := prev, first := seq, last := seq, count := 1, chain := chain } :: e :: rest
    else e :: entryAdd rest sid prev seq chain

/-- The codewords that a seal of a segment writes: from the one its last record ends in to the end of the trailer (R50, R117). -/
def trailerCws (x : SegSt) : List Nat :=
  let first := x.fill / 4096
  let last := (x.fill + 64 + 64 * x.entries.length + 63) / 4096
  (List.range (last + 1 - first)).map (· + first)

/-- A segment sealed with a cause: the next value of the seal counter, the trailer, and home writes of the last codewords (R50,
R59, R117, R204). The count is of the writes issued. -/
def sealSegment (g cause : Nat) (job : Option Nat) (s : State) : Nat × State :=
  match segOf s g with
  | none => (0, s)
  | some seg =>
    if seg.sealed.isSome then (0, s)
    else
      let v := issueSeal s
      let info : SealInfo := { SealInfo.reset with
        cause := cause, used := seg.fill, nrec := (seg.entries.map (·.count)).sum, sealTs := s.dtime, sctr := v.1
        entries := seg.entries }
      let s1 := updSeg v.2 g fun x => { x with sealed := some info }
      let s2 := { s1 with arr.openShared := s1.arr.openShared.filter fun x => x.2 != g }
      let s3 := if seg.kind = .owned then
          updStream s2 seg.owner fun x => { x with openSeg := if x.openSeg = some g then none else x.openSeg }
        else s2
      let cws := trailerCws seg
      (cws.length, cws.foldl (fun t k => issueWrite g k false job t) s3)

/-- A record placed in an open segment: its position, the trailer entry of its stream, its codewords, and the writes that are
due: every codeword now full, and the last one in part where the record is in ARRAY mode or the flush runs (R46, R49, R117). -/
def placeIn (g sid : Nat) (r : Rec) (s : State) : State :=
  match segOf s g, streamOf s sid with
  | some seg, some st =>
    let size := storedSize r.payload.length
    let off := seg.fill
    let fill := off + size
    let first := off / 4096
    let last := (fill - 1) / 4096
    let cws := (List.range (last + 1 - first)).map (· + first)
    let prev := match (st.segs.filter (· != g)).getLast? with | some p => p | none => 0xFFFFFFFF
    let s1 := updSeg s g fun x => { x with
      fill := fill
      sids := if x.sids.contains sid then x.sids else x.sids ++ [sid]
      entries := entryAdd x.entries sid prev r.seq r.chain }
    let s2 := updStream s1 sid fun x => { x with segs := if x.segs.contains g then x.segs else x.segs ++ [g] }
    let s3 := updRec s2 sid r.seq fun x => { x with place := some { segno := g, off := off }, cws := cws }
    let s4 := (cws.filter fun k => decide ((k + 1) * 4096 ≤ fill)).foldl (fun t k => issueWrite g k false none t) s3
    if decide (fill % 4096 ≠ 0) && (r.array || decide (s.pwr.seq = .flush)) then issueWrite g last true none s4 else s4
  | _, _ => s

/-- Whether the HOLD reply of a record still waits: it may not drain before that reply (R17, R53). -/
def replyWaits (s : State) (r : Rec) : Bool :=
  !r.array && (match r.job with | some j => s.eng.jobs.any fun x => x.id == j | none => false)

/-- The next record of a stream that has no position yet, unless it is a member of an open train (R63) its HOLD reply waits
(R17), or a start has yet to act on the power loss before it (R97, R98). See log 58 (DESIGN CHOICE, unsafe). -/
def nextUnplaced (s : State) (sid : Nat) : Option Rec :=
  match if s.prev.lost then none else streamOf s sid with
  | none => none
  | some st =>
    match st.recs.find? fun r => decide (r.place = none) && !r.written with
    | none => none
    | some r =>
      if replyWaits s r then none
      else if s.eng.jobs.any fun j => match j.kind with | .sealWait k _ upto => k == sid && decide (upto < r.seq) | _ => false then none
      else match r.train with
      | none => some r
      | some t => if s.eng.trains.any fun x => x.tid == t && decide (x.st = .opened) then none else some r

/-- The die that writes a stream's next record, and whether it needs a new segment. See log 58 (DESIGN CHOICE, unsafe). -/
def nextDie (s : State) (sid : Nat) (r : Rec) : Option (Nat × Option Nat) :=
  match streamOf s sid with
  | none => none
  | some st =>
    let fresh := (chooseDie s (drawFor s sid r)).map fun d => (d, none)
    match openSegOf s st with
    | none => fresh
    | some g =>
      match segOf s g with
      | none => fresh
      | some seg => if segTakes seg sid (storedSize r.payload.length) then some (segDie s g, some g) else fresh

/-- The first stream in staging order whose next record a die writes. See log 58 (DESIGN CHOICE, unsafe). -/
def drainPick (s : State) (d : Nat) : Option (Nat × Rec × Option Nat) :=
  (s.store.staging.map (·.1)).findSome? fun sid =>
    match nextUnplaced s sid with
    | none => none
    | some r =>
      match nextDie s sid r with
      | some (e, g) => if e = d then some (sid, r, g) else none
      | none => none

/-- A stream's next record placed: in its open segment, or in a new one after the old is sealed as full (R48, R50). -/
def placeNext (sid : Nat) (r : Rec) (g : Option Nat) (d : Nat) (s : State) : State :=
  match g with
  | some g => placeIn g sid r s
  | none =>
    match streamOf s sid with
    | none => s
    | some st =>
      let s1 := match openSegOf s st with
        | some old => (sealSegment old 1 none s).2
        | none => s
      match openSegOn s1 sid st d (drawFor s sid r) with
      | none => s
      | some (g, s2) => placeIn g sid r s2

/-- One job's record, by name. -/
def jobOf (s : State) (j : Nat) : Option Job := s.eng.jobs.find? fun x => x.id == j

/-- A job changed. -/
def updJob (s : State) (j : Nat) (f : Job → Job) : State :=
  { s with eng.jobs := s.eng.jobs.map fun x => if x.id = j then f x else x }

/-- A new job. See log 44 (DESIGN CHOICE, unsafe). -/
def newJob (waits : Nat) (replies : List Reply) (barrier : Bool) (kind : JobKind) (s : State) : Nat × State :=
  (s.eng.nextId, { s with eng := { s.eng with
    jobs := s.eng.jobs ++ [{ id := s.eng.nextId, waits := waits, replies := replies, barrier := barrier, kind := kind }]
    nextId := s.eng.nextId + 1 } })

/-- A record whose reply is formed now (R93, R100): none is in a loss sequence, nor for an append with NOREPLY (R245). -/
def ackRec (sid seq : Nat) (s : State) : State :=
  match (streamOf s sid).bind fun st => recOf st seq with
  | none => s
  | some r =>
    if inLoss s || r.nrep then s
    else { updRec s sid seq (fun x => { x with acked := true }) with
      store.snapReply := put sid (max seq ((look sid s.store.snapReply).getD 0)) s.store.snapReply }

/-- The host records whose replies a job's end forms, with the record that now leaves staging. -/
def ackJob (j : Nat) (s : State) : State :=
  (s.store.streams.flatMap fun e => (e.2.recs.filter fun r => decide (r.job = some j) && !r.sidf.testBit 4).map
    fun r => (e.1, r.seq)).foldl (fun t x => ackRec x.1 x.2 t) s

/-- A job completed: its replies are formed in order and it ends (R254). See log 44 (DESIGN CHOICE, unsafe). -/
def finishJob (j : Nat) (s : State) : State :=
  match jobOf s j with
  | none => s
  | some x =>
    let s1 := if x.kind = .append then ackJob j s else s
    x.replies.foldl (fun t r => formReply r t) { s1 with eng.jobs := s1.eng.jobs.filter fun y => y.id != j }

/-- One of a job's writes done; the job completes with its last. See log 44 (DESIGN CHOICE, unsafe). -/
def jobWrite (j : Option Nat) (s : State) : State :=
  match j with
  | none => s
  | some j =>
    match jobOf s j with
    | none => s
    | some x =>
      if x.waits ≤ 1 then
        match x.kind with
        | .plain | .append | .deleteJob _ => finishJob j (updJob s j fun y => { y with waits := 0 })
        | _ => updJob s j fun y => { y with waits := 0 }
      else updJob s j fun y => { y with waits := y.waits - 1 }

/-- A train whose every member has returned its credits is drained: its descriptor's credits return (R85). -/
def settleTrain (t : Option Nat) (s : State) : State :=
  match t with
  | none => s
  | some t =>
    match s.eng.trains.find? fun x => x.tid == t with
    | none => s
    | some tr =>
      let open' := tr.members.any fun m => s.store.staging.contains (m.sid, m.seq)
      if decide (tr.st = .committed) && !open' then
        returnCredits tr.descr { s with eng.trains := s.eng.trains.filter fun x => x.tid != t }
      else s

/-- A half of the early log whose records have all been merged or dropped: its MERGE record is written, and it is free again (R72, R74). -/
def finishHalf (h : Nat) (s : State) : State :=
  let y := vAt s.store.halves h
  if y.recs.isEmpty && decide (y.merged + y.dropped ≠ 0) then
    let body := leB 1 h ++ zeros 3 ++ leB 4 y.merged ++ leB 4 y.lastSeg ++ leB 4 y.dropped
    let kept : Half := { Half.reset with segs := y.segs, top := y.top, born := y.born }
    writeDev (devPayload 0x0005 noSubj body) none { s with store.halves := vSet s.store.halves h kept }
  else s

/-- The early record a merge has now written in its stream leaves its half (R5, R72, R74). -/
def earlyMerged (e : Option (Nat × Nat)) (s : State) : State :=
  match e with
  | none => s
  | some (h, i) =>
    if (vAt s.store.halves h).recs.any fun x => x.index == i && x.merging.isSome then
      finishHalf h { s with store.halves := vUpd s.store.halves h fun x => { x with
        recs := x.recs.filter fun y => y.index != i, merged := x.merged + 1 } }
    else s

/-- A record written: it leaves staging, its credits return, and what waits for it goes on (R46, R85). -/
def recWritten (sid : Nat) (r : Rec) (s : State) : State :=
  let s1 := updStream (updRec s sid r.seq fun x => { x with written := true, credits := 0, early := none }) sid fun x => { x with chainW := r.chain }
  let s2 := { s1 with store := { s1.store with
    staging := s1.store.staging.filter (· != (sid, r.seq))
    devJournal := if sid = 0 then del r.seq s1.store.devJournal else s1.store.devJournal } }
  let s3 := earlyMerged r.early (returnCredits r.credits s2)
  releaseWaiting (settleTrain r.train (if r.array then jobWrite r.job s3 else s3))

/-- Records of a stream become written in sequence order, once every codeword of each is (R21, R46). -/
def settleStream (sid : Nat) (s : State) : State :=
  let step := fun (t : State) =>
    match streamOf t sid with
    | none => t
    | some st =>
      match st.recs.find? fun r => !r.written with
      | none => t
      | some r => if r.place.isSome && r.cws.isEmpty then recWritten sid r t else t
  iter step (match streamOf s sid with | none => 0 | some st => st.recs.length) s

/-- Whether a record no longer holds back a seal of segment `g`: it is written, or all it waits for is the segment's last, partly
filled codeword, which the seal writes (R59, R117). -/
def sealReady (g : Option (Nat × SegSt)) (r : Rec) : Bool :=
  r.written ||
    match g, r.place with
    | some (n, seg), some p => p.segno == n && r.cws.all fun k => k == seg.fill / 4096 && decide (seg.fill % 4096 ≠ 0)
    | _, _ => false

/-- A STREAM_SEAL whose earlier records no longer hold it back goes on to seal the stream's open segment (R59, R273). -/
def settleSeals (s : State) : State :=
  s.eng.jobs.foldl (fun t j =>
    match j.kind with
    | .sealWait sid final upto =>
      match streamOf t sid with
      | none => t
      | some st =>
        let g := (openSegOf t st).bind fun n => (segOf t n).map fun seg => (n, seg)
        if st.recs.all fun r => sealReady g r || decide (upto < r.seq) then
          match g with
          | none =>
            finishJob j.id (updJob t j.id fun y => { y with replies := y.replies.map fun p => { p with res := 0xFFFFFFFF } })
          | some (n, _) =>
            let u := sealSegment n (if seqMax ≤ upto then 4 else if final then 3 else 2) (some j.id) t
            updJob u.2 j.id fun y => { y with
              waits := u.1, kind := .plain, replies := y.replies.map fun p => { p with res := BitVec.ofNat 32 n } }
        else t
    | _ => t) s

/-- The tail ring's write position made free for one entry: a live entry that the position reaches is copied to it first (R118 rule 1).
See log 66 (DEDUCED, unsafe). -/
def tailRoom (x : Die) : Die :=
  let stepCopy := fun (p : List TailEntry × Nat) =>
    let nxt := (p.2 + 1) % 32768
    if p.1.any fun t => t.pos == nxt then (p.1.map fun t => if t.pos = nxt then { t with pos := p.2 } else t, nxt) else p
  let q := iter stepCopy x.tailLive.length (x.tailLive, x.tailPos)
  { x with tailLive := q.1, tailPos := q.2 }

/-- A codeword's tail entry written at the ring's write position; an older entry of the codeword is dead (R117, R118). -/
def tailPush (g cw : Nat) (x : Die) : Die :=
  let y := tailRoom { x with tailLive := x.tailLive.filter fun t => !(t.segno == g && t.cw == cw) }
  { y with tailLive := y.tailLive ++ [{ segno := g, cw := cw, pos := y.tailPos }], tailPos := (y.tailPos + 1) % 32768 }

/-- A codeword's tail entries on every die dead: its home position is written (R117, R118). -/
def tailClear (g cw : Nat) (s : State) : State :=
  { s with arr.dies := vMap (fun x => { x with tailLive := x.tailLive.filter fun t => !(t.segno == g && t.cw == cw) }) s.arr.dies }

/-- At 30,720 live entries the segments that own the oldest are sealed until 28,672 or fewer would stay live (R118 rule 2); not
in the power-loss flush (rule 4). -/
def tailRule2 (d : Nat) (s : State) : State :=
  if (dieOf s d).tailLive.length < 30720 || inLoss s then s
  else
    let step := fun (t : State) =>
      let left := (dieOf t d).tailLive.filter fun e =>
        match segOf t e.segno with | some g => g.sealed.isNone | none => false
      if left.length ≤ 28672 then t
      else match left with
        | [] => t
        | e :: _ => (sealSegment e.segno 2 none t).2
    iter step 30720 s

/-- A write of a codeword verified: home writes end the codeword's tail entries; the records it covers have one codeword less to
wait for (R46, R117). -/
def writeVerified (w : CwWrite) (s : State) : State :=
  let s1 := if w.tail then tailRule2 w.die (updDie s w.die (tailPush w.segno w.cw))
    else
      updSeg (tailClear w.segno w.cw s) w.segno fun g => { g with home := if g.home.contains w.cw then g.home else g.home ++ [w.cw] }
  let s2 := w.covers.foldl (fun t e => updRec t e.1 e.2 fun r => { r with cws := r.cws.filter (· != w.cw) }) s1
  let s3 := ((w.covers.map (·.1)).eraseDups).foldl (fun t sid => settleStream sid t) s2
  settleSeals (jobWrite w.job s3)

/-- The position of a slot within its die, as the shell's fault details name it: bank in [19:16], slot in [14:0] (R497). -/
def slotDetail (n : Nat) : Nat := slotBank n * 65536 + slotIn n

/-- The slot of a segment. -/
def segSlot (s : State) (g : Nat) : Nat :=
  match mapLook s g with
  | some e => e.slot
  | none => 0

/-- A slot marked failing, to be evacuated (R116, R121, R137); a unit of the metadata area that holds no segment is no slot. -/
def markFailing (n : Nat) (s : State) : State :=
  if (slotOf s n).failing || (slotOf s n).retired || (metaSlot n && (slotSeg s n).isNone) then s
  else { updSlot s n fun i => { i with failing := true } with arr.evacPending := s.arr.evacPending ++ [n] }

/-- A row that fails its write-verify after 8 loops: it is marked failing and a spare row of its bank takes its place, or with none
left the slot is marked failing; ARY_WVFAIL is raised (R116). The answer says whether a spare row took its place. A codeword `k` lies in
row `k / 4` of its slot. -/
def rowFailed (n k : Nat) (s : State) : Bool × State :=
  let d := slotDie n
  let b := slotBank n
  let s1 := updSlot (raiseFault (44 + d) (BitVec.ofNat 32 (slotDetail n)) s) n fun i => { i with
    badRows := if i.badRows.contains (k / 4) then i.badRows else i.badRows ++ [k / 4] }
  if 0 < vAt (dieOf s1 d).bankRows b then (true, updDie s1 d fun x => { x with bankRows := vUpd x.bankRows b (· - 1) })
  else (false, markFailing n s1)

/-- A write whose codeword's row fails: the codeword is rewritten in the spare row, or goes to the tail ring (R116). -/
def writeFailed (w : CwWrite) (s : State) : State :=
  match rowFailed (segSlot s w.segno) w.cw s with
  | (true, t) => writeVerified w t
  | (false, t) => writeVerified { w with tail := true } t

/-- Every record staged is placed and written at once, in staging order: what RECOVERY does before mount (R97, R528). -/
def drainAll (s : State) : State :=
  let one := fun (t : State) =>
    match (List.range 8).findSome? fun d => (drainPick t d).map fun p => (d, p) with
    | none => t
    | some (d, sid, r, g) => placeNext sid { r with array := true } g d t
  let s1 := iter one s.store.staging.length s
  let fin := fun (t : State) =>
    match t.arr.writes with
    | [] => t
    | w :: rest => writeVerified w { t with arr.writes := rest }
  iter fin (64 * s1.arr.writes.length + 64) s1

end Sys2Proof.Machine
end

