-- ==== Sys2Proof/Machine/Checks.lean ====
section
/-! DEFINITION. The checks every command packet passes, in their order (R247), and the replies to those that fail. -/
namespace Sys2Proof.Machine
open Sys2Proof

/-- What the opcode table gives an opcode: its parameter size, its payload range and whether the sideband takes it (R261). -/
structure OpInfo where
  /-- PSIZE. -/
  psize : Nat
  /-- Least payload. -/
  lo : Nat
  /-- Greatest payload. -/
  hi : Nat
  /-- Sideband subset. -/
  sb : Bool
  deriving DecidableEq, Repr, Inhabited

/-- The opcode table (R261). -/
def opInfo (opc : Nat) : Option OpInfo :=
  match opc with
  | 0x0001 => some ⟨0, 0, 0, true⟩
  | 0x0002 => some ⟨8, 0, 0, true⟩
  | 0x0010 => some ⟨152, 0, 0, false⟩
  | 0x0011 => some ⟨8, 0, 0, false⟩
  | 0x0012 => some ⟨40, 0, 0, false⟩
  | 0x0020 => some ⟨24, 0, 0, false⟩
  | 0x0021 => some ⟨8, 0, 0, false⟩
  | 0x0022 => some ⟨8, 0, 0, false⟩
  | 0x0023 => some ⟨8, 1, 65536, false⟩
  | 0x0024 => some ⟨24, 0, 0, false⟩
  | 0x0025 => some ⟨8, 0, 0, false⟩
  | 0x0026 => some ⟨16, 0, 0, false⟩
  | 0x0027 => some ⟨8, 0, 0, false⟩
  | 0x0028 => some ⟨8, 0, 0, false⟩
  | 0x0030 => some ⟨8, 1, 65536, false⟩
  | 0x0031 => some ⟨128, 0, 0, false⟩
  | 0x0032 => some ⟨8, 0, 0, false⟩
  | 0x0040 => some ⟨8, 144, 65664, false⟩
  | 0x0041 => some ⟨24, 0, 0, false⟩
  | 0x0042 => some ⟨8, 0, 0, false⟩
  | 0x0050 => some ⟨16, 1, 65536, false⟩
  | 0x0051 => some ⟨8, 1, 8192, false⟩
  | 0x0060 => some ⟨8, 0, 0, true⟩
  | 0x0061 => some ⟨16, 0, 0, true⟩
  | 0x0062 => some ⟨8, 0, 0, false⟩
  | 0x0070 => some ⟨8, 0, 0, true⟩
  | 0x0071 => some ⟨8, 0, 0, false⟩
  | 0x0080 => some ⟨136, 0, 0, false⟩
  | 0x0081 => some ⟨136, 0, 0, false⟩
  | 0x0082 => some ⟨8, 0, 0, false⟩
  | 0x0083 => some ⟨8, 0, 0, false⟩
  | 0x00F0 => some ⟨72, 0, 0, false⟩
  | _ => none

/-- A command that has passed the checks: its packet, its parameters and payload in plaintext, and the session it passed under. -/
structure Ctx where
  /-- The packet. -/
  pkt : Packet
  /-- Parameters and payload in plaintext. -/
  plain : List Byte
  /-- Session keys, empty without a session. -/
  keys : List Byte
  /-- Role of the session. -/
  role : Option Role
  /-- Owner key held when the packet arrived (R193), empty without one. -/
  owner : List Byte
  deriving DecidableEq, Repr, Inhabited

/-- What becomes of the packet at the head of a queue. -/
inductive Verdict where
  /-- Answered, or admitted for execution: it leaves the queue. -/
  | fin (s : State)
  /-- It cannot be admitted, for a cause of HW_QSTATq (R326). -/
  | wait (cause : Nat)
  /-- It stays at the head, for a cause, and the state has changed. -/
  | stay (cause : Nat) (s : State)
  deriving Inhabited

/-- The flag bits (R245). -/
def fAuth (p : Packet) : Bool := p.flg.getLsbD 0
/-- CHAIN. See log 17 (DEDUCED, unsafe). -/
def fChain (p : Packet) : Bool := p.flg.getLsbD 1
/-- LAST. See log 17 (DEDUCED, unsafe). -/
def fLast (p : Packet) : Bool := p.flg.getLsbD 2
/-- URG. -/
def fUrg (p : Packet) : Bool := p.flg.getLsbD 3
/-- NOREPLY, which the sideband ignores (R258). -/
def fNoReply (p : Packet) : Bool := p.flg.getLsbD 4 && decide (p.chan = .host)

/-- A reply with no protection and SES 0: to a command rejected at checks 1 to 5 (R248). See log 44 (DESIGN CHOICE, unsafe). -/
def plainReply (p : Packet) (sts : Status) : Reply :=
  { chan := p.chan, qid := p.qid, noreply := fNoReply p, opc := p.opc, sts := sts, tag := p.tag, ses := 0, cred := 0, res := 0,
    data := [], prot := none, wire := [], ord := 0 }

/-- The reply to a command that passed check 5: protected where it was authenticated (R196, R248, R249). -/
def ctxReply (c : Ctx) (sts : Status) (res : Nat) (data : List Byte) : Reply :=
  { plainReply c.pkt sts with
    ses := c.pkt.ses, res := BitVec.ofNat 32 res, data := data
    prot := if c.keys.isEmpty then none else some (c.pkt.seq, c.keys) }

/-- A command answered at once. See log 44 (DESIGN CHOICE, unsafe). -/
def answer (c : Ctx) (sts : Status) (res : Nat) (data : List Byte) (s : State) : Verdict :=
  .fin (formReply (ctxReply c sts res data) s)

/-- A command refused with a status and nothing else. -/
def reject (c : Ctx) (sts : Status) (s : State) : Verdict := answer c sts 0 [] s

/-- A rejection counted in VTF_AUTHCNT (R218). -/
def countAuth (s : State) : State := { s with vtf.authCnt := satInc s.vtf.authCnt }

/-- A command refused for a signature it carries (R218, R248). -/
def rejectAuth (c : Ctx) (s : State) : Verdict := reject c .auth (countAuth s)

/-- A field of the parameters or payload. -/
def pf (c : Ctx) (o n : Nat) : Nat := fieldAt c.plain o n

/-- Whether parameter bytes from `o` are 0. -/
def pz (c : Ctx) (o n : Nat) : Bool := allZero (bytesAt c.plain o n)

/-- The payload of a command with `n` bytes of parameters. -/
def payloadOf (c : Ctx) (n : Nat) : List Byte := c.plain.drop n

/-- The open session a packet names. -/
def sessionOf (s : State) (ses : BitVec 16) : Option Session := s.vtf.sessions.find? fun x => x.ses == ses.toNat

/-- The header bytes of a command packet (R244). -/
def packetHeader (p : Packet) : List Byte :=
  leB 2 p.opc.toNat ++ [p.flg, p.qid] ++ leB 2 p.tag.toNat ++ leB 2 p.ses.toNat ++ leB 4 p.plen.toNat ++ leB 4 p.seq.toNat

/-- A SEQ inside the replay window and not used (R198). -/
def seqFresh (x : Session) (seq : Nat) : Bool :=
  decide (seq ≠ 0) && decide (x.hi ≠ 0xFFFFFFFF) &&
    (decide (x.hi < seq) || (decide (x.hi < seq + 1024) && !x.seen.contains seq))

/-- A session that has accepted a SEQ (R198). -/
def seqTaken (x : Session) (seq : Nat) : Session :=
  let hi := max x.hi seq
  { x with hi := hi, seen := (seq :: x.seen).filter fun v => decide (hi < v + 1024) }

/-- The opcodes UNOWNED accepts (R188). See log 46 (DEDUCED, unsafe). -/
def unownedTakes (s : State) (c : Ctx) : Bool :=
  match c.pkt.opc.toNat with
  | 0x0001 | 0x0002 | 0x0012 | 0x0060 | 0x0070 | 0x0080 => true
  | 0x0083 => decide (s.vtf.debug = 2)
  | 0x00F0 => decide (pf c 1 1 = 2)
  | _ => false

/-- The opcodes ROLLBACK accepts (R208). See log 46 (DEDUCED, unsafe). -/
def rollbackTakes (c : Ctx) : Bool :=
  match c.pkt.opc.toNat with
  | 0x0001 | 0x0002 | 0x0012 | 0x0060 | 0x0083 => true
  | _ => false

/-- The authority a command needs: none, HOST or OWNER (R192). -/
def needs (s : State) (c : Ctx) : Option Role :=
  let anon (bit : Nat) : Option Role :=
    if s.vtf.pol.getLsbD bit && decide (c.pkt.ses = 0) && decide (c.pkt.chan = .host) then none else some .host
  match c.pkt.opc.toNat with
  | 0x0001 | 0x0002 | 0x0010 | 0x0012 | 0x0060 | 0x0070 | 0x0080 => none
  | 0x0021 | 0x0022 | 0x0023 => anon 0
  | 0x0024 =>
    if (pf c 4 1).testBit 1 && (match segOf s (pf c 8 4) with | some g => decide (g.kind = .shared) | none => false) then some .owner
    else anon 1
  | 0x0027 => anon 1
  | 0x0028 =>
    match streamOf s (pf c 0 4) with
    | some st => if st.attr.cls = .pinned then some .owner else some .host
    | none => some .host
  | 0x0071 => if pf c 0 1 = 1 then some .owner else none
  | 0x0081 => if pf c 0 1 = 2 ∨ pf c 0 1 = 3 ∨ pf c 0 1 = 4 then some .owner else some .host
  | 0x0083 => if s.vtf.debug = 2 ∨ s.vtf.life = .rollback then none else some .owner
  | 0x00F0 => if pf c 1 1 ≤ 1 ∨ (pf c 1 1 = 2 ∧ s.vtf.life ≠ .unowned) then some .owner else none
  | 0x0061 => if c.pkt.chan = .sideband ∧ s.link.sbClr = true then none else some .host
  | 0x0030 | 0x0011 | 0x0020 | 0x0025 | 0x0026 | 0x0082 => some .host
  | _ => some .owner

/-- Whether a session satisfies the need: OWNER satisfies HOST (R192). -/
def satisfies (have_ : Option Role) (need : Option Role) : Bool :=
  match need, have_ with
  | none, _ => true
  | some .host, some _ => true
  | some .owner, some .owner => true
  | _, _ => false

/-- Whether the SID field at `o` has its high bits 0. -/
def sidOk (c : Ctx) (o : Nat) : Bool := decide (pf c o 4 < 2 ^ 20)

/-- The reserved and unused parameter fields are 0 (R246), opcode by opcode. -/
def reservedOk (c : Ctx) : Bool :=
  match c.pkt.opc.toNat with
  | 0x0002 => pz c 1 7
  | 0x0010 => pz c 2 6
  | 0x0011 => pz c 2 6
  | 0x0012 => pz c 33 7
  | 0x0020 => sidOk c 0 && decide (pf c 5 1 < 8) && pz c 6 2 && pz c 12 4 && pz c 22 2
  | 0x0021 => sidOk c 0 && pz c 5 3
  | 0x0022 => sidOk c 0 && pz c 4 4
  | 0x0023 => sidOk c 0 && decide (pf c 4 2 < 4096) && pz c 7 1
  | 0x0024 =>
    sidOk c 0 && decide (pf c 4 1 < 4) && pz c 5 3 &&
      (if (pf c 4 1).testBit 1 then !(pf c 4 1).testBit 0 && pz c 12 4 && pz c 16 4 else (pf c 4 1).testBit 0 || pz c 14 2)
  | 0x0025 => sidOk c 0 && pz c 5 3
  | 0x0026 => sidOk c 0 && pz c 4 4 && pz c 14 2
  | 0x0027 | 0x0028 => sidOk c 0 && pz c 4 4
  | 0x0030 => decide (pf c 4 1 < 2) && pz c 5 3
  | 0x0032 => decide (pf c 1 1 < 2) && pz c 2 6
  | 0x0040 | 0x0051 => pz c 0 8
  | 0x0041 => decide (pf c 3 1 < 2) && pz c 20 4
  | 0x0042 => decide (pf c 2 1 < 2) && pz c 3 5
  | 0x0050 => decide (pf c 4 1 < 4) && pz c 5 3 && pz c 12 4
  | 0x0060 => pz c 3 5 && (decide (pf c 0 1 ≠ 0) || pz c 1 2)
  | 0x0061 => decide (pf c 12 1 < 4) && pz c 13 3
  | 0x0062 => pz c 1 3
  | 0x0070 => pz c 1 7
  | 0x0071 => pz c 1 7
  | 0x0080 => pz c 68 4 && decide (pf c 64 4 < 4)
  | 0x0081 =>
    pz c 3 1 && decide (pf c 1 1 < 4) &&
      (match pf c 0 1 with
       | 1 => pz c 1 2 && sidOk c 4 && pz c 8 128
       | 2 => decide (pf c 1 1 < 2) && pz c 2 1 && pz c 4 4
       | 3 => !(pf c 1 1).testBit 0 && pz c 4 4 && pz c 72 64 && (!(pf c 1 1).testBit 1 || pz c 8 64)
       | 4 => pz c 1 2 && decide (pf c 4 4 < 4) && pz c 8 128
       | _ => true)
  | 0x0082 | 0x0083 => pz c 1 7
  | 0x00F0 => pz c 2 6 && (decide (pf c 0 1 = 1) || pz c 8 64)
  | _ => true

/-- The outcome of the checks of R247: refused with a status, the reply's protection, and the state the check leaves; or passed. -/
inductive Checked where
  | refused (r : Reply) (s : State)
  | passed (c : Ctx) (s : State)
  deriving Inhabited

/-- Checks 6 to 8 (R247). -/
def checkLate (c : Ctx) (s : State) : Checked :=
  if s.vtf.life = .unowned ∧ unownedTakes s c = false then .refused (ctxReply c .noCap 0 []) s
  else if s.vtf.life = .rollback ∧ rollbackTakes c = false then .refused (ctxReply c .halted 0 []) s
  else if !satisfies c.role (needs s c) then .refused (ctxReply c .noCap 0 []) s
  else if !reservedOk c then .refused (ctxReply c .badParam 0 []) s
  else .passed c s

/-- Check 5: session, tag and replay window (R192, R197, R198). -/
def checkSession (p : Packet) (s : State) : Checked :=
  let n := p.plen.toNat
  let bad (st : Status) : Checked := .refused (plainReply p st) (countAuth s)
  if p.chan = .sideband then
    if p.ses ≠ 0 ∨ fAuth p = true then bad .auth
    else checkLate { pkt := p, plain := p.body.take n, keys := [], role := none, owner := [] } s
  else if p.ses = 0 then
    if fAuth p then bad .auth else checkLate { pkt := p, plain := p.body.take n, keys := [], role := none, owner := [] } s
  else if !fAuth p then bad .auth
  else match sessionOf s p.ses with
    | none => bad .auth
    | some x =>
      let k := bytesAt x.keys 0 32
      let nonce := gcmNonce (bytesAt x.keys 64 4) p.seq
      let ct := p.body.take n
      if (Config.gcmTag k nonce (packetHeader p) ct).toList ≠ p.body.drop n then bad .auth
      else if !seqFresh x p.seq.toNat then bad .replay
      else
        let s1 := { s with vtf.sessions := s.vtf.sessions.map fun y => if y.ses = x.ses then seqTaken y p.seq.toNat else y }
        checkLate { pkt := p, plain := gcmXor k nonce ct, keys := x.keys, role := some x.role, owner := [] } s1

/-- The checks of R247 on a packet at the head of a queue; `train` says whether a train is open in the queue. -/
def checkPacket (p : Packet) (train : Bool) (s : State) : Checked :=
  if s.pwr.phase = .halt then .refused (plainReply p .halted) s
  else if 63 < p.qid.toNat ∨ (p.chan = .sideband ∧ p.qid ≠ 0) then .refused (plainReply p .badParam) s
  else match opInfo p.opc.toNat with
    | none => .refused (plainReply p .badOpc) s
    | some o =>
      if p.chan = .sideband ∧ o.sb = false then .refused (plainReply p .badOpc) s
      else if 32 ≤ p.flg.toNat ∨ (train = false ∧ ((fChain p = true ∧ p.opc ≠ 0x0023) ∨ (fLast p = true ∧ fChain p = false))) then
        .refused (plainReply p .badParam) s
      else if p.body.length ≠ p.plen.toNat + (if fAuth p then 16 else 0) ∨ p.plen.toNat < o.psize + o.lo
          ∨ o.psize + o.hi < p.plen.toNat then .refused (plainReply p .badLen) s
      else checkSession p s

end Sys2Proof.Machine
end

