-- ==== Sys2Proof/Machine/Streams.lean ====
section
/-! DEFINITION. Stream operations: contexts, horizon, reclaim and eviction, media-state transitions, space for an append. -/
namespace Sys2Proof.Machine
open Sys2Proof

/-- Whether a context entry is evictable: its stream is not OPEN, has nothing in staging and no member of an open train (R32). A
member of an open train stands in staging. -/
def evictable (s : State) (sid : Nat) : Bool :=
  !(s.store.staging.any fun e => e.1 == sid) &&
    (match streamOf s sid with | some st => decide (st.st ≠ .opened) | none => true)

/-- A context entry found or loaded for a stream command; none where no entry is evictable (R31, R32). Stream 0 needs none. -/
def loadCtx (sid : Nat) (s : State) : Option State :=
  if sid = 0 then some s
  else match s.eng.ctx.find? fun e => e.sid == sid with
    | some e => some { s with eng.ctx := (s.eng.ctx.filter fun x => x.sid != sid) ++ [e] }
    | none =>
      let s1 := { s with prev.loads := if s.prev.loads.contains sid then s.prev.loads else s.prev.loads ++ [sid] }
      if s.eng.ctx.length < 3072 then some { s1 with eng.ctx := s.eng.ctx ++ [{ sid := sid, held := false }] }
      else match s.eng.ctx.find? fun e => evictable s e.sid with
        | some v => some { s1 with eng.ctx := (s.eng.ctx.filter fun x => x.sid != v.sid) ++ [{ sid := sid, held := false }] }
        | none => none

/-- Held context entries (R264). -/
def heldCtx (s : State) : Nat := (s.eng.ctx.filter (·.held)).length

/-- A stream's context held or let go (R31). -/
def holdCtx (sid : Nat) (b : Bool) (s : State) : State :=
  { s with eng.ctx := s.eng.ctx.map fun e => if e.sid = sid then { e with held := b } else e }

/-- A stream made SEALED: by a final seal or by sequence exhaustion (R31, R70). -/
def makeSealed (sid : Nat) (s : State) : State :=
  let s1 := updStream s sid fun st => { st with st := .sealed }
  holdCtx sid false { s1 with store.earlyList := s1.store.earlyList.map fun e => if e.1 = sid then (sid, true) else e }

/-- Whether a train is open. -/
def trainOpen (s : State) (t : Nat) : Bool := s.eng.trains.any fun x => x.tid == t && decide (x.st = .opened)

/-- Whether a record has reached its durability point (R46, R56): a train member only after its commit; one that a merge has staged is
durable in its half (R74). -/
def durableRec (s : State) (r : Rec) : Bool :=
  (match r.train with | some t => !trainOpen s t | none => true) && (!r.array || r.written || r.early.isSome)

/-- The read horizon of a stream (R56). -/
def horizon (s : State) (st : Stream) : Nat :=
  match st.recs.find? fun r => decide (st.first ≤ r.seq) && !r.withdrawn && !durableRec s r with
  | some r => r.seq - 1
  | none => st.next - 1

/-- Whether a TIMED record has expired (R54). -/
def expired (s : State) (st : Stream) (r : Rec) : Bool :=
  decide (st.attr.cls = .timed) && decide (r.ts + st.attr.period < s.dtime)

/-- Whether a read may return a record (R54, R56, R58, R69). -/
def readable (s : State) (st : Stream) (r : Rec) : Bool :=
  decide (st.first ≤ r.seq) && decide (r.seq ≤ horizon s st) && !r.withdrawn && !expired s st r

/-- The codewords a placed record lies in (R114). See log 55 (DESIGN CHOICE, safe). -/
def recCodewords (r : Rec) : List Nat :=
  match r.place with
  | none => []
  | some p =>
    let a := p.off / 4096
    let b := (p.off + storedSize r.payload.length - 1) / 4096
    (List.range (b + 1 - a)).map (· + a)

/-- Whether a written record lies in an uncorrectable codeword (R123). See log 55 (DESIGN CHOICE, safe). -/
def recUncorr (s : State) (r : Rec) : Bool :=
  r.written &&
    match r.place with
    | none => false
    | some p =>
      match segOf s p.segno with
      | none => false
      | some g => (recCodewords r).any fun k => g.uncorr.contains k

/-- Keys destroyed: their table entries are overwritten with zeros before the command that destroys them replies (R185).
See log 52 (DESIGN CHOICE, unsafe). -/
def dropKeys (p : KeyEntry → Bool) (s : State) : State :=
  { s with vtf.keys := s.vtf.keys.map fun k => if p k then { KeyEntry.reset with ref := k.ref, wrapped := zeros 80 } else k }

/-- A key wrapped for the key table: AES-256-GCM under KWRAP, ciphertext and tag (R185). See log 14 (DESIGN CHOICE, unsafe). -/
def wrapKey (kwrap nonce key : List Byte) : List Byte :=
  let ct := gcmXor kwrap nonce key
  ct ++ (Config.gcmTag kwrap nonce [] ct).toList

/-- The 64 bytes of a wrapped key; none where it has been destroyed, or KWRAP has (R185, R212). See log 14 (DESIGN CHOICE, unsafe). -/
def keyBytes (s : State) (ref : Nat) : List Byte :=
  match s.vtf.kwrap, s.vtf.keys.find? fun k => k.ref == ref with
  | some w, some k => if k.wrapped = zeros 80 then [] else gcmXor w k.nonce (k.wrapped.take 64)
  | _, _ => []

/-- A new key in the key table, from the DRBG, wrapped under KWRAP (R184, R185, R201). See log 14 (DESIGN CHOICE, unsafe). -/
def newKey (owner : Option Nat) (s : State) : Nat × State :=
  let f := takeFresh s
  let g := takeFresh f.2
  let nonce := (Config.drbg g.1 12).toList
  let k : KeyEntry := { KeyEntry.reset with
    ref := s.vtf.nextKey, owner := owner, nonce := nonce
    wrapped := wrapKey (s.vtf.kwrap.getD []) nonce (Config.drbg f.1 64).toList }
  (s.vtf.nextKey, { g.2 with vtf.keys := g.2.vtf.keys ++ [k], vtf.nextKey := g.2.vtf.nextKey + 1 })

/-- The XTS tweak of a data unit: its offset in its segment divided by 16, and SEGNO (R200). -/
def xtsTweak (g off : Nat) : List Byte := leB 4 (off / 16) ++ leB 4 g ++ zeros 8

/-- The stored bytes of a record that stands in the array as they read: where a D-space store has changed a byte of its data unit, the
unit as it now decrypts (R36, R200). -/
def recRead (s : State) (sid : Nat) (r : Rec) : List Byte :=
  let plain := recStored sid r
  match r.place with
  | none => plain
  | some p =>
    let w (i : Nat) : Nat := p.segno * 131072 + (p.off + i) / 2
    if r.written && (List.range (plain.length / 2)).any fun i => (look (w (2 * i)) s.mem.seg).isSome then
      let c := Config.xtsEnc (keyBytes s r.key) (xtsTweak p.segno p.off) plain
      let raw := (List.range plain.length).map fun i =>
        match look (w i) s.mem.seg with
        | some x => BitVec.ofNat 8 (x.data.toNat / (if i % 2 = 0 then 1 else 256))
        | none => c.getD i 0
      Config.xtsDec (keyBytes s r.key) (xtsTweak p.segno p.off) raw
    else plain

/-- Whether the CRC of stored bytes is right: over header bytes 0 to 19 and the payload (R36). -/
def crcGood (b : List Byte) : Bool :=
  let n := fieldAt b 10 2 + 1
  decide (32 + n ≤ b.length) && (bytesAt b 20 4 == crcBytes (b.take 20 ++ bytesAt b 32 n))

/-- Whether a record cannot be read from the array: it lies in an uncorrectable codeword (R123), or the CRC that the device checks at each
read is wrong (R36). What a wrong CRC does, the spec does not say: the model reads the record as uncorrectable.
See log 67 (DESIGN CHOICE, unsafe). -/
def recFaulty (s : State) (sid : Nat) (r : Rec) : Bool := recUncorr s r || (r.written && !crcGood (recRead s sid r))

/-- Whether the DRBG gives randomness (R187). -/
def drbgReady (s : State) : Bool := s.vtf.drbgOk && !s.vtf.entFail

/-- A media-state transition with every step of R141. No command is admitted until its SABKHA record is written: its job holds admission
as a barrier does. -/
def mediaTo (dst : Media) (cause subj : Nat) (s : State) : State :=
  let s1 := bumpCounter 2 { s with arr.media := dst }
  let body := [BitVec.ofNat 8 (mediaNum s.arr.media), BitVec.ofNat 8 (mediaNum dst)] ++ leB 2 cause
    ++ leB 4 (vAt s1.vtf.counters 2) ++ leB 4 (ofSigned 32 (spareCap s1)) ++ leB 4 ((List.range 8).map (dieRows s1)).sum
    ++ leB 4 ((List.range 8).map (dieSpare s1)).sum ++ leB 4 (ofSigned 32 (overProv s1)) ++ leB 4 (playaFree s1)
    ++ leB 4 s1.arr.retired ++ leB 8 s1.dtime
  let pay := devPayload 0x0011 subj body
  let s2 := match streamOf s1 0 with
    | none => s1
    | some _ =>
      let j := newJob 1 [] true .plain s1
      writeDev (pay ++ (Config.dikSign (pay.take 48)).toList) (some j.1) j.2
  let s3 := match dst with
    | .sabkha => raiseFault 17 (BitVec.ofInt 32 (spareCap s2)) s2
    | .readonly => raiseFault 18 (BitVec.ofNat 32 subj) s2
    | .normal => s2
  mediaMsg s3

/-- The conditions of R139 that follow S and the free count. -/
def mediaTest (s : State) : State :=
  match s.arr.media with
  | .normal => if spareCap s < sabkhaT then mediaTo .sabkha 1 noSubj s else s
  | .readonly => if 1536 < playaFreeTest s ∧ s.arr.evacPending = [] then mediaTo .sabkha 3 noSubj s else s
  | .sabkha => s

/-- A TRIM device record (R43). -/
def trimRec (sid first cause : Nat) (job : Option Nat) (s : State) : State :=
  writeDev (devPayload 0x0004 sid (leB 8 first ++ [BitVec.ofNat 8 cause] ++ zeros 7)) job s

/-- The records of a stream that stand in a segment. -/
def recsIn (st : Stream) (g : Nat) : List Rec :=
  st.recs.filter fun r => match r.place with | some p => p.segno == g | none => false

/-- A stream without the records of a segment. -/
def dropSegRecs (g : Nat) (st : Stream) : Stream :=
  { st with
    recs := st.recs.filter fun r => match r.place with | some p => p.segno != g | none => true
    segs := st.segs.filter (· != g)
    openSeg := if st.openSeg = some g then none else st.openSeg }

/-- A retired key of a stream is destroyed once no segment or record refers to it any longer (R201). -/
def pruneKeys (sid : Nat) (s : State) : State :=
  match streamOf s sid with
  | none => s
  | some st =>
    let used (k : Nat) : Bool :=
      (st.recs.any fun r => r.key == k) || st.segs.any fun g => match segOf s g with | some x => x.key == k | none => false
    let gone := (st.keys.drop 1).filter fun k => !used k
    if gone.isEmpty then s
    else dropKeys (fun k => gone.contains k.ref && k.owner == some sid)
      (updStream s sid fun x => { x with keys := x.keys.filter fun k => !gone.contains k })

/-- A segment given back: its records leave every stream in it, and its slot returns to the pool (R52, R58, R60). -/
def freeSeg (g : Nat) (s : State) : State :=
  match segOf s g with
  | none => s
  | some seg =>
    let s1 := seg.sids.foldl (fun t sid => updStream t sid (dropSegRecs g)) s
    let s1 := seg.sids.foldl (fun t sid => pruneKeys sid t) s1
    mediaTest (unmapSeg { s1 with arr.openShared := s1.arr.openShared.filter fun x => x.2 != g } g)

/-- Whether a segment is sealed and holds no record that anyone retains: each is written and trimmed, or its stream is gone (R58). Whether a
segment that is still open goes too once all its records are trimmed, the spec does not say: the model keeps it until it is sealed.
See log 67 (DESIGN CHOICE, unsafe). -/
def segDead (s : State) (g : Nat) : Bool :=
  match segOf s g with
  | none => false
  | some seg => seg.sealed.isSome && seg.sids.all fun sid =>
    match streamOf s sid with
    | none => true
    | some st => (recsIn st g).all fun r => r.written && decide (r.seq < st.first)

/-- Whole segments below a stream's first retained number return to the pool (R58). -/
def reclaim (sid : Nat) (s : State) : State :=
  match streamOf s sid with
  | none => s
  | some st => (st.segs.filter fun g => segDead s g).foldl (fun t g => freeSeg g t) s

/-- Every dead segment returned to the pool: one that was trimmed whole while open or not yet written leaves once it is sealed and
written (R58). -/
def reclaimAll (s : State) : State :=
  ((s.arr.segs.map (·.1)).filter fun g => segDead s g).foldl (fun t g => freeSeg g t) s

/-- Whether a segment may be evicted: it is sealed and holds no record in staging (R140). -/
def segEvictable (s : State) (st : Stream) (g : Nat) : Bool :=
  (match segOf s g with | some x => x.sealed.isSome | none => false) && (recsIn st g).all (·.written)

/-- A stream's segment evicted: the first retained number rises to the first record after it, with a TRIM record (R53, R140). -/
def evictSeg (sid g cause : Nat) (job : Option Nat) (s : State) : State :=
  match streamOf s sid with
  | none => s
  | some st =>
    let rest := st.recs.filter fun r => match r.place with | some p => p.segno != g | none => true
    let first := max st.first (match rest.head? with | some r => r.seq | none => st.next)
    let s1 := freeSeg g (updStream s sid fun x => { x with first := first })
    trimRec sid first cause job s1

/-- New segments opened by packing records of given stored sizes after a fill position, in an owned segment (R50). -/
def packOwned (fill : Option Nat) : List Nat → Nat
  | [] => 0
  | z :: zs =>
    match fill with
    | some f => if f + z + 192 ≤ 262144 then packOwned (some (f + z)) zs else 1 + packOwned (some (64 + z)) zs
    | none => 1 + packOwned (some (64 + z)) zs

/-- The stored sizes of a stream's records that have no position yet. -/
def unplacedSizes (st : Stream) : List Nat :=
  (st.recs.filter fun r => decide (r.place = none)).map fun r => storedSize r.payload.length

/-- The fill position of a stream's open segment. -/
def openFill (s : State) (st : Stream) : Option Nat := (openSegOf s st).bind fun g => (segOf s g).map (·.fill)

/-- Segments that records in staging will open (R119). -/
def promised (s : State) : Nat :=
  (((s.store.staging.map (·.1)).eraseDups).map fun sid =>
    match streamOf s sid with
    | some st => packOwned (openFill s st) (unplacedSizes st)
    | none => 0).sum

/-- Whether the Playa pool counts as empty for one more segment (R138). The spec tests the free slots; whether those that staged records
without a position will take count as taken at admission, it does not say: the model counts them. See log 67 (DESIGN CHOICE, unsafe). -/
def playaEmpty (s : State) : Bool :=
  decide (((List.range 8).map fun d => dieAvail s d .playa).sum ≤ promised s) || segnosOut s (promised s)

/-- What an append's space needs (R52, R53, R140). -/
inductive Space where
  | fits
  | refuse (st : Status)
  | evict (sid g cause : Nat)
  | waitRing
  deriving DecidableEq, Repr, Inhabited

/-- The evictable RING segment with the oldest SEAL_TS on the device, with its stream (R140). -/
def oldestRing (s : State) : Option (Nat × Nat) :=
  let all := s.store.streams.flatMap fun e =>
    if e.2.attr.cls = .ring then (e.2.segs.filter fun g => segEvictable s e.2 g).map fun g => (e.1, g) else []
  let ts (g : Nat) : Nat := match (segOf s g).bind (·.sealed) with | some i => i.sealTs | none => 0
  all.foldl (fun b x => match b with | none => some x | some y => if ts x.2 < ts y.2 then some x else some y) none

/-- The space of one more record in a stream (R52, R53, R140): it fits, or the command is refused, or a segment goes first. The table of
R140 does not give a RING append in SABKHA that finds the pool empty and no evictable segment of its own: the model has it wait where the
stream holds a segment, and refuses it with ST_SABKHA where it holds none. See log 67 (DESIGN CHOICE, unsafe). -/
def spaceFor (s : State) (sid : Nat) (st : Stream) (size : Nat) : Space :=
  if s.arr.media = .readonly then .refuse .readOnly
  else if st.attr.shared then
    let used := ((st.recs.filter fun r => decide (st.first ≤ r.seq)).map fun r => storedSize r.payload.length).sum
    if st.attr.quota ≠ 0 ∧ st.attr.quota < ceilDiv (used + size) 262144 then .refuse .quota
    else
      let takes := match (openSegOf s st).bind (segOf s) with | some g => segTakes g sid size | none => false
      if takes || !playaEmpty s then .fits
      else if s.arr.media = .normal then .refuse .quota
      else match oldestRing s with | some (v, g) => .evict v g 4 | none => .refuse .sabkha
  else
    let pend := unplacedSizes st
    let before := packOwned (openFill s st) pend
    let after := packOwned (openFill s st) (pend ++ [size])
    let past := decide (st.attr.quota ≠ 0) && decide (st.attr.quota < st.segs.length + after)
    let tooMany := decide (st.attr.quota ≠ 0) && decide (st.attr.quota < st.segs.length + before)
    let own (cause : Nat) : Space :=
      match st.segs.head? with
      | some g => if segEvictable s st g then .evict sid g cause else .waitRing
      | none => .waitRing
    if tooMany && decide (st.attr.cls ≠ .ring) then .refuse .quota
    else if after = before ∨ (sid = 0 ∧ playaEmpty s = true) then .fits
    else if past then
      match st.attr.cls with
      | .ring => own 2
      | _ => .refuse .quota
    else if !playaEmpty s then .fits
    else match s.arr.media, st.attr.cls with
      | .normal, .ring => if 2 ≤ st.segs.length then own 2 else .refuse .quota
      | .normal, _ => .refuse .quota
      | _, .ring =>
        match st.segs.find? fun g => segEvictable s st g with
        | some g => .evict sid g 4
        | none => if st.segs.isEmpty then .refuse .sabkha else .waitRing
      | _, _ => match oldestRing s with | some (v, g) => .evict v g 4 | none => .refuse .sabkha

/-- Whether stream 0 can take a record of a payload length: in its open segment, or in a slot it may draw, the journal reserve
included (R569). See log 54 (DEDUCED, unsafe). -/
def stream0Takes (s : State) (len : Nat) : Bool :=
  match streamOf s 0 with
  | none => true
  | some st =>
    decide (packOwned (openFill s st) (unplacedSizes st ++ [storedSize len]) ≤
      ((List.range 8).map fun d => dieAvail s d .journal).sum)

end Sys2Proof.Machine
end

