-- ==== Sys2Proof/Machine/Append.lean ====
section
/-! DEFINITION. STREAM_APPEND: one record, an early append, and the Caravan trains. -/
namespace Sys2Proof.Machine
open Sys2Proof

/-- The bindings a record triggers, ascending (R165): SIDF[27:20] AND FMASK is not zero, or FMASK is 0. -/
def triggered (s : State) (sid sidf : Nat) : List (Nat × Binding) :=
  s.wadi.bindings.filter fun b =>
    decide (vAt b.2.h 0 = some sid) && b.2.closing.isNone &&
      (decide (b.2.fmask = 0) || decide (BitVec.ofNat 8 sidf &&& b.2.fmask ≠ 0))

/-- Pending executions of a binding: waiting or running (R168). -/
def pendCount (s : State) (b : Nat) : Nat :=
  (s.wadi.pend.filter fun p => p.binding == b).length
    + (s.wadi.seqs.toList.filter fun r => match r with | some x => x.pend.binding == b | none => false).length

/-- Whether every binding a record triggers has a free pending slot (R168). -/
def slotsFree (s : State) (sid sidf : Nat) : Bool := (triggered s sid sidf).all fun b => decide (pendCount s b.1 < b.2.depth)

/-- The last assigned number of a stream (R158). -/
def lastSeq (s : State) (sid : Nat) : Nat := match streamOf s sid with | some st => st.next - 1 | none => 0

/-- The pending slots a trigger record takes at its admission (R158, R168, R176). -/
def addPend (sid sidf seq : Nat) (train : Option Nat) (s : State) : State :=
  { s with wadi.pend := s.wadi.pend ++ (triggered s sid sidf).map fun b =>
      { Pend.reset with
        binding := b.1, sid := sid, seq := seq, train := train
        snaps := vMap (fun h => match h with | some x => lastSeq s x | none => 0) b.2.h } }

/-- Whether the acknowledge mode of an append is ARRAY (R33, R45). -/
def modeArray (s : State) (st : Stream) (mode : Nat) : Bool :=
  (if st.st = .opened then st.openArray else st.attr.defArray) || decide (mode = 1) || arrayOnly s.oas
    || (s.oas.warn && s.oas.warnArray)

/-- The open train of a queue (R61). -/
def trainOfQueue (s : State) (q : Nat) : Option Train := s.eng.trains.find? fun t => t.qid == q && decide (t.st = .opened)

/-- Whether a charge is admitted for a host append: it fits, and no device record waits for credit before it (R84). Records that wait for
an open train to let stream 0 go wait for no credit (R63). -/
def hostCharge (s : State) (n : Nat) : Bool := (s.store.waiting.isEmpty || (trainHolding s 0).isSome) && chargeFits n s

/-- Hold credits of the TRIM record of an eviction (R19, R53, R84). -/
def trimCredits : Nat := creditsFor 24

/-- The result of an append: SEQ and TS (R270). -/
def appendData (seq ts : Nat) : List Byte := leB 8 seq ++ leB 8 ts

/-- The own checks of an append that its fields decide (R27, R34, R35, R42, R270). -/
def appendFields (c : Ctx) : Option Status :=
  let rfl := pf c 4 2
  let sid := pf c 0 4
  if rfl &&& 0xE3 ≠ rfl ∨ 1 < pf c 6 1 then some .badParam
  else if sid = 0 ∧ rfl.testBit 1 = false then some .badParam
  else if rfl.testBit 1 ∧ (payloadOf c 8).length ≠ 16 then some .badLen
  else none

/-- The status a stream's state gives an append (R31, R38): a stream whose last number an open train has taken takes no other. -/
def appendState (s : State) (sid : Nat) : Except Status Stream :=
  match streamOf s sid with
  | none => .error .noStream
  | some st =>
    match st.st with
    | .deleting => .error .noStream
    | .sealed => .error .readOnly
    | _ => if seqMax < st.next then .error .readOnly else .ok st

/-- A record numbered at the top of the range: its segment is sealed with cause 0x0004 and the stream becomes SEALED (R38).
See log 54 (DEDUCED, unsafe). -/
def sealIfLast (sid : Nat) (s : State) : State :=
  match streamOf s sid with
  | none => s
  | some st =>
    if seqMax < st.next ∧ st.st ≠ .sealed then (newJob 0 [] false (.sealWait sid false seqMax) (makeSealed sid s)).2 else s

/-- One append outside a train, admitted (R17, R21, R45, R46): the record enters staging; in HOLD mode the reply is formed now, unless
a TRIM record of an eviction must be written first (R53); in ARRAY mode when the record is written. -/
def admitAppend (c : Ctx) (sid : Nat) (st : Stream) (trim : Option Nat) (s : State) : State :=
  let rfl := pf c 4 2
  let arr := modeArray s st (pf c 6 1)
  let r0 : Rec := { Rec.reset with sidf := rfl, ts := s.dtime, payload := payloadOf c 8, array := arr, nrep := fNoReply c.pkt }
  let rep (sts : Status) : Reply := ctxReply c sts 0 (appendData st.next s.dtime)
  let fin (t : State) : State := sealIfLast sid (addPend sid rfl st.next none t)
  if arr then
    match trim with
    | none =>
      let j := newJob 1 [rep .okArray] false .append s
      fin (addRec sid { r0 with job := some j.1 } j.2)
    | some j =>
      fin (addRec sid { r0 with job := some j } (updJob s j fun y => { y with waits := y.waits + 1, replies := [rep .okArray] }))
  else
    match trim with
    | none =>
      formReply (rep .ok) (ackRec sid st.next (fin (addRec sid r0 s)))
    | some j => fin (addRec sid { r0 with job := some j } (updJob s j fun y => { y with replies := [rep .ok] }))

/-- The space an append of `n` credits needs made, where an eviction makes it: the state, and the job that waits for the TRIM record
(R53). The TRIM record's credits and the append's are charged together (R20); where stream 0 cannot take that record, the append is refused
(R569). -/
def makeSpace (s : State) (sid : Nat) (st : Stream) (size n : Nat) : Except (Sum Status Nat) (State × Option Nat) :=
  match spaceFor s sid st size with
  | .fits => .ok (s, none)
  | .refuse e => .error (.inl e)
  | .waitRing => .error (.inr 9)
  | .evict v g cause =>
    if !stream0Takes s 24 then .error (.inl .quota)
    else if !hostCharge s (n + trimCredits) then .error (.inr 1)
    else
      let j := newJob 1 [] false .append s
      .ok (evictSeg v g cause (some j.1) j.2, some j.1)

/-- One append outside a train after mount. -/
def appendOne (c : Ctx) (s : State) : Verdict :=
  let sid := pf c 0 4
  match appendFields c with
  | some e => reject c e s
  | none =>
    match appendState s sid with
    | .error e => reject c e s
    | .ok st =>
      if s.arr.media = .readonly then reject c .readOnly s
      else if (trainHolding s sid).isSome || st.heldBy.isSome then .wait 2
      else match loadCtx sid s with
        | none => reject c .noCtx s
        | some s1 =>
          let n := (payloadOf c 8).length
          if !slotsFree s1 sid (pf c 4 2) then .wait 3
          else if !hostCharge s1 (creditsFor n) then .wait 1
          else match makeSpace s1 sid st (storedSize n) (creditsFor n) with
            | .error (.inl e) => reject c e s1
            | .error (.inr w) => .wait w
            | .ok (s2, trim) =>
              match streamOf s2 sid with
              | none => reject c .noStream s2
              | some st2 => .fin (admitAppend c sid st2 trim s2)

/-- Whether early appends are accepted now: before mount, in a half that holds no unmerged record of another start (R73). -/
def earlyAccepted (s : State) : Bool :=
  !s.store.mounted && decide (s.vtf.life = .owned) && s.store.curHalf.isSome
    && decide (s.pwr.phase = .recovery)

/-- The last early-log segment of a half sealed with a cause, if it is open: the next value of the seal counter, and its trailer (R49,
R50, R72, R204). -/
def sealEarly (h cause : Nat) (s : State) : State :=
  match (vAt s.store.halves h).segs.getLast? with
  | none => s
  | some (g, x) =>
    if x.sealed.isSome then s
    else
      let v := issueSeal s
      let info : SealInfo := { SealInfo.reset with
        cause := cause, used := x.fill, nrec := (x.entries.map (·.count)).sum, sealTs := s.dtime, sctr := v.1, entries := x.entries }
      { v.2 with store.halves := vUpd v.2.store.halves h fun y => { y with segs := y.segs.dropLast ++ [(g, { x with sealed := some info })] } }

/-- KEYREF of the early key (R184, R200): PROVISION makes the three class keys, the early key and the metadata key in this order.
See log 14 (DESIGN CHOICE, unsafe). -/
def earlyKey : Nat := 3

/-- Whether an early-log segment takes a record of a stream before the space held back for its trailer (R50). -/
def earlyTakes (x : SegSt) (sid size : Nat) : Bool :=
  let n := if x.sids.contains sid then x.sids.length else x.sids.length + 1
  x.sealed.isNone && decide (x.fill + size + 64 + 64 * n + 64 ≤ 262144)

/-- Whether a half has no room for a record: 67,108,864 bytes in 256 segments (R70, R71). -/
def earlyFull (h : Half) (sid size : Nat) : Bool :=
  decide (67108864 < h.used + size)
    || (decide (256 ≤ h.segs.length) && (match h.segs.getLast? with | some (_, x) => !earlyTakes x sid size | none => false))

/-- Where the next record of a half goes: in its open early-log segment, or in a new one after the old is sealed as full (R49, R50).
Which number a new early-log segment has, the spec leaves open: a free value. See log 59 (DESIGN CHOICE, safe). -/
def earlyRoom (h sid size : Nat) (s : State) : (Nat × Nat) × State :=
  match (vAt s.store.halves h).segs.getLast? with
  | some (g, x) => if earlyTakes x sid size then ((g, x.fill), s) else fresh (sealEarly h 1 s)
  | none => fresh s
where
  fresh (s : State) : (Nat × Nat) × State :=
    let f := takeFresh s
    let g := (Config.freeBits 21 f.1).toNat
    let x : SegSt := { SegSt.reset with
      kind := .early, owner := 0xFFFFFFFF, openTs := s.dtime, mount := s.store.mountCount, key := earlyKey }
    ((g, 64), { f.2 with store.halves := vUpd f.2.store.halves h fun y => { y with segs := y.segs ++ [(g, x)] } })

/-- A half's segments with one record more in segment `g`, its last: fill position, streams and trailer entry (R49, R50). -/
def earlyEntry (l : List (Nat × SegSt)) (g sid size idx : Nat) (chain : List Byte) : List (Nat × SegSt) :=
  let prev := match (l.filter fun e => e.1 != g && e.2.sids.contains sid).getLast? with | some e => e.1 | none => 0xFFFFFFFF
  l.map fun e => if e.1 = g ∧ e.2.sealed.isNone then (g, { e.2 with
    fill := e.2.fill + size
    sids := if e.2.sids.contains sid then e.2.sids else e.2.sids ++ [sid]
    entries := entryAdd e.2.entries sid prev idx chain }) else e

/-- An append before mount (R22, R70, R71). -/
def appendEarly (c : Ctx) (s : State) : Verdict :=
  let sid := pf c 0 4
  match look sid s.store.earlyList with
  | none => reject c .noCtx s
  | some isSealed =>
    if isSealed then reject c .readOnly s
    else match appendFields c, streamOf s sid, s.store.curHalf with
      | some e, _, _ => reject c e s
      | none, none, _ => reject c .noCtx s
      | none, some _, none => .wait 7
      | none, some st, some h =>
        let half := vAt s.store.halves h
        let n := (payloadOf c 8).length
        if !earlyAccepted s then .wait 7
        else if earlyFull half sid (storedSize n) then .wait 5
        else if !hostCharge s (creditsFor n) then .wait 1
        else
          let arr := modeArray s st (pf c 6 1)
          let idx := half.count + 1
          let sidf := pf c 4 2 ||| 0x008
          let r := finishRec half.chain sid { Rec.reset with seq := idx, sidf := sidf, ts := s.dtime, payload := payloadOf c 8 }
          let rep := ctxReply c (if arr then .okArray else .ok) 0 (appendData (2 ^ 47 + idx) s.dtime)
          let j := if arr then newJob 1 [rep] false .append s else (0, s)
          let p := earlyRoom h sid (storedSize n) j.2
          let e : EarlyRec := { EarlyRec.reset with
            segno := p.1.1, off := p.1.2, sid := sid, gen := st.gen, sidf := sidf, ts := s.dtime, payload := payloadOf c 8, index := idx, chain := r.chain
            credits := creditsFor n, job := if arr then some j.1 else none, acked := !arr && !fNoReply c.pkt }
          let s1 := chargeCredits (creditsFor n) { p.2 with store := { p.2.store with
            earlyUsed := some h
            halves := vUpd p.2.store.halves h fun x => { x with
              recs := x.recs ++ [e], count := idx, used := x.used + storedSize n, chain := r.chain
              segs := earlyEntry x.segs p.1.1 sid (storedSize n) idx r.chain } } }
          .fin (if arr then s1 else formReply rep s1)

/-- Credits of a train descriptor for `n` members (R64). -/
def descrCredits (n : Nat) : Nat := ceilDiv (64 + 16 * n) 64

/-- Seals that wait for records of a stream wait for none above its last number any more: an abort has released those (R37, R59). -/
def lowerSeals (sid last : Nat) (s : State) : State :=
  { s with eng.jobs := s.eng.jobs.map fun j =>
      match j.kind with
      | .sealWait k f upto => if k = sid then { j with kind := .sealWait k f (min upto last) } else j
      | _ => j }

/-- The bundle of a binding. -/
def bundleOf (s : State) (n : Nat) : Bundle := (look n s.wadi.bundles).getD Bundle.reset

/-- The committed budget in EU (R166). -/
def committed (s : State) : Nat := (s.wadi.bindings.map fun b => (bundleOf s b.2.bundle).eu * b.2.depth).sum

/-- The bindings that a RULE_UNLOAD unbinds. -/
def unloadSet (s : State) (num : Nat) (bundle : Bool) : List Nat :=
  (s.wadi.bindings.filter fun b => if bundle then b.2.bundle == num else b.1 == num).map (·.1)

/-- A RULE_UNLOAD whose executions have ended: unbound, the bundle removed, the budget shrunk if asked, and answered (R170). -/
def unloadNow (j : Job) (num : Nat) (bundle shrink : Bool) (s : State) : State :=
  let set := unloadSet s num bundle
  let s1 := { s with wadi := { s.wadi with
    bindings := s.wadi.bindings.filter fun b => !set.contains b.1
    bundles := if bundle then del num s.wadi.bundles else s.wadi.bundles } }
  let s2 := if shrink then recomputeW { s1 with oas.budget := committed s1 } else s1
  finishJob j.id s2

/-- Every RULE_UNLOAD whose executions have all ended completes (R170). -/
def settleUnloads (s : State) : State :=
  s.eng.jobs.foldl (fun t j =>
    match j.kind with
    | .ruleUnload num bundle shrink =>
      if (unloadSet t num bundle).all fun b => pendCount t b == 0 then unloadNow j num bundle shrink t else t
    | _ => t) s

/-- A train's members taken back: they leave staging and their streams, and their credits return (R66). No other record took a number
in their streams meanwhile (R63). A STREAM_TRIM that passed members is wound back with the numbers: the first retained number is at
most the next number. See log 69 (DESIGN CHOICE, unsafe). -/
def unwindTrain (t : Train) (s : State) : State :=
  let s1 := t.back.foldl (fun u b =>
    updStream u b.1 fun st => { st with
      first := min st.first b.2.1, next := b.2.1, chain := b.2.2, recs := st.recs.filter fun r => decide (r.seq < b.2.1) }) s
  let s2 := { s1 with
    eng.jobs := s1.eng.jobs.filter fun j => decide (t.trimJob ≠ some j.id)
    store.staging := s1.store.staging.filter fun e => !t.members.any fun m => m.sid == e.1 && m.seq == e.2
    eng.trains := s1.eng.trains.filter fun x => x.tid != t.tid
    wadi.pend := s1.wadi.pend.filter fun p => decide (p.train ≠ some t.tid) }
  t.back.foldl (fun u b => lowerSeals b.1 (b.2.1 - 1) u) (returnCredits (t.members.map (·.credits)).sum s2)

/-- Every open train discarded, as an abort without replies (R68). -/
def dropOpenTrains (s : State) : State :=
  (s.eng.trains.filter fun t => decide (t.st = .opened)).foldr unwindTrain s

/-- A train aborted (R66): taken back, and every member is answered. `more` says whether later members are still to be answered.
See log 17 (DEDUCED, unsafe). -/
def abortTrain (t : Train) (cause : Nat) (sts : Status) (index : Nat) (more : Bool) (s : State) : State :=
  let res := cause * 65536 + index
  let keep := s.eng.aborts.filter fun a => a.1 != t.qid
  let s1 := unwindTrain t { s with eng.aborts :=
    if more then keep ++ [(t.qid, { cause := cause, sts := sts, index := index, untilAt := s.tick + 50000 })] else keep }
  settleUnloads <| settleSeals <| releaseWaiting <| t.members.foldl (fun u m => formReply { m.rep with sts := sts, res := BitVec.ofNat 32 res, data := [] } u) s1

/-- The packet at the head that breaks or fails a train answers as the train's members do (R66). -/
def abortWith (c : Ctx) (t : Train) (cause : Nat) (sts : Status) (s : State) : Verdict :=
  let i := t.members.length
  answer c sts (cause * 65536 + i) [] (abortTrain t cause sts i (!fLast c.pkt) s)

/-- A train committed (R64, R65): its members become visible; in HOLD mode they are answered now, in ARRAY mode once every member is
written, and in either mode once the TRIM records of its evictions are (R53). A stream whose last number it took is sealed (R38), and
device records that waited for stream 0 go on (R63). -/
def commitTrain (t : Train) (s : State) : State :=
  let arr := t.members.any (·.array)
  let descr := descrCredits t.members.length
  let replies := (t.members.zipIdx).map fun p =>
    { p.1.rep with sts := if arr then .okArray else .ok, res := BitVec.ofNat 32 p.2, data := appendData p.1.seq p.1.ts }
  let s1 := { s with eng.trains := s.eng.trains.map fun x => if x.tid = t.tid then { t with st := .committed, descr := descr } else x }
  let s2 := chargeCredits descr s1
  let trims := match t.trimJob.bind (jobOf s2) with | some j => j.waits | none => 0
  let waits := trims + (if arr then t.members.length else 0)
  let s3 := if waits = 0 then
      replies.foldl (fun u r => formReply r u) (t.members.foldl (fun u m => ackRec m.sid m.seq u)
        { s2 with eng.jobs := s2.eng.jobs.filter fun j => decide (t.trimJob ≠ some j.id) })
    else
      let j : Nat × State := match t.trimJob with
        | some j => (j, updJob s2 j fun y => { y with waits := waits, replies := replies, kind := .append })
        | none => newJob waits replies false .append s2
      t.members.foldl (fun u m => updRec u m.sid m.seq fun r => { r with array := arr, job := some j.1 }) j.2
  releaseWaiting (t.members.foldl (fun u m => sealIfLast m.sid u) s3)

/-- The open train that an open train waits on: the one that holds the stream its next packet names (R67). -/
def waitsOn (s : State) (t : Train) : Option Train :=
  match queueOf s t.qid with
  | p :: _ =>
    if p.pkt.opc = 0x0023 ∧ fChain p.pkt = true ∧ p.passed = true then
      match trainHolding s (fieldAt p.plain 0 4) with
      | some u => if u.tid = t.tid then none else some u
      | none => none
    else none
  | [] => none

/-- Whether waiting for train `u` closes a cycle back to train `t` (R67); at most four trains are open. -/
def closesCycle (s : State) (t : Nat) : Nat → Train → Bool
  | 0, _ => false
  | n + 1, u => decide (u.tid = t) || (match waitsOn s u with | some v => closesCycle s t n v | none => false)

/-- A train's member admitted, and with LAST the train committed (R63, R64). See log 17 (DEDUCED, unsafe). -/
def admitMember (c : Ctx) (t : Train) (sid : Nat) (st : Stream) (s : State) : State :=
  let n := (payloadOf c 8).length
  let rfl := pf c 4 2 ||| 0x004
  let r0 : Rec := { Rec.reset with sidf := rfl, ts := s.dtime, payload := payloadOf c 8, train := some t.tid, nrep := fNoReply c.pkt }
  let m : TrainMember := { TrainMember.reset with
    sid := sid, seq := st.next, rep := ctxReply c .ok 0 [], len := n, ts := s.dtime, credits := creditsFor n
    array := modeArray s st (pf c 6 1) }
  let t1 : Train := { t with
    members := t.members ++ [m], total := t.total + n, lastAt := s.tick
    firstAt := if t.members.isEmpty then s.dtime else t.firstAt
    back := if t.back.any fun b => b.1 == sid then t.back else t.back ++ [(sid, st.next, st.chain)] }
  let s1 := addPend sid rfl st.next (some t.tid) (addRec sid r0 s)
  let s2 := { s1 with eng.trains := (s1.eng.trains.filter fun x => x.tid != t.tid) ++ [t1] }
  if fLast c.pkt then commitTrain t1 s2 else s2

/-- An eviction for a member of an open train: the job of the train's TRIM records waits for one more (R53). -/
def trainTrim (t : Train) (s : State) : Nat × Train × State :=
  match t.trimJob with
  | some j => (j, t, updJob s j fun y => { y with waits := y.waits + 1 })
  | none =>
    let j := newJob 1 [] false .train s
    (j.1, { t with trimJob := some j.1 }, j.2)

/-- A member of a train at the head of its queue: the own checks of an append, R64's sum, held streams and credit (R61 to R67).
A train aborted because of a packet of another has no failing member, and the spec gives no RES index for it: the model gives the number of
its admitted members.
See log 17 (DEDUCED, unsafe). See log 69 (DESIGN CHOICE, unsafe). -/
def trainMember (c : Ctx) (t : Train) (s : State) : Verdict :=
  let sid := pf c 0 4
  let n := (payloadOf c 8).length
  let fail (cause : Nat) (e : Status) : Verdict :=
    if t.members.isEmpty then answer c e (cause * 65536) [] { s with eng.aborts := if fLast c.pkt then s.eng.aborts else
      (s.eng.aborts.filter fun a => a.1 != t.qid) ++ [(t.qid, { cause := cause, sts := e, index := 0, untilAt := s.tick + 50000 })] }
    else abortWith c t cause e s
  if 64 ≤ t.members.length ∨ 8388608 < t.total + n then fail 2 .badLen
  else match appendFields c with
    | some e => fail 3 e
    | none =>
      match appendState s sid with
      | .error e => fail 3 e
      | .ok st =>
        let need := creditsFor n + (if fLast c.pkt then descrCredits (t.members.length + 1) else 0)
        if s.arr.media = .readonly then fail 3 .readOnly
        else if accountSize s.oas < (t.members.map (·.credits)).sum + creditsFor n + descrCredits (t.members.length + 1) then fail 4 .noCred
        else
          let held := match trainHolding s sid with | some u => if u.tid = t.tid then none else some u | none => none
          match held with
          | some u => if closesCycle s t.tid 4 u then fail 6 .noCtx else .wait 2
          | none =>
            if st.heldBy.isSome then .wait 2
            else match loadCtx sid s with
              | none => fail 3 .noCtx
              | some s1 =>
                let short : Verdict :=
                  let openSum := ((s.eng.trains.filter fun x => decide (x.st = .opened)).flatMap fun x => x.members.map (·.credits)).sum
                  if s.oas.outst ≤ openSum then
                    let latest := (s.eng.trains.filter fun x => decide (x.st = .opened)).foldl
                      (fun b x => match b with | none => some x | some y => if y.tid ≤ x.tid then some x else some y) none
                    match latest with
                    | some v =>
                      if v.tid = t.tid then fail 4 .noCred
                      else .stay 1 (abortTrain v 4 .noCred v.members.length true s)
                    | none => .wait 1
                  else .wait 1
                if !slotsFree s1 sid (pf c 4 2 ||| 0x004) then .wait 3
                else if !hostCharge s1 need then short
                else match spaceFor s1 sid st (storedSize n) with
                  | .refuse e => fail 3 e
                  | .waitRing => .wait 9
                  | .evict v g cause =>
                    if !stream0Takes s1 24 then fail 3 .quota
                    else if !hostCharge s1 (need + trimCredits) then short
                    else
                      let j := trainTrim t s1
                      let s2 := evictSeg v g cause (some j.1) j.2.2
                      match streamOf s2 sid with
                      | some st2 => .fin (admitMember c j.2.1 sid st2 s2)
                      | none => fail 3 .noStream
                  | .fits => .fin (admitMember c t sid st s1)

/-- A CHAIN append at the head of a queue (R61, R62, R66): answered as an aborted train's late member, or joins or opens a train.
See log 17 (DEDUCED, unsafe). -/
def chainAppend (c : Ctx) (q : Nat) (s : State) : Verdict :=
  match look q s.eng.aborts, trainOfQueue s q with
  | some a, none =>
    answer c a.sts (a.cause * 65536 + a.index) [] { s with
      eng.aborts := if fLast c.pkt then s.eng.aborts.filter fun x => x.1 != q else s.eng.aborts }
  | _, some t => trainMember c t s
  | none, none =>
    if 4 ≤ (s.eng.trains.filter fun x => decide (x.st = .opened)).length then .wait 4
    else
      let t : Train := { Train.reset with tid := s.eng.nextId, qid := q }
      trainMember c t { s with eng.nextId := s.eng.nextId + 1 }

/-- STREAM_APPEND at the head of a queue (R270). -/
def cmdAppend (c : Ctx) (q : Nat) (s : State) : Verdict :=
  if !s.store.mounted then (if fChain c.pkt then .wait 7 else appendEarly c s)
  else if fChain c.pkt then chainAppend c q s
  else appendOne c s

end Sys2Proof.Machine
end

