-- ==== Sys2Proof/Machine/StreamCmds.lean ====
section
/-! DEFINITION. The stream commands but STREAM_APPEND, and the end of a deletion (R27 to R60, R268 to R275). -/
namespace Sys2Proof.Machine
open Sys2Proof

/-- A stream that a command other than STREAM_INFO finds: not ABSENT and not DELETING (R31). -/
def liveStream (s : State) (sid : Nat) : Option Stream :=
  match streamOf s sid with
  | some st => if st.st = .deleting then none else some st
  | none => none

/-- Whether a binding names a stream (R169). -/
def bound (s : State) (sid : Nat) : Bool := s.wadi.bindings.any fun b => b.2.h.toList.any fun h => h == some sid

/-- The lowest free stream ID above 0 (R29). -/
def freeSid (s : State) : Nat := (s.store.streams.map (·.1)).foldl (fun c k => if k = c then c + 1 else c) 1

/-- The attributes of a creation's parameters, where the table of R30 permits them. -/
def createAttr (c : Ctx) : Option Attr :=
  let cls? : Option SClass := match pf c 4 1 with | 0 => some .pinned | 1 => some .ring | 2 => some .timed | _ => none
  match cls? with
  | none => none
  | some cls =>
    let a : Attr := { cls := cls, shared := (pf c 5 1).testBit 0, defArray := (pf c 5 1).testBit 1, early := (pf c 5 1).testBit 2
                      quota := pf c 8 4, period := pf c 16 6 }
    let quotaOk := decide (a.quota ≤ 2097152) && (decide (cls ≠ .ring) || decide (2 ≤ a.quota))
    let periodOk := if cls = .timed then decide (1000000 ≤ a.period) else decide (a.period = 0)
    let placeOk := !a.shared || (decide (cls ≠ .ring) && decide (1 ≤ a.quota) && decide (a.quota ≤ 4))
    if quotaOk && periodOk && placeOk then some a else none

/-- The attribute byte AFL (R268). -/
def aflOf (a : Attr) : Nat := b2n a.shared + 2 * b2n a.defArray + 4 * b2n a.early

/-- The attribute block of a stream as created (R43, R268). -/
def attrBlock (sid : Nat) (a : Attr) : List Byte :=
  leB 4 sid ++ leB 1 (clsCode a.cls) ++ leB 1 (aflOf a) ++ zeros 2 ++ leB 4 a.quota ++ zeros 4 ++ leB 8 a.period

/-- A CREATE device record (R43). -/
def createRec (sid gen : Nat) (a : Attr) (job : Option Nat) (s : State) : State :=
  writeDev (devPayload 0x0002 sid (leB 4 gen ++ zeros 4 ++ attrBlock sid a)) job s

/-- A stream put in place as created: CLOSED, its generation, chain and key new (R29, R31, R201, R203). -/
def makeStream (sid : Nat) (a : Attr) (s : State) : State :=
  let gen := (look sid s.store.gens).getD 0 + 1
  let k := newKey (some sid) s
  let st : Stream := { Stream.reset with attr := a, gen := gen, chain := chainStart sid gen, chainW := chainStart sid gen, keys := [k.1] }
  let s1 := putStream k.2 sid st
  { s1 with store := { s1.store with
      gens := put sid gen s1.store.gens
      earlyList := if a.early then s1.store.earlyList ++ [(sid, false)] else s1.store.earlyList } }

/-- STREAM_CREATE (R268). See log 54 (DEDUCED, unsafe). -/
def cmdCreate (c : Ctx) (s : State) : Verdict :=
  match createAttr c with
  | none => reject c .badParam s
  | some a =>
    let want := pf c 0 4
    if want ≠ 0 ∧ (streamOf s want).isSome then reject c .badParam s
    else if 1048576 ≤ s.store.streams.length then reject c .quota s
    else if a.early = true ∧ 256 ≤ s.store.earlyList.length then reject c .quota s
    else if s.arr.media = .readonly then reject c .readOnly s
    else if !stream0Takes s 40 then reject c .quota s
    else if !drbgReady s then reject c .fault s
    else
      let sid := if want = 0 then freeSid s else want
      let s1 := makeStream sid a s
      let j := newJob 1 [ctxReply c .ok sid []] false .plain s1
      .fin (createRec sid ((look sid s1.store.gens).getD 1) a (some j.1) j.2)

/-- STREAM_OPEN (R31, R32, R269). -/
def cmdOpen (c : Ctx) (s : State) : Verdict :=
  let sid := pf c 0 4
  if 1 < pf c 4 1 then reject c .badParam s
  else match liveStream s sid with
    | none => reject c .noStream s
    | some st =>
      if st.st = .sealed then reject c .readOnly s
      else if st.st ≠ .opened ∧ sid ≠ 0 ∧ 3072 ≤ heldCtx s then reject c .noCtx s
      else match loadCtx sid s with
        | none => reject c .noCtx s
        | some s1 =>
          answer c .ok 0 [] (holdCtx sid true (updStream s1 sid fun x => { x with st := .opened, openArray := decide (pf c 4 1 = 1) }))

/-- STREAM_CLOSE (R31, R269); no effect on a SEALED or CLOSED stream. -/
def cmdClose (c : Ctx) (s : State) : Verdict :=
  let sid := pf c 0 4
  match liveStream s sid with
  | none => reject c .noStream s
  | some _ =>
    match loadCtx sid s with
    | none => reject c .noCtx s
    | some s1 =>
      answer c .ok 0 [] (holdCtx sid false (updStream s1 sid fun x => { x with st := if x.st = .opened then .closed else x.st }))

/-- A sequence range meets an interval. See log 54 (DEDUCED, unsafe). -/
def rangeMeets (a b lo hi : Nat) : Bool := decide (a ≤ hi) && decide (lo ≤ b)

/-- The halves of the early log, that of the older start first. Whether the older of two halves is merged, retried and listed first, the
spec does not say. See log 58 (DESIGN CHOICE, unsafe). -/
def halvesByAge (s : State) : List Nat := if (vAt s.store.halves 1).born < (vAt s.store.halves 0).born then [1, 0] else [0, 1]

/-- The records of held early-log halves of a stream that are neither dropped nor merged, in index order (R74). -/
def heldRecs (s : State) (sid : Nat) : List EarlyRec :=
  (halvesByAge s).flatMap fun n =>
    let h := vAt s.store.halves n
    if h.held then h.recs.filter fun r => r.sid == sid && r.merging.isNone
      && (match streamOf s sid with | some st => r.gen == st.gen | none => false)
    else []

/-- A held early record in stored form, SEQ in the form of R71. -/
def heldStored (r : EarlyRec) : List Byte :=
  let x : Rec := { Rec.reset with seq := 2 ^ 47 + r.index, sidf := r.sidf, ts := r.ts, payload := r.payload, chain := r.chain }
  recStored r.sid { x with crc := crc32c (recHead20 r.sid x ++ r.payload) }

/-- One record that a read may return: its number as read, its stored bytes, and whether it is held, or stands in an uncorrectable
codeword. -/
structure ReadItem where
  /-- Number as returned. -/
  seq : Nat
  /-- Stored form. -/
  bytes : List Byte
  /-- From a held half. -/
  held : Bool
  /-- In an uncorrectable codeword. -/
  bad : Bool
  deriving DecidableEq, Repr, Inhabited

/-- What ended a record-mode read. -/
inductive ReadStop where
  | none
  | count
  | bytes
  | bad (seq : Nat)
  deriving DecidableEq, Repr, Inhabited

/-- The items a read returns under its limits, and what stopped it (R55, R123). See log 54 (DEDUCED, unsafe). -/
def takeItems (maxRec maxBytes : Nat) : Nat → List ReadItem → List ReadItem × ReadStop
  | _, [] => ([], .none)
  | total, x :: xs =>
    if x.bad then ([], .bad x.seq)
    else if maxBytes < total + x.bytes.length then ([], .bytes)
    else if maxRec = 1 then ([x], if xs.isEmpty then .none else .count)
    else
      let r := takeItems (maxRec - 1) maxBytes (total + x.bytes.length) xs
      (x :: r.1, r.2)

/-- STREAM_READ in record mode (R55 to R57, R74, R98, R123). See log 54 (DEDUCED, unsafe). See log 55 (DESIGN CHOICE, safe). -/
def readRecords (c : Ctx) (sid : Nat) (st : Stream) (s : State) : Verdict :=
  let byTime := (pf c 4 1).testBit 0
  let start := pf c 8 8
  let maxRec := pf c 16 4
  let maxBytes := pf c 20 4
  let hz := horizon s st
  let retained := st.recs.filter fun r => decide (st.first ≤ r.seq) && !r.withdrawn
  let ok := st.recs.filter fun r => readable s st r
  let merged := if byTime then ok.dropWhile fun r => decide (r.ts < start) else ok.filter fun r => decide (start ≤ r.seq)
  let items := merged.map fun r =>
    ({ seq := r.seq, bytes := recRead s sid r, held := false, bad := recFaulty s sid r } : ReadItem)
  let last := st.next - 1
  let reaches := byTime || (match merged.getLast? with | some r => r.seq == last | none => false)
    || decide (max start st.first = st.next)
  let heldAll := heldRecs s sid
  let held := if reaches then heldAll.filter fun r => !byTime || decide (start ≤ r.ts) else []
  let all := items ++ held.map fun r =>
    ({ seq := 2 ^ 47 + r.index, bytes := heldStored r, held := true, bad := false } : ReadItem)
  let out := takeItems maxRec maxBytes 0 all
  match out.1, out.2, all with
  | [], .bytes, x :: _ => answer c .badLen x.bytes.length [] s
  | _, _, _ =>
    let ended := decide (out.2 = .none) && (reaches || heldAll.isEmpty || decide (hz < start))
    let gap := if byTime then (match retained.head? with | some r => decide (start < r.ts) | none => false)
      else decide (start < st.first)
    let lastM := (out.1.filter fun x => !x.held).getLast?
    let lo := if byTime then (match out.1.head? with | some x => if x.held then hz + 1 else x.seq | none => hz + 1) else start
    let hi := if decide (out.2 = .none) || out.1.any (·.held) then hz else (match lastM with | some x => x.seq | none => 0)
    let skipW := st.recs.any fun r => r.withdrawn && decide (st.first ≤ r.seq) && decide (r.seq ≤ hi)
      && (decide (lo ≤ r.seq) || (byTime && decide (start ≤ r.ts)))
    let skipL := st.lost.any fun l => rangeMeets l.1 l.2 lo hi
    let flags := b2n gap + 2 * b2n ended + 4 * b2n skipW + 8 * b2n (decide (out.2 = .bytes)) + 16 * b2n (out.1.any (·.held))
    let firstN := match out.1.head? with | some x => x.seq | none => 0
    let data := leB 8 firstN ++ leB 4 out.1.length ++ leB 2 flags ++ zeros 2 ++ out.1.flatMap (·.bytes)
    match out.2 with
    | .bad q => answer c .fault (q % 2 ^ 32) data s
    | _ => answer c (if skipL then .breach else .ok) 0 data s

/-- The header of a segment image (R49). -/
def segHeader (g : Nat) (x : SegSt) : List Byte :=
  let kind := match x.kind with | .owned => 1 | .shared => 2 | .early => 3
  let h := leB 4 0x47535A5A ++ leB 1 2 ++ leB 1 kind ++ leB 2 x.entries.length ++ leB 4 g ++ leB 4 x.owner ++ leB 8 x.openTs
    ++ leB 4 x.mount ++ leB 4 x.key ++ zeros 28
  h ++ crcBytes h

/-- One entry of a seal trailer (R50). -/
def entryBytes (e : SegEntry) : List Byte :=
  leB 4 e.sid ++ leB 4 e.prev ++ leB 8 e.first ++ leB 8 e.last ++ leB 4 e.count ++ zeros 4 ++ padTo 32 e.chain

/-- The placed records of a segment with their offsets, ascending (R49). -/
def segContents (s : State) (g : Nat) (x : SegSt) : List (Nat × List Byte) :=
  x.sids.foldl (fun acc sid =>
    match streamOf s sid with
    | none => acc
    | some st => (recsIn st g).foldl (fun a r => match r.place with | some p => put p.off (recRead s sid r) a | none => a) acc) []

/-- The plaintext image of a segment of given contents (R49, R50, R51, R98). -/
def imageOf (contents : List (Nat × List Byte)) (g : Nat) (x : SegSt) : List Byte :=
  let body := contents.foldl (fun b e => padTo (max b.length e.1) b ++ e.2) (segHeader g x)
  match x.sealed with
  | none => padTo 262144 body
  | some i =>
    let kept := if i.lostOff = 0 then body else body.take i.lostOff
    let fixed := leB 4 0x4C535A5A ++ leB 2 i.entries.length ++ leB 2 i.cause ++ leB 4 i.used ++ leB 4 i.nrec ++ leB 8 i.sealTs
      ++ leB 8 i.sctr ++ leB 8 i.csctr ++ leB 8 i.cts ++ leB 4 i.lostOff ++ zeros 12
    let signed := padTo i.used kept ++ fixed ++ i.entries.flatMap entryBytes
    padTo 262144 (signed ++ (Config.dikSign signed).toList)

/-- The plaintext image of an owned or shared segment. -/
def segImage (s : State) (g : Nat) (x : SegSt) : List Byte := imageOf (segContents s g x) g x

/-- The plaintext image of an early-log segment of a half: its records in stored form, with the numbers their indices give (R49, R71). -/
def earlyImage (h : Half) (g : Nat) (x : SegSt) : List Byte :=
  imageOf ((h.recs.filter fun r => r.segno == g).map fun r =>
    let y : Rec := { Rec.reset with seq := r.index, sidf := r.sidf, ts := r.ts, payload := r.payload, chain := r.chain }
    (r.off, recStored r.sid { y with crc := crc32c (recHead20 r.sid y ++ r.payload) })) g x

/-- The data units of a log segment as they are encrypted at rest (R200): offset, plaintext and key. -/
def segUnits (s : State) (g : Nat) (x : SegSt) : List (Nat × List Byte × Nat) :=
  let recs := x.sids.flatMap fun sid =>
    match streamOf s sid with
    | none => []
    | some st => (recsIn st g).filterMap fun r =>
      if r.written then r.place.map fun p => (p.off, recStored sid r, r.key) else none
  let trailer := match x.sealed with
    | some i => [(i.used, (segImage s g x).drop i.used |>.take (128 + 64 * i.entries.length), x.key)]
    | none => []
  (0, segHeader g x, x.key) :: recs ++ trailer

/-- A data unit as it stands at rest (R200). -/
def unitCipher (s : State) (g : Nat) (u : Nat × List Byte × Nat) : Nat × List Byte :=
  (u.1, Config.xtsEnc (keyBytes s u.2.2) (xtsTweak g u.1) u.2.1)

/-- An early-log segment of a half as it stands at rest: header and trailer under the key that KEYREF names, the early key, and each record
under its stream's key (R49, R200). -/
def earlyCiphers (s : State) (h : Half) (g : Nat) (x : SegSt) : List (Nat × List Byte) :=
  let cut (o n : Nat) : List Byte := ((earlyImage h g x).drop o).take n
  let recs := (h.recs.filter fun r => r.segno == g && r.written).map fun r =>
    (r.off, cut r.off (storedSize r.payload.length), ((streamOf s r.sid).bind fun st => st.keys.head?).getD x.key)
  let trailer := match x.sealed with
    | some i => [(i.used, cut i.used (128 + 64 * i.entries.length), x.key)]
    | none => []
  ((0, segHeader g x, x.key) :: recs ++ trailer).map (unitCipher s g)

/-- The data units of a segment under keys that are about to be destroyed stay at rest as ciphertext (R60, R200). -/
def keepCipher (p : Nat → Bool) (g : Nat) (s : State) : State :=
  match segOf s g with
  | none => s
  | some x => updSeg s g fun y => { y with ghost := y.ghost ++ ((segUnits s g x).filter fun u => p u.2.2).map (unitCipher s g) }

/-- STREAM_READ in segment-image mode (R272, R202). -/
def readImage (c : Ctx) (st : Stream) (s : State) : Verdict :=
  let g := pf c 8 4
  match segOf s g with
  | none => reject c .badParam s
  | some x =>
    if !st.segs.contains g ∨ recsIn st g = [] then reject c .badParam s
    else if pf c 20 4 < 262144 then answer c .badLen 262144 [] s
    else if x.kind = .shared ∧ x.dead ≠ [] then reject c .noCap s
    else match argMin id x.uncorr with
      | some k => answer c .fault k [] s
      | none => answer c .ok 0 (segImage s g x) s

/-- STREAM_READ (R271). See log 54 (DEDUCED, unsafe). -/
def cmdRead (c : Ctx) (s : State) : Verdict :=
  let sid := pf c 0 4
  if pf c 20 4 < 48 ∨ 1048576 < pf c 20 4 then reject c .badParam s
  else match liveStream s sid with
    | none => reject c .noStream s
    | some st =>
      match loadCtx sid s with
      | none => reject c .noCtx s
      | some s1 => if (pf c 4 1).testBit 1 then readImage c st s1 else readRecords c sid st s1

/-- STREAM_SEAL (R59, R273): the job waits for the records numbered before it. See log 54 (DEDUCED, unsafe). -/
def cmdSeal (c : Ctx) (s : State) : Verdict :=
  let sid := pf c 0 4
  let final := decide (pf c 4 1 = 1)
  if 1 < pf c 4 1 then reject c .badParam s
  else if sid = 0 then reject c .noCap s
  else match liveStream s sid with
    | none => reject c .noStream s
    | some st =>
      if st.st = .sealed then reject c .readOnly s
      else if s.arr.media = .readonly then reject c .readOnly s
      else if final && bound s sid then reject c .badParam s
      else match loadCtx sid s with
        | none => reject c .noCtx s
        | some s1 =>
          let j := newJob 0 [ctxReply c .ok 0xFFFFFFFF []] false (.sealWait sid final (st.next - 1)) s1
          .fin (settleSeals (if final then makeSealed sid j.2 else j.2))

/-- STREAM_TRIM (R58, R274). See log 54 (DEDUCED, unsafe). -/
def cmdTrim (c : Ctx) (s : State) : Verdict :=
  let sid := pf c 0 4
  if sid = 0 then reject c .noCap s
  else match liveStream s sid with
    | none => reject c .noStream s
    | some st =>
      if st.attr.cls = .pinned then reject c .noCap s
      else match loadCtx sid s with
        | none => reject c .noCtx s
        | some s1 =>
          let t := min (pf c 8 6) st.next
          if t ≤ st.first then answer c .ok 0 (leB 8 st.first) s1
          else if !stream0Takes s 24 then reject c .quota s
          else
            let j := newJob 1 [ctxReply c .ok 0 (leB 8 t)] false .plain (updStream s1 sid fun x => { x with first := t })
            .fin (reclaim sid (trimRec sid t 1 (some j.1) j.2))

/-- State codes of STREAM_INFO (R275). -/
def sstateNum : SState → Nat
  | .closed => 0
  | .opened => 1
  | .sealed => 2
  | .deleting => 3

/-- The acknowledge mode in force for a stream: ARRAY or not (R33). -/
def streamArray (st : Stream) : Bool := if st.st = .opened then st.openArray else st.attr.defArray

/-- The 64 bytes of STREAM_INFO (R275). See log 54 (DEDUCED, unsafe). -/
def infoBytes (s : State) (sid : Nat) (st : Stream) : List Byte :=
  let ifl := b2n (trainHolding s sid).isSome + 2 * b2n st.heldBy.isSome + 4 * b2n (bound s sid)
    + 8 * b2n (s.eng.ctx.any fun e => e.sid == sid && e.held)
  leB 4 sid ++ leB 1 (sstateNum st.st) ++ leB 1 (clsCode st.attr.cls) ++ leB 1 (aflOf st.attr) ++ leB 1 (b2n (streamArray st))
    ++ leB 4 st.gen ++ leB 4 st.attr.quota ++ leB 8 st.attr.period ++ leB 8 st.first ++ leB 8 (st.next - 1) ++ leB 8 (horizon s st)
    ++ leB 4 st.segs.length ++ leB 4 ((openSegOf s st).getD 0xFFFFFFFF) ++ leB 1 st.keys.length ++ leB 1 ifl ++ zeros 6

/-- STREAM_INFO (R275). See log 54 (DEDUCED, unsafe). -/
def cmdInfo (c : Ctx) (s : State) : Verdict :=
  let sid := pf c 0 4
  match streamOf s sid with
  | none => reject c .noStream s
  | some _ =>
    match loadCtx sid s with
    | none => reject c .noCtx s
    | some s1 =>
      match streamOf s1 sid with
      | none => reject c .noStream s
      | some st => answer c .ok 0 (infoBytes s1 sid st) s1

/-- A stream's records that wait in staging without a position placed, in order. See log 54 (DEDUCED, unsafe). -/
def placeStream (sid : Nat) (s : State) : State :=
  let one := fun (t : State) =>
    match nextUnplaced t sid with
    | none => t
    | some r =>
      match nextDie t sid r with
      | none => t
      | some (d, g) => placeNext sid r g d t
  iter one (match streamOf s sid with | some st => st.recs.length | none => 0) s

/-- STREAM_DELETE (R60, R169, R269). See log 54 (DEDUCED, unsafe). -/
def cmdDelete (c : Ctx) (s : State) : Verdict :=
  let sid := pf c 0 4
  if sid = 0 then reject c .noCap s
  else match liveStream s sid with
    | none => reject c .noStream s
    | some st =>
      if st.st = .opened then reject c .badParam s
      else if bound s sid then reject c .badParam s
      else match loadCtx sid s with
        | none => reject c .noCtx s
        | some s0 =>
          if !stream0Takes s 24 then reject c .quota s
          else
            let s1 := if st.attr.shared then placeStream sid s0 else s0
            let segs := match streamOf s1 sid with | some x => x.segs | none => []
            let gone (k : Nat) : Bool := s1.vtf.keys.any fun e => e.ref == k && e.owner == some sid
            let s2 := dropKeys (fun k => k.owner == some sid)
              (updStream (segs.foldl (fun t g => keepCipher gone g t) s1) sid fun x => { x with st := .deleting, keys := [] })
            let s3 := { s2 with store.earlyList := s2.store.earlyList.filter fun e => e.1 != sid }
            let s4 := if st.attr.shared then
                segs.foldl (fun t g => updSeg t g fun x => { x with dead := if x.dead.contains sid then x.dead else x.dead ++ [sid] }) s3
              else s3
            let j := newJob 1 [ctxReply c .ok 0 []] false (.deleteJob sid) s4
            let s5 := if st.attr.shared then
                segs.foldl (fun t g =>
                  let u := sealSegment g 2 (some j.1) t
                  updJob u.2 j.1 fun y => { y with waits := y.waits + u.1 }) j.2
              else j.2
            .fin (writeDev (devPayload 0x0003 sid (leB 4 st.gen ++ zeros 4 ++ leB 8 (st.next - 1))) (some j.1) s5)

/-- A DELETING stream whose reply has been sent and whose staged records are written: its segments return to the Playa pool, and it
becomes ABSENT (R60). -/
def deletionDone (sid : Nat) (st : Stream) (s : State) : State :=
  let s1 := if st.attr.shared then
      st.segs.foldl (fun t g =>
        (sealSegment g 2 none (updSeg t g fun x => { x with dead := if x.dead.contains sid then x.dead else x.dead ++ [sid] })).2) s
    else st.segs.foldl (fun t g => freeSeg g t) s
  let s2 := { s1 with
    store.streams := del sid s1.store.streams
    eng.ctx := s1.eng.ctx.filter fun e => e.sid != sid }
  if st.attr.shared then (st.segs.filter fun g => segDead s2 g).foldl (fun t g => freeSeg g t) s2 else s2

/-- Whether a stream's deletion can end. -/
def deletionReady (s : State) (sid : Nat) (st : Stream) : Bool :=
  decide (st.st = .deleting) && !(s.eng.jobs.any fun j => decide (j.kind = .deleteJob sid)) && !(s.store.staging.any fun e => e.1 == sid)

/-- STREAM_DELETION_COMPLETE (R60): the lowest DELETING stream whose deletion can end becomes ABSENT. -/
def execStreamDeletionComplete (s : State) : Host.Outcome State Fault Refusal :=
  .next (match s.store.streams.find? fun e => deletionReady s e.1 e.2 with
    | some (sid, st) => deletionDone sid st s
    | none => s)

end Sys2Proof.Machine
end

