-- ==== Sys2Proof/Machine/Boot.lean ====
section
/-! DEFINITION. The boot window: its slots, its image choice, its reads and its commands (R219 to R243). -/
namespace Sys2Proof.Machine
open Sys2Proof

/-- One boot slot. -/
def bslot (s : State) (k : Nat) : BSlot := vAt s.boot.slots k

/-- One boot slot changed. -/
def updBslot (s : State) (k : Nat) (f : BSlot → BSlot) : State := { s with boot.slots := vUpd s.boot.slots k f }

/-- The other slot. -/
def otherSlot (k : Nat) : Nat := 1 - k

/-- The slot with the role MIRAGE (R219). -/
def mirage (s : State) : Nat := otherSlot s.boot.active

/-- LENGTH of a manifest (R220). -/
def mfLength (m : List Byte) : Nat := fieldAt m 8 4

/-- VERSION of a manifest (R220). -/
def mfVersion (m : List Byte) : Nat := fieldAt m 12 4

/-- Blocks of an image (R221). -/
def mfBlocks (m : List Byte) : Nat := ceilDiv (mfLength m) 4096

/-- The fill byte in force: the served image's, or 0xFF with none (R238). -/
def bootFill (b : Boot) : Byte := match b.served with | some _ => (b.manifest[5]?).getD 0xFF | none => 0xFF

/-- Leaf `i` of an image's tree (R221). -/
def bootLeaf (img : List Host.Cell) (len i : Nat) : List Byte :=
  let have_ := min 4096 (len - 4096 * i)
  let blk := memBytes 0xFF img (4096 * i) have_ ++ List.replicate (4096 - have_) 0xFF
  (Config.sha256 ([0x00] ++ leB 4 i ++ blk)).toList

/-- One level of the tree built from the level below (R221). -/
def merkleLevel : List (List Byte) → List (List Byte)
  | a :: b :: r => (Config.sha256 ([0x01] ++ a ++ b)).toList :: merkleLevel r
  | [a] => [a]
  | [] => []

/-- The leaves of an image's tree (R221). -/
def bootLeaves (img : List Host.Cell) (len : Nat) : List (List Byte) := (List.range (ceilDiv len 4096)).map (bootLeaf img len)

/-- The Merkle root of an image: at most 16,384 leaves (R221). -/
def merkleRoot (img : List Host.Cell) (len : Nat) : List Byte := ((iter merkleLevel 15 (bootLeaves img len)).head?).getD []

/-- The nodes of a tree by level, from its leaves to its root (R221, R223). -/
def merkleTree : Nat → List (List Byte) → List (List (List Byte))
  | 0, l => [l]
  | n + 1, l => if l.length ≤ 1 then [l] else l :: merkleTree n (merkleLevel l)

/-- A node checked against the root through its siblings, as far as a node that has verified before (R234): whether it verifies, and the
nodes that verified with it. -/
def climb (levels : List (List (List Byte))) (kept : List (Nat × Nat × List Byte)) (root : List Byte) :
    Nat → Nat → Nat → List Byte → Bool × List (Nat × Nat × List Byte)
  | 0, _, _, _ => (false, [])
  | n + 1, lvl, i, v =>
    match kept.find? fun e => e.1 == lvl && e.2.1 == i with
    | some e => (e.2.2 == v, [])
    | none =>
      let row := levels.getD lvl []
      if row.length ≤ 1 then (v == root, [(lvl, i, v)])
      else
        let up := if i % 2 = 1 then (Config.sha256 ([0x01] ++ row.getD (i - 1) [] ++ v)).toList
          else if i + 1 < row.length then (Config.sha256 ([0x01] ++ v ++ row.getD (i + 1) [])).toList
          else v
        let q := climb levels kept root n (lvl + 1) (i / 2) up
        (q.1, (lvl, i, v) :: q.2)

/-- Whether the seal of a slot verifies: its manifest is signed with the DIK (R223, R227). -/
def sealGood (b : BSlot) : Bool := decide (b.dsig = (Config.dikSign b.manifest).toList)

/-- Whether a slot's image may be served (R226, R227). -/
def bootEligible (s : State) (k : Nat) : Bool :=
  let b := bslot s k
  decide (b.st = .valid) && sealGood b && decide (vAt s.vtf.counters 3 ≤ mfVersion b.manifest)

/-- What an image choice decides: the slot served, the new ACTIVE slot, FELLBACK, TRIAL, and a slot that becomes BAD (R227). -/
structure BootPick where
  /-- Served slot. -/
  served : Option Nat
  /-- ACTIVE slot. -/
  active : Nat
  /-- FELLBACK. -/
  fell : Bool
  /-- TRIAL. -/
  trial : Bool
  /-- Slot marked BAD. -/
  bad : Option Nat
  deriving DecidableEq, Repr, Inhabited

/-- The image choice of a start (R227). See log 56 (DESIGN CHOICE, unsafe). -/
def bootPick (s : State) : BootPick :=
  let a := s.boot.active
  let later : BootPick :=
    if s.boot.trialPend && bootEligible s (otherSlot a) then ⟨some (otherSlot a), a, false, true, none⟩
    else if bootEligible s a then ⟨some a, a, false, false, none⟩
    else if bootEligible s (otherSlot a) then ⟨some (otherSlot a), otherSlot a, true, false, none⟩
    else ⟨none, a, false, false, none⟩
  match s.boot.lastServed with
  | some k => if s.boot.fallback && bootEligible s (otherSlot k) then ⟨some (otherSlot k), otherSlot k, true, false, some k⟩ else later
  | none => later

/-- Slots kept for the window return to the pool when it closes (R237). -/
def releaseHeldSlots (s : State) : State :=
  mediaTest { s with arr.slots := s.arr.slots.filterMap fun e =>
    let i := { e.2 with held := false }
    if i = SlotInfo.reset then none else some (e.1, i) }

/-- The image chosen and the window opened at a POR, PIN, WDOG or FATAL start (R227, R229, R238). See log 56 (DESIGN CHOICE, unsafe). -/
def bootChoose (s : State) : State :=
  let p := bootPick { s with boot.lastServed := s.boot.served }
  let s1 := match p.bad with | some k => updBslot s k fun b => { b with st := .bad } | none => s
  let b := s1.boot
  let src : BSlot := match p.served with | some k => bslot s1 k | none => BSlot.reset
  let s2 := { s1 with boot := { Boot.reset with
    slots := b.slots
    active := p.active
    served := p.served
    lastServed := b.served
    manifest := src.manifest
    image := src.image
    nodes := src.nodes
    answering := true
    fellBack := p.fell
    trial := p.trial
    noImg := p.served.isNone
    vioReleased := b.vioReleased } }
  let s3 := releaseHeldSlots s2
  if p.served.isNone then raiseFault 11 0 s3 else s3

/-- Whether the window's pins answer: the device runs, outside TEST, VIO stands, and boundary scan leaves the pins alone (R91, R93, R328,
R335, R341, R537). -/
def bootAnswers (s : State) : Bool :=
  s.pwr.released && !inLoss s && decide (s.pwr.pstate ≠ .off) && s.boot.answering && !s.boot.vioReleased && decide (s.jtag.ir ≠ 0)
    && decide (s.pwr.phase ≠ .test)

/-- The state with the bytes a window command drove; nothing where the window does not answer. -/
def bootDrive (f : State → State × List Byte) (s : State) : State :=
  if bootAnswers s then
    let r := f s
    { r.1 with boot.out := some r.2 }
  else { s with boot.out := none }

/-- The bytes of an address phase, in the address mode in force (R229). -/
def bootSpan (b : Boot) : Nat := if b.addr4 then 2 ^ 26 else 2 ^ 24

/-- The address of byte `i` of a read (R229). -/
def bootAddr (b : Boot) (r : BootRead) (i : Nat) : Nat := (r.addr.toNat + i) % bootSpan b

/-- Whether a block is still to be verified (R235). See log 56 (DESIGN CHOICE, unsafe). -/
def blockEarly (b : Boot) (k : Nat) : Bool := !b.verified.contains k && !b.failed.contains k

/-- The block the verifier takes next: the one a read moved it to, else the next in ascending order (R234, R235). -/
def nextBlock (b : Boot) : Option Nat :=
  match b.jump.filter (blockEarly b) with
  | some k => some k
  | none =>
    let left := (List.range (mfBlocks b.manifest)).filter (blockEarly b)
    match left.find? fun k => decide (b.nextBlk ≤ k) with
    | some k => some k
    | none => left.head?

/-- What a block that fails verification does (R236). -/
def blockFailed (k : Nat) (s : State) : State :=
  let b := s.boot
  let slot := b.served.getD 0
  raiseFault 10 (BitVec.ofNat 32 (slot * 2 ^ 31 + k)) { s with boot := { b with
    failed := b.failed ++ [k]
    verified := b.verified.filter (· != k)
    failBlk := match b.failBlk with | some x => some x | none => some k
    fallback := true } }

/-- A block verified against ROOT through the tree nodes, where its bytes were fetched intact, or failed (R234, R236).
See log 56 (DESIGN CHOICE, unsafe). -/
def blockVerified (fetched : Bool) (k : Nat) (s : State) : State :=
  let b := s.boot
  let c := climb b.nodes b.tree (bytesAt b.manifest 32 32) 16 0 k (bootLeaf b.image (mfLength b.manifest) k)
  let b1 := { b with jump := none, nextBlk := k + 1 }
  if fetched && c.1 then
    let b2 := { b1 with verified := k :: b.verified, tree := b.tree ++ c.2 }
    { s with boot := { b2 with done := (List.range (mfBlocks b.manifest)).all fun i => b2.verified.contains i } }
  else blockFailed k { s with boot := b1 }

/-- The verifier's next block, whose bytes are fetched intact or not. See log 56 (DESIGN CHOICE, unsafe). -/
def verifyNext (fetched : Bool) (s : State) : State :=
  if alive s && s.boot.served.isSome && s.boot.sealOk then
    match nextBlock s.boot with
    | some k => blockVerified fetched k s
    | none => s
  else s

/-- Whether a verified block, fetched again, matches the leaf that was retained (R234). -/
def leafKept (b : Boot) (k : Nat) : Bool :=
  match b.tree.find? fun e => e.1 == 0 && e.2.1 == k with
  | some e => e.2.2 == bootLeaf b.image (mfLength b.manifest) k
  | none => true

/-- A read under way: the state, the blocks for which it returns FILL, and the bytes driven. -/
abbrev Reading : Type := State × List Nat × List Byte

/-- A block that a read reaches before the verifier: it counts as an early read, and the verifier moves to it next (R235). -/
def readEarly (k : Nat) (s : State) : State :=
  { s with boot := { s.boot with
    early := true, earlyCnt := BitVec.ofNat 16 (satAdd 0xFFFF s.boot.earlyCnt.toNat 1), jump := some k } }

/-- One byte of a read after ready, with the window open and an image served (R229, R234 to R236). See log 56 (DESIGN CHOICE, unsafe). -/
def readByte (a : Nat) (p : Reading) : Reading :=
  let b := p.1.boot
  let k := a / 4096
  if mfLength b.manifest ≤ a || p.2.1.contains k || b.failed.contains k then (p.1, p.2.1, p.2.2 ++ [bootFill b])
  else if b.verified.contains k then
    if leafKept b k then (p.1, p.2.1, p.2.2 ++ [memGet 0xFF b.image a])
    else (blockFailed k p.1, p.2.1, p.2.2 ++ [bootFill b])
  else (readEarly k p.1, k :: p.2.1, p.2.2 ++ [bootFill b])

/-- The bytes of a read, one after another, the verifier taking its blocks meanwhile (R235): by byte `i` it has taken `i` parts in `len` of
the blocks it takes during the read. See log 56 (DESIGN CHOICE, unsafe). -/
def readBytes (r : BootRead) (s : State) : Reading :=
  (List.range r.len).foldl (fun p i =>
    readByte (bootAddr p.1.boot r i)
      (iter (verifyNext true) (i * r.during / r.len - (i - 1) * r.during / r.len) p.1, p.2)) (s, [], [])

/-- A read of the window (R228, R229, R233, R235, R236, R238). -/
def bootRead (r : BootRead) (s : State) : State :=
  bootDrive (fun t =>
    let b := t.boot
    if !b.ready then (t, List.replicate r.len 0xFF)
    else if !b.isOpen || b.served.isNone then (t, List.replicate r.len (bootFill b))
    else
      let q := readBytes r t
      (q.1, q.2.2)) s

/-- The SFDP space (R232). -/
def sfdp : List Byte :=
  [0x50444653, 0xFF000100, 0x09010000, 0xFF000010, 0xFFE2FFE7, 0x1FFFFFFF, 0x6B08EB44, 0x00000000, 0xFFFFFFEE, 0x0000FFFF,
   0x0000FFFF, 0xFF00FF00, 0xFF00FF00].flatMap (leB 4)

/-- READ, opcode 0x03 (R228). -/
def execRead (r : BootRead) (s : State) : Host.Outcome State Fault Refusal := .next (bootRead r s)

/-- FAST_READ, opcode 0x0B (R228). -/
def execFastRead (r : BootRead) (s : State) : Host.Outcome State Fault Refusal := .next (bootRead r s)

/-- QUAD_OUTPUT_FAST_READ, opcode 0x6B (R228). -/
def execQuadOutputFastRead (r : BootRead) (s : State) : Host.Outcome State Fault Refusal := .next (bootRead r s)

/-- QUAD_IO_FAST_READ, opcode 0xEB (R228). -/
def execQuadIoFastRead (r : BootRead) (s : State) : Host.Outcome State Fault Refusal := .next (bootRead r s)

/-- READ_IDENTIFICATION, opcode 0x9F (R230). -/
def execReadIdentification (n : Nat) (s : State) : Host.Outcome State Fault Refusal :=
  .next (bootDrive (fun t => (t, ([0x3D, 0xC5, 0x1A] ++ List.replicate n 0xFF).take n)) s)

/-- READ_SFDP, opcode 0x5A (R232): 3 address bytes. -/
def execReadSfdp (r : BootRead) (s : State) : Host.Outcome State Fault Refusal :=
  .next (bootDrive (fun t => (t, (List.range r.len).map fun i => (sfdp[(r.addr.toNat + i) % 2 ^ 24]?).getD 0xFF)) s)

/-- ENTER_4_BYTE_ADDRESS_MODE, opcode 0xB7 (R229). -/
def execEnter4ByteAddressMode (s : State) : Host.Outcome State Fault Refusal :=
  .next (bootDrive (fun t => ({ t with boot.addr4 := true }, [])) s)

/-- EXIT_4_BYTE_ADDRESS_MODE, opcode 0xE9 (R229). -/
def execExit4ByteAddressMode (s : State) : Host.Outcome State Fault Refusal :=
  .next (bootDrive (fun t => ({ t with boot.addr4 := false }, [])) s)

/-- IGNORED_FLASH_COMMAND (R231): accepted and ignored. -/
def execIgnoredFlashCommand (s : State) : Host.Outcome State Fault Refusal := .next (bootDrive (fun t => (t, [])) s)

/-- UNKNOWN_BOOT_OPCODE (R231): ignored; the lines stay high-impedance. -/
def execUnknownBootOpcode (s : State) : Host.Outcome State Fault Refusal := .next { s with boot.out := none }

/-- BOOT_SEAL_VERIFIED (R233). See log 56 (DESIGN CHOICE, unsafe). -/
def execBootSealVerified (s : State) : Host.Outcome State Fault Refusal :=
  whenDue (alive s && s.boot.served.isSome) s { s with boot.sealOk := true }

/-- Blocks that must be verified before the window is ready (R220, R233). -/
def preBlocks (m : List Byte) : Nat := min (fieldAt m 16 4 / 4096) (mfBlocks m)

/-- Whether the first PREVER bytes have been through the verifier (R233). See log 56 (DESIGN CHOICE, unsafe). -/
def preDone (b : Boot) : Bool :=
  match b.served with
  | none => true
  | some _ => b.sealOk && (List.range (preBlocks b.manifest)).all fun k => !blockEarly b k

/-- Whether the window becomes ready (R233). See log 56 (DESIGN CHOICE, unsafe). -/
def readyDue (s : State) : Bool := alive s && s.boot.answering && !s.boot.ready && preDone s.boot

/-- The window ready. -/
def windowReady (s : State) : State := { s with boot.ready := true, boot.readyAt := s.tick }

/-- BOOT_WINDOW_READY (R233). See log 56 (DESIGN CHOICE, unsafe). -/
def execBootWindowReady (s : State) : Host.Outcome State Fault Refusal := whenDue (readyDue s) s (windowReady s)

/-- READ_STATUS, opcode 0x05 (R230): WIP as it stands at each data byte; where the window becomes ready during the command, `ready` names the
byte from which it is. See log 56 (DESIGN CHOICE, unsafe). -/
def execReadStatus (r : StatusRead) (s : State) : Host.Outcome State Fault Refusal :=
  .next (bootDrive (fun t =>
    match r.ready with
    | some k => if readyDue t then (windowReady t, List.replicate (min k r.n) 0x01 ++ List.replicate (r.n - k) 0x00)
                else (t, List.replicate r.n (if t.boot.ready then 0x00 else 0x01))
    | none => (t, List.replicate r.n (if t.boot.ready then 0x00 else 0x01))) s)

/-- BOOT_BLOCK_VERIFY (R234, R236): the verifier's next block, whose bytes the array gives intact or not.
See log 56 (DESIGN CHOICE, unsafe). -/
def execBootBlockVerify (fetched : Bool) (s : State) : Host.Outcome State Fault Refusal := .next (verifyNext fetched s)

/-- The window closed (R237, R238). -/
def bootClose (s : State) : State :=
  if s.boot.isOpen then releaseHeldSlots { s with boot.isOpen := false } else s

/-- BOOT_WINDOW_CLOSE (R241): a write of 1 to BTW_CTRL.CLOSE. -/
def execBootWindowClose (s : State) : Host.Outcome State Fault Refusal := whenDue (alive s) s (bootClose s)

/-- Whether the automatic-close point has passed (R238). -/
def bootAutoPoint (s : State) : Bool := s.boot.ready && decide (s.boot.readyAt + 60000000 ≤ s.tick)

/-- BOOT_WINDOW_AUTO_CLOSE (R238). -/
def execBootWindowAutoClose (s : State) : Host.Outcome State Fault Refusal :=
  whenDue (alive s && bootAutoPoint s && !s.boot.keep) s (bootClose s)

/-- BTW_CTRL.KEEP written (R238, R241). -/
def bootKeep (v : Bool) (s : State) : State :=
  let s1 := { s with boot.keep := v }
  if !v && bootAutoPoint s then bootClose s1 else s1

/-- BOOT_KEEP_WRITE (R241). -/
def execBootKeepWrite (keep : Bool) (s : State) : Host.Outcome State Fault Refusal := whenDue (alive s) s (bootKeep keep s)

/-- Whether the open window serves a slot (R223, R238). -/
def servingSlot (s : State) (k : Nat) : Bool := s.boot.isOpen && decide (s.boot.served = some k)

/-- BOOT_STAGE (R222, R238, R276). -/
def cmdBootStage (c : Ctx) (s : State) : Verdict :=
  let off := pf c 0 4
  let data := payloadOf c 8
  let m := mirage s
  let restart := (pf c 4 1).testBit 0
  if off % 4096 ≠ 0 ∨ 67108864 ≤ off ∨ 67108864 < off + data.length then reject c .badParam s
  else if servingSlot s m then reject c .badParam s
  else if !restart ∧ (bslot s m).st ≠ .staging then reject c .badParam s
  else
    let base : BSlot := if restart then { BSlot.reset with st := .staging } else bslot s m
    answer c .ok 0 [] (updBslot s m fun _ => { base with image := memPutBytes 0xFF base.image off data })

/-- The fields of a manifest that cause 0x0002 checks (R223). -/
def manifestOk (m : List Byte) : Bool :=
  decide (fieldAt m 0 4 = 0x4D425A5A) && decide (fieldAt m 4 1 = 1) && decide (1 ≤ mfLength m) && decide (mfLength m ≤ 67108864)
    && decide (fieldAt m 16 4 % 4096 = 0) && decide (fieldAt m 16 4 ≤ 524288) && allZero (bytesAt m 6 2) && allZero (bytesAt m 20 12)

/-- BOOT_COMMIT (R223, R224): the tree nodes, the slot seal and VALID. -/
def cmdBootCommit (c : Ctx) (s : State) : Verdict :=
  let m := c.plain.take 128
  let k := mirage s
  let owner := s.vtf.owner.getD []
  if s.vtf.debug = 2 then reject c .halted s
  else if (bslot s k).st ≠ .staging ∨ servingSlot s k then answer c .badParam 1 [] s
  else if !manifestOk m then answer c .badParam 2 [] s
  else if !Config.ecdsaVerify owner (ascii "ZZ-BOOT-V1" ++ m.take 64) (m.drop 64) then answer c .auth 3 [] (countAuth s)
  else if mfVersion m < vAt s.vtf.counters 3 then answer c .badParam 4 [] s
  else if merkleRoot (bslot s k).image (mfLength m) ≠ bytesAt m 32 32 then answer c .badParam 5 [] s
  else answer c .ok 0 [] (updBslot s k fun b => { b with
    st := .valid, manifest := m, dsig := (Config.dikSign m).toList, nodes := merkleTree 15 (bootLeaves b.image (mfLength m)) })

/-- Counter 3 raised to a version, never lowered (R225, R226). -/
def raiseFloor (v : Nat) (s : State) : State :=
  let c := vAt s.vtf.counters 3
  if c < v then { s with vtf.counters := vSet s.vtf.counters 3 v, vtf.bumps := vUpd s.vtf.bumps 3 (· + (v - c)) } else s

/-- BOOT_ACTIVATE (R225). An image below the floor is not activated (R226). -/
def cmdBootActivate (c : Ctx) (s : State) : Verdict :=
  let mode := pf c 0 1
  let raise := (pf c 1 1).testBit 0
  let m := mirage s
  let mirageOk := decide ((bslot s m).st = .valid) && decide (vAt s.vtf.counters 3 ≤ mfVersion (bslot s m).manifest)
  let fin (t : State) : Verdict :=
    let u := if raise then raiseFloor (mfVersion (bslot t t.boot.active).manifest) t else t
    answer c .ok 0 (leB 8 (vAt u.vtf.counters 3)) u
  match mode with
  | 0 => if mirageOk then fin { s with boot.active := m } else reject c .badParam s
  | 1 => if raise ∨ !mirageOk then reject c .badParam s else fin { s with boot.trialPend := true }
  | 2 =>
    match s.boot.served with
    | some k =>
      let floorOk := decide (vAt s.vtf.counters 3 ≤ mfVersion (bslot s k).manifest)
      if s.boot.trial && floorOk then fin { s with boot.active := k } else reject c .badParam s
    | none => reject c .badParam s
  | _ => reject c .badParam s

end Sys2Proof.Machine
end

