-- ==== Sys2Proof/Machine/Bundle.lean ====
section
/-! DEFINITION. Bundle files: their instructions, the checks of RULE_LOAD and the worst case it computes (R156 to R164). -/
namespace Sys2Proof.Machine
open Sys2Proof

/-- Operation code of a slot word (R159). -/
def slotOp (w : BitVec 32) : Nat := bits w.toNat 24 8
/-- Operand A. -/
def slotA (w : BitVec 32) : Nat := bits w.toNat 20 4
/-- Operand B. -/
def slotB (w : BitVec 32) : Nat := bits w.toNat 16 4
/-- IMM. -/
def slotImm (w : BitVec 32) : Nat := bits w.toNat 0 16

/-- A slot word from its operation code and operands (R159). -/
def slotWord (op : Nat) (w : SlotArgs) : BitVec 32 :=
  BitVec.ofNat 32 (op * 2 ^ 24 + w.a.toNat * 2 ^ 20 + w.b.toNat * 2 ^ 16 + w.imm.toNat)

/-- One instruction of 16 bytes (R159). -/
def insnOf (l : List Byte) : Insn :=
  { arr := BitVec.ofNat 32 (fieldAt l 0 4), sea := BitVec.ofNat 32 (fieldAt l 4 4), mov := BitVec.ofNat 32 (fieldAt l 8 4)
    ctl := BitVec.ofNat 32 (fieldAt l 12 4) }

/-- The instructions of a file (R163). -/
def insnsOf (file : List Byte) (n : Nat) : List Insn := (List.range n).map fun i => insnOf (bytesAt file (64 + 16 * i) 16)

/-- Whether an array slot is defined and its operands in range (R160). -/
def arrOk (w : BitVec 32) : Bool :=
  match slotOp w with
  | 0 => decide (slotA w = 0) && decide (slotB w = 0) && decide (slotImm w = 0)
  | 1 => decide (slotA w ≤ 3) && decide (slotB w = 0) && decide (1 ≤ slotImm w)
  | 2 => decide (slotA w ≤ 3) && decide (slotB w ≤ 7) && decide (slotImm w ≤ 7)
  | 3 => decide (1 ≤ slotA w) && decide (slotA w ≤ 3) && decide (slotB w ≤ 7) && decide (slotImm w = 0)
  | _ => false

/-- Whether a seal slot is defined and its operands in range (R160). -/
def seaOk (w : BitVec 32) : Bool :=
  match slotOp w with
  | 0 => decide (slotA w = 0) && decide (slotB w = 0) && decide (slotImm w = 0)
  | 1 => decide (1 ≤ slotA w) && decide (slotA w ≤ 3) && decide (slotB w ≤ 7) && decide (slotImm w = 0)
  | 2 => decide (slotA w = 0) && decide (slotB w ≤ 7) && decide (slotImm w ≤ 7)
  | _ => false

/-- Whether a move slot is defined and its operands in range (R160). -/
def movOk (w : BitVec 32) : Bool :=
  match slotOp w with
  | 0 => decide (slotA w = 0) && decide (slotB w = 0) && decide (slotImm w = 0)
  | 1 => decide (1 ≤ slotA w) && decide (slotA w ≤ 3) && decide (slotB w ≤ 7) && decide (slotImm w ≤ 7)
  | 2 => decide (slotA w ≤ 7) && decide (slotB w ≤ 7) && decide (slotImm w = 0)
  | 3 => decide (slotA w = 0) && decide (slotB w ≤ 7) && decide (slotImm w = 0)
  | 4 => decide (slotA w ≤ 7) && decide (slotB w = 0)
  | _ => false

/-- Whether a control slot is defined and its operands in range (R160). -/
def ctlOk (w : BitVec 32) : Bool :=
  match slotOp w with
  | 0 | 1 | 4 => decide (slotA w = 0) && decide (slotB w = 0) && decide (slotImm w = 0)
  | 2 => decide (1 ≤ slotA w) && decide (slotB w = 0) && decide (1 ≤ slotImm w)
  | 3 => decide (slotA w ≤ 7) && decide (slotB w = 0)
  | _ => false

/-- Whether an instruction passes cause 0x0003 (R164). -/
def insnOk (i : Insn) : Bool := arrOk i.arr && seaOk i.sea && movOk i.mov && ctlOk i.ctl

/-- Whether handle `h` may be used as an output: within NHANDLE and marked in HKIND (R164). -/
def outOk (nh hk h : Nat) : Bool := decide (h ≤ nh) && hk.testBit (h - 1)

/-- Whether an instruction uses its handles as NHANDLE and HKIND allow (R164). -/
def handlesOk (nh hk : Nat) (i : Insn) : Bool :=
  (match slotOp i.arr with
   | 1 => decide (slotA i.arr ≤ nh)
   | 2 => decide (slotA i.arr ≤ nh) && (decide (slotA i.arr = 0) || !hk.testBit (slotA i.arr - 1))
   | 3 => outOk nh hk (slotA i.arr)
   | _ => true) &&
  (decide (slotOp i.sea ≠ 1) || outOk nh hk (slotA i.sea)) && (decide (slotOp i.mov ≠ 1) || outOk nh hk (slotA i.mov))

/-- The loops of a bundle: the first and last index of each body (R160). -/
def loopsOf (is : List Insn) : List (Nat × Nat) :=
  (is.zipIdx.filter fun p => slotOp p.1.ctl == 2).map fun p => (p.2 + 1, p.2 + slotA p.1.ctl)

/-- Whether branches are forward, loop bodies end inside the bundle, and no CLOOP stands deeper than two levels (R164). -/
def shapeOk (is : List Insn) : Bool :=
  let loops := loopsOf is
  is.zipIdx.all fun p =>
    match slotOp p.1.ctl with
    | 3 => decide (p.2 < slotImm p.1.ctl) && decide (slotImm p.1.ctl < is.length)
    | 2 =>
      decide (p.2 + slotA p.1.ctl < is.length) &&
        decide ((loops.filter fun l => decide (l.1 ≤ p.2) && decide (p.2 ≤ l.2)).length ≤ 1)
    | _ => true

/-- The payload lengths of the buffers on a path, an ARDR taken at its greatest count. -/
abbrev Lens := Vector Nat 8

/-- The lengths after an instruction (R160). -/
def lensAfter (i : Insn) (l : Lens) : Lens :=
  let l1 := if slotOp i.arr = 2 then vSet l (slotB i.arr) 4096 else l
  match slotOp i.mov with
  | 2 => vSet l1 (slotB i.mov) (vAt l (slotA i.mov))
  | 3 => vSet l1 (slotB i.mov) 32
  | _ => l1

/-- What a path costs: steps, mEU, record bytes and records appended (R164). -/
structure Cost where
  /-- Steps. -/
  steps : Nat
  /-- mEU. -/
  eu : Nat
  /-- Record bytes appended. -/
  bytes : Nat
  /-- Records appended. -/
  recs : Nat
  deriving DecidableEq, Repr, Inhabited

/-- Sum. -/
def costAdd (a b : Cost) : Cost := ⟨a.steps + b.steps, a.eu + b.eu, a.bytes + b.bytes, a.recs + b.recs⟩

/-- Pointwise maximum. -/
def costMax (a b : Cost) : Cost := ⟨max a.steps b.steps, max a.eu b.eu, max a.bytes b.bytes, max a.recs b.recs⟩

/-- Cost of the array slot where its buffer holds `n` payload bytes (R160). -/
def arrCost (w : BitVec 32) (n : Nat) : Nat :=
  match slotOp w with
  | 1 => 1280
  | 2 => 960
  | 3 => 45 * ceilDiv (32 + n) 64
  | _ => 0

/-- Cost of the seal slot (R160). -/
def seaCost (w : BitVec 32) (n : Nat) : Nat :=
  match slotOp w with
  | 1 => 20 * ceilDiv (32 + n) 512
  | 2 => 5 * ceilDiv n 512
  | _ => 0

/-- Cost of the move slot, its source holding `n` payload bytes (R160). -/
def movCost (w : BitVec 32) (n : Nat) : Nat :=
  match slotOp w with
  | 1 => 20
  | 2 => 10 * ceilDiv n 512
  | 3 => 10
  | 4 => 1
  | _ => 0

/-- Cost of the control slot (R160). -/
def ctlCost (w : BitVec 32) : Nat := if slotOp w = 0 then 0 else 1

/-- Cost of an instruction where the buffers hold given lengths (R160). -/
def insnCost (i : Insn) (len : Nat → Nat) : Cost :=
  let app := decide (slotOp i.arr = 3)
  { steps := 1
    eu := arrCost i.arr (len (slotB i.arr)) + seaCost i.sea (len (slotB i.sea)) + movCost i.mov (len (slotA i.mov)) + ctlCost i.ctl
    bytes := if app then 32 + len (slotB i.arr) else 0
    recs := b2n app }

/-- A cost joined into an index's entry. -/
def costJoin (k : Nat) (v : Cost) (m : List (Nat × Cost)) : List (Nat × Cost) :=
  match look k m with
  | some x => put k (costMax x v) m
  | none => put k v m

/-- The key of the end of an execution. -/
def endKey : Nat := 65536

/-- Paths by where they stand: instruction, buffer lengths, and the worst cost of those that agree in both. -/
abbrev Paths := List (Nat × Lens × Cost)

/-- Paths joined into those at hand. -/
def pathJoin (e : Nat × Lens × Cost) : Paths → Paths
  | [] => [e]
  | f :: r => if f.1 = e.1 ∧ f.2.1 = e.2.1 then (f.1, f.2.1, costMax f.2.2 e.2.2) :: r else f :: pathJoin e r

/-- The key of a path that has run to the end of a loop's body. -/
def roundKey : Nat := 65537

/-- The rounds of a loop: the paths that leave it by a branch, and those that finish its full count (R164). -/
def roundsOf (body : Paths → Paths) (head : Nat) : Nat → Paths → Paths × Paths
  | 0, es => ([], es)
  | n + 1, es =>
    let x := body es
    let t := roundsOf body head n ((x.filter fun e => e.1 == roundKey).map fun e => (head, e.2))
    ((x.filter fun e => e.1 != roundKey) ++ t.1, t.2)

/-- The paths that leave the instructions `lo` to `hi - 1`, from those that enter at `lo`, each loop at its full count (R164); running on
past `hi - 1` leads to `fall`. `fuel` bounds the depth of nesting. -/
def pathsOf (is : List Insn) : Nat → Nat → Nat → Nat → Paths → Paths
  | 0, _, _, _, _ => []
  | fuel + 1, lo, hi, fall, start =>
    let nxt (k : Nat) : Nat := if k = hi then fall else k
    let stepAt := fun (m : Paths) (k : Nat) =>
      match is[k]? with
      | none => m
      | some i =>
        let rest := m.filter fun e => e.1 != k
        let next : Paths := (m.filter fun e => e.1 == k).map fun e =>
          (nxt (k + 1), lensAfter i e.2.1, costAdd e.2.2 (insnCost i (vAt e.2.1)))
        match slotOp i.ctl with
        | 1 => next.foldl (fun m e => pathJoin (endKey, Vector.replicate 8 0, e.2.2) m) rest
        | 3 => next.foldl (fun m e => pathJoin (slotImm i.ctl, e.2) (pathJoin e m)) rest
        | 2 =>
          let after := k + 1 + slotA i.ctl
          let r := roundsOf (pathsOf is fuel (k + 1) after roundKey) (k + 1) (slotImm i.ctl) (next.map fun e => (k + 1, e.2))
          (r.1 ++ r.2.map fun e => (nxt after, e.2)).foldl (fun m e => pathJoin e m) rest
        | _ => next.foldl (fun m e => pathJoin e m) rest
    ((List.range (hi - lo)).map (· + lo)).foldl stepAt start

/-- The worst costs of a bundle's paths, by where they end (R164). -/
def bundleCost (is : List Insn) : List (Nat × Cost) :=
  (pathsOf is 4 0 is.length is.length [(0, Vector.replicate 8 0, ⟨0, 0, 0, 0⟩)]).foldl (fun m e => costJoin e.1 e.2.2 m) []

/-- Bytes that the stored bundles take (R164). -/
def bundleBytes (s : State) : Nat := (s.wadi.bundles.map fun b => b.2.file.length).sum

/-- The lowest number from 1 that a store does not use. See log 57 (DESIGN CHOICE, unsafe). -/
def freeNum {α : Type} (m : List (Nat × α)) : Nat := (m.map (·.1)).foldl (fun c k => if k = c then c + 1 else c) 1

/-- RULE_LOAD (R163, R164, R193, R277). See log 57 (DESIGN CHOICE, unsafe). -/
def cmdRuleLoad (c : Ctx) (s : State) : Verdict :=
  let f := payloadOf c 8
  let body := f.take (f.length - 64)
  let n := fieldAt f 6 2
  let is := insnsOf f n
  let bad (cause : Nat) : Verdict := answer c .badParam cause [] s
  if !Config.ecdsaVerify c.owner body (f.drop (f.length - 64)) then rejectAuth c s
  else if fieldAt f 0 4 ≠ 0x42575A5A ∨ fieldAt f 4 1 ≠ 1 ∨ fieldAt f 5 1 ≠ 1 ∨ n = 0 ∨ 4096 < n ∨ f.length ≠ 128 + 16 * n
      ∨ 3 < fieldAt f 24 1 ∨ 7 < fieldAt f 25 1 ∨ fieldAt f 26 2 ≠ 0 ∨ !allZero (bytesAt f 52 12)
      ∨ fieldAt f 12 4 = 0 ∨ 16000 < fieldAt f 12 4 then bad 1
  else if crcBytes (bytesAt f 64 (16 * n)) ≠ bytesAt f 48 4 then bad 2
  else if !is.all insnOk then bad 3
  else if !(shapeOk is && is.all (handlesOk (fieldAt f 24 1) (fieldAt f 25 1))) then bad 4
  else
    let w := bundleCost is
    match w with
    | [(k, m)] =>
      if k ≠ endKey then bad 4
      else if fieldAt f 8 4 < m.steps ∨ fieldAt f 12 4 * 1000 < m.eu ∨ fieldAt f 16 4 < m.bytes ∨ fieldAt f 20 4 < m.recs then
        answer c .budget 5 [] s
      else if 32 ≤ s.wadi.bundles.length ∨ 262144 < bundleBytes s + f.length then answer c .quota 6 [] s
      else
        let num := freeNum s.wadi.bundles
        let b : Bundle := { Bundle.reset with
          file := f, insns := is, steps := fieldAt f 8 4, eu := fieldAt f 12 4, arrayBytes := fieldAt f 16 4
          maxRec := fieldAt f 20 4, nhandle := fieldAt f 24 1, hkind := fieldAt f 25 1, ruleId := bytesAt f 32 16 }
        answer c .ok num [] { s with wadi.bundles := put num b s.wadi.bundles }
    | _ => bad 4

end Sys2Proof.Machine
end

