-- ==== Sys2Proof/Machine/Wadi.lean ====
section
/-! DEFINITION. Stream rules: bindings, executions, their slot operations, metering and CONTRACT records (R156 to R183). -/
namespace Sys2Proof.Machine
open Sys2Proof

/-- The running execution of a sequencer. -/
def runOf (s : State) (d : Nat) : Option Run := vAt s.wadi.seqs d

/-- A sequencer's execution replaced. -/
def setRun (s : State) (d : Nat) (r : Option Run) : State := { s with wadi.seqs := vSet s.wadi.seqs d r }

/-- The handles of RULE_BIND's parameters (R278). -/
def bindHandles (c : Ctx) : List Nat := [pf c 4 4, pf c 8 4, pf c 12 4, pf c 16 4]

/-- RULE_BIND (R165, R166, R278). See log 57 (DESIGN CHOICE, unsafe). -/
def cmdRuleBind (c : Ctx) (s : State) : Verdict :=
  let depth := pf c 2 1
  let hs := bindHandles c
  match look (pf c 0 1) s.wadi.bundles with
  | none => reject c .badParam s
  | some b =>
    let used := hs.take (b.nhandle + 1)
    let rest := hs.drop (b.nhandle + 1)
    if b.breached ∨ depth = 0 ∨ rest.any (· ≠ noSubj) ∨ used.contains noSubj then reject c .badParam s
    else if used.any (fun h => (liveStream s h).isNone) then reject c .noStream s
    else if used.contains 0 ∨ used.eraseDups.length ≠ used.length
        ∨ (List.range b.nhandle).any (fun k => b.hkind.testBit k &&
            (match streamOf s ((hs[k + 1]?).getD 0) with | some st => decide (st.st = .sealed) | none => false)) then
      reject c .badParam s
    else if 64 ≤ s.wadi.bindings.length then reject c .quota s
    else
      let sum := committed s + b.eu * depth
      let grow := (pf c 3 1).testBit 0
      if s.oas.budget < sum ∧ !(grow ∧ sum ≤ 16000) then reject c .budget s
      else
        let num := freeNum s.wadi.bindings
        let bd : Binding := { Binding.reset with
          bundle := pf c 0 1
          h := Vector.ofFn fun (k : Fin 4) => if k.val ≤ b.nhandle then some ((hs[k.val]?).getD 0) else none
          fmask := BitVec.ofNat 8 (pf c 1 1), depth := depth }
        let s1 := { s with wadi.bindings := put num bd s.wadi.bindings }
        let s2 := if s.oas.budget < sum then recomputeW { s1 with oas.budget := sum } else s1
        answer c .ok num [] s2

/-- RULE_UNLOAD (R170, R277). -/
def cmdRuleUnload (c : Ctx) (s : State) : Verdict :=
  let kind := pf c 0 1
  let num := pf c 1 1
  let bundle := decide (kind = 1)
  let known := if bundle then (look num s.wadi.bundles).isSome else (look num s.wadi.bindings).isSome
  if 1 < kind ∨ num = 0 ∨ !known then reject c .badParam s
  else
    let j := newJob 0 [ctxReply c .ok 0 []] false (.ruleUnload num bundle ((pf c 2 1).testBit 0)) s
    let set := unloadSet s num bundle
    .fin (settleUnloads { j.2 with
      wadi.bindings := j.2.wadi.bindings.map fun b => if set.contains b.1 then (b.1, { b.2 with closing := some j.1 }) else b })

/-- Whether a record's write has been issued: it is placed, and each of its codewords still awaited is in flight (R171).
See log 57 (DESIGN CHOICE, unsafe). -/
def recIssued (s : State) (r : Rec) : Bool :=
  match r.place with
  | none => r.written
  | some p => r.written || r.cws.all fun k => s.arr.writes.any fun w => w.segno == p.segno && w.cw == k

/-- Pending executions learn the die that holds their trigger once its write is issued (R171). -/
def markIssued (s : State) : State :=
  { s with wadi.pend := s.wadi.pend.map fun p =>
      match p.issued, recAt s p.sid p.seq with
      | none, some r => if recIssued s r then { p with issued := r.place.map fun x => segDie s x.segno } else p
      | _, _ => p }

/-- Whether a die has staged records to issue. See log 57 (DESIGN CHOICE, unsafe). -/
def drainWork (s : State) (d : Nat) : Bool := (drainPick s d).isSome

/-- Whether a die still has a staged record to issue in the power-loss flush: one without a position, or one of whose codewords no write
holds (R177). -/
def flushWork (s : State) (d : Nat) : Bool :=
  drainWork s d || s.store.staging.any fun e =>
    match recAt s e.1 e.2 with
    | some r => (match r.place with | some p => decide (segDie s p.segno = d) && !recIssued s r | none => false)
    | none => false

/-- Whether sequencers step: the device runs, or the power-loss flush runs and the die has no staged record left to issue (R171,
R177). See log 57 (DESIGN CHOICE, unsafe). -/
def seqMay (s : State) (d : Nat) : Bool :=
  s.pwr.released && (if inLoss s then decide (s.pwr.seq = .flush) && !flushWork s d
    else decide (s.pwr.phase ≠ .halt) && !(vAt s.wadi.drainNext d && drainWork s d))

/-- The first pending execution that may start on a die: its trigger's write is issued there, its train if any has committed, and neither
an execution of its binding nor one of the same record and a lower binding comes before it (R171, R176).
See log 57 (DESIGN CHOICE, unsafe). -/
def nextPend (s : State) (d : Nat) : Option Pend :=
  let running (b : Nat) : Bool := s.wadi.seqs.toList.any fun r => match r with | some x => x.pend.binding == b | none => false
  let go := fun (acc : List Nat × Option Pend) (p : Pend) =>
    match acc.2 with
    | some _ => acc
    | none =>
      let lower := s.wadi.pend.any fun q => q.sid == p.sid && q.seq == p.seq && decide (q.binding < p.binding)
      if p.issued = some d ∧ !acc.1.contains p.binding ∧ !running p.binding ∧ !lower
          ∧ (match p.train with | some t => !trainOpen s t | none => true) = true then (acc.1, some p)
      else (p.binding :: acc.1, none)
  (s.wadi.pend.foldl go ([], none)).2

/-- RULE_EXECUTION_START (R158, R171). -/
def execRuleExecutionStart (die : Fin 8) (s : State) : Host.Outcome State Fault Refusal :=
  let s1 := markIssued s
  .next (match runOf s die.val, nextPend s1 die.val with
    | none, some p =>
      if seqMay s1 die.val then
        setRun { s1 with wadi.pend := s1.wadi.pend.filter (· ≠ p) } die.val (some { Run.reset with pend := p })
      else s
    | _, _ => s)

/-- The stream of a running execution's handle. -/
def handleOf (s : State) (r : Run) (h : Nat) : Option Nat :=
  match look r.pend.binding s.wadi.bindings with
  | some b => vAt b.h h
  | none => none

/-- The instruction a running execution stands at. -/
def insnAt (s : State) (r : Run) : Option Insn :=
  match look r.pend.binding s.wadi.bindings with
  | some b => (bundleOf s b.bundle).insns[r.idx]?
  | none => none

/-- The retained records of a source up to an execution's snapshot (R54, R158, R160). -/
def sourceRecs (s : State) (sid snap : Nat) : List Rec :=
  match streamOf s sid with
  | none => []
  | some st => st.recs.filter fun r => decide (st.first ≤ r.seq) && decide (r.seq ≤ snap) && !r.withdrawn && !expired s st r

/-- Whether ARDR may read a record: it stands in no uncorrectable codeword and is no member of an open train (R56, R123). -/
def sourceOk (s : State) (sid : Nat) (r : Rec) : Bool :=
  !recFaulty s sid r && (match r.train with | some t => !trainOpen s t | none => true)

/-- The position ASEEK sets: the earliest record from which the stored sizes total at most the limit (R160). -/
def seekPos (limit : Nat) (rs : List Rec) (snap : Nat) : Nat :=
  let go := fun (acc : Nat × Nat × Bool) (r : Rec) =>
    let t := acc.1 + storedSize r.payload.length
    if acc.2.2 && decide (t ≤ limit) then (t, r.seq, true) else (acc.1, acc.2.1, false)
  (rs.reverse.foldl go (0, snap + 1, true)).2.1

/-- Up to `n` stored bytes from a cursor, and the cursor after them; a record that cannot be read ends them (R123, R160). -/
def cursorRead (s : State) (sid : Nat) : Nat → Nat → Nat → List Rec → List Byte × Nat × Nat
  | _, seq, off, [] => ([], seq, off)
  | n, seq, off, r :: rs =>
    if r.seq < seq then cursorRead s sid n seq off rs
    else if !sourceOk s sid r then ([], seq, off)
    else
      let o := if r.seq = seq then off else 0
      let b := ((recRead s sid r).drop o).take n
      if o + b.length < storedSize r.payload.length then (b, r.seq, o + b.length)
      else
        let t := cursorRead s sid (n - b.length) (r.seq + 1) 0 rs
        (b ++ t.1, t.2)

/-- What one slot did: the state and the execution after it, or nothing yet where the slot waits. -/
abbrev SlotOut := Option (State × Run)

/-- A buffer as it stood when the step began. -/
def baseBuf (r : Run) (k : Nat) : WBuf := vAt r.base.buf k

/-- A buffer of the step's result changed. -/
def updBuf (r : Run) (k : Nat) (f : WBuf → WBuf) : Run := { r with cur.buf := vUpd r.cur.buf k f }

/-- An index register of the step's result set. -/
def setX (r : Run) (k v : Nat) : Run := { r with cur.x := vSet r.cur.x k (BitVec.ofNat 48 v) }

/-- The next number and the chain of a stream as they stood when the step began (R156). -/
def atStart (r : Run) (sid : Nat) (st : Stream) : Nat × List Byte :=
  match r.pre.find? fun p => p.1 == sid with
  | some p => p.2
  | none => (st.next, st.chain)

/-- Energy metered. -/
def meter (r : Run) (n : Nat) : Run := { r with mEu := r.mEu + n }

/-- ASEEK's effect (R160, R161). -/
def doAseek (w : BitVec 32) (rereads : Nat) (s : State) (r : Run) : SlotOut :=
  let h := slotA w
  let sid := (handleOf s r h).getD 0
  let snap := vAt r.pend.snaps h
  let pos := seekPos (slotImm w * 1024) (sourceRecs s sid snap) snap
  some (s, meter { r with cur := { r.cur with curSeq := vSet r.cur.curSeq h pos, cur := vSet r.cur.cur h 0 } }
    (arrCost w 0 + 640 * rereads))

/-- ARDR's effect (R160, R161). See log 57 (DESIGN CHOICE, unsafe). -/
def doArdr (w : BitVec 32) (rereads : Nat) (s : State) (r : Run) : SlotOut :=
  let h := slotA w
  let sid := (handleOf s r h).getD 0
  let snap := vAt r.pend.snaps h
  let t := cursorRead s sid 4096 (vAt r.base.curSeq h) (vAt r.base.cur h) (sourceRecs s sid snap)
  let r1 := { r with cur := { r.cur with curSeq := vSet r.cur.curSeq h t.2.1, cur := vSet r.cur.cur h t.2.2 } }
  some (s, meter (setX (updBuf r1 (slotB w) fun b => { b with bytes := t.1 }) (slotImm w) t.1.length)
    (arrCost w 0 + 640 * rereads))

/-- The signed payload of a CONTRACT record (R175). -/
def contractPayload (s : State) (r : Run) (cause cflags discard decl met : Nat) (b : Binding) : List Byte :=
  let body := [BitVec.ofNat 8 cause, BitVec.ofNat 8 b.bundle, BitVec.ofNat 8 r.pend.binding, BitVec.ofNat 8 cflags]
    ++ leB 4 discard ++ leB 8 r.pend.seq ++ leB 8 decl ++ leB 8 met ++ leB 4 (r.ostream.getD noSubj) ++ zeros 4
    ++ leB 8 r.ofirst ++ leB 8 r.olast ++ padTo 16 (bundleOf s b.bundle).ruleId
  let p := devPayload 0x0012 r.pend.sid body
  p ++ (Config.dikSign p).toList

/-- A device record written of the device's own accord: at once, or at the next mount where a flush runs (R43, R174, R177).
See log 57 (DESIGN CHOICE, unsafe). -/
def ownRec (payload : List Byte) (s : State) : State :=
  if inLoss s then { s with store.waiting := s.store.waiting ++ [(none, payload)] } else writeDev payload none s

/-- An execution ended: its held streams let go and its sequencer free, and what waited for it goes on (R170, R172). -/
def endRun (d : Nat) (s : State) : State :=
  let s1 := setRun s d none
  settleUnloads { s1 with
    store.streams := s1.store.streams.map fun e => if e.2.heldBy = some d then (e.1, { e.2 with heldBy := none }) else e }

/-- An AAPP that its stream refuses (R173). -/
def refuseRun (d : Nat) (out : Nat) (r : Run) (s : State) : State :=
  match look r.pend.binding s.wadi.bindings with
  | none => endRun d s
  | some b =>
    let pay := contractPayload s { r with ostream := some out } 6 (b2n (inLoss s)) 0 0 r.mEu b
    ownRec pay (endRun d (raiseFault 16 (BitVec.ofNat 32 (r.pend.binding + out * 4096)) s))

/-- AAPP's effect (R160, R172, R173): the record in the buffer is appended and its writes issued; the execution stops where the stream
refuses it, and the step waits while an open train or another execution holds the stream (R63, R172) and where a RING stream's oldest
segment holds a staged record. An AAPP of an empty buffer, for which the spec gives no record and no refusal, the model refuses in the
same way. See log 57 (DESIGN CHOICE, unsafe). -/
def doAapp (d : Nat) (w : BitVec 32) (s : State) (r : Run) : SlotOut :=
  let sid := (handleOf s r (slotA w)).getD 0
  let b := baseBuf r (slotB w)
  let n := b.bytes.length
  match streamOf s sid with
  | none => some (refuseRun d sid r s, r)
  | some st =>
    let go (t : State) : SlotOut :=
      let seq := lastSeq t sid + 1
      let hostf := fieldAt b.hdr 3 1 / 2 % 8 * 0x20
      let ts := if b.hdr.isEmpty then t.dtime else fieldAt b.hdr 12 8
      let t1 := addRec sid { Rec.reset with sidf := hostf, ts := ts, payload := b.bytes, array := true, byRule := true } t
      let t2 := updRec { t1 with oas.outst := t1.oas.outst - creditsFor n } sid seq fun x => { x with credits := 0 }
      let t3 := sealIfLast sid (placeStream sid t2)
      let r1 := { r with
        mBytes := r.mBytes + 32 + n, mRecs := r.mRecs + 1, aapps := r.aapps ++ [(sid, seq)], ostream := some sid
        ofirst := if r.ofirst = 0 then seq else r.ofirst, olast := seq
        pre := if r.pre.any fun p => p.1 == sid then r.pre else r.pre ++ [(sid, st.next, st.chain)] }
      some (t3, meter r1 (arrCost w n))
    if st.st = .sealed ∨ n = 0 ∨ seqMax < st.next then some (refuseRun d sid r s, r)
    else if (trainHolding s sid).isSome ∨ (st.heldBy.isSome ∧ st.heldBy ≠ some d) then none
    else match spaceFor s sid st (storedSize n) with
      | .fits => go s
      | .waitRing => none
      | .evict v g cause => go (evictSeg v g cause none s)
      | .refuse _ => some (refuseRun d sid r s, r)

/-- SREC's effect (R160): CRC and chain over the record in the buffer. -/
def doSrec (w : BitVec 32) (s : State) (r : Run) : SlotOut :=
  let sid := (handleOf s r (slotA w)).getD 0
  let b := baseBuf r (slotB w)
  let h20 := padTo 20 b.hdr
  let crc := crcBytes (h20 ++ b.bytes)
  let c0 := match streamOf s sid with | some st => (atStart r sid st).2 | none => []
  let ch := (Config.sha256 (c0 ++ h20 ++ crc ++ b.bytes)).toList
  some (s, meter (updBuf r (slotB w) fun x => { x with hdr := h20 ++ crc ++ ch.take 8, hdl := slotA w, chain := ch })
    (seaCost w b.bytes.length))

/-- SCRC's effect (R160). -/
def doScrc (w : BitVec 32) (s : State) (r : Run) : SlotOut :=
  let b := baseBuf r (slotB w)
  some (s, meter (setX r (slotImm w) (crc32c b.bytes).toNat) (seaCost w b.bytes.length))

/-- MHDR's effect (R160, R172): waits while an open train, or another execution, holds the stream. See log 57 (DESIGN CHOICE, unsafe). -/
def doMhdr (d : Nat) (w : BitVec 32) (s : State) (r : Run) : SlotOut :=
  let sid := (handleOf s r (slotA w)).getD 0
  match streamOf s sid with
  | none => some (s, meter r 20)
  | some st =>
    if (trainHolding s sid).isSome ∨ (st.heldBy.isSome ∧ st.heldBy ≠ some d) then none
    else
      let b := baseBuf r (slotB w)
      let hdr := leB 4 (sid + slotImm w * 2 ^ 25) ++ leB 6 (atStart r sid st).1 ++ leB 2 ((b.bytes.length + 65535) % 65536) ++ leB 8 s.dtime
      some (updStream s sid fun x => { x with heldBy := some d },
        meter (updBuf r (slotB w) fun x => { x with hdr := hdr, hdl := slotA w, chain := [] }) 20)

/-- MCPY's effect (R160). -/
def doMcpy (w : BitVec 32) (s : State) (r : Run) : SlotOut :=
  let b := baseBuf r (slotA w)
  some (s, meter (updBuf r (slotB w) fun x => { x with bytes := b.bytes }) (movCost w b.bytes.length))

/-- MTRG's effect (R160): the trigger record's 32-byte header as payload. -/
def doMtrg (w : BitVec 32) (s : State) (r : Run) : SlotOut :=
  let h := match recAt s r.pend.sid r.pend.seq with
    | some x => recHead24 r.pend.sid x ++ x.chain.take 8
    | none => []
  some (s, meter (updBuf r (slotB w) fun x => { x with bytes := padTo 32 h }) 10)

/-- MSET's effect (R160). -/
def doMset (w : BitVec 32) (s : State) (r : Run) : SlotOut := some (s, meter (setX r (slotA w) (slotImm w)) 1)

/-- The three slots that act together (R156). -/
inductive Part where
  | arr | sea | mov
  deriving DecidableEq, Repr, Inhabited

/-- The slot word of a part. -/
def partWord (p : Part) (i : Insn) : BitVec 32 := match p with | .arr => i.arr | .sea => i.sea | .mov => i.mov

/-- Whether a part of the step has completed. -/
def partDone (p : Part) (r : Run) : Bool := match p with | .arr => r.doneA | .sea => r.doneS | .mov => r.doneM

/-- A part of the step marked complete. -/
def markPart (p : Part) (r : Run) : Run :=
  match p with
  | .arr => { r with doneA := true }
  | .sea => { r with doneS := true }
  | .mov => { r with doneM := true }

/-- One of the three slots of the step a sequencer stands at, if it is the word given, and the sequencer may step (R156, R159). -/
def slotStep (p : Part) (d : Nat) (w : BitVec 32) (f : State → Run → SlotOut) (s : State) : State :=
  match runOf s d with
  | none => s
  | some r =>
    match insnAt s r with
    | none => s
    | some i =>
      if partWord p i ≠ w ∨ partDone p r = true ∨ !seqMay s d then s
      else match f s r with
        | none => s
        | some (t, r1) => if (runOf t d).isSome then setRun t d (some (markPart p r1)) else t

/-- No operation in a slot. -/
def doNothing (s : State) (r : Run) : SlotOut := some (s, r)

/-- The declared quantity that a meter has passed: its cause, declaration and reading (R174, R175). -/
def overMeter (b : Bundle) (r : Run) : Option (Nat × Nat × Nat) :=
  if b.steps < r.mSteps then some (1, b.steps, r.mSteps)
  else if b.eu * 1000 < r.mEu then some (2, b.eu * 1000, r.mEu)
  else if b.arrayBytes < r.mBytes then some (3, b.arrayBytes, r.mBytes)
  else if b.maxRec < r.mRecs then some (4, b.maxRec, r.mRecs)
  else none

/-- A Contract Breach (R174). -/
def breachRun (d : Nat) (r : Run) (b : Binding) (m : Nat × Nat × Nat) (s : State) : State :=
  let set := unloadSet s b.bundle true
  let others := (List.range 8).filter fun e => decide (e ≠ d) &&
    match runOf s e with | some x => set.contains x.pend.binding | none => false
  let discard := (s.wadi.pend.filter fun p => set.contains p.binding).length + others.length
  let pay := contractPayload s r m.1 (b2n (inLoss s) + 2) discard m.2.1 m.2.2 b
  let s1 := raiseFault 15 (BitVec.ofNat 32 (b.bundle * 256 + r.pend.binding)) s
  let s2 := { s1 with wadi := { s1.wadi with
    pend := s1.wadi.pend.filter fun p => !set.contains p.binding
    brCnt := satInc s1.wadi.brCnt } }
  let s3 := (d :: others).foldl (fun t e => endRun e t) s2
  let s4 := { s3 with wadi := { s3.wadi with
    bindings := s3.wadi.bindings.filter fun x => !set.contains x.1
    bundles := s3.wadi.bundles.map fun x => if x.1 = b.bundle then (x.1, { x.2 with breached := true }) else x } }
  ownRec pay (settleUnloads s4)

/-- The instruction after one that ends without a branch, and the loops still running (R160). -/
def loopNext (idx : Nat) : List (Nat × Nat × Nat) → Nat × List (Nat × Nat × Nat)
  | [] => (idx + 1, [])
  | (a, b, n) :: r => if idx = b then (if 1 < n then (a, (a, b, n - 1) :: r) else loopNext idx r) else (idx + 1, (a, b, n) :: r)

/-- Where a control slot goes: the next instruction and the running loops; CEND goes nowhere (R160). -/
def ctlNext (w : BitVec 32) (r : Run) : Option (Nat × List (Nat × Nat × Nat)) :=
  match slotOp w with
  | 1 => none
  | 2 => some (r.idx + 1, (r.idx + 1, r.idx + slotA w, slotImm w) :: r.loops)
  | 3 =>
    if vAt r.cur.x (slotA w) = 0 then
      some (slotImm w, r.loops.filter fun l => decide (l.1 ≤ slotImm w) && decide (slotImm w ≤ l.2.1))
    else some (loopNext r.idx r.loops)
  | _ => some (loopNext r.idx r.loops)

/-- Whether every record an execution has appended is written (R160). -/
def aappsDone (s : State) (r : Run) : Bool :=
  r.aapps.all fun a => match recAt s a.1 a.2 with | some x => x.written | none => true

/-- An execution that a train's member triggered has ended: what its CONTRACT record would hold is kept until the train is drained, for
a later withdrawal (R176). -/
def noteRan (pay : List Byte) (train : Option Nat) (s : State) : State :=
  { s with eng.trains := s.eng.trains.map fun t => if train = some t.tid then { t with ran := t.ran ++ [pay] } else t }

/-- The control slot of the step a sequencer stands at, once the other three have completed: it ends the step (R156, R160, R174). -/
def ctlStep (d : Nat) (w : BitVec 32) (s : State) : State :=
  match runOf s d with
  | none => s
  | some r =>
    match insnAt s r, look r.pend.binding s.wadi.bindings with
    | some i, some b =>
      let waits := decide (slotOp w = 1) || decide (slotOp w = 4)
      if i.ctl ≠ w ∨ !(r.doneA && r.doneS && r.doneM) ∨ !seqMay s d ∨ (waits && !aappsDone s r) then s
      else
        let r1 := { meter r (ctlCost w) with mSteps := r.mSteps + 1 }
        let s1 := { s with wadi.drainNext := vSet s.wadi.drainNext d true }
        match overMeter (bundleOf s b.bundle) r1 with
        | some m => breachRun d r1 b m s1
        | none =>
          match ctlNext w r1 with
          | none => endRun d (noteRan (contractPayload s r1 5 (b2n (inLoss s)) 0 0 r1.mEu b) r1.pend.train s1)
          | some (k, l) =>
            setRun s1 d (some { r1 with idx := k, loops := l, base := r1.cur, pre := [], doneA := false, doneS := false, doneM := false })
    | _, _ => s

/-- Whether the instruction a sequencer stands at has a slot that can act now: drain work need not wait for one that waits (R171).
See log 57 (DESIGN CHOICE, unsafe). -/
def stepReady (s : State) (d : Nat) : Bool :=
  match runOf s d with
  | none => false
  | some r =>
    match insnAt s r with
    | none => false
    | some i =>
      let arr := if slotOp i.arr = 3 then (doAapp d i.arr s r).isSome else true
      let mov := if slotOp i.mov = 1 then (doMhdr d i.mov s r).isSome else true
      let waits := decide (slotOp i.ctl = 1) || decide (slotOp i.ctl = 4)
      (!r.doneA && arr) || !r.doneS || (!r.doneM && mov)
        || (r.doneA && r.doneS && r.doneM && (!waits || aappsDone s r))

/-- Whether it is a sequencer's turn to step its execution and not to drain (R171). -/
def ruleTurn (s : State) (d : Nat) : Bool := !inLoss s && !vAt s.wadi.drainNext d && stepReady s d

/-- ANOP (R160). -/
def execAnop (die : Fin 8) (w : SlotArgs) (s : State) : Host.Outcome State Fault Refusal :=
  .next (slotStep .arr die.val (slotWord 0 w) doNothing s)

/-- ASEEK (R160). -/
def execAseek (die : Fin 8) (w : SlotArgs) (rereads : Nat) (s : State) : Host.Outcome State Fault Refusal :=
  .next (slotStep .arr die.val (slotWord 1 w) (doAseek (slotWord 1 w) rereads) s)

/-- ARDR (R160). -/
def execArdr (die : Fin 8) (w : SlotArgs) (rereads : Nat) (s : State) : Host.Outcome State Fault Refusal :=
  .next (slotStep .arr die.val (slotWord 2 w) (doArdr (slotWord 2 w) rereads) s)

/-- AAPP (R160). -/
def execAapp (die : Fin 8) (w : SlotArgs) (s : State) : Host.Outcome State Fault Refusal :=
  .next (slotStep .arr die.val (slotWord 3 w) (doAapp die.val (slotWord 3 w)) s)

/-- SNOP (R160). -/
def execSnop (die : Fin 8) (w : SlotArgs) (s : State) : Host.Outcome State Fault Refusal :=
  .next (slotStep .sea die.val (slotWord 0 w) doNothing s)

/-- SREC (R160). -/
def execSrec (die : Fin 8) (w : SlotArgs) (s : State) : Host.Outcome State Fault Refusal :=
  .next (slotStep .sea die.val (slotWord 1 w) (doSrec (slotWord 1 w)) s)

/-- SCRC (R160). -/
def execScrc (die : Fin 8) (w : SlotArgs) (s : State) : Host.Outcome State Fault Refusal :=
  .next (slotStep .sea die.val (slotWord 2 w) (doScrc (slotWord 2 w)) s)

/-- MNOP (R160). -/
def execMnop (die : Fin 8) (w : SlotArgs) (s : State) : Host.Outcome State Fault Refusal :=
  .next (slotStep .mov die.val (slotWord 0 w) doNothing s)

/-- MHDR (R160). -/
def execMhdr (die : Fin 8) (w : SlotArgs) (s : State) : Host.Outcome State Fault Refusal :=
  .next (slotStep .mov die.val (slotWord 1 w) (doMhdr die.val (slotWord 1 w)) s)

/-- MCPY (R160). -/
def execMcpy (die : Fin 8) (w : SlotArgs) (s : State) : Host.Outcome State Fault Refusal :=
  .next (slotStep .mov die.val (slotWord 2 w) (doMcpy (slotWord 2 w)) s)

/-- MTRG (R160). -/
def execMtrg (die : Fin 8) (w : SlotArgs) (s : State) : Host.Outcome State Fault Refusal :=
  .next (slotStep .mov die.val (slotWord 3 w) (doMtrg (slotWord 3 w)) s)

/-- MSET (R160). -/
def execMset (die : Fin 8) (w : SlotArgs) (s : State) : Host.Outcome State Fault Refusal :=
  .next (slotStep .mov die.val (slotWord 4 w) (doMset (slotWord 4 w)) s)

/-- CNOP (R160). -/
def execCnop (die : Fin 8) (w : SlotArgs) (s : State) : Host.Outcome State Fault Refusal :=
  .next (ctlStep die.val (slotWord 0 w) s)

/-- CEND (R160). -/
def execCend (die : Fin 8) (w : SlotArgs) (s : State) : Host.Outcome State Fault Refusal :=
  .next (ctlStep die.val (slotWord 1 w) s)

/-- CLOOP (R160). -/
def execCloop (die : Fin 8) (w : SlotArgs) (s : State) : Host.Outcome State Fault Refusal :=
  .next (ctlStep die.val (slotWord 2 w) s)

/-- CBRZ (R160). -/
def execCbrz (die : Fin 8) (w : SlotArgs) (s : State) : Host.Outcome State Fault Refusal :=
  .next (ctlStep die.val (slotWord 3 w) s)

/-- CWAIT (R160). -/
def execCwait (die : Fin 8) (w : SlotArgs) (s : State) : Host.Outcome State Fault Refusal :=
  .next (ctlStep die.val (slotWord 4 w) s)

/-- RULE_BUDGET_WRITE (R112, R167): OAS_RULE_BUDGET written. -/
def budgetWrite (v : Nat) (s : State) : State :=
  if v % 2 ^ 14 < committed s then { s with wadi.budRej := true }
  else if 16000 < v % 2 ^ 14 then s
  else recomputeW { s with oas.budget := v % 2 ^ 14 }

/-- RULE_BUDGET_WRITE (R112, R167). See log 29 (DESIGN CHOICE, unsafe). -/
def execRuleBudgetWrite (v : BitVec 16) (s : State) : Host.Outcome State Fault Refusal :=
  whenDue (alive s) s (budgetWrite v.toNat s)

end Sys2Proof.Machine
end

