-- ==== Sys2Proof/Machine/Early.lean ====
section
/-! DEFINITION. The early log: its writes and its merge (R70 to R74). -/
namespace Sys2Proof.Machine
open Sys2Proof

/-- The name under which a write of an early-log half covers its records. -/
def earlySid (h : Nat) : Nat := 2 ^ 20 + h

/-- The name of a half in a write of it. See log 59 (DESIGN CHOICE, safe). -/
def earlySeg (h : Nat) : Nat := 2 ^ 22 + h

/-- The first record of the half a die has to write: not written and not in flight. Record `i` goes to die `i mod 8`.
See log 58 (DESIGN CHOICE, unsafe). -/
def earlyPick (s : State) (d h : Nat) : Option EarlyRec :=
  (vAt s.store.halves h).recs.find? fun r =>
    !r.written && r.index % 8 == d && !(s.arr.writes.any fun w => w.covers.contains (earlySid h, r.index))

/-- The early-log write a die issues next. See log 58 (DESIGN CHOICE, unsafe). -/
def earlyWrite (s : State) (d : Nat) : Option CwWrite :=
  [0, 1].findSome? fun h => (earlyPick s d h).map fun r =>
    { CwWrite.reset with die := d, segno := earlySeg h, cw := r.index, covers := [(earlySid h, r.index)] }

/-- An early record written: its credits return and an ARRAY append is answered (R46, R71, R85). -/
def earlyWritten (h idx : Nat) (s : State) : State :=
  match (vAt s.store.halves h).recs.find? fun r => r.index == idx with
  | none => s
  | some r =>
    let s1 := { s with store.halves := vUpd s.store.halves h fun x => { x with
      top := max x.top idx
      recs := x.recs.map fun y => if y.index = idx then { y with written := true, credits := 0, job := none } else y } }
    releaseWaiting (jobWrite r.job (returnCredits r.credits s1))

/-- A row of the early-log region that fails its write-verify: ARY_WVFAIL, and a spare row of its bank takes its place (R116). Which row of
the die the record stands in, the spec does not say: a free value. See log 59 (DESIGN CHOICE, safe). -/
def earlyRowFailed (d : Nat) (s : State) : State :=
  let f := takeFresh s
  let at_ := (Config.freeBits 19 f.1).toNat
  updDie (raiseFault (44 + d) (BitVec.ofNat 32 (at_ / 32768 * 65536 + at_ % 32768)) f.2) d fun x => { x with
    bankRows := vUpd x.bankRows (at_ / 32768) (· - 1) }

/-- Whether a merge can place a record that its class gives no other place: in its stream's open segment, or in a new one that draws on
the floor (R74, R138). -/
def floorTakes (s : State) (sid : Nat) (st : Stream) (size : Nat) : Bool :=
  let pend := unplacedSizes st
  let takes := if st.attr.shared then
      (match (openSegOf s st).bind (segOf s) with | some g => segTakes g sid size | none => false)
    else decide (packOwned (openFill s st) (pend ++ [size]) = packOwned (openFill s st) pend)
  takes || decide (promised s < ((List.range 8).map fun d => dieAvail s d .floor).sum)

/-- An early record appended to its stream at merge: the next number, the stream's chain, its own TS, flags and payload (R72). It enters
staging without hold credits, and stays in its half until it is written (R5). -/
def mergeAdd (h sid : Nat) (e : EarlyRec) (s : State) : State :=
  match streamOf s sid with
  | none => s
  | some st =>
    let r : Rec := { Rec.reset with sidf := e.sidf, ts := e.ts, payload := e.payload, array := true, early := some (h, e.index) }
    let s1 := addRec sid r s
    let s2 := updRec { s1 with oas.outst := s.oas.outst } sid st.next fun x => { x with credits := 0 }
    sealIfLast sid { s2 with store.halves := vUpd s2.store.halves h fun x => { x with
      recs := x.recs.map fun y => if y.index = e.index then { y with merging := some st.next } else y } }

/-- What becomes of one early record at a merge: `waits` where a RING stream's oldest segment is not yet written (R53). -/
inductive MergeOut where
  | merged (s : State)
  | dropped
  | stays
  | waits
  deriving Inhabited

/-- One early record at a merge (R63, R74): a stream that an open train or an execution holds takes none. See log 58 (DESIGN CHOICE, unsafe). -/
def mergeOne (h : Nat) (e : EarlyRec) (s : State) : MergeOut :=
  match streamOf s e.sid with
  | none => .dropped
  | some st =>
    let add (t : State) : MergeOut :=
      match loadCtx e.sid t with
      | some u => .merged (mergeAdd h e.sid e u)
      | none => .stays
    let size := storedSize e.payload.length
    if st.st = .deleting ∨ st.gen ≠ e.gen then .dropped
    else if st.st = .sealed ∨ s.arr.media = .readonly ∨ seqMax < st.next then .stays
    else if (trainHolding s e.sid).isSome ∨ st.heldBy.isSome then .stays
    else match spaceFor s e.sid st size, st.attr.cls with
      | .fits, _ => add s
      | .evict v g cause, .ring => add (evictSeg v g cause none s)
      | .waitRing, _ => .waits
      | _, _ => if floorTakes s e.sid st size then add s else .stays

/-- The records of a half merged in index order (R72, R74), `f` following each; a stream one of whose records stays keeps its later ones
in the half too. See log 58 (DESIGN CHOICE, unsafe). -/
def mergeRecs (f : State → State) (h : Nat) : List Nat → List EarlyRec → State → State
  | _, [], s => s
  | kept, e :: rest, s =>
    let upd (t : State) (g : Half → Half) : State := { t with store.halves := vUpd t.store.halves h g }
    if e.merging.isSome then mergeRecs f h kept rest s
    else match mergeOne h e s with
      | .dropped => mergeRecs f h kept rest (upd s fun x => { x with
          dropped := x.dropped + 1, recs := x.recs.filter fun y => y.index != e.index })
      | .stays => mergeRecs f h (e.sid :: kept) rest s
      | .waits => mergeRecs f h (e.sid :: kept) rest (upd s fun x => { x with ringWait := true })
      | .merged t => mergeRecs f h kept rest (if kept.contains e.sid then s else f t)

/-- A half merged (R72 to R74): its last segment is sealed with cause 0x0005 once; it is held while a record stays in it, and when it is
empty its MERGE record is written and it is free again. See log 58 (DESIGN CHOICE, unsafe). See log 59 (DESIGN CHOICE, safe). -/
def mergeHalf (f : State → State) (h : Nat) (s : State) : State :=
  let x := vAt s.store.halves h
  if x.recs.isEmpty ∧ x.merged = 0 ∧ x.dropped = 0 then s
  else
    let s1 := if x.lastSeg = noSubj then
        let t := sealEarly h 5 s
        { t with store.halves := vUpd t.store.halves h fun y => { y with
          lastSeg := match y.segs.getLast? with | some g => g.1 | none => noSubj } }
      else s
    let s2 := mergeRecs f h [] x.recs { s1 with store.halves := vUpd s1.store.halves h fun y => { y with ringWait := false } }
    let y := vAt s2.store.halves h
    if y.recs.isEmpty then finishHalf h s2
    else { s2 with store.halves := vUpd s2.store.halves h fun z => { z with held := true } }

/-- EARLY_MERGE_RETRY (R53, R74): the pool has a slot above the floor again, or a RING record waits for a segment to become evictable.
See log 58 (DESIGN CHOICE, unsafe). -/
def execEarlyMergeRetry (s : State) : Host.Outcome State Fault Refusal :=
  let due := alive s && s.store.mounted && (s.store.halves.toList.any fun h => h.held)
    && ((s.store.halves.toList.any fun h => h.ringWait) || (List.range 8).any fun d => decide (0 < dieAvail s d .playa))
  whenDue due s ((halvesByAge s).foldl (fun t h => if (vAt t.store.halves h).held then mergeHalf id h t else t) s)

end Sys2Proof.Machine
end

