-- ==== Sys2Proof/Machine/Drain.lean ====
section
/-! DEFINITION. The array at work: draining, codeword writes and reads, scrub, recalibration, moves, compaction, Sirocco (R113 to
R143). -/
namespace Sys2Proof.Machine
open Sys2Proof

/-- Whether a die's crossing is hung (R544). -/
def dieHung (s : State) (d : Nat) : Bool := s.tbx.hung.getLsbD (4 + d)

/-- Whether the Wadi sequencers drain: the device runs, or its power-loss flush does (R93). -/
def drainOn (s : State) : Bool :=
  s.pwr.released && (if inLoss s then decide (s.pwr.seq = .flush) else decide (s.pwr.phase ≠ .halt))

/-- Whether a record would need a new live tail entry: it leaves a partly filled codeword that must go to the tail ring (R117). -/
def needsTail (s : State) (r : Rec) (g : Option Nat) : Bool :=
  let fill := match g.bind (segOf s) with | some x => x.fill | none => 64
  r.array && decide ((fill + storedSize r.payload.length) % 4096 ≠ 0)

/-- In the flush with a full tail ring a partly filled codeword goes home, and its segment is sealed at the next mount (R118). -/
def flushHome (d : Nat) (s : State) : State :=
  if decide (s.pwr.seq = .flush) && decide (32768 ≤ (dieOf s d).tailLive.length) then
    match s.arr.writes.getLast? with
    | some w =>
      if w.tail ∧ w.die = d then
        { s with
          arr.writes := s.arr.writes.dropLast ++ [{ w with tail := false }]
          prev.partials := s.prev.partials ++ [(w.segno, 0, (match segOf s w.segno with | some x => x.fill | none => 0))] }
      else s
    | none => s
  else s

/-- The flush reaches the partly filled codewords of records placed before it: each that no write holds goes to the tail ring (R117). -/
def flushPartials (s : State) : State :=
  s.store.staging.foldl (fun t e =>
    match recAt t e.1 e.2 with
    | none => t
    | some r =>
      match r.place with
      | none => t
      | some p => r.cws.foldl (fun u k =>
          if u.arr.writes.any fun w => w.segno == p.segno && w.cw == k then u else flushHome (segDie u p.segno) (issueWrite p.segno k true none u)) t) s

/-- The banks of a die that the Sirocco throttle lets programme at once; the power-loss flush ignores it (R142). -/
def banksMax (s : State) : Nat := if inLoss s || decide (s.arr.sirocco = 0) then 16 else if s.arr.sirocco = 1 then 8 else 4

/-- The banks of a die that have a write of a segment's home position in hand, in the order of their first. -/
def busyBanks (s : State) (d : Nat) : List Nat :=
  ((s.arr.writes.filter fun w => w.die == d && decide (w.segno < earlySeg 0)).map fun w => slotBank (segSlot s w.segno)).eraseDups

/-- Whether the throttle lets a die take a write to a bank; an early-log write counts as one of a further bank (R142). -/
def bankRoom (s : State) (d : Nat) (b : Option Nat) : Bool :=
  (match b with | some b => (busyBanks s d).contains b | none => false) || decide ((busyBanks s d).length < banksMax s)

/-- The bank of a record's next write: that of its segment, or of the slot a new segment takes. -/
def drainBank (s : State) (sid d : Nat) (r : Rec) (g : Option Nat) : Option Nat :=
  match g with
  | some g => some (slotBank (segSlot s g))
  | none => (allocOnDie s d (drawFor s sid r)).map slotBank

/-- STAGING_DRAIN_WRITE (R16, R117, R118, R142, R171): a die's sequencer takes its next record and issues its writes, in its turn beside the
execution it runs. -/
def execStagingDrainWrite (die : Fin 8) (s : State) : Host.Outcome State Fault Refusal :=
  let d := die.val
  .next (if !drainOn s || dieHung s d || ruleTurn s d then s
  else match earlyWrite s d with
    | some w => if bankRoom s d none then { s with arr.writes := s.arr.writes ++ [w] } else s
    | none =>
      match drainPick s d with
      | none => s
      | some (sid, r, g) =>
        if !inLoss s && needsTail s r g && decide (30720 ≤ (dieOf s d).tailLive.length) then s
        else if !bankRoom s d (drainBank s sid d r g) then s
        else
          let t := placeNext sid r g d { s with wadi.drainNext := vSet s.wadi.drainNext d false }
          reclaimAll (settleSeals (markIssued (flushHome d t))))

/-- Whether a move holds writes to a segment: from its fourth pass to step 7 (R128). -/
def moveHolds (s : State) (g : Nat) : Bool :=
  s.arr.moves.toList.any fun m => match m with | some x => x.segno == g && x.hold | none => false

/-- A codeword written during a move's copy is recorded in its dirty mask (R128). -/
def markDirty (w : CwWrite) (s : State) : State :=
  if w.tail then s
  else { s with arr.moves := vMap (fun m =>
    match m with
    | some x => if x.segno = w.segno ∧ x.sealed = false then some { x with dirty := if x.dirty.contains w.cw then x.dirty else x.dirty ++ [w.cw] } else m
    | none => m) s.arr.moves }

/-- Programme-verify loops beyond three, metered to the executions whose records the codeword holds (R161). -/
def surcharge (w : CwWrite) (loops : Nat) (s : State) : State :=
  { s with wadi.seqs := vMap (fun r =>
    match r with
    | some x => if x.aapps.any fun a => w.covers.contains a then some (meter x (320 * (loops - 3))) else r
    | none => r) s.wadi.seqs }

/-- The first write in flight on a die that nothing holds. -/
def dieWrite (s : State) (d : Nat) : Option CwWrite :=
  s.arr.writes.find? fun w => w.die == d && !(moveHolds s w.segno && !w.tail)

/-- A write that reaches a slot whose pair its GEN no longer matches: a retry response, and it is issued again (R127). -/
def retryWrite (w : CwWrite) (s : State) : State :=
  { s with arr.writes := s.arr.writes ++ [{ w with die := segDie s w.segno, gen := segGen s w.segno }] }

/-- CODEWORD_WRITE_COMPLETE (R46, R85, R116, R127): the oldest write of a die ends its write-verify, within its band or not, after a number
of programme-verify loops; or the shell answers it with a retry response. -/
def execCodewordWriteComplete (die : Fin 8) (ok : Bool) (loops : Nat) (s : State) : Host.Outcome State Fault Refusal :=
  let d := die.val
  .next (if !s.pwr.released || dieHung s d || decide (s.pwr.seq = .marked) || decide (s.pwr.seq = .off) then s
  else match dieWrite s d with
    | none => s
    | some w =>
      let s0 := markIssued s
      let s1 := updDie { s0 with arr.writes := s0.arr.writes.erase w } d fun x => { x with turn := x.turn + 1 }
      if earlySeg 0 ≤ w.segno then
        mediaTest (earlyWritten (w.segno - earlySeg 0) w.cw (if ok then s1 else earlyRowFailed d s1))
      else if !w.tail && decide (w.gen ≠ segGen s1 w.segno) then retryWrite w s1
      else
        let s2 := surcharge w loops (markDirty w s1)
        reclaimAll (if ok then writeVerified w s2 else mediaTest (writeFailed w s2)))

/-- A partly filled codeword of a die that holds a record staged for 2,000 ticks and is in no write (R117). -/
def agedCw (s : State) (d : Nat) : Option (Nat × Nat) :=
  s.store.staging.findSome? fun e =>
    match recAt s e.1 e.2 with
    | none => none
    | some r =>
      match r.place with
      | none => none
      | some p =>
        if decide (r.stagedAt + 2000 ≤ s.tick) && decide (segDie s p.segno = d) then
          (r.cws.find? fun k => !(s.arr.writes.any fun w => w.segno == p.segno && w.cw == k)).map fun k => (p.segno, k)
        else none

/-- TAIL_RING_AGE_TIMEOUT (R117, R118): a record in a partly filled codeword has been in staging for 2,000 ticks. -/
def execTailRingAgeTimeout (die : Fin 8) (s : State) : Host.Outcome State Fault Refusal :=
  let d := die.val
  .next (if !drainOn s || inLoss s || s.prev.lost || dieHung s d || decide (30720 ≤ (dieOf s d).tailLive.length) then s
  else match agedCw s d with
    | some (g, k) => markIssued (issueWrite g k true none s)
    | none => s)

/-- Whether every record of a sealed or open TIMED segment has expired and is written (R54). -/
def segExpired (s : State) (x : SegSt) (g : Nat) : Bool :=
  decide (x.kind ≠ .early) && !x.sids.isEmpty && x.sids.all fun sid =>
    match streamOf s sid with
    | none => true
    | some st => decide (st.attr.cls = .timed) && (recsIn st g).all fun r => r.written && expired s st r

/-- Whether a TRIM record with cause 3 for one of some streams is not yet written (R54). -/
def trimPending (s : State) (sids : List Nat) : Bool :=
  let isTrim (p : List Byte) : Bool := fieldAt p 0 2 == 4 && fieldAt p 16 1 == 3 && sids.contains (fieldAt p 4 4)
  (s.store.waiting.any fun w => isTrim w.2) || (match streamOf s 0 with | some st => st.recs.any fun r => !r.written && isTrim r.payload | none => false)

/-- The first retained number of a stream once the records of a segment are gone. -/
def firstAfter (st : Stream) (g : Nat) : Nat :=
  max st.first (match (st.recs.filter fun r => decide (st.first ≤ r.seq) && (match r.place with | some p => p.segno != g | none => true)).head? with
    | some r => r.seq
    | none => st.next)

/-- The first step of a reclaim: every stream's first retained number passes the segment's records, with its TRIM record (R54). -/
def expireSeg (g : Nat) (x : SegSt) (s : State) : State :=
  x.sids.foldl (fun t sid =>
    match streamOf t sid with
    | none => t
    | some st =>
      let f := firstAfter st g
      trimRec sid f 3 none (updStream t sid fun y => { y with first := f })) (updSeg s g fun y => { y with expiring := true })

/-- The oldest segment whose reclaim has not begun and whose every record has expired. Which of several goes first, the spec does not say.
See log 67 (DESIGN CHOICE, unsafe). -/
def expiredPick (s : State) : Option (Nat × SegSt) :=
  (s.arr.segs.filter fun e => !e.2.expiring && segExpired s e.2 e.1).foldl
    (fun b e => match b with | none => some e | some y => if e.2.openTs < y.2.openTs then some e else some y) none

/-- TIMED_EXPIRY_RECLAIM (R54): a TIMED segment whose every record has expired gives its TRIM records, and once they are written, its
space. -/
def execTimedExpiryReclaim (s : State) : Host.Outcome State Fault Refusal :=
  .next (if !alive s || !s.store.mounted then s
  else match s.arr.segs.find? fun e => e.2.expiring && !trimPending s e.2.sids with
    | some (g, _) => freeSeg g s
    | none =>
      match expiredPick s with
      | some (g, x) => expireSeg g x s
      | none => s)

/-- The calibration region of a slot within its bank (R113). -/
def slotRegion (n : Nat) : Nat := slotIn n / 256

/-- The fault detail of a codeword: bank, slot and codeword (R497). -/
def cwDetail (n cw : Nat) : BitVec 32 := BitVec.ofNat 32 (slotDetail n + cw * 2 ^ 20)

/-- The slot of a codeword that a shell reads: that of its segment, or of a unit of the metadata area that holds no segment, named by its
unit's number (R115, R125). See log 60 (DESIGN CHOICE, unsafe). -/
def readSlot (s : State) (g : Nat) : Option Nat :=
  match mapLook s g with
  | some e => some e.slot
  | none => if metaBase + metaSegs ≤ g ∧ g < metaBase + metaUnits then some (unitSlot (g - metaBase)) else none

/-- A codeword found uncorrectable (R123): in a log segment, a heap segment or the metadata area. -/
def markUncorr (g cw : Nat) (s : State) : State :=
  match segOf s g with
  | some _ => updSeg s g fun x => { x with uncorr := if x.uncorr.contains cw then x.uncorr else x.uncorr ++ [cw] }
  | none => { s with arr.heapBad := if s.arr.heapBad.contains (g, cw) then s.arr.heapBad else s.arr.heapBad ++ [(g, cw)] }

/-- One codeword read acted on by the margin table, a row's actions added to those of the rows above it (R120, R121, R150, R151).
See log 55 (DESIGN CHOICE, safe). See log 66 (DEDUCED, unsafe). -/
def codewordRead (g cw : Nat) (margin : BitVec 6) (soft reread uncorr : Bool) (s : State) : State :=
  match readSlot s g with
  | none => s
  | some n =>
    let d := slotDie n
    let die := dieOf s d
    let again := reread || uncorr
    let deep := decide (margin < die.recalThr) || soft || again
    let s1 := updDie s d fun x => { x with
      hist := vUpd x.hist (margin.toNat / 8) satInc
      refresh := if (decide (margin < die.scrubThr) || deep) && !x.refresh.contains (g, cw) then x.refresh ++ [(g, cw)] else x.refresh
      recal := if deep && !x.recal.contains (slotBank n, slotRegion n) then
        x.recal ++ [(slotBank n, slotRegion n)] else x.recal }
    let s2 := if again then
        raiseFault (52 + d) (cwDetail n cw)
          { updDie s1 d (fun x => { x with ceCnt := satInc x.ceCnt }) with arr.ceTotal := s1.arr.ceTotal + 1 }
      else s1
    if uncorr then
      let s3 := markUncorr g cw s2
      markFailing n (raiseFault (60 + d) (cwDetail n cw)
        { updDie s3 d (fun x => { x with ucCnt := satInc x.ucCnt }) with arr.ucTotal := s3.arr.ucTotal + 1 })
    else s2

/-- Whether the shells work: the device is started, in no loss sequence and not in OFF (R93, R533). -/
def shellOn (s : State) (d : Nat) : Bool := s.pwr.released && !inLoss s && decide (s.pwr.pstate ≠ .off) && !dieHung s d

/-- The die that a read of a segment or unit goes to. -/
def mappedDie (s : State) (g : Nat) : Nat := match readSlot s g with | some n => slotDie n | none => 0

/-- CODEWORD_READ (R120, R121): a codeword read for a requester, its margin, and the decoding it needed. See log 55 (DESIGN CHOICE, safe). -/
def execCodewordRead (g : Nat) (cw : Fin 64) (margin : BitVec 6) (soft reread uncorr : Bool) (s : State) :
    Host.Outcome State Fault Refusal :=
  whenDue (shellOn s (mappedDie s g)) s (codewordRead g cw.val margin soft reread uncorr s)

/-- Whether the home position of a codeword holds it: a partly filled codeword of an open segment is not yet written there (R117). -/
def atHome (s : State) (g cw : Nat) : Bool := match segOf s g with | some x => x.home.contains cw | none => true

/-- A codeword refreshed (R122): written to the tail ring, reprogrammed at home with write-verify, and its tail entry retired. Where its row
fails, a spare row takes its place; with none left it stays in the tail ring and the slot is marked failing (R116). Of a codeword that
is not yet at home only the tail entry is renewed. See log 66 (DEDUCED, unsafe). -/
def refreshCw (d g cw : Nat) (ok : Bool) (s : State) : State :=
  let n := segSlot s g
  let key := 65 * slotBank n + slotRegion n
  let s1 := updDie s d fun x => tailPush g cw { x with regRef := put key ((look key x.regRef).getD 0 + 1) x.regRef }
  if !atHome s g cw then s1
  else if ok then tailClear g cw s1
  else match rowFailed n cw s1 with
    | (true, t) => mediaTest (tailClear g cw t)
    | (false, t) => t

/-- CODEWORD_REFRESH (R89, R92, R116, R122): the first queued codeword of a die, whose reprogramming is verified or not.
See log 66 (DEDUCED, unsafe). -/
def execCodewordRefresh (w : Rewrite) (s : State) : Host.Outcome State Fault Refusal :=
  let d := w.die.val
  .next (if !shellOn s d || s.oas.warn || s.oas.overV then s
  else match (dieOf s d).refresh with
    | [] => s
    | (g, cw) :: rest => refreshCw d g cw w.ok (updDie s d fun x => { x with refresh := rest }))

/-- Every region of a die queued for recalibration (R124). -/
def startRecal (d : Nat) (s : State) : State := updDie s d fun x => { x with cal := true, calLeft := 1040 }

/-- REGION_RECALIBRATION (R124): the next region of a full recalibration, or the first queued one. -/
def execRegionRecalibration (die : Fin 8) (s : State) : Host.Outcome State Fault Refusal :=
  let d := die.val
  .next (if !shellOn s d then s
  else updDie s d fun x =>
    if 0 < x.calLeft then { x with
      calLeft := x.calLeft - 1
      cal := decide (1 < x.calLeft)
      lastReg := BitVec.ofNat 7 ((1040 - x.calLeft) % 65)
      calTemp := if x.calLeft = 1 then s.oas.temp else x.calTemp }
    else match x.recal with
      | (_, r) :: rest => { x with recal := rest, lastReg := BitVec.ofNat 7 r }
      | [] => x)

/-- TEMPERATURE_RECALIBRATION_TRIGGER (R124). -/
def execTemperatureRecalibrationTrigger (die : Fin 8) (s : State) : Host.Outcome State Fault Refusal :=
  let x := dieOf s die.val
  whenDue (shellOn s die.val && x.auto && !x.cal && decide (10 ≤ (s.oas.temp - x.calTemp).natAbs)) s (startRecal die.val s)

/-- ARRAY_RECALIBRATE_START (R11, R146): a write of ARY_CAL.START, ignored while a recalibration runs. -/
def execArrayRecalibrateStart (die : Fin 8) (s : State) : Host.Outcome State Fault Refusal :=
  whenDue (shellOn s die.val && !(dieOf s die.val).cal) s (startRecal die.val s)

/-- A patrol begun (R125, R145). -/
def startPatrol (d : Nat) (s : State) : State :=
  updDie s d fun x => { x with patrol := true, margMin := 0x3F, regRef := [], patDone := [] }

/-- PATROL_START (R11, R147): a write of ARY_SCRUB.START, ignored while a patrol runs. -/
def execPatrolStart (die : Fin 8) (s : State) : Host.Outcome State Fault Refusal :=
  whenDue (shellOn s die.val && !(dieOf s die.val).patrol) s (startPatrol die.val s)

/-- Whether the Wadi sequencer of a slot's die has work queued on the slot's bank that no move holds (R132). -/
def wadiOn (s : State) (n : Nat) : Bool :=
  s.arr.writes.any fun w => w.die == slotDie n && decide (w.segno < earlySeg 0) && slotBank (segSlot s w.segno) == slotBank n
    && !(moveHolds s w.segno && !w.tail)

/-- Whether a Barchan move works on the bank of a slot. -/
def barchanOn (s : State) (n : Nat) : Bool :=
  s.arr.moves.toList.any fun m =>
    match m with
    | some x => [x.src, x.dst].any fun k => slotDie k == slotDie n && slotBank k == slotBank n
    | none => false

/-- The bit of a calibration region among those of its die. -/
def regionBit (n : Nat) : Nat := 65 * slotBank n + slotRegion n

/-- Whether the patrol of a die turns to a slot now: any, or those of the regions the mount found weak before the others (R125). -/
def prioOk (x : Die) (n : Nat) : Bool := decide (x.prio = 0) || (!metaSlot n && x.prio.getLsbD (regionBit n))

/-- Whether a patrol may read: no WARN, no OVER, Sirocco level 0, and no work on the bank (R89, R92, R125, R142). -/
def patrolMay (s : State) (n : Nat) : Bool :=
  shellOn s (slotDie n) && !s.oas.warn && !s.oas.overV && decide (s.arr.sirocco = 0) && !wadiOn s n && !barchanOn s n

/-- The segments and units that the patrol of a die reads: those mapped, and the metadata area (R125). -/
def patrolled (s : State) (d : Nat) : List Nat :=
  ((s.arr.map.filter fun e => decide (e.1 < metaBase)).map (·.1) ++ (List.range metaUnits).map (· + metaBase)).filter fun g => mappedDie s g == d

/-- One codeword noted as read by the patrol, with its margin (R145). -/
def patrolNote (d g cw : Nat) (margin : BitVec 6) (s : State) : State :=
  updDie s d fun x => { x with
    margMin := if margin < x.margMin then margin else x.margMin
    patDone := put g ((look g x.patDone).getD 0 ||| BitVec.ofNat 64 (2 ^ cw)) x.patDone }

/-- Whether the patrol has read every codeword of some segments. -/
def patrolRead (x : Die) (gs : List Nat) : Bool := gs.all fun g => decide (look g x.patDone = some (BitVec.allOnes 64))

/-- A region read whole is no longer ahead of its turn (R125). -/
def prioDone (d n : Nat) (s : State) : State :=
  let gs := (s.arr.map.filter fun e => slotDie e.2.slot == d && !metaSlot e.2.slot && regionBit e.2.slot == regionBit n).map (·.1)
  updDie s d fun x => { x with
    prio := if !metaSlot n && patrolRead x gs then x.prio &&& ~~~(BitVec.ofNat 1040 (2 ^ regionBit n)) else x.prio }

/-- PATROL_READ (R125): one codeword read by the patrol of its die, which starts by itself where PERIOD is not 0 or the mount found a region
weak; with `last`, where it has then read every codeword of the die, the patrol is complete. -/
def execPatrolRead (g : Nat) (cw : Fin 64) (margin : BitVec 6) (soft reread uncorr last : Bool) (s : State) :
    Host.Outcome State Fault Refusal :=
  .next (match readSlot s g with
  | none => s
  | some n =>
    let d := slotDie n
    let x := dieOf s d
    if !patrolMay s n || !prioOk x n || !(x.patrol || decide (x.period ≠ 0) || decide (x.prio ≠ 0)) then s
    else
      let s0 := patrolNote d g cw.val margin (if x.patrol then s else startPatrol d s)
      let s1 := prioDone d n (codewordRead g cw.val margin soft reread uncorr s0)
      if last && patrolRead (dieOf s1 d) (patrolled s1 d) then
        updDie s1 d fun y => { y with patrol := false, lastPatrolMin := y.margMin }
      else s1)

/-- Whether a Barchan engine may take a bank operation on a slot: no Wadi work is queued there, or the die's free count is at or below the
floor and three bank operations have passed since its last (R132). -/
def barchanBank (s : State) (n : Nat) : Bool :=
  !wadiOn s n || (decide (dieFree s (slotDie n) ≤ 64) && decide (3 ≤ (dieOf s (slotDie n)).turn))

/-- A Barchan engine's operation on a slot's bank taken. -/
def barchanTook (n : Nat) (s : State) : State := updDie s (slotDie n) fun x => { x with turn := 0 }

/-- Whether Barchan work other than evacuation and journal recovery is suspended (R132). -/
def barchanSusp (s : State) : Bool := s.oas.warn || s.oas.overV || decide (1 ≤ s.arr.sirocco) || s.arr.pause

/-- The lowest idle Barchan engine. -/
def freeEngine (s : State) : Option Nat := (List.range 4).find? fun k => (vAt s.arr.moves k).isNone && (vAt s.arr.heapEng k).isNone

/-- A segment move started: START is journalled and MIG set (R128). -/
def startMove (k : Nat) (m : MoveSt) (s : State) : State :=
  let s1 := updSlot s m.dst fun i => { i with used := true, prog := i.prog + 1 }
  { s1 with
    arr.moves := vSet s1.arr.moves k (some m)
    arr.map := match mapLook s1 m.segno with | some e => put m.segno { e with mig := true } s1.arr.map | none => s1.arr.map }

/-- The least-worn free slot of a die that a move may take (R133, R138). -/
def leastWorn (s : State) (d : Nat) : Option Nat :=
  argMin (fun n => (slotOf s n).prog) ((List.range 16).flatMap fun b =>
    let n := bankAvail s d .floor b
    let listed := ((bankListed s d b).filter fun e => slotFree e.2).length
    (List.range (min n (listed + 1))).map fun i => bankBase d b + nthFree (floorIn s d (drawKeeps .floor) b + i) (bankTaken s d b))

/-- The mapped slots of a die. -/
def mappedSlots (s : State) (d : Nat) : List (Nat × SlotInfo) :=
  s.arr.slots.filter fun e => decide (slotDie e.1 = d) && e.2.seg.isSome

/-- Whether a segment may be moved for wear levelling: sealed or heap, and not already moving (R133). See log 60 (DESIGN CHOICE, unsafe). -/
def moveable (s : State) (g : Nat) : Bool :=
  (match segOf s g with | some x => x.sealed.isSome | none => true)
    && match mapLook s g with | some e => !e.mig | none => false

/-- The slot whose segment a wear-levelling or scrub move takes, with its target (R128, R133). See log 60 (DESIGN CHOICE, unsafe). -/
def wearPick (s : State) (d : Nat) : Option (Nat × Nat × Nat) :=
  let worn := argMax (fun n => (slotOf s n).prog) ((mappedSlots s d).map (·.1))
  match worn, leastWorn s d with
  | some a, some b =>
    let ga := (slotOf s a).seg.getD 0
    if s.arr.wlThr ≠ 0 ∧ s.arr.wlThr.toNat * 1024 < (slotOf s a).prog - (slotOf s b).prog ∧ moveable s ga then some (ga, a, b)
    else
      let hot := (dieOf s d).regRef.filter fun e => decide (64 < e.2)
      ((mappedSlots s d).find? fun e =>
        (hot.any fun h => h.1 == 65 * slotBank e.1 + slotRegion e.1) && moveable s (e.2.seg.getD 0)).map fun e => (e.2.seg.getD 0, e.1, b)
  | _, _ => none

/-- WEAR_LEVEL_MOVE_START (R132, R133): on a die, by the programme-count spread, or for scrub where a region's refreshes pass 64 in one
patrol (R128). -/
def execWearLevelMoveStart (die : Fin 8) (s : State) : Host.Outcome State Fault Refusal :=
  let d := die.val
  .next (if !shellOn s d || barchanSusp s || !s.store.mounted then s
  else match freeEngine s, wearPick s d with
    | some k, some (g, a, b) =>
      startMove k { MoveSt.reset with segno := g, src := a, dst := b, gen := (slotOf s a).gen } s
    | _, _ => s)

/-- A slot retired (R137). -/
def retireSlot (n : Nat) (s : State) : State :=
  let s1 := updSlot s n fun i => { i with used := false, failing := false, retired := true, seg := none }
  raiseFault (68 + slotDie n) (BitVec.ofNat 32 (slotDetail n)) { s1 with arr.retired := s1.arr.retired + 1 }

/-- A slot for an evacuation from the Playa pool, the floor included and the journal reserve not (R119, R137, R138). On which die it is
taken, the spec does not say: the model tries the failing slot's own die and then D0 upwards. See log 60 (DESIGN CHOICE, unsafe). -/
def evacSlot (s : State) (d : Nat) : Option Nat := (d :: List.range 8).findSome? fun e => allocOnDie s e .floor

/-- A reserved spare slot for an evacuation: on the slot's own die, else on any (R137). -/
def evacSpare (s : State) (d b : Nat) : Option Nat := (d :: List.range 8).findSome? fun e => spareOnDie s e b

/-- The owner of a segment as a SABKHA record names it (R141). -/
def segOwner (s : State) (g : Nat) : Nat := match segOf s g with | some x => x.owner | none => noSubj

/-- One reserved spare slot taken. -/
def takeSpare (n : Nat) (s : State) : State :=
  updDie s (slotDie n) fun x => { x with bankSpare := vUpd x.bankSpare (slotBank n) (· - 1) }

/-- A failing slot's evacuation begun (R137, R139, R140): to a reserved spare slot; else to a free slot of the Playa pool; with the free
count at 0 it evicts RING data first in SABKHA, waits in READONLY, and otherwise leads to READONLY. -/
def evacuate (k n : Nat) (s : State) : State :=
  let rest (t : State) : State := { t with arr.evacPending := t.arr.evacPending.filter (· != n) }
  match slotSeg s n with
  | none => mediaTest (retireSlot n (rest s))
  | some g =>
    let go (dst : Nat) (sp : Bool) (t : State) : State :=
      mediaTest (startMove k { MoveSt.reset with segno := g, src := n, dst := dst, gen := segGen s g, evac := true, spare := sp } (rest t))
    match evacSpare s (slotDie n) (slotBank n), evacSlot s (slotDie n) with
    | some b, _ => go b true (takeSpare b s)
    | none, some b => go b false s
    | none, none =>
      match s.arr.media, oldestRing s with
      | .readonly, _ => s
      | .sabkha, some (v, r) =>
        let t := evictSeg v r 4 none s
        match evacSlot t (slotDie n) with
        | some b => go b false t
        | none => t
      | _, _ => mediaTo .readonly 2 (segOwner s g) s

/-- Whether a slot waits for its evacuation now: it is no running move's slot (R128). -/
def evacReady (s : State) (n : Nat) : Bool :=
  !(s.arr.moves.toList.any fun m => match m with | some x => x.src == n || x.dst == n | none => false)

/-- SLOT_EVACUATION_START (R132, R137): the oldest slot marked failing that no move uses. -/
def execSlotEvacuationStart (s : State) : Host.Outcome State Fault Refusal :=
  .next (if !s.pwr.released || inLoss s || s.oas.warn || decide (s.pwr.pstate = .off) || !s.store.mounted then s
  else match freeEngine s, s.arr.evacPending.find? (evacReady s) with
    | some k, some n => evacuate k n s
    | _, _ => s)

/-- The records of a shared segment that a compaction keeps: of live streams, retained and not expired (R134). -/
def keptIn (s : State) (g : Nat) (st : Stream) : List Rec :=
  if st.st = .deleting then [] else (recsIn st g).filter fun r => decide (st.first ≤ r.seq) && !expired s st r

/-- The kept records of a segment in their original order, by old offset. -/
def keptOrder (s : State) (g : Nat) (x : SegSt) : List (Nat × Nat × Nat × Nat) :=
  x.sids.foldl (fun acc sid =>
    match streamOf s sid with
    | none => acc
    | some st => (keptIn s g st).foldl (fun a r =>
        match r.place with | some p => put p.off (sid, r.seq, storedSize r.payload.length) a | none => a) acc) []

/-- A segment's records at their places in the compacted image, and its new fill position (R134). -/
def repack (g : Nat) (order : List (Nat × Nat × Nat × Nat)) (s : State) : State × Nat :=
  order.foldl (fun p e =>
    (updRec p.1 e.2.1 e.2.2.1 (fun r => { r with place := some { segno := g, off := p.2 } }), p.2 + e.2.2.2)) (s, 64)

/-- A shared segment's contents compacted (R134): dropped records leave, expired ones with TRIM records (R54), the rest close up, and the
seal is renewed with a new value of the seal counter in CSCTR and the time in CTS. -/
def compactSeg (g : Nat) (x : SegSt) (s : State) : State :=
  let gone := x.sids.filter fun sid =>
    match streamOf s sid with | some st => (recsIn st g).any fun r => decide (st.first ≤ r.seq) && expired s st r | none => false
  let order := keptOrder s g x
  let s1 := x.sids.foldl (fun t sid =>
    match streamOf s sid with
    | none => t
    | some st =>
      let keep := (keptIn s g st).map (·.seq)
      updStream t sid fun y => { y with
        recs := y.recs.filter fun r => (match r.place with | some p => p.segno != g | none => true) || keep.contains r.seq
        segs := if keep.isEmpty then y.segs.filter (· != g) else y.segs }) s
  let s2 := repack g order s1
  let v := issueSeal s2.1
  let entries := x.entries.filterMap fun e =>
    match streamOf s e.sid with
    | none => none
    | some st =>
      match keptIn s g st with
      | [] => none
      | r :: rs => some { e with first := r.seq, count := rs.length + 1 }
  let info : SealInfo := match x.sealed with | some i => i | none => SealInfo.reset
  let s3 := updSeg v.2 g fun y => { y with
    fill := s2.2, sids := entries.map (·.sid), entries := entries, dead := [], ghost := []
    sealed := some { info with used := s2.2, nrec := order.length, csctr := v.1, cts := s.dtime, entries := entries, lostOff := 0 } }
  let s4 := gone.foldl (fun t sid =>
    match streamOf t sid with
    | none => t
    | some st =>
      let f := max st.first (match (st.recs.filter fun r => decide (st.first ≤ r.seq)).head? with | some r => r.seq | none => st.next)
      trimRec sid f 3 none (updStream t sid fun y => { y with first := f })) s3
  x.sids.foldl (fun t sid => pruneKeys sid t) s4

/-- Whether a shared segment has contents that compaction drops (R134). See log 60 (DESIGN CHOICE, unsafe). -/
def compactable (s : State) (g : Nat) (x : SegSt) : Bool :=
  decide (x.kind = .shared) && x.sealed.isSome && x.uncorr.isEmpty && !segDead s g &&
    (!x.dead.isEmpty || x.sids.any fun sid =>
      match streamOf s sid with
      | none => true
      | some st => (recsIn st g).all (·.written) && (recsIn st g).length ≠ (keptIn s g st).length)
    && x.sids.all fun sid => match streamOf s sid with | some st => (recsIn st g).all (·.written) | none => true

/-- SHARED_SEGMENT_COMPACTION (R132, R134): the move of a shared log segment's new image begins. On which die slot B is taken, the spec does
not say: the model takes the die with the fewest staged bytes, floor slots included. See log 60 (DESIGN CHOICE, unsafe). -/
def execSharedSegmentCompaction (g : Nat) (s : State) : Host.Outcome State Fault Refusal :=
  .next (if !alive s || barchanSusp s || !s.store.mounted then s
  else match segOf s g, freeEngine s, chooseDie s .floor with
    | some x, some k, some d =>
      if compactable s g x && moveable s g then
        match allocOnDie s d .floor with
        | some b => startMove k { MoveSt.reset with segno := g, src := segSlot s g, dst := b, gen := segGen s g, compact := true } s
        | none => s
      else s
    | _, _, _ => s)

/-- A move's commit (R128, R129): SEALED, then the new map entry in both copies and the map cache. -/
def moveCommit (k : Nat) (m : MoveSt) (s : State) : State :=
  let s1 := match m.compact, segOf s m.segno with | true, some x => compactSeg m.segno x s | _, _ => s
  match look m.segno s1.arr.map with
  | none => { s1 with arr.moves := vSet s1.arr.moves k none }
  | some e =>
    let gen := (e.gen + 1) % 4096
    let s2 := updSlot s1 m.dst fun i => { i with seg := some m.segno, gen := gen }
    { s2 with
      arr.map := put m.segno { e with mig := false, gen := gen, slot := m.dst } s2.arr.map
      arr.moves := vSet s2.arr.moves k (some { m with sealed := true }) }

/-- A codeword of a move's copy that fails its write-verify on B: a spare row takes its row's place, or it goes to the tail ring of B's die
and B is marked failing (R116, R128). -/
def copyFailed (m : MoveSt) (cw : Nat) (s : State) : State :=
  match rowFailed m.dst cw s with
  | (true, t) => mediaTest t
  | (false, t) => updDie t (slotDie m.dst) (tailPush m.segno cw)

/-- Whether an engine's move may go on: the device runs, WARN is not set, and it is an evacuation or nothing suspends Barchan (R132). -/
def moveMay (s : State) (m : MoveSt) : Bool := alive s && !s.oas.warn && (m.evac || !barchanSusp s)

/-- SEGMENT_MOVE_COPY_PASS_COMPLETE (R128, R132): a copy pass of an engine's move ends; `bad` names a codeword whose copy failed its
write-verify. -/
def execSegmentMoveCopyPassComplete (p : CopyPass) (s : State) : Host.Outcome State Fault Refusal :=
  .next (match vAt s.arr.moves p.engine.val with
    | none => s
    | some m =>
      if m.sealed || !moveMay s m || !barchanBank s m.src || !barchanBank s m.dst then s
      else
        let s1 := barchanTook m.dst (barchanTook m.src (match p.bad with | some cw => copyFailed m cw.val s | none => s))
        if m.dirty.isEmpty then moveCommit p.engine.val m s1
        else
          let m' := { m with dirty := [], passes := m.passes + 1, hold := decide (4 ≤ m.passes + 1) }
          { s1 with arr.moves := vSet s1.arr.moves p.engine.val (some m') })

/-- Whether a translation reaches a segment. -/
def tlbHits (g : Nat) (e : TlbEntry) : Bool := match e.phys with | .seg w => w / 131072 == g | _ => false

/-- The slot a move leaves: retired after an evacuation, else back in the Playa pool; while the boot window is open and serves the segment,
it is held until the window closes (R128, R137, R237). -/
def leaveSlot (m : MoveSt) (s : State) : State :=
  let held := s.boot.isOpen &&
    match s.boot.served with
    | some b => decide (metaBase + 260 * b ≤ m.segno) && decide (m.segno < metaBase + 260 * (b + 1))
    | none => false
  let s1 := if m.evac then retireSlot m.src s else updSlot s m.src fun i => { i with used := false, seg := none }
  if held then updSlot s1 m.src fun i => { i with held := true } else s1

/-- A move's end (R128 steps 6 to 8, R137): translations gone, held writes reissued to B, the old slot given back or retired. -/
def moveDone (k : Nat) (m : MoveSt) (s : State) : State :=
  let s1 := updCores { s with arr.moves := vSet s.arr.moves k none } fun c => { c with tlb := c.tlb.filter fun e => !tlbHits m.segno e }
  let s2 := leaveSlot m s1
  mediaTest { s2 with arr.writes := s2.arr.writes.map fun w =>
    if w.segno = m.segno ∧ w.tail = false then { w with die := slotDie m.dst, gen := segGen s2 m.segno } else w }

/-- SEGMENT_MOVE_INVALIDATION_ACK (R128, R132). -/
def execSegmentMoveInvalidationAck (engine : Fin 4) (s : State) : Host.Outcome State Fault Refusal :=
  .next (match vAt s.arr.moves engine.val with
    | some m => if m.sealed && moveMay s m then moveDone engine.val m s else s
    | none => s)

/-- A move that a start finds unfinished: rolled forward from SEALED, else rolled back (R130). -/
def recoverMove (k : Nat) (s : State) : State :=
  match vAt s.arr.moves k with
  | none => s
  | some m =>
    if m.sealed then moveDone k m s
    else
      let s1 := updSlot s m.dst fun i => { i with used := false }
      let s2 := if m.evac then
          { s1 with arr.evacPending := m.src :: s1.arr.evacPending }
        else s1
      let s3 := if m.spare then updDie s2 (slotDie m.dst) (fun x => { x with bankSpare := vUpd x.bankSpare (slotBank m.dst) (· + 1) }) else s2
      { s3 with
        arr.moves := vSet s3.arr.moves k none
        arr.map := match look m.segno s3.arr.map with | some e => put m.segno { e with mig := false } s3.arr.map | none => s3.arr.map }

/-- The Sirocco level after a sample (R142): entered at its threshold, left 5 °C below it. -/
def siroccoNext (lvl : Nat) (t : Int) : Nat :=
  if 105 ≤ t then 2
  else if 100 ≤ t then (if lvl = 2 ∧ 100 < t then 2 else 1)
  else if 1 ≤ lvl ∧ 95 < t then 1
  else 0

/-- SIROCCO_SAMPLE (R142): the junction temperature in °C. -/
def execSiroccoSample (temp : Int) (s : State) : Host.Outcome State Fault Refusal :=
  .next (if !s.pwr.released || inLoss s || decide (s.pwr.pstate = .off) then s
  else
    let lvl := siroccoNext s.arr.sirocco temp
    let s1 := { s with oas.temp := temp, arr.sirocco := lvl }
    let s2 := if lvl = s.arr.sirocco then s1 else mediaMsg s1
    let hot := decide (110 ≤ temp) || (s.flt.present.getLsbD 7 && decide (105 < temp))
    let s3 := { s2 with
      flt.present := setBit96 s2.flt.present 7 hot
      flt.detail := if hot then put 7 (BitVec.ofInt 32 temp) s2.flt.detail else del 7 s2.flt.detail }
    if hot && !s.flt.present.getLsbD 7 then raiseFault 7 (BitVec.ofInt 32 temp) s3 else s3)

end Sys2Proof.Machine
end

