-- ==== Sys2Proof/Machine/Restart.lean ====
section
/-! DEFINITION. Resets, the start sequence and the mount (R97 to R101, R313, R524 to R539, R543, R544). -/
namespace Sys2Proof.Machine
open Sys2Proof

/-- The order of reset kinds that coincide or interrupt a start (R526). -/
def kindRank : Kind → Nat
  | .link => 0
  | .soft => 1
  | .wdog => 2
  | .pin => 3
  | .por => 4
  | .fatal => 4

/-- Whether a start sequence runs: up to SERVICE, or up to RECOVERY where no store is to be mounted (R526, R528). -/
def starting (s : State) : Bool :=
  decide (s.pwr.phase = .startup) || decide (s.pwr.phase = .test)
    || (decide (s.pwr.phase = .recovery) && decide (s.vtf.life = .owned))

/-- Whether a reset request acts now (R526): no power-loss sequence or sealed halt has begun, and no start of a higher kind runs.
See log 45 (DESIGN CHOICE, unsafe). -/
def resetTakes (k : Kind) (s : State) : Bool :=
  !inLoss s && (!starting s || decide (kindRank s.pwr.kind ≤ kindRank k))

/-- Whether a reset loses volatile storage: a POR, or a FATAL start whose halt lost VMAIN (R531, R532). See log 45 (DESIGN CHOICE, unsafe). -/
def coldReset (k : Kind) (s : State) : Bool := decide (k = .por) || (decide (k = .fatal) && s.pwr.vmainLost)

/-- Whether a reset follows a power-loss sequence, whose flush has written what it could (R531). See log 45 (DESIGN CHOICE, unsafe). -/
def afterFlush (k : Kind) : Bool := decide (k = .por) || decide (k = .fatal)

/-- The streams after a reset (R31, R68, R531): none OPEN, and no record waits for a command. -/
def resetStreams (flushed : Bool) (l : List (Nat × Stream)) : List (Nat × Stream) :=
  l.map fun e => (e.1, { e.2 with
    st := if e.2.st = .opened then .closed else e.2.st
    heldBy := if flushed then none else e.2.heldBy
    recs := e.2.recs.map fun r => { r with job := none } })

/-- The store after a reset. -/
def resetStore (k : Kind) (x : StoreSt) : StoreSt :=
  { x with
    earlyUsed := if afterFlush k then none else x.earlyUsed
    streams := resetStreams (afterFlush k) x.streams
    mounted := false
    curHalf := none
    waiting := x.waiting.map fun w => (none, w.2) }

/-- A die after a reset: its port settings return (R531), and a restart of the shells ends their work. Refreshes that are due stay due
(R122). -/
def resetDie (shells : Bool) (x : Die) : Die :=
  let y := { x with auto := true, period := 0x07, recalThr := 0x0C, scrubThr := 0x14 }
  if shells then
    { y with
      cal := false, calLeft := 0, patrol := false, margMin := 0x3F, lastReg := 0, ceCnt := 0, ucCnt := 0
      hist := Vector.replicate 8 0, recal := [], regRef := [], patDone := [], prio := 0 }
  else y

/-- The array after a reset (R528, R531). -/
def resetArr (k : Kind) (x : ArraySt) : ArraySt :=
  { x with
    dies := vMap (resetDie (decide (k ≠ .soft))) x.dies
    writes := if afterFlush k then [] else x.writes
    heapEng := Vector.replicate 4 none
    pause := false
    wlThr := 0x40 }

/-- The fault collector after a reset other than LINK (R502, R531). What sources and wires show is not the collector's. -/
def resetFlt (k : Kind) (cold : Bool) (f : Faults) : Faults :=
  let base := { f with force := 0, hsel := 0, hdata := none }
  if k = .soft then base
  else
    let cfg := { base with
      pol := defaultPolicies, fthr := 1, ithr := 0, icore := 0, kfa := 0, kuc := 0x0A, kce := 0x11
      tmrCe := none, tmrUc := none, tmrFa := none, tmrTherm := none
      legacy := if afterFlush k then false else f.legacy }
    if cold then { Faults.reset with present := f.present, detail := f.detail, masked := f.masked } else cfg

/-- The trust block after a reset other than LINK (R187, R199, R206, R213, R483, R531). -/
def resetVtf (k : Kind) (cold : Bool) (v : Trust) : Trust :=
  let a := { v with sessions := [], sealNext := 0, sealEnd := 0, chals := [], csel := 0, cval := 0, ucodeH := [], extH := [] }
  if k = .soft then { a with drbgOk := true, entFail := false }
  else
    { a with
      drbgOk := false
      debug := if v.debug = 1 then 0 else v.debug
      authCnt := 0
      patchH := []
      dbgFails := if cold then 0 else v.dbgFails
      porSinceD2 := v.porSinceD2 || (decide (v.debug = 2) && cold) }

/-- Oasis after a reset other than LINK (R79 to R82, R102, R531). See log 5 (DESIGN CHOICE, unsafe). See log 45 (DESIGN CHOICE, unsafe). -/
def resetOas (k : Kind) (now : Nat) (o : Oasis) : Oasis :=
  let cfg := { o with
    warnArray := false, chgEn := true, pwr := 1, mper := 6, meas := { o.meas with job := none }
    winKnown := o.winKnown && decide (k = .soft) }
  if k = .soft then cfg
  else if afterFlush k then
    let b : Oasis := { Oasis.reset with
      vhold := o.vhold, chgStart := some now, startV := o.vhold, cLast := o.cLast, esrLast := o.esrLast
      budget := o.budget, temp := o.temp, measTemp := o.temp, measNext := now + 600000000 }
    { b with cUse := cUseStart b }
  else
    { cfg with
      esr := none, measured := false, meas := Meas.reset, measSkip := false, ederate := none, cwait := 0
      charging := true, chgStart := some now, chgTimedOut := false, measNext := now + 600000000 }

/-- The host link after a reset other than LINK (R313, R531). A SOFT reset keeps it, but for messages and the credits of the packets it
discards; every other kind disables it until release. See log 6 (DESIGN CHOICE, unsafe). See log 45 (DESIGN CHOICE, unsafe). -/
def resetLink (k : Kind) (l : Link) : Link :=
  if k = .soft then
    let a := match l.asm with | some a => (a.ch, a.cd) | none => (0, 0)
    { l with msgs := [], msgp := 0, softReq := false, chUsed := a.1, cdUsed := a.2 }
  else
    { Link.reset with
      ls := .disabled, brNew := l.brNew && decide (k ≠ .por) }

/-- The microcode store after a reset other than LINK (R483, R486, R531): the stored user file is loaded again at mount.
See log 18 (DESIGN CHOICE, unsafe). -/
def resetUcode (k : Kind) (u : Ucode) : Ucode :=
  let keep : Ucode := { Ucode.reset with stored := u.stored }
  if k = .soft then { keep with patch := u.patch, regs := u.regs, lock := u.lock } else keep

/-- One lost range of a breach report (R100). -/
structure LostRange where
  /-- SID. -/
  sid : Nat
  /-- RFL. -/
  rfl_ : Nat
  /-- FIRST. -/
  first : Nat
  /-- LAST. -/
  last : Nat
  /-- ACKLAST. -/
  ack : Nat
  deriving DecidableEq, Repr, Inhabited

/-- The order of ranges: by SID, EARLY first, then by FIRST (R100). -/
def rangeBefore (a b : LostRange) : Bool :=
  let e (x : LostRange) : Nat := if x.rfl_.testBit 0 then 0 else 1
  decide (a.sid < b.sid) || (decide (a.sid = b.sid) && (decide (e a < e b) || (decide (e a = e b) && decide (a.first ≤ b.first))))

/-- A range put into an ordered report. See log 48 (DESIGN CHOICE, unsafe). -/
def rangeInsert (a : LostRange) : List LostRange → List LostRange
  | [] => [a]
  | b :: l => if rangeBefore a b then a :: b :: l else b :: rangeInsert a l

/-- The bytes of a range (R100). -/
def rangeBytes (r : LostRange) : List Byte := leB 4 r.sid ++ leB 4 r.rfl_ ++ leB 8 r.first ++ leB 8 r.last ++ leB 8 r.ack

/-- Whether the end of the previous run is INEXACT: no manifest (R97, R99). -/
def inexactEnd (s : State) : Bool := s.prev.manifest.isNone

/-- The range of a stream's lost records, if it has any (R98 to R100). See log 48 (DESIGN CHOICE, unsafe). -/
def lostOf (s : State) (sid : Nat) (st : Stream) : Option LostRange :=
  let un := st.recs.filter fun r => !r.written
  let first := match un.head? with | some r => r.seq | none => st.next
  if inexactEnd s then
    if sid = 0 ∨ s.prev.loads.contains sid = true then
      some { sid := sid, rfl_ := 4, first := first, last := first + 1048575, ack := first + 1048575 }
    else none
  else if un.isEmpty then none
  else
    some { sid := sid, rfl_ := if un.any (fun r => r.train.isSome) then 2 else 0, first := first, last := st.next - 1
           ack := match (un.filter (·.acked)).getLast? with | some r => r.seq | none => 0 }

/-- The lost early records of a half as exact ranges: one for each run of consecutive indices of one stream (R98, R100).
See log 48 (DESIGN CHOICE, unsafe). -/
def earlyRuns (h : Nat) : List EarlyRec → List LostRange
  | [] => []
  | e :: rest =>
    let acked := if e.acked then e.index else 0
    match earlyRuns h rest with
    | r :: rs =>
      if r.sid = e.sid ∧ r.first = e.index + 1 then { r with first := e.index, ack := max acked r.ack } :: rs
      else { sid := e.sid, rfl_ := 1 + 256 * h, first := e.index, last := e.index, ack := acked } :: r :: rs
    | [] => [{ sid := e.sid, rfl_ := 1 + 256 * h, first := e.index, last := e.index, ack := acked }]

/-- The lost ranges of an early-log half (R98, R99): where there is no manifest, of each half that the lost run used for early appends or
that held unmerged records. See log 48 (DESIGN CHOICE, unsafe). -/
def earlyLost (s : State) (h : Nat) : List LostRange :=
  let x := vAt s.store.halves h
  if inexactEnd s then
    if x.recs.isEmpty ∧ s.store.earlyUsed ≠ some h then []
    else [{ sid := 0, rfl_ := 5 + 256 * h, first := x.top + 1, last := 1398101, ack := 1398101 }]
  else earlyRuns h (x.recs.filter fun r => !r.written)

/-- A half without the early records a power loss left unwritten: they never merge, and leave no trace in its open segment (R98).
See log 48 (DESIGN CHOICE, unsafe). -/
def mendHalf (gone : List LostRange) (x : Half) : Half :=
  let recs := x.recs.filter (·.written)
  { x with
    recs := recs
    lost := x.lost ++ gone.map fun r => (r.first, r.last)
    segs := x.segs.map fun e =>
      let here := recs.filter fun r => r.segno == e.1
      let entries := e.2.entries.filterMap fun n =>
        match (here.filter fun r => r.sid == n.sid).head?, (here.filter fun r => r.sid == n.sid).getLast? with
        | some a, some b => some { n with first := a.index, last := b.index, chain := b.chain
                                          count := (here.filter fun r => r.sid == n.sid).length }
        | _, _ => none
      if e.2.sealed.isSome || (x.recs.all (·.written)) then e
      else (e.1, { e.2 with
        entries := entries, sids := entries.map (·.sid)
        fill := match here.getLast? with | some r => r.off + storedSize r.payload.length | none => 64 }) }

/-- The early log as a reset after a power loss finds it (R97 to R99): what it lost is noted for the report of the next mount, before
a new start uses a half. See log 48 (DESIGN CHOICE, unsafe). -/
def noteLoss (k : Kind) (s : State) : State :=
  if afterFlush k && s.prev.power then
    { s with
      prev := { s.prev with
        lost := true
        lostEarly := s.prev.lostEarly ++ ([0, 1].flatMap fun h => earlyLost s h).map fun r => (r.sid, r.rfl_, r.first, r.last, r.ack) }
      store.halves := Vector.ofFn fun (h : Fin 2) => mendHalf (earlyLost s h.val) (vAt s.store.halves h.val) }
  else s

/-- A reset other than LINK (R524 to R532, R543). A SOFT reset stays released; the other kinds wait for the internal reset release.
See log 45 (DESIGN CHOICE, unsafe). See log 46 (DEDUCED, unsafe). -/
def applyReset (k : Kind) (s0 : State) : State :=
  let s := noteLoss k (dropOpenTrains s0)
  let cold := coldReset k s
  let now := s.tick
  { s with
    store := resetStore k s.store
    arr := resetArr k s.arr
    eng := { Engine.reset with nextId := s.eng.nextId, trains := s.eng.trains, rrUrg := s.eng.rrUrg, rrNorm := s.eng.rrNorm }
    oas := resetOas k now s.oas
    flt := resetFlt k cold s.flt
    vtf := resetVtf k cold s.vtf
    link := resetLink k s.link
    side := if k = .soft then { s.side with reply := none, busy := false, rejected := false } else Side.reset
    boot := if k = .soft then s.boot else { s.boot with answering := false }
    wadi := { s.wadi with
      pend := if afterFlush k then [] else s.wadi.pend
      seqs := if afterFlush k then Vector.replicate 8 none else s.wadi.seqs
      drainNext := Vector.replicate 8 false
      budRej := false
      brCnt := if k = .soft then s.wadi.brCnt else 0
      bindings := s.wadi.bindings.map fun b => (b.1, { b.2 with closing := none }) }
    cores := vMap (fun _ => Core.reset) s.cores
    mmu := Mmu.reset
    cache := Cache.reset
    ucode := resetUcode k s.ucode
    mem := { s.mem with sram := [], ext := s.mem.ext.map fun e => (e.1, { e.2 with core := none }) }
    pwr := { s.pwr with
      released := decide (k = .soft)
      phase := .startup, kind := k, pstate := .run, entry := none, heldWake := none, seq := .none, fatal := false
      vmainLost := false, dozeMask := 0xFE, wdEn := false, wdK := 0, wdDue := none, wakeCause := 0, wakeFrom := false
      idleSince := now }
    tbx := if k = .soft then { s.tbx with tcap := 0, flush := s.tbx.flush ||| 0x1FF7 }
      else { Tbx.reset with hung := if k = .por ∨ k = .pin ∨ cold = true then 0 else s.tbx.hung }
    jtag := if k = .soft then s.jtag else Jtag.reset }

/-- An admitted command whose reply for the host link is lost with the link (R68, R257). -/
def lostReplies (j : Job) : Job :=
  let left := j.replies.filter fun r => decide (r.chan = .sideband)
  { j with replies := left, kind := if j.kind = .append ∧ left.isEmpty ∧ !j.replies.isEmpty then .plain else j.kind }

/-- The transaction layer of the host link reset (R257, R313, R531): sessions end, open trains are discarded, and packets of the link
that are not admitted, replies, completions and messages are dropped. See log 45 (DESIGN CHOICE, unsafe). -/
def linkReset (s0 : State) : State :=
  let s := releaseWaiting (settleUnloads (settleSeals (dropOpenTrains s0)))
  let l := s.link
  let queues := vMap (fun q => q.filter fun p => decide (p.pkt.chan = .sideband)) s.eng.queues
  { s with
    vtf.sessions := []
    flt.force := 0
    eng := { s.eng with
      queues := queues
      barQ := s.eng.barQ.filter fun q => !(vAt queues q).isEmpty
      jobs := s.eng.jobs.map lostReplies
      aborts := [] }
    link := { Link.reset with
      ls := l.ls, width := l.width, rate := l.rate, target := l.target, narrow := l.narrow, laneOk := l.laneOk, rtCnt := l.rtCnt
      rpCnt := l.rpCnt, rateCap := l.rateCap, sbClr := l.sbClr, retrain := false, ts1 := l.ts1, recAt := l.recAt
      ordNext := l.ordNext, hirqEn := l.hirqEn, fthr := l.fthr, msgEn := l.msgEn, brNew := l.brNew, brInexact := l.brInexact
      brCnt := l.brCnt, softReq := l.softReq }
    tbx.flush := s.tbx.flush ||| 1 }

/-- The half of the early log a start uses (R73): one without unmerged records, and of two such the one the previous start did not use. -/
def chooseHalf (s : State) : Option Nat :=
  let free (h : Nat) : Bool := (vAt s.store.halves h).recs.isEmpty && !(vAt s.store.halves h).held
  if free 0 && free 1 then some (1 - s.store.lastHalf)
  else if free 0 then some 0
  else if free 1 then some 1
  else none

/-- The start of the early log (R73, R203): a fresh half with its own chain. -/
def startHalf (s : State) : State :=
  match chooseHalf s with
  | none => { s with store.curHalf := none }
  | some h =>
    { s with store := { s.store with
        curHalf := some h
        lastHalf := h
        starts := s.store.starts + 1
        halves := vSet s.store.halves h { Half.reset with
          chain := earlyChainStart h s.store.mountCount, born := s.store.starts + 1 } } }

/-- Fault states that persist when the collector starts to run latch; THERM_HALT's timer starts even on a kept latch (R498, R502). -/
def collectorStart (s : State) : State :=
  let s1 := ((List.range 96).filter fun n => s.flt.present.getLsbD n && !s.flt.masked.getLsbD n && !s.flt.latch.getLsbD n).foldl
    (fun t n => raiseFault n ((look n t.flt.detail).getD 0) t) s
  if s1.flt.present.getLsbD 7 ∧ s1.flt.latch.getLsbD 7 ∧ s1.flt.masked.getLsbD 7 = false then
    { s1 with flt.tmrTherm := match s1.flt.tmrTherm with | some t => some t | none => some (s1.tick + 10) }
  else s1

/-- What every start does first: device time resumes at one more than the greatest value recorded, the count of this mount, the early-log
half, and core 0 in the start-up code (R40, R73, R205, R528). See log 45 (DESIGN CHOICE, unsafe). See log 46 (DEDUCED, unsafe). -/
def startCommon (s : State) : State :=
  startHalf { s with
    dtime := s.dtime + 1
    pwr.resume := s.dtime + 1
    store.mountCount := vAt s.vtf.counters 8 + 1
    cores := vUpd s.cores 0 fun c => { c with running := true } }

/-- The internal reset release (R328, R332, R335, R528 steps 1 to 4). See log 46 (DEDUCED, unsafe). -/
def release (straps : BitVec 4) (dnu : Bool) (s : State) : State :=
  let test := if s.pwr.kind = .por then dnu else s.pwr.dnu
  let s1 := { s with
    vtf := { s.vtf with drbgOk := true, entFail := false }
    link := { s.link with ls := if s.tbx.hung.getLsbD 0 then .disabled else .detect, recAt := s.tick }
    pwr := { s.pwr with
      released := true
      phase := if test then .test else .startup
      straps := if s.pwr.kind = .wdog then s.pwr.straps else straps
      dnu := test
      idleSince := s.tick } }
  let s2 := collectorStart (startCommon s1)
  let s3 := bootChoose s2
  if test then { s3 with boot.answering := false } else s3

/-- INTERNAL_RESET_RELEASE (R335): the last of VMAIN_OK, VIO valid and RESETn high. See log 3 (DESIGN CHOICE, unsafe). -/
def execInternalResetRelease (straps : BitVec 4) (dnu : Bool) (s : State) : Host.Outcome State Fault Refusal :=
  whenDue (s.pwr.vmainOk && s.pwr.vioOk && decide (s.pwr.resetUntil ≤ s.tick) && !s.pwr.released && !inLoss s && decide (s.pwr.phase = .startup)) s (release straps dnu s)

/-- POWER_ON_RESET (R94, R508, R524, R537): VMAIN passes VMAIN_OK after it was below VMAIN_FAIL. During a sequence it is only noted. -/
def execPowerOnReset (s : State) : Host.Outcome State Fault Refusal :=
  .next (if s.pwr.vmainHigh then s
  else
    let s1 := { s with pwr.vmainHigh := true, pwr.vmainAt := s.tick }
    match s.pwr.seq with
    | .none => applyReset .por s1
    | .off => applyReset (if s.pwr.fatal then .fatal else .por) s1
    | _ => s1)

/-- VMAIN_OK_FILTER_EXPIRY (R91): VMAIN has stood above VMAIN_OK for 10,000 ticks.
See log 1 (DESIGN CHOICE, safe). See log 3 (DESIGN CHOICE, unsafe). -/
def execVmainOkFilterExpiry (s : State) : Host.Outcome State Fault Refusal :=
  whenDue (s.pwr.vmainHigh && decide (s.pwr.vmainAt + 10000 ≤ s.tick)) s { s with pwr.vmainOk := true }

/-- VIO_VALID_EXPIRY (R335): VIO has been above 1.66 V for 10,000 ticks; VIO_LOW's condition has ended.
See log 1 (DESIGN CHOICE, safe). See log 3 (DESIGN CHOICE, unsafe). -/
def execVioValidExpiry (s : State) : Host.Outcome State Fault Refusal :=
  whenDue (decide (s.pwr.vioAt + 10000 ≤ s.tick)) s
    (faultStateEnd 5 { s with pwr := { s.pwr with vioOk := true, vioLow := false }, boot.vioReleased := false })

/-- PIN_RESET (R335, R524, R526): a low pulse on RESETn outside a sequence. How many ticks it lasts, nothing in the block gives: a free value.
See log 1 (DESIGN CHOICE, safe). -/
def execPinReset (s : State) : Host.Outcome State Fault Refusal :=
  whenDue (s.pwr.vmainHigh && resetTakes .pin s) s (let f := freeTicks s; applyReset .pin { f.2 with pwr.resetUntil := s.tick + f.1 })

/-- FATAL_RELEASE (R508, R524, R532): RESETn, or the POR of a returning VMAIN, ends a completed sealed halt.
See log 45 (DESIGN CHOICE, unsafe). See log 46 (DEDUCED, unsafe). -/
def execFatalRelease (s : State) : Host.Outcome State Fault Refusal :=
  whenDue (s.pwr.fatal && decide (s.pwr.seq = .off)) s (applyReset .fatal { s with pwr.vmainHigh := true })

/-- SOFT_RESET (R322, R524): after the REGCPL of the write that asked for it. See log 45 (DESIGN CHOICE, unsafe). -/
def execSoftReset (s : State) : Host.Outcome State Fault Refusal :=
  whenDue (s.link.softReq && s.link.cpls.isEmpty && s.pwr.released && decide (s.pwr.phase ≠ .halt)) s
    (if resetTakes .soft s then startCommon (applyReset .soft s) else { s with link.softReq := false })

/-- CROSSING_HUNG (R544): the JTAG crossing is never reset from one side. -/
def execCrossingHung (island : Fin 13) (s : State) : Host.Outcome State Fault Refusal :=
  whenDue (decide (island.val ≠ 3) && s.pwr.released) s
    (let s1 := { s with
      tbx.hung := s.tbx.hung ||| (1#13 <<< island.val)
      tbx.flush := s.tbx.flush ||| (1#13 <<< island.val) }
    if island.val = 0 then { s1 with link.ls := .disabled, link.ts1 := false } else s1)

/-- LINK_HOT_RESET (R313, R526). See log 45 (DESIGN CHOICE, unsafe). -/
def execLinkHotReset (s : State) : Host.Outcome State Fault Refusal :=
  whenDue (alive s && (decide (s.link.ls = .active) || decide (s.link.ls = .recovery))
      && (!starting s || decide (s.pwr.kind = .soft))) s
    (linkReset { s with link := { s.link with ls := .hotreset, rate := 0, recAt := s.tick } })

/-- WATCHDOG_EXPIRY (R539): WDOG_EXP latches, and the WDOG reset follows unless its latch began a sealed halt. See log 1 (DESIGN CHOICE, safe). -/
def execWatchdogExpiry (s : State) : Host.Outcome State Fault Refusal :=
  .next (match s.pwr.wdDue with
    | none => s
    | some t =>
      if s.pwr.wdEn ∧ t ≤ s.tick ∧ inLoss s = false ∧ s.pwr.pstate ≠ .off then
        let s1 := raiseFault 77 (BitVec.ofNat 32 s.pwr.wdCore) { s with pwr.wdDue := none }
        if resetTakes .wdog s1 then applyReset .wdog s1 else s1
      else s)

/-- Whether the flush wrote part of a record it did not write whole (R98). See log 47 (DESIGN CHOICE, unsafe). -/
def partlyWritten (r : Rec) : Bool := !r.written && r.place.isSome && decide (r.cws.length < (recCodewords r).length)

/-- The trailer entries of a segment counted again over the records that stay. -/
def recount (s : State) (g : Nat) (es : List SegEntry) : List SegEntry :=
  es.filterMap fun e =>
    match streamOf s e.sid with
    | none => some e
    | some st =>
      match (recsIn st g).head?, (recsIn st g).getLast? with
      | some a, some b => some { e with first := a.seq, last := b.seq, count := (recsIn st g).length, chain := b.chain }
      | _, _ => none

/-- The lost records placed in a segment: offset, stored size, and whether it was partly written. See log 48 (DESIGN CHOICE, unsafe). -/
def lostIn (s : State) (g : Nat) : List (Nat × Nat × Bool) :=
  s.store.streams.flatMap fun e => (recsIn e.2 g).filterMap fun r =>
    if r.written then none else r.place.map fun p => (p.off, storedSize r.payload.length, partlyWritten r)

/-- The segment without the streams that it held only lost records of, and open again where the stopped flush had sealed it: its trailer
does not stand whole on the array, so the seal of its mount is its first (R98). See log 48 (DESIGN CHOICE, unsafe). -/
def stripSeg (g : Nat) (s : State) : State :=
  match segOf s g with
  | none => s
  | some x =>
    let es := recount s g x.entries
    let left := x.sids.filter fun sid => !es.any fun e => e.sid == sid
    let s1 := updSeg s g fun y => { y with entries := es, sids := es.map (·.sid), sealed := none }
    left.foldl (fun t sid => updStream t sid (dropSegRecs g)) s1

/-- One segment after lost records are taken from it (R51, R98): sealed with cause 0x0002 if it holds a byte of one, else filling
again after its last whole record. `lost` is what `lostIn` gave before they left. See log 48 (DESIGN CHOICE, unsafe). -/
def mendSeg (g : Nat) (lost : List (Nat × Nat × Bool)) (s : State) : State :=
  match argMin id (lost.map (·.1)) with
  | none => s
  | some off =>
    let ends := (lost.filter fun x => x.2.2).map fun x => x.1 + x.2.1
    let s1 := stripSeg g s
    match argMax id ends with
    | none => updSeg s1 g fun x => { x with fill := off }
    | some used =>
      let s2 := (sealSegment g 2 none (updSeg s1 g fun x => { x with fill := used })).2
      updSeg s2 g fun x => { x with sealed := x.sealed.map fun i => { i with lostOff := off } }

/-- A mended segment that is open: given back where it holds no record and no byte of one, else the open segment of its stream or class
again, or, where that has another, sealed with cause 0x0002 (R48, R51, R98). See log 48 (DESIGN CHOICE, unsafe). -/
def reopenSeg (g : Nat) (s : State) : State :=
  match segOf s g with
  | none => s
  | some x =>
    if x.sealed.isSome then s
    else
      let bare (t : State) : State :=
        let t1 := { t with arr.openShared := t.arr.openShared.filter fun e => e.2 != g }
        if x.kind = .owned then updStream t1 x.owner fun y => { y with openSeg := if y.openSeg = some g then none else y.openSeg } else t1
      if x.entries.isEmpty then freeSeg g (bare s)
      else if x.kind = .owned then
        match (streamOf s x.owner).bind (·.openSeg) with
        | none => updStream s x.owner fun y => { y with openSeg := some g }
        | some h => if h = g then s else (sealSegment g 2 none s).2
      else
        match s.arr.openShared.find? fun e => e.1 == x.cls with
        | none => { s with arr.openShared := s.arr.openShared ++ [(x.cls, g)] }
        | some e => if e.2 = g then s else (sealSegment g 2 none s).2

/-- The trailers that a stopped flush did not write whole, issued again (R50, R93). See log 48 (DESIGN CHOICE, unsafe). -/
def reissueTrailers (s : State) : State :=
  s.arr.segs.foldl (fun t e =>
    if e.2.sealed.isSome then
      ((trailerCws e.2).filter fun k => !e.2.home.contains k && !(t.arr.writes.any fun w => w.segno == e.1 && w.cw == k)).foldl
        (fun u k => issueWrite e.1 k false none u) t
    else t) s

/-- The lost records of a stream taken out: its next number is one above the highest named, and its chain goes on from the last record
on the array (R98). -/
def dropLost (r : LostRange) (s : State) : State :=
  updStream s r.sid fun st => { st with
    recs := st.recs.filter (·.written)
    next := r.last + 1
    chain := if st.recs.all (·.written) then st.chain else st.chainW
    lost := st.lost ++ [(r.first, r.last)] }

/-- A committed train that lost a member: WITHDRAWN, with its device record (R43, R69). -/
def withdrawTrain (t : Train) (s : State) : State :=
  let s1 := t.members.foldl (fun u m => updRec u m.sid m.seq fun r => { r with withdrawn := true }) s
  let body := leB 8 t.firstAt ++ leB 4 t.members.length ++ zeros 4
    ++ t.members.flatMap fun m => leB 4 m.sid ++ zeros 4 ++ leB 8 m.seq
  t.ran.foldl (fun u p => writeDev p none u) (writeDev (devPayload 0x0006 noSubj body) none s1)

/-- The members of a withdrawn train that reached the array, which the report names too (R69). See log 48 (DESIGN CHOICE, unsafe). -/
def trainRanges (s : State) (t : Train) : List LostRange :=
  t.members.filterMap fun m =>
    match recAt s m.sid m.seq with
    | some r => if r.written then some { sid := m.sid, rfl_ := 2, first := m.seq, last := m.seq
                                         ack := if r.acked then m.seq else 0 } else none
    | none => none

/-- KIND of the breach report (R100). -/
def breachKind (s : State) : Nat :=
  if inexactEnd s then 3 else match s.prev.marker with | some _ => 1 | none => 2

/-- One part of a breach report (R100). -/
def breachPart (s : State) (bnum part nparts : Nat) (rs : List LostRange) : List Byte :=
  let m := s.prev.marker
  let vstop := match m with | some (_, v, _) => v | none => 0
  let clive := match m with | some _ => s.prev.clive / 100 | none => 0
  let body := leB 4 bnum ++ leB 1 (breachKind s) ++ leB 1 (b2n (inexactEnd s) + 2 * b2n s.prev.fatal) ++ leB 1 part ++ leB 1 nparts
    ++ leB 2 rs.length ++ leB 2 vstop ++ leB 2 clive ++ zeros 2 ++ leB 8 s.prev.lossTs ++ leB 4 s.prev.lossMount ++ zeros 4
    ++ rs.flatMap rangeBytes
  let p := devPayload 0x0010 noSubj body
  p ++ (Config.dikSign p).toList

/-- A list cut into pieces of at most `n`. -/
def chunks {α : Type} (n : Nat) : Nat → List α → List (List α)
  | 0, _ => []
  | _, [] => []
  | k + 1, l => l.take n :: chunks n k (l.drop n)

/-- The breach report written, where there is a range to name (R97, R100, R101). See log 48 (DESIGN CHOICE, unsafe). -/
def writeBreach (rs : List LostRange) (s : State) : State :=
  if rs.isEmpty then s
  else
    let s1 := bumpCounter 1 s
    let bnum := vAt s1.vtf.counters 1 % 2 ^ 32
    let parts := chunks 2044 rs.length rs
    let s2 := parts.zipIdx.foldl (fun t p => writeDev (breachPart s1 bnum p.2 parts.length p.1) none t) s1
    windowMsg { s2 with link.brNew := true, link.brInexact := inexactEnd s, vtf.brInexact := inexactEnd s }

/-- A range that a start noted. -/
def rangeOf (p : Nat × Nat × Nat × Nat × Nat) : LostRange :=
  { sid := p.1, rfl_ := p.2.1, first := p.2.2.1, last := p.2.2.2.1, ack := p.2.2.2.2 }

/-- No merge is under way: a record that one had staged is merged anew (R74). See log 58 (DESIGN CHOICE, unsafe). -/
def dropMerging (x : Half) : Half := { x with recs := x.recs.map fun r => { r with merging := none } }

/-- What a mount does about a previous end in a power loss (R68, R97 to R101, R118). The early log's part was noted at the start. -/
def acceptLoss (s0 : State) : State :=
  let s := dropOpenTrains { s0 with prev.lost := false, prev.lostEarly := [] }
  let own := s.store.streams.filterMap fun e => lostOf s e.1 e.2
  let early := s0.prev.lostEarly.map rangeOf
  let gone := s.eng.trains.filter fun t => t.members.any fun m =>
    match recAt s m.sid m.seq with | some r => !r.written | none => false
  let ranges := (own ++ early ++ gone.flatMap (trainRanges s)).foldl (fun l r => rangeInsert r l) []
  let segs := (s.arr.segs.map fun e => (e.1, lostIn s e.1)).filter fun e => !e.2.isEmpty
  let journal := s.store.devJournal.filter fun e => match recAt s 0 e.1 with | some r => !r.written | none => true
  let s1 := own.foldl (fun t r => dropLost r t) s
  let s2 := { s1 with store := { s1.store with
    staging := []
    devJournal := []
    halves := vMap dropMerging s1.store.halves } }
  let s3 := reissueTrailers (segs.foldl (fun t e => reopenSeg e.1 t) (segs.foldl (fun t e => mendSeg e.1 e.2 t) s2))
  let s4 := s.prev.partials.foldl (fun t e => (sealSegment e.1 2 none t).2) s3
  let s5 := gone.foldl (fun t x => withdrawTrain x t) s4
  let s6 := journal.foldl (fun t e => writeDev e.2 none t) s5
  writeBreach ranges s6

/-- Every early record of both halves written, as the drain before mount leaves them (R72). See log 58 (DESIGN CHOICE, unsafe). -/
def drainEarly (s : State) : State :=
  let one (h : Nat) (t : State) : State :=
    (((vAt t.store.halves h).recs.filter fun r => !r.written).map (·.index)).foldl (fun u i => earlyWritten h i u) t
  let s1 := one 1 (one 0 s)
  { s1 with arr.writes := s1.arr.writes.filter fun w => decide (w.segno < 2 ^ 22) }

/-- Staging drained, with the device records that wait for credit (R84, R528). -/
def settleAll (s : State) : State := iter drainAll (s.store.waiting.length + 1) s

/-- An extension program loaded into its slot and started at ENTRY (R373, R375). Which core runs it, and where firmware puts its spill
area, the spec leaves to firmware: free values. See log 53 (DESIGN CHOICE, safe). -/
def startExt (k : Nat) (e : Ext) (s : State) : State :=
  let f1 := takeFresh s
  let f2 := takeFresh f1.2
  let idle := (List.range 16).filter fun c => !(coreOf s c).running
  let cands := if idle.isEmpty then List.range 16 else idle
  let c := (cands[(Config.freeBits 16 f1.1).toNat % cands.length]?).getD 0
  let ngrant := fieldAt e.file 7 1
  let codeLen := fieldAt e.file 8 4
  let cap (j : Nat) : Cap :=
    if j < ngrant then
      { w0 := BitVec.ofNat 16 (fieldAt e.file (64 + 8 * j) 2), w1 := BitVec.ofNat 16 (fieldAt e.file (66 + 8 * j) 2)
        w2 := BitVec.ofNat 16 (fieldAt e.file (68 + 8 * j) 2), w3 := BitVec.ofNat 16 (fieldAt e.file (70 + 8 * j) 2) }
    else Cap.reset
  let base := 0x01000000 + 0x100000 * (k - 1)
  let ssl := Config.freeBits 32 f2.1
  let ssb := ssl + BitVec.ofNat 32 (fieldAt e.file 20 4)
  let lv : LevelSt := { LevelSt.reset with
    caps := Vector.ofFn fun (j : Fin 16) => cap j.val
    dom := BitVec.ofNat 8 e.dom, ssl := ssl, ssb := ssb, ssp := ssb }
  let s1 := updCore f2.2 c fun x => { x with
    lv := vSet x.lv e.level lv, st := BitVec.ofNat 16 (e.level * 8192), ia := BitVec.ofNat 32 (base + e.entry), running := true
    stopped := false, waiti := false, slot := none }
  { s1 with mem := { s1.mem with
      ispace := memPutBytes 0 s1.mem.ispace base (bytesAt e.file (64 + 8 * ngrant) codeLen)
      ext := put k { e with core := some c } (s1.mem.ext.map fun x =>
        if x.2.core = some c then (x.1, { x.2 with core := none }) else x) } }

/-- Every region of every die recalibrated, at a mount before the store is mounted (R124). -/
def recalAll (s : State) : State :=
  { s with arr.dies := vMap (fun x => { x with cal := false, calLeft := 0, recal := [], lastReg := 64, calTemp := s.oas.temp }) s.arr.dies }

/-- The regions of a die's banks that hold a mapped slot, of those that the mount found below SCRUBTHR: they are patrolled ahead of their
turn (R125). Which regions the pilots show low, nothing in the block gives: a free value. See log 66 (DEDUCED, unsafe). -/
def mountPilots (s : State) : State :=
  (List.range 8).foldl (fun t d =>
    let f := takeFresh t
    let mapped : BitVec 1040 := (t.arr.slots.filter fun e => decide (slotDie e.1 = d) && e.2.seg.isSome).foldl
      (fun b e => b ||| (1#1040 <<< (65 * slotBank e.1 + slotRegion e.1))) 0
    updDie f.2 d fun x => { x with prio := Config.freeBits 1040 f.1 &&& mapped }) s

/-- The end of RECOVERY (R43, R72, R97, R130, R205, R311, R375, R528): journals, the previous end, staging and the early log are settled,
the MOUNT record is written, and the device serves. -/
def mountNow (s0 : State) : State :=
  let s1 := recalAll ((List.range 4).foldl (fun t k => recoverMove k t) s0)
  let s2 := if s1.prev.power then acceptLoss s1 else s1
  let s3 := settleAll (drainEarly (releaseWaiting s2))
  let s4 := mediaTest (settleAll ((halvesByAge s3).foldl (fun t h => mergeHalf drainAll h t) s3))
  let s5 := mountPilots (bumpCounter 8 s4)
  let s6 := { s5 with
    link := { s5.link with brCnt := BitVec.ofNat 24 (vAt s5.vtf.counters 1), brInexact := s5.vtf.brInexact }
    eng.trains := []
    store.mountCount := vAt s5.vtf.counters 8
    prev := { EndState.reset with
      loads := s5.prev.loads, ckpt := s5.prev.ckpt, ckptBody := s5.prev.ckptBody, ckptSig := s5.prev.ckptSig } }
  let body := leB 1 (kindNum s6.pwr.kind) ++ zeros 7 ++ leB 8 s6.pwr.resume ++ leB 4 s6.store.mountCount ++ zeros 4
  let s7 := settleAll (writeDev (devPayload 0x0001 noSubj body) none s6)
  let s8 := { s7 with store.mounted := true, pwr.phase := if inLoss s7 then s7.pwr.phase else .service, ucode.user := s7.ucode.stored
                      vtf := { s7.vtf with
                        ucodeH := s7.vtf.ucodeH ++ (match s7.ucode.stored with | some u => u.raw | none => [])
                        extH := s7.vtf.extH ++ (s7.mem.ext.map fun (e : Nat × Ext) => e.2.file).flatten } }
  readyMsg (s8.mem.ext.foldl (fun (t : State) (e : Nat × Ext) => startExt e.1 e.2 t) s8) false

/-- Whether the directory checkpoint is refused: its signature fails, or its value is not counter 7's (R208). A store that has none is as
PROVISION left it. See log 48 (DESIGN CHOICE, unsafe). -/
def ckptRefused (s : State) : Bool :=
  match s.prev.ckpt with
  | some v => s.prev.ckptSig != (Config.dikSign s.prev.ckptBody).toList || decide (v ≠ vAt s.vtf.counters 7)
  | none => false

/-- MOUNT (R97, R178, R208, R528): due in RECOVERY of an OWNED device once its pending executions have ended.
See log 3 (DESIGN CHOICE, unsafe). See log 46 (DEDUCED, unsafe). See log 58 (DESIGN CHOICE, unsafe). -/
def execMount (s : State) : Host.Outcome State Fault Refusal :=
  whenDue (alive s && decide (s.pwr.phase = .recovery) && decide (s.vtf.life = .owned) && !s.store.mounted
      && s.wadi.pend.isEmpty && s.wadi.seqs.toList.all (·.isNone)) s
    (if ckptRefused s then
      let was := earlyAccepted s
      let t := raiseFault 9 (BitVec.ofNat 32 (s.prev.ckpt.getD 0)) { s with vtf.life := .rollback }
      if was then readyMsg t false else t
    else mountNow s)

end Sys2Proof.Machine
end

