-- ==== Sys2Proof/Machine/Caps.lean ====
section
/-! DEFINITION. Capabilities: the rules of R364, derivation (R365), and the authority of the level a core runs at. -/
namespace Sys2Proof.Machine
open Sys2Proof

/-- KIND (R364). -/
def capKind (c : Cap) : Nat := bits c.w0.toNat 12 4

/-- RIGHTS (R364). -/
def capRights (c : Cap) : Nat := bits c.w0.toNat 8 4

/-- First byte of an IWRITE range. -/
def capBase (c : Cap) : Nat := c.w1.toNat * 65536 + c.w2.toNat

/-- The byte after an IWRITE range. -/
def capTop (c : Cap) : Nat := capBase c + 256 * (c.w3.toNat + 1)

/-- First stream of a STREAM or KEY capability. -/
def capSid (c : Cap) : Nat := c.w1.toNat * 65536 + c.w2.toNat

/-- The stream after the last of a STREAM or KEY capability. -/
def capSidTop (c : Cap) : Nat := capSid c + 2 ^ c.w3.toNat

/-- Whether a capability keeps the rules of R364 and R365. -/
def capOk (c : Cap) : Bool :=
  let w1 := c.w1.toNat
  let w2 := c.w2.toNat
  let w3 := c.w3.toNat
  decide (bits c.w0.toNat 0 8 = 0) &&
  match capKind c with
  | 0 => decide (c = Cap.reset)
  | 1 => decide (capRights c < 4) && decide (w1 ≤ w2) && decide (w3 = 0)
  | 2 => decide (capRights c < 2) && decide (w2 % 256 = 0) && decide (0x00100000 ≤ capBase c) && decide (capTop c ≤ 0x02000000)
  | 3 => decide (capRights c < 2) && decide (w1 < 256) && decide (w2 = 0) && decide (w3 = 0)
  | 4 => decide (w1 < 16) && decide (w3 ≤ 20) && decide (capSid c % 2 ^ w3 = 0)
  | 5 => decide (capRights c < 8) && decide (w1 < 16) && decide (w3 ≤ 20) && decide (capSid c % 2 ^ w3 = 0)
  | 6 => decide (capRights c < 4) && decide (w2 < 256) && decide (w1 ≤ w2) && decide (w3 = 0)
  | _ => false

/-- Whether the bits of `a` are among those of `b`. -/
def subBits (a b : Nat) : Bool := decide (a &&& b = a)

/-- Whether a requested capability lies inside another of its KIND, in rights and range (R365). -/
def capInside (x a : Cap) : Bool :=
  decide (capKind x = capKind a) && subBits (capRights x) (capRights a) &&
  match capKind a with
  | 1 | 6 => decide (a.w1.toNat ≤ x.w1.toNat) && decide (x.w2.toNat ≤ a.w2.toNat)
  | 2 => decide (capBase a ≤ capBase x) && decide (capTop x ≤ capTop a)
  | 3 => subBits x.w1.toNat a.w1.toNat
  | 4 | 5 => decide (capSid a ≤ capSid x) && decide (capSidTop x ≤ capSidTop a)
  | _ => true

/-- PORT over a port with a right: bit 0 IN, bit 1 OUT. -/
def capPort (right port : Nat) (c : Cap) : Bool :=
  decide (capKind c = 1) && (capRights c).testBit right && decide (c.w1.toNat ≤ port) && decide (port ≤ c.w2.toNat)

/-- IWRITE over bytes `lo` to `hi`. -/
def capIwrite (lo hi : Nat) (c : Cap) : Bool :=
  decide (capKind c = 2) && (capRights c).testBit 0 && decide (capBase c ≤ lo) && decide (hi < capTop c)

/-- LEVEL for a level. -/
def capLevel (n : Nat) (c : Cap) : Bool := decide (capKind c = 3) && (capRights c).testBit 0 && c.w1.toNat.testBit n

/-- KEY with a right; over a stream where one is named. -/
def capKey (right : Nat) (sid : Option Nat) (c : Cap) : Bool :=
  decide (capKind c = 5) && (capRights c).testBit right &&
  match sid with
  | none => true
  | some n => decide (capSid c ≤ n) && decide (n < capSidTop c)

/-- DOMAIN over a domain with a right: bit 0 ENTER, bit 1 TABLES. -/
def capDomain (right dom : Nat) (c : Cap) : Bool :=
  decide (capKind c = 6) && (capRights c).testBit right && decide (c.w1.toNat ≤ dom) && decide (dom ≤ c.w2.toNat)

/-- The level a core runs at (R368). -/
def lvlOf (c : Core) : Nat := bits c.st.toNat 13 3

/-- The state of the level a core runs at. -/
def curLevel (c : Core) : LevelSt := vAt c.lv (lvlOf c)

/-- Whether any slot of the current level holds a capability that a test accepts (R364). -/
def holdsCap (c : Core) (f : Cap → Bool) : Bool := (curLevel c).caps.toList.any f

/-- The grant entries of an extension file (R372, R373). -/
def grantAt (file : List Byte) (j : Nat) : Cap :=
  { w0 := BitVec.ofNat 16 (fieldAt file (64 + 8 * j) 2), w1 := BitVec.ofNat 16 (fieldAt file (66 + 8 * j) 2)
    w2 := BitVec.ofNat 16 (fieldAt file (68 + 8 * j) 2), w3 := BitVec.ofNat 16 (fieldAt file (70 + 8 * j) 2) }

/-- Whether firmware may derive a grant for a program in a slot with a domain (R366, R374 cause 4). -/
def grantOk (slot : Option Nat) (dom : Nat) (c : Cap) : Bool :=
  match capKind c with
  | 1 => decide (c.w2.toNat ≤ 0x43FF) && (decide (c.w2.toNat < 0x1C00) || decide (0x1FFF < c.w1.toNat))
  | 2 => match slot with
    | none => false
    | some k => decide (0x01000000 + 0x100000 * (k - 1) ≤ capBase c) && decide (capTop c ≤ 0x01000000 + 0x100000 * k)
  | 3 => false
  | 6 => decide (c.w1.toNat = dom) && decide (c.w2.toNat = dom)
  | _ => true

end Sys2Proof.Machine
end

