-- ==== Sys2Proof/Machine/Cache.lean ====
section
/-! DEFINITION. The tile caches and the memory behind them: lines, allocation, coherence, cleaning and the store buffers (R436 to R446). -/
namespace Sys2Proof.Machine
open Sys2Proof

/-- Words of working SRAM. -/
def sramWords : Nat := 6291456

/-- Whether a segment is packed by its map entry (R126). See log 62 (DESIGN CHOICE, unsafe). -/
def segPacked (s : State) (g : Nat) : Bool :=
  match mapLook s g with
  | some e => e.kind == 0 || e.kind == 2
  | none => true

/-- One byte of a log segment as D-space sees it: ciphertext (R200). -/
def segByte (s : State) (g b : Nat) : Byte :=
  match segOf s g with
  | none => 0
  | some x =>
    let covers (u : Nat × List Byte) : Bool := decide (u.1 ≤ b) && decide (b < u.1 + u.2.length)
    match (x.ghost.find? covers).or (((segUnits s g x).find? fun u => covers (u.1, u.2.1)).map (unitCipher s g)) with
    | none => 0
    | some u => (u.2[b - u.1]?).getD 0

/-- One byte of a packed segment of the metadata area (R115): the image and the tree nodes of a boot slot, in plaintext (R219), or an
extension program in its slot. See log 60 (DESIGN CHOICE, unsafe). -/
def metaByte (s : State) (i b : Nat) : Byte :=
  if i < 520 then
    let x := bslot s (i / 260)
    let o := i % 260 * 262144 + b
    if o < 67108864 then memGet 0xFF x.image o else (x.nodes.flatten.flatten).getD (o - 67108864) 0
  else if i < 584 then
    match look ((i - 520) / 4 + 1) s.mem.ext with
    | some e => e.file.getD ((i - 520) % 4 * 262144 + b) 0
    | none => 0
  else 0

/-- What a word of a segment reads as where nothing has stored to it: the ciphertext of a log segment, what a packed segment of the
metadata area holds, else 0. See log 9 (DESIGN CHOICE, unsafe). -/
def segUnlisted (s : State) (swa : Nat) : Word :=
  let g := swa / 131072
  let o := swa % 131072
  if segPacked s g then
    let byte (b : Nat) : Nat := (if metaBase ≤ g then metaByte s (g - metaBase) b else segByte s g b).toNat
    { tag := 1, data := BitVec.ofNat 16 (byte (2 * o) + 256 * byte (2 * o + 1)) }
  else { tag := 0, data := 0 }

/-- The codeword of a segment that holds a word (R114, R126). -/
def wordCw (s : State) (swa : Nat) : Nat :=
  if segPacked s (swa / 131072) then swa % 131072 / 2048 else swa % 131072 / 1024

/-- Whether a word lies in an uncorrectable codeword (R123). -/
def wordBad (s : State) (swa : Nat) : Bool :=
  match segOf s (swa / 131072) with
  | some x => x.uncorr.contains (wordCw s swa)
  | none => s.arr.heapBad.contains (swa / 131072, wordCw s swa)

/-- A word of a segment behind the caches: tagged BAD in an uncorrectable codeword (R123, R126).
See log 9 (DESIGN CHOICE, unsafe). See log 62 (DESIGN CHOICE, unsafe). -/
def segWord (s : State) (swa : Nat) : Word :=
  let w := (look swa s.mem.seg).getD (segUnlisted s swa)
  if wordBad s swa then { w with tag := 0xF } else w

/-- KEYREF of the metadata key (R184, R200). See log 14 (DESIGN CHOICE, unsafe). -/
def metaKey : Nat := 4

/-- A codeword of a heap segment as it stands at rest: 1,024 words of 4 bytes, one data unit under the metadata key (R126, R200). -/
def heapCipher (s : State) (g cw : Nat) : Nat × List Byte :=
  unitCipher s g (4096 * cw, (List.range 1024).flatMap fun i =>
    let a := 131072 * g + 1024 * cw + i
    let w := (look a s.mem.seg).getD (segUnlisted s a)
    leB 4 (65536 * w.tag.toNat + w.data.toNat), metaKey)

/-- What an unlisted word of working SRAM reads as. See log 9 (DESIGN CHOICE, unsafe). -/
def sramUnlisted : Word := { tag := 0, data := 0 }

/-- The word number of a line's word. -/
def lineWord (n off : Nat) : Nat := 32 * n + off

/-- A word behind the caches. -/
def backWord (s : State) (la : LAddr) (off : Nat) : Word :=
  match la with
  | .sram n => memGet sramUnlisted s.mem.sram (lineWord n off)
  | .seg n => segWord s (lineWord n off)

/-- A codeword of a segment in a move marked for recopying (R128 step 2). -/
def moveDirty (g cw : Nat) (s : State) : State :=
  { s with arr.moves := vMap (fun m => match m with
      | some x => if x.segno = g ∧ x.dirty.contains cw = false then some { x with dirty := x.dirty ++ [cw] } else some x
      | none => none) s.arr.moves }

/-- A word written behind the caches; a packed segment stores the data only (R126).
See log 9 (DESIGN CHOICE, unsafe). See log 62 (DESIGN CHOICE, unsafe). -/
def backPut (la : LAddr) (off : Nat) (w : Word) (s : State) : State :=
  match la with
  | .sram n => { s with mem.sram := memSet sramUnlisted s.mem.sram (lineWord n off) w }
  | .seg n =>
    let a := lineWord n off
    let v : Word := if segPacked s (a / 131072) then { tag := 1, data := w.data } else w
    moveDirty (a / 131072) (wordCw s a) { s with mem.seg := memSet (segUnlisted s a) s.mem.seg a v }

/-- The line number of a line address. -/
def lineNum : LAddr → Nat
  | .sram n => n
  | .seg n => n

/-- The set of a line (R436). -/
def setOf (la : LAddr) : Nat := lineNum la % 1024

/-- One tile. -/
def tileOf (s : State) (t : Nat) : Tile := vAt s.cache.tiles t

/-- One tile changed. -/
def updTile (s : State) (t : Nat) (f : Tile → Tile) : State := { s with cache.tiles := vUpd s.cache.tiles t f }

/-- The line of a tile that holds an address. -/
def findLine (t : Tile) (la : LAddr) : Option CLine := t.lines.find? fun l => l.la == la

/-- The dirty copy of a word in any tile. See log 62 (DESIGN CHOICE, unsafe). -/
def dirtyWord (s : State) (la : LAddr) (off : Nat) : Option Word :=
  s.cache.tiles.toList.findSome? fun t => (findLine t la).bind fun l => look off l.words

/-- A word as every agent sees it (R437). See log 62 (DESIGN CHOICE, unsafe). -/
def seenWord (s : State) (la : LAddr) (off : Nat) : Word := (dirtyWord s la off).getD (backWord s la off)

/-- Words of a line written behind the caches. -/
def backPutAll (la : LAddr) (ws : List (Nat × Word)) (s : State) : State :=
  ws.foldl (fun t p => backPut la p.1 p.2 t) s

/-- A line replaced in a tile. See log 62 (DESIGN CHOICE, unsafe). -/
def putLine (t : Nat) (l : CLine) (s : State) : State :=
  updTile s t fun x => { x with lines := x.lines.map fun y => if y.la = l.la then l else y }

/-- A line removed from a tile. -/
def dropLine (t : Nat) (la : LAddr) (s : State) : State :=
  updTile s t fun x => { x with lines := x.lines.filter fun y => y.la != la }

/-- A line of a tile cleaned: written back, and valid and clean (R444). -/
def cleanLine (t : Nat) (l : CLine) (s : State) : State :=
  if l.dirty then putLine t { l with dirty := false, words := [] } (backPutAll l.la l.words s) else s

/-- The ways a requester may allocate into (R439, R440, R442). -/
def allowedWays (x : Tile) (req : Nat) : List Nat :=
  (List.range 8).filter fun w =>
    (vAt x.wmask req).getLsbD w && !x.lock.getLsbD w && x.powered.getLsbD w && !x.sweep.getLsbD w

/-- One of several candidates, as the tile's LFSR breaks the tie (R439): a free value. See log 24 (DESIGN CHOICE, safe). -/
def tieBreak (l : List Nat) (s : State) : Nat × State :=
  match l with
  | [] => (0, s)
  | [w] => (w, s)
  | _ =>
    let f := takeFresh s
    ((l[(Config.freeBits 16 f.1).toNat % l.length]?).getD 0, f.2)

/-- The way a miss replaces (R439). See log 24 (DESIGN CHOICE, safe). -/
def victimWay (t req : Nat) (la : LAddr) (s : State) : Option (Nat × State) :=
  let x := tileOf s t
  let ws := allowedWays x req
  let inSet := x.lines.filter fun l => l.set == setOf la
  let free := ws.filter fun w => !inSet.any fun l => l.way == w
  let cold := ws.filter fun w => inSet.any fun l => l.way == w && !l.nru
  if ws.isEmpty then none
  else if !free.isEmpty then some (tieBreak free s)
  else if !cold.isEmpty then some (tieBreak cold s)
  else
    let clear (l : CLine) : CLine := if l.set = setOf la ∧ ws.contains l.way = true then { l with nru := false } else l
    some (tieBreak ws (updTile s t fun y => { y with lines := y.lines.map clear }))

/-- A line brought into a tile for a requester, or marked as used where it is there (R439). A string operation or Barchan fill enters
with NRU = 0. Where nothing may be allocated, nothing is. -/
def fillLine (t req : Nat) (cold : Bool) (la : LAddr) (s : State) : State :=
  match findLine (tileOf s t) la with
  | some l => putLine t { l with nru := true } s
  | none =>
    match victimWay t req la s with
    | none => s
    | some (w, s1) =>
      let old := (tileOf s1 t).lines.find? fun l => l.set == setOf la && l.way == w
      let s2 := match old with
        | some l => dropLine t l.la (cleanLine t l s1)
        | none => s1
      updTile s2 t fun x => { x with lines := x.lines ++ [{ CLine.reset with set := setOf la, way := w, la := la, nru := !cold }] }

/-- The copies of a line in other tiles taken away, with the dirty words they held (R437). -/
def stealLine (t : Nat) (la : LAddr) (s : State) : List (Nat × Word) × State :=
  let others := (List.range 4).filter (· != t)
  let ws := others.flatMap fun u => match findLine (tileOf s u) la with | some l => l.words | none => []
  (ws, others.foldl (fun u k => dropLine k la u) s)

/-- Who accesses memory: the tile it uses, its requester number there (R465), and the core it is, if it is one. -/
structure Agent where
  /-- Tile (R438). -/
  tile : Nat
  /-- Requester number (R465). -/
  req : Nat
  /-- Core, for the report of a failed write-back (R445). -/
  core : Nat
  deriving DecidableEq, Repr, Inhabited

/-- A core as an agent. -/
def coreAgent (c : Nat) : Agent := { tile := c / 4, req := c % 4, core := c }

/-- A cached load of a word (R437, R439). -/
def loadWord (a : Agent) (cold : Bool) (la : LAddr) (off : Nat) (s : State) : Word × State :=
  (seenWord s la off, fillLine a.tile a.req cold la s)

/-- A cached store of a word: write-back, write-allocate; merged into the backing store where nothing may be allocated (R436, R439). -/
def storeWord (a : Agent) (cold : Bool) (la : LAddr) (off da : Nat) (w : Word) (s : State) : State :=
  let st := stealLine a.tile la s
  let s1 := fillLine a.tile a.req cold la st.2
  match findLine (tileOf s1 a.tile) la with
  | some l =>
    let ws := st.1.foldl (fun m p => put p.1 p.2 m) l.words
    putLine a.tile { l with dirty := true, words := put off w ws, core := a.core, da := da } s1
  | none => backPut la off w (backPutAll la st.1 s1)

/-- A store that no cache takes in (R457). -/
def storeUncached (la : LAddr) (off : Nat) (w : Word) (s : State) : State :=
  let st := stealLine 4 la s
  backPut la off w (backPutAll la st.1 st.2)

/-- The line of a working SRAM word. -/
def sramLine (n : Nat) : LAddr × Nat := (.sram (n / 32), n % 32)

/-- The line of a segment word. -/
def segLine (swa : Nat) : LAddr × Nat := (.seg (swa / 32), swa % 32)

/-- The oldest store of a core's store buffer moved into the cache (R422). -/
def drainOne (c : Nat) (s : State) : State :=
  match (coreOf s c).sbuf with
  | [] => s
  | (swa, da, w) :: rest =>
    let l := segLine swa
    storeWord (coreAgent c) false l.1 l.2 da w (updCore s c fun x => { x with sbuf := rest })

/-- A core's store buffer drained, oldest first (R423). -/
def drainCore (c : Nat) (s : State) : State := iter (drainOne c) (coreOf s c).sbuf.length s

/-- Every store buffer drained. -/
def drainCores (s : State) : State := (List.range 16).foldl (fun t c => drainCore c t) s

/-- The stores of every core's buffer to a line drained first (R444); a core's earlier stores go with them. -/
def drainForLine (la : LAddr) (s : State) : State :=
  (List.range 16).foldl (fun t c => if ((coreOf t c).sbuf.any fun e => (segLine e.1).1 == la) then drainCore c t else t) s

/-- A line of a tile taken by a maintenance operation: 1 clean, 2 invalidate, 3 both (R443, R444). -/
def maintainLine (op t : Nat) (la : LAddr) (s : State) : State :=
  match findLine (tileOf s t) la with
  | none => s
  | some l =>
    match op with
    | 1 => cleanLine t l s
    | 2 => dropLine t la s
    | _ => dropLine t la (cleanLine t l s)

/-- A line taken by a maintenance operation in every tile; a clean drains the store buffers first. -/
def maintainAll (op : Nat) (la : LAddr) (s : State) : State :=
  let s1 := if op = 2 then s else drainForLine la s
  (List.range 4).foldl (fun t k => maintainLine op k la t) s1

/-- A line put into a list in ascending set order. -/
def insertLine (l : CLine) : List CLine → List CLine
  | [] => [l]
  | x :: xs => if l.set ≤ x.set then l :: x :: xs else x :: insertLine l xs

/-- Every line of a tile's ways cleaned, in ascending set order, and then invalidated where `drop` is set (R442). -/
def sweepWays (t : Nat) (ways : BitVec 8) (drop : Bool) (s : State) : State :=
  let ls := ((tileOf s t).lines.filter fun l => ways.getLsbD l.way).foldr insertLine []
  ls.foldl (fun u l => maintainLine (if drop then 3 else 1) t l.la u) s

/-- Every line of every tile cleaned, and dropped if `drop` is set (R536). -/
def cleanCaches (drop : Bool) (s : State) : State :=
  (List.range 4).foldl (fun u t => sweepWays t 0xFF drop u) (drainCores s)

end Sys2Proof.Machine
end

