-- ==== Sys2Proof/Machine/Energy.lean ====
section
/-! DEFINITION. Oasis at work: supply monitors, charger, measurements, HOLDUP_TEST, and the power-loss sequence (R75 to R102). -/
namespace Sys2Proof.Machine
open Sys2Proof

/-- Oasis runs: outside OFF and not after the converter is off. -/
def oasisOn (s : State) : Bool := decide (s.pwr.pstate ≠ .off) && decide (s.pwr.seq ≠ .off)

/-- Oasis runs and no loss sequence has begun. -/
def oasisCalm (s : State) : Bool := oasisOn s && !inLoss s

/-- VMAIN_FAIL (R93, R508, R537): the power-loss sequence, unless the device has not started, is in OFF or in a sequence already.
See log 47 (DESIGN CHOICE, unsafe). -/
def execVmainFail (s : State) : Host.Outcome State Fault Refusal :=
  .next (let s1 := { s with pwr := { s.pwr with
      vmainHigh := false, vmainOk := false, vmainLost := s.pwr.vmainLost || s.pwr.fatal } }
    if s.pwr.released then lossBegin false s1 else s1)

/-- The manifest's stream entries (R93). -/
def manifestOf (s : State) : List ManEntry :=
  ((s.store.staging.map (·.1)).eraseDups).filterMap fun sid =>
    (streamOf s sid).map fun st =>
      { sid := sid
        firstStaged := ((s.store.staging.find? fun e => e.1 == sid).map (·.2)).getD 0
        lastAssigned := st.next - 1
        lastReplied := (look sid s.store.snapReply).getD 0 }

/-- The manifest's unmerged early-log entries by half and index (R93). -/
def manifestEarly (s : State) : List (Nat × Nat) :=
  [0, 1].flatMap fun h => (vAt s.store.halves h).recs.map fun r => (h, r.index)

/-- FLUSH_BEGIN (R68, R93 steps 4 and 5): open trains are discarded, the manifest is complete, and the flush begins, with
the partly filled codewords of records placed before it (R117). -/
def execFlushBegin (s : State) : Host.Outcome State Fault Refusal :=
  whenDue (decide (s.pwr.seq = .manifest)) s
    (let s1 := dropOpenTrains s
    flushPartials { s1 with
      pwr := { s1.pwr with seq := .flush, cliveNext := s.tick + 1000, meterNj := 0, meterMv := s1.oas.vhold }
      prev := { s1.prev with
        manifest := some (manifestOf s1), early := manifestEarly s1, trains := s1.eng.trains, clive := s1.oas.cUse } })

/-- C_live in nF from the metered energy in nJ and the fall of VHOLD in mV (R93): twice the energy over the difference of the squares.
See log 47 (DESIGN CHOICE, unsafe). -/
def cLiveOf (eNj v0 v : Nat) : Option Nat := if v0 * v0 ≤ v * v then none else some (2 * eNj * 1000000 / (v0 * v0 - v * v))

/-- C_LIVE_ESTIMATE (R93 step 6): the measured VHOLD, and the energy metered since the estimate before: a charge in nC at a mean voltage.
See log 47 (DESIGN CHOICE, unsafe). -/
def execCLiveEstimate (vholdMv chargeNc meanMv : Nat) (s : State) : Host.Outcome State Fault Refusal :=
  whenDue (decide (s.pwr.seq = .flush) && decide (s.pwr.cliveNext ≤ s.tick)) s
    (let e := s.pwr.meterNj + chargeNc * meanMv / 1000
    { s with
      oas.vhold := vholdMv
      prev.clive := match cLiveOf e s.pwr.meterMv vholdMv with | some c => min s.prev.clive c | none => s.prev.clive
      pwr := { s.pwr with cliveNext := s.pwr.cliveNext + 100, meterNj := e } })

/-- Bytes of records in staging that are not written. -/
def unwrittenBytes (s : State) : Nat :=
  (s.store.staging.map fun e => match recAt s e.1 e.2 with | some r => 32 + r.payload.length | none => 0).sum
    + ((s.store.halves.toList.flatMap fun h => h.recs.filter fun r => !r.written).map fun r => 32 + r.payload.length).sum

/-- The directory checkpoint: counter 7, device time, and the fill position and chain values of every open segment (R51, R93, R208). Its
layout the spec does not give. See log 47 (DESIGN CHOICE, unsafe). -/
def ckptBody (s : State) : List Byte :=
  leB 8 (vAt s.vtf.counters 7) ++ leB 8 s.dtime
    ++ (s.arr.segs.filter fun e => e.2.sealed.isNone).flatMap fun e =>
      leB 4 e.1 ++ leB 4 e.2.fill ++ e.2.entries.flatMap fun n => leB 4 n.sid ++ n.chain

/-- The directory checkpoint written and signed: counter 7 is increased, and the context-load journal starts again (R93, R99, R204, R208).
A device without a store, or in ROLLBACK, writes none (R208, R213). See log 47 (DESIGN CHOICE, unsafe). -/
def writeCkpt (s : State) : State :=
  if s.vtf.life ≠ .owned then s
  else
    let s1 := bumpCounter 7 s
    { s1 with prev := { s1.prev with
      ckpt := some (vAt s1.vtf.counters 7), ckptBody := ckptBody s1, ckptSig := (Config.dikSign (ckptBody s1)).toList, loads := [] } }

/-- Step 7 of the sequence: checkpoint and completion marker. Writes not verified do not count (R93). -/
def closeOut (stoppedAtRes : Bool) (s : State) : State :=
  let s1 := writeCkpt s
  { s1 with
    arr.writes := []
    prev.marker := some (stoppedAtRes, s1.oas.vhold, unwrittenBytes s1)
    pwr.seq := .marked }

/-- The executions that a stopped flush leaves incomplete: each is recorded at the next mount with cause 5, and none runs again (R177). -/
def stopRuns (s : State) : State :=
  let running := s.wadi.seqs.toList.filterMap id
  let waiting := s.wadi.pend.map fun p => { Run.reset with pend := p }
  let s1 := (running ++ waiting).foldl (fun t r =>
    match look r.pend.binding s.wadi.bindings with
    | some b => ownRec (contractPayload s r 5 1 0 0 r.mEu b) t
    | none => t) s
  { s1 with wadi := { s1.wadi with pend := [], seqs := Vector.replicate 8 none } }

/-- FLUSH_STOP_AT_V_RES (R93 step 6, R177). See log 47 (DESIGN CHOICE, unsafe). -/
def execFlushStopAtVRes (s : State) : Host.Outcome State Fault Refusal :=
  whenDue (decide (s.pwr.seq = .flush) && atVres s.oas s.prev.clive s.oas.vhold) s (closeOut true (stopRuns s))

/-- Whether everything the flush has to do is done (R93 step 5, R177). -/
def flushDone (s : State) : Bool :=
  s.store.staging.isEmpty && s.arr.writes.isEmpty && s.wadi.pend.isEmpty && s.wadi.seqs.toList.all (·.isNone)
    && s.store.halves.toList.all fun h => h.recs.all (·.written)

/-- FLUSH_COMPLETE (R93 step 7). -/
def execFlushComplete (s : State) : Host.Outcome State Fault Refusal :=
  whenDue (decide (s.pwr.seq = .flush) && flushDone s) s (closeOut false s)

/-- CONVERTER_OFF (R91, R93 step 8, R94, R508): after the completion marker, or where VHOLD has reached V_floor before it. A loss whose
VMAIN has returned then starts with a POR; a sealed halt stays. See log 47 (DESIGN CHOICE, unsafe). -/
def execConverterOff (floor : Bool) (s : State) : Host.Outcome State Fault Refusal :=
  whenDue (decide (s.pwr.seq = .marked) || (floor && (decide (s.pwr.seq = .manifest) || decide (s.pwr.seq = .flush)))) s
    (let s1 := { s with arr.writes := [], pwr.seq := .off }
    if s.pwr.vmainHigh && !s.pwr.fatal then applyReset .por s1 else s1)

/-- VIO_LOW (R91, R335): VIO stays low for a number of ticks that nothing in the block gives: a free value; no fault during a sequence.
See log 1 (DESIGN CHOICE, safe). See log 49 (DESIGN CHOICE, safe). -/
def execVioLow (s : State) : Host.Outcome State Fault Refusal :=
  .next (let f := freeTicks s
    let s1 := { f.2 with pwr := { s.pwr with vioLow := true, vioOk := false, vioAt := s.tick + f.1 }, boot.vioReleased := true }
    if inLoss s then s1 else faultStateBegin 5 0 s1)

/-- The next HOLDUP_TEST that waits is taken up, outside WARN and when no measurement runs: in MODE 1 the window is held at 0 from then
on (R102). -/
def holdupNext (s : State) : State :=
  if s.oas.warn || s.oas.meas.running || s.oas.meas.job.isSome || !oasisCalm s then s
  else
    match s.eng.jobs.find? fun j => match j.kind with | .holdup _ => true | _ => false with
    | none => s
    | some j =>
      let m1 := match j.kind with | .holdup b => b | _ => false
      recomputeW { s with oas.meas := { s.oas.meas with
        job := some j.id, mode1 := m1, want := some .command, wantAt := s.tick, rechStart := none, chgt := 0 }
                          oas.ederate := if m1 then none else s.oas.ederate }

/-- WARN_ENTER (R92): PFAILn has been low for 2 µs, and stays low for a number of ticks more: a free value. See log 1 (DESIGN CHOICE, safe). -/
def execWarnEnter (s : State) : Host.Outcome State Fault Refusal :=
  .next (let f := freeTicks s
    let s1 := { f.2 with pwr.pfailUntil := max s.pwr.pfailUntil (s.tick + f.1) }
    if s.oas.warn || !s.pwr.released || !oasisOn s then s1 else windowMsg { s1 with oas.warn := true })

/-- WARN_EXIT (R92): PFAILn has been high for 1,000 ticks. See log 1 (DESIGN CHOICE, safe). -/
def execWarnExit (s : State) : Host.Outcome State Fault Refusal :=
  whenDue (s.oas.warn && decide (s.pwr.pfailUntil + 1000 ≤ s.tick)) s (holdupNext (windowMsg { s with oas.warn := false }))

/-- The results of HOLDUP_TEST (R102). -/
def holdupData (s : State) (edel : Nat) : List Byte :=
  let o := s.oas
  leB 4 (o.cLast.getD 0) ++ leB 2 (o.esr.getD 0xFFFF) ++ leB 2 (vFloorMv o) ++ leB 4 o.win ++ leB 4 edel ++ leB 8 o.measTs
    ++ leB 4 o.meas.chgt ++ leB 2 (ofSigned 16 o.temp) ++ zeros 2

/-- A measurement, with its recharge, has ended: the window follows VHOLD again, and the HOLDUP_TEST that asked for it is answered. -/
def measEnd (s : State) : State :=
  let m := s.oas.meas
  let s1 := recomputeW { s with oas.meas := { Meas.reset with want := m.want, wantAt := m.wantAt } }
  let s2 := match m.job with
    | none => s1
    | some j =>
      let edel := if m.mode1 then (match s1.oas.ederate with | some (e, _) => e | none => 0) else 0
      let d := holdupData { s1 with oas.meas.chgt := m.chgt } edel
      finishJob j (updJob s1 j fun x => { x with replies := x.replies.map fun r =>
        { r with sts := if s1.oas.cfail then .fault else .ok, data := d } })
  holdupNext s2

/-- An occasion for a measurement (R79): the first of a start takes the place of one that may be skipped.
See log 50 (DESIGN CHOICE, unsafe). -/
def wantMeas (w : MeasWhy) (s : State) : State :=
  { s with oas.meas := { s.oas.meas with
    want := match w, s.oas.meas.want with | .first, _ => some .first | _, some x => some x | _, none => some w
    wantAt := if s.oas.meas.want.isSome && decide (w ≠ .first) then s.oas.meas.wantAt else s.tick } }

/-- CHARGER_STOP (R76, R78, R79, R102): VHOLD reaches 15.0 V. See log 49 (DESIGN CHOICE, safe). -/
def execChargerStop (s : State) : Host.Outcome State Fault Refusal :=
  whenDue (oasisCalm s && s.oas.charging) s
    (let took := match s.oas.meas.rechStart with | some t => s.tick - t | none => 0
    let s1 := { s with oas := { s.oas with vhold := 15000, charging := false, chgStart := none, chgTimedOut := false } }
    if s.oas.meas.running ∧ s.oas.meas.loadOn = false then
      if s.oas.meas.discharging then
        { s1 with oas.meas := { s1.oas.meas with
          running := false, discharging := false, chgt := took, rechStart := none, want := some .command, wantAt := s.tick, discharged := true } }
      else measEnd { s1 with oas.meas.chgt := if s.oas.meas.mode1 then s.oas.meas.chgt else took }
    else
      let s2 := recomputeW s1
      if s2.oas.measured then s2 else wantMeas .first s2)

/-- CHARGER_RESUME (R76, R108): VHOLD falls below 14.9 V outside a measurement. See log 49 (DESIGN CHOICE, safe). -/
def execChargerResume (s : State) : Host.Outcome State Fault Refusal :=
  whenDue (oasisCalm s && !s.oas.charging && s.oas.chgEn && !s.oas.meas.running) s
    { s with oas := { s.oas with vhold := min s.oas.vhold 14900, charging := true, chgStart := some s.tick, chgTimedOut := false } }

/-- CHG_TIMEOUT (R77): VHOLD has not reached 15.0 V in 2,000,000 ticks; charging goes on. See log 49 (DESIGN CHOICE, safe). -/
def execChgTimeout (s : State) : Host.Outcome State Fault Refusal :=
  .next (match s.oas.chgStart with
    | some t =>
      if t + 2000000 ≤ s.tick ∧ s.oas.charging = true ∧ s.oas.chgTimedOut = false ∧ oasisCalm s = true then
        raiseFault 2 (BitVec.ofNat 32 (s.oas.vhold / 100)) { s with oas.chgTimedOut := true }
      else s
    | none => s)

/-- VHOLD_OVER (R77, R91): VHOLD has been above 16.0 V for 1 µs; the charger turns off. See log 49 (DESIGN CHOICE, safe). -/
def execVholdOver (vholdMv : Nat) (s : State) : Host.Outcome State Fault Refusal :=
  whenDue (oasisOn s && decide (16000 < vholdMv)) s
    (faultStateBegin 1 (BitVec.ofNat 32 (vholdMv / 100)) { s with oas := { s.oas with vhold := vholdMv, charging := false, chgStart := none } })

/-- The credits of the window at 14.0 V (R79). -/
def win14 (o : Oasis) : Nat := winBytesAt o 14000 / 64

/-- MEASUREMENT_START (R78, R79, R102): from 15.0 V, once the outstanding credits fit; in MODE 1 the discharge to V_floor comes first.
See log 50 (DESIGN CHOICE, unsafe). -/
def execMeasurementStart (s : State) : Host.Outcome State Fault Refusal :=
  whenDue (oasisCalm s && s.oas.meas.want.isSome && !s.oas.meas.running && !s.oas.charging && decide (15000 ≤ s.oas.vhold)) s
    (if s.oas.meas.mode1 ∧ s.oas.meas.discharged = false then
      if s.oas.outst ≤ 4096 then { s with oas.meas := { s.oas.meas with running := true, loadOn := true, discharging := true } } else s
    else if s.oas.outst ≤ win14 s.oas then
      recomputeW { s with oas.meas := { s.oas.meas with running := true, loadOn := true, want := none, loadAt := s.tick } }
    else s)

/-- MPER in ticks. -/
def mperTicks (o : Oasis) : Nat := o.mper.toNat * 100000000

/-- MEASUREMENT_PERIOD_EXPIRY (R79, R108). See log 1 (DESIGN CHOICE, safe). -/
def execMeasurementPeriodExpiry (s : State) : Host.Outcome State Fault Refusal :=
  whenDue (oasisCalm s && decide (s.oas.mper ≠ 0) && decide (s.oas.measNext ≤ s.tick)) s
    (wantMeas .periodic { s with oas.measNext := s.tick + mperTicks s.oas })

/-- TEMPERATURE_MEASUREMENT_TRIGGER (R79): the junction has moved by 15 °C or more since the last measurement. -/
def execTemperatureMeasurementTrigger (s : State) : Host.Outcome State Fault Refusal :=
  whenDue (oasisCalm s && s.oas.measured && decide (15 ≤ (s.oas.temp - s.oas.measTemp).natAbs)) s (wantMeas .temperature s)

/-- C in nF from the ticks that VHOLD takes from 15.0 V to 14.0 V at 200 mA, less an uncertainty in parts per thousand (R78).
See log 50 (DESIGN CHOICE, unsafe). -/
def cOf (t uC : Nat) : Nat := 200 * t * (1000 - uC) / 1000

/-- ESR in mΩ from the step at load onset in mV, plus an uncertainty in parts per thousand (R78). See log 50 (DESIGN CHOICE, unsafe). -/
def esrOf (stepMv uE : Nat) : Nat := 5 * stepMv * (1000 + uE) / 1000

/-- The values of a measurement taken over (R80, R81). Whether the MPER period runs on from its own expiries, the spec does not say: the
model starts it again at each measurement. See log 50 (DESIGN CHOICE, unsafe). -/
def takeMeas (cNf esrMohm : Nat) (s : State) : State :=
  let bad := decide (5000 < esrMohm) || decide (cNf < 10000)
  let s1 := { s with oas := { s.oas with
    cUse := if bad then 0 else cNf
    cLast := some cNf
    esr := some esrMohm
    esrLast := some esrMohm
    cfail := bad
    measured := true
    measTemp := s.oas.temp
    measTs := s.dtime
    measNext := s.tick + mperTicks s.oas } }
  if bad then raiseFault 3 (BitVec.ofNat 32 (min 0xFFFF (cNf / 100) * 65536 + min 0xFFFF esrMohm)) s1 else s1

/-- MEASUREMENT_COMPLETE (R78 to R82): VHOLD falls to 14.0 V; at load onset it fell by a step. The lower bound of C and the upper bound of ESR are kept, each with an
uncertainty of at most 2 %. See log 50 (DESIGN CHOICE, unsafe). -/
def execMeasurementComplete (stepMv : Nat) (unc : Uncertainty) (s : State) : Host.Outcome State Fault Refusal :=
  whenDue (oasisCalm s && s.oas.meas.loadOn && !s.oas.meas.discharging) s
    (recomputeW (takeMeas (cOf (s.tick - s.oas.meas.loadAt) unc.c.val) (esrOf stepMv unc.esr.val) { s with oas := { s.oas with
      vhold := 14000
      charging := s.oas.chgEn
      chgStart := if s.oas.chgEn then some s.tick else none
      meas := { s.oas.meas with loadOn := false, rechStart := some s.tick } } }))

/-- MEASUREMENT_SKIP (R79): a periodic or temperature measurement has waited 1,000,000 ticks. -/
def execMeasurementSkip (s : State) : Host.Outcome State Fault Refusal :=
  whenDue (s.oas.measured && !s.oas.meas.running && decide (s.oas.meas.wantAt + 1000000 ≤ s.tick)
      && (decide (s.oas.meas.want = some .periodic) || decide (s.oas.meas.want = some .temperature))) s
    { s with oas := { s.oas with measSkip := true, meas := { s.oas.meas with want := none } } }

/-- HOLDUP_DISCHARGE_COMPLETE (R102): VHOLD reaches V_floor; the delivered energy in µJ. -/
def execHoldupDischargeComplete (edelUj : Nat) (s : State) : Host.Outcome State Fault Refusal :=
  whenDue (oasisCalm s && s.oas.meas.discharging && s.oas.meas.loadOn) s
    { s with oas := { s.oas with
      vhold := vFloorMv s.oas
      ederate := some (edelUj, vFloorMv s.oas)
      charging := s.oas.chgEn
      chgStart := if s.oas.chgEn then some s.tick else none
      meas := { s.oas.meas with loadOn := false, rechStart := some s.tick } } }

/-- C_est from the rise of VHOLD from 2.0 V to 4.0 V, as the samples show it (R80). See log 49 (DESIGN CHOICE, safe). -/
def riseSample (now v : Nat) (o : Oasis) : Oasis :=
  let o1 := if o.rise2.isNone ∧ 2000 ≤ v ∧ o.startV < 2000 then { o with rise2 := some now } else o
  let o2 := match o1.rise2 with
    | some t => if o1.cEst.isNone ∧ 4000 ≤ v then { o1 with cEst := some (60 * (now - t)) } else o1
    | none => o1
  if o2.measured ∨ (o2.cEst = o.cEst ∧ o2.rise2 = o.rise2) then o2 else { o2 with cUse := cUseStart o2 }

/-- WINDOW_RECOMPUTE (R82): every 10 ticks, with the measured VHOLD. -/
def execWindowRecompute (vholdMv : Nat) (s : State) : Host.Outcome State Fault Refusal :=
  .next (if !oasisOn s then s
  else
    let s1 := { s with oas := riseSample s.tick vholdMv { s.oas with vhold := vholdMv } }
    let s2 := if vholdMv ≤ 16000 ∧ s1.flt.present.getLsbD 1 = true then faultStateEnd 1 s1 else s1
    if inLoss s then s2 else recomputeW s2)

/-- HOLDUP_TEST (R102): a barrier in MODE 1. See log 50 (DESIGN CHOICE, unsafe). -/
def cmdHoldup (c : Ctx) (s : State) : Verdict :=
  let mode := pf c 0 1
  if 1 < mode then reject c .badParam s
  else .fin (holdupNext (newJob 1 [ctxReply c .ok 0 []] (decide (mode = 1)) (.holdup (decide (mode = 1))) s).2)

end Sys2Proof.Machine
end

