-- ==== Sys2Proof/Machine/Loads.lean ====
section
/-! DEFINITION. EXT_LOAD and UOP_LOAD: the files they carry, their checks, and what loading does (R279, R280, R372 to R375, R484 to R486). -/
namespace Sys2Proof.Machine
open Sys2Proof

/-- The program loaded under a PROG_ID. -/
def extById (s : State) (pid : List Byte) : Option (Nat × Ext) := s.mem.ext.find? fun e => e.2.progId == pid

/-- The lowest program slot that no other program holds. -/
def extSlot (s : State) (pid : List Byte) : Option Nat :=
  ((List.range 16).map (· + 1)).find? fun k => !(s.mem.ext.any fun e => e.1 == k && e.2.progId != pid)

/-- Cause 1 of R374: the header of R372. -/
def extHeaderOk (f : List Byte) : Bool :=
  let n := fieldAt f 7 1
  let len := fieldAt f 8 4
  decide (fieldAt f 0 4 = 0x50585A5A) && decide (fieldAt f 4 1 = 1) && decide (fieldAt f 5 1 ≤ 2) && decide (fieldAt f 6 1 ≠ 0)
    && decide (n ≤ 16) && decide (1 ≤ len) && decide (len ≤ 1048576) && decide (fieldAt f 12 4 < len)
    && decide (fieldAt f 16 4 ≤ 262144) && decide (256 ≤ fieldAt f 20 4) && decide (fieldAt f 20 4 ≤ 65536)
    && allZero (bytesAt f 44 20) && decide (f.length = 128 + 8 * n + len)

/-- A program stopped, and its slot and domain released (R375 step 1). See log 18 (DESIGN CHOICE, unsafe). -/
def dropExt (pid : List Byte) (s : State) : State :=
  match extById s pid with
  | none => s
  | some (k, e) =>
    let s1 := match e.core with
      | some c => updCore s c fun x => { x with running := false }
      | none => s
    { s1 with mem.ext := del k s1.mem.ext }

/-- A complete extension file checked and loaded (R193, R374, R375). See log 18 (DESIGN CHOICE, unsafe). See log 53 (DESIGN CHOICE, safe). -/
def extFinish (c : Ctx) (f : List Byte) (s : State) : Verdict :=
  let body := f.take (f.length - 64)
  let pid := bytesAt f 24 16
  let n := fieldAt f 7 1
  let dom := fieldAt f 6 1
  let slot := extSlot s pid
  let grants := (List.range n).map (grantAt f)
  if !Config.ecdsaVerify c.owner body (f.drop (f.length - 64)) then rejectAuth c s
  else if !extHeaderOk f then answer c .badParam 1 [] s
  else if crcBytes (bytesAt f 64 (8 * n + fieldAt f 8 4)) ≠ bytesAt f 40 4 then answer c .badParam 2 [] s
  else if !grants.all capOk then answer c .badParam 3 [] s
  else if !grants.all (grantOk slot dom) then answer c .noCap 4 [] s
  else match slot with
    | none => answer c .quota 5 [] s
    | some k =>
      if s.mem.ext.any fun e => e.2.progId != pid && e.2.dom == dom then answer c .quota 5 [] s
      else
        let e : Ext := { file := f, progId := pid, level := fieldAt f 5 1, dom := dom, entry := fieldAt f 12 4, core := none }
        let s1 := dropExt pid s
        let s2 := { s1 with vtf.extH := s1.vtf.extH ++ f, mem.ext := put k e s1.mem.ext }
        answer c .ok k [] (if s.store.mounted then startExt k e s2 else s2)

/-- EXT_LOAD (R279): a chunk of a program file. See log 18 (DESIGN CHOICE, unsafe). -/
def cmdExtLoad (c : Ctx) (s : State) : Verdict :=
  let off := pf c 0 4
  let restart := (pf c 4 1).testBit 0
  let fin := (pf c 4 1).testBit 1
  let total := pf c 8 4
  let data := payloadOf c 16
  let have_ : Option ExtPartial := if restart then some { total := total, bytes := [] } else s.eng.extFile
  match have_ with
  | none => reject c .badParam s
  | some p =>
    let got := p.bytes ++ data
    if total < 129 ∨ 1048832 < total ∨ total ≠ p.total ∨ off ≠ p.bytes.length ∨ total < got.length
        ∨ (fin = true ∧ got.length ≠ total) then reject c .badParam s
    else if fin then extFinish c got { s with eng.extFile := none }
    else answer c .ok 0 [] { s with eng.extFile := some { total := total, bytes := got } }

/-- The fields of a microword (R478). -/
def uOp (w : Nat) : Nat := bits w 19 5
/-- Field A. -/
def uA (w : Nat) : Nat := bits w 17 2
/-- Field B. -/
def uB (w : Nat) : Nat := bits w 15 2
/-- Field WAIT. -/
def uWait (w : Nat) : Nat := bits w 12 3
/-- Field IMM. -/
def uImm (w : Nat) : Nat := bits w 0 12

/-- The tag codes SETTAG and TAGS accept (R350, R479). -/
def settable (t : Nat) : Bool := decide (t ≤ 6) || t == 9 || t == 0xA || t == 0xC || t == 0xE

/-- Cause 4 of R485: a microword of the user subset with operands inside R479. -/
def uWordOk (w : Nat) : Bool :=
  decide (w < 2 ^ 24) && decide (uWait w = 0) &&
  match uOp w with
  | 0x00 | 0x02 | 0x03 | 0x06 | 0x07 | 0x0A | 0x0B => true
  | 0x01 => decide (bits w 0 4 ≤ 13)
  | 0x04 => decide (bits w 0 4 ≤ 11)
  | 0x05 => settable (bits w 0 4)
  | 0x08 | 0x09 => decide (uB w = 0 ∨ uB w = 2)
  | 0x0C => decide (bits w 0 9 = 1) || decide (bits w 0 9 = 0xB) || decide (bits w 0 9 = 0xC)
  | 0x0D => decide (bits w 0 4 ≤ 14)
  | _ => false

/-- The microword a BR at `k` names, if it lies in the file. -/
def uTarget (n k w : Nat) : Option Nat :=
  let t : Int := (k : Int) + signedN 9 (bits w 0 9)
  if 0 ≤ t ∧ t < (n : Int) then some t.toNat else none

/-- Every BR of the file names a word of it (R485 cause 5). See log 18 (DESIGN CHOICE, unsafe). -/
def uTargetsOk (ws : List Nat) : Bool :=
  ws.zipIdx.all fun p => decide (uOp p.1 ≠ 7) || (uTarget ws.length p.2 p.1).isSome

/-- The places a path goes to from a microword with a held write or none; none where the path breaks R485 cause 5. -/
def uNexts (ws : List Nat) (p : Nat × Bool) : Option (List (Nat × Bool)) :=
  match ws[p.1]? with
  | none => none
  | some w =>
    match uOp w with
    | 0x0C | 0x0D => some []
    | 0x07 => match uTarget ws.length p.1 w with
      | none => none
      | some t => some [(p.1 + 1, p.2), (t, p.2)]
    | 0x09 | 0x0B => if p.2 then none else some [(p.1 + 1, true)]
    | _ => some [(p.1 + 1, p.2)]

/-- The paths followed from a list of places, each place once (R485). -/
def uPaths (ws : List Nat) : Nat → List (Nat × Bool) → List (Nat × Bool) → Bool
  | 0, _, todo => todo.isEmpty
  | _, _, [] => true
  | n + 1, seen, p :: todo =>
    if seen.contains p then uPaths ws n seen todo
    else match uNexts ws p with
      | none => false
      | some l => uPaths ws n (p :: seen) (l ++ todo)

/-- A decode entry (R484). -/
def uEntry (v : Nat) : UEntry :=
  { v := v.testBit 15, fmt := BitVec.ofNat 2 (bits v 13 2), x := v.testBit 12, start := bits v 0 9 }

/-- Cause 3 of R485: a decode entry keeps R484. -/
def uEntryOk (n v : Nat) : Bool :=
  if v.testBit 15 then
    decide (bits v 13 2 ≠ 3) && (!v.testBit 12 || decide (bits v 13 2 ≠ 0)) && decide (bits v 9 3 = 0) && decide (bits v 0 9 < n)
  else decide (v = 0)

/-- Whether ports `lo` to `hi` meet the ports `a` to `b`. -/
def portsMeet (lo hi a b : Nat) : Bool := decide (lo ≤ b) && decide (a ≤ hi)

/-- The microwords of a user file. See log 18 (DESIGN CHOICE, unsafe). -/
def uWords (f : List Byte) (n : Nat) : List Nat := (List.range n).map fun i => fieldAt f (64 + 4 * i) 4

/-- UOP_LOAD (R193, R280, R484 to R486): the file is checked, and its commit begins. A commit that runs makes the command wait.
See log 18 (DESIGN CHOICE, unsafe). -/
def cmdUopLoad (c : Ctx) (s : State) : Verdict :=
  let f := payloadOf c 8
  let n := fieldAt f 6 2
  let ws := uWords f n
  let ents := (List.range 16).map fun k => fieldAt f (8 + 2 * k) 2
  let lo := fieldAt f 40 2
  let hi := fieldAt f 42 2
  let starts := (ents.filter fun v => v.testBit 15).map fun v => (bits v 0 9, false)
  let bad (cause : Nat) : Verdict := answer c .badParam cause [] s
  if s.ucode.commit.isSome then .wait 0
  else if !Config.ecdsaVerify c.owner (f.take (f.length - 64)) (f.drop (f.length - 64)) then rejectAuth c s
  else if fieldAt f 0 4 ≠ 0x43555A5A ∨ fieldAt f 4 1 ≠ 1 ∨ fieldAt f 5 1 ≠ 0 ∨ n = 0 ∨ 512 < n ∨ f.length ≠ 128 + 4 * n then bad 1
  else if crcBytes (bytesAt f 64 (4 * n)) ≠ bytesAt f 44 4 then bad 2
  else if !ents.all (uEntryOk n) then bad 3
  else if !ws.all uWordOk then bad 4
  else if !(uTargetsOk ws && uPaths ws (8 * n + 64) [] starts) then bad 5
  else if lo ≤ hi ∧ (portsMeet lo hi 0x3800 0x3BFF || portsMeet lo hi 0x1C00 0x1FFF || portsMeet lo hi 0x1800 0x1BFF
      || portsMeet lo hi 0x4000 0x43FF || decide (0x43FF < hi)) = true then answer c .noCap 6 [] s
  else
    let u : UFile := { words := ws.map (BitVec.ofNat 24), decode := ents.map uEntry, outLo := BitVec.ofNat 16 lo,
                       outHi := BitVec.ofNat 16 hi, raw := f }
    let j := newJob 1 [ctxReply c .ok 0 []] false .uopLoad s
    .fin { j.2 with ucode.commit := some (u, j.1) }

/-- USER_MICROCODE_COMMIT (R486): the file replaces microcode RAM, decode table and OUTP range whole, every
micro-save of a user routine is invalidated, and decode resumes. See log 18 (DESIGN CHOICE, unsafe). -/
def execUserMicrocodeCommit (s : State) : Host.Outcome State Fault Refusal :=
  .next (match s.ucode.commit with
    | none => s
    | some (u, j) =>
      finishJob j { updCores s fun c => { c with lv := vMap (fun l => { l with micro := none }) c.lv } with
        ucode := { s.ucode with user := some u, stored := some u, commit := none }
        vtf.ucodeH := s.vtf.ucodeH ++ u.raw })

end Sys2Proof.Machine
end

