-- ==== Sys2Proof/Machine/FaultCmds.lean ====
section
/-! DEFINITION. Faults at work: FAULT_READ, FAULT_CLEAR, FAULT_INJECT, latches and broken wires, escalation timers, and the writes of the
fault ports (R281, R282, R495 to R523). -/
namespace Sys2Proof.Machine
open Sys2Proof

/-- A history entry as FAULT_READ returns it (R281). -/
def histBytes (e : HistEntry) : List Byte :=
  leB 8 e.ets ++ leB 1 e.src ++ leB 1 (clsNum e.cls) ++ zeros 2 ++ leB 4 e.det.toNat

/-- FAULT_READ (R281). -/
def cmdFaultRead (c : Ctx) (s : State) : Verdict :=
  let start := pf c 1 1
  let count := pf c 2 1
  match pf c 0 1 with
  | 0 =>
    let first := match s.flt.first with | some e => histBytes e | none => zeros 16
    answer c .ok 0 (first ++ leB 12 s.flt.latch.toNat ++ leB 1 s.flt.hist.length
      ++ leB 1 (b2n s.flt.hovf + 2 * b2n (faultN s)) ++ zeros 2) s
  | 1 =>
    if 31 < start ∨ count = 0 ∨ 32 < count then reject c .badParam s
    else
      let es := (s.flt.hist.drop start).take count
      answer c .ok es.length (es.flatMap histBytes) s
  | _ => reject c .badParam s

/-- History or FLT_FIRST emptied (R501, R518). -/
def emptyHist (hist first : Bool) (f : Faults) : Faults :=
  let g := if hist then { f with hist := [], hovf := false } else f
  if first then { g with first := none } else g

/-- FAULT_CLEAR (R282, R498, R501): a fault state that persists latches again into the emptied history. -/
def cmdFaultClear (c : Ctx) (s : State) : Verdict :=
  let cfl := pf c 12 1
  let s1 := { s with flt := emptyHist (cfl.testBit 0) (cfl.testBit 1) s.flt }
  answer c .ok 0 [] (clearLatches s1 (BitVec.ofNat 96 (pf c 0 12)))

/-- FAULT_INJECT (R282, R510): rails and masking are bypassed. -/
def cmdFaultInject (c : Ctx) (s : State) : Verdict :=
  let src := pf c 0 1
  if src = 0 ∨ 95 < src then reject c .badParam s
  else answer c .ok 0 [] (latchFault src (BitVec.ofNat 32 (pf c 4 4)) s)

/-- FAULT_LATCH (R495, R498): a fault state of a source with rails, which lasts on if `persists`. Sources 0 and 80 to 95 have none to
drive. -/
def execFaultLatch (src : Nat) (det : BitVec 32) (persists : Bool) (s : State) : Host.Outcome State Fault Refusal :=
  whenDue (decide (1 ≤ src) && decide (src < 80)) s
    (if persists then faultStateBegin src det s else raiseFault src det s)

/-- BROKEN_WIRE (R496): equal rails at a level; source 0 latches and the source is masked. -/
def execBrokenWire (src : Nat) (level : Bool) (s : State) : Host.Outcome State Fault Refusal :=
  whenDue (collectorOn s && decide (1 ≤ src) && decide (src < 96) && !s.flt.masked.getLsbD src) s
    (raiseFault 0 (BitVec.ofNat 32 (src + b2n level * 0x300)) { s with flt.masked := setBit96 s.flt.masked src true })

/-- BROKEN_WIRE_RECOVERED (R496): the source is unmasked, and a fault state it shows is seen. -/
def execBrokenWireRecovered (src : Nat) (s : State) : Host.Outcome State Fault Refusal :=
  whenDue (collectorOn s && decide (src < 96) && s.flt.masked.getLsbD src) s
    (let s1 := { s with flt.masked := setBit96 s.flt.masked src false }
    if s1.flt.present.getLsbD src then raiseFault src ((look src s1.flt.detail).getD 0) s1
    else if s1.flt.force.getLsbD src && decide (src < 80) then raiseFault src 0 s1
    else s1)

/-- A class timer. -/
def escTimer (f : Faults) : FClass → Option Esc
  | .ce => f.tmrCe
  | .uc => f.tmrUc
  | .fa => f.tmrFa

/-- A class timer stopped. -/
def stopEsc (c : FClass) (f : Faults) : Faults :=
  match c with
  | .ce => { f with tmrCe := none }
  | .uc => { f with tmrUc := none }
  | .fa => { f with tmrFa := none }

/-- ESCSRC where a class timer runs out (R507). -/
def escSource (f : Faults) (c : FClass) (e : Esc) : Nat :=
  match c with
  | .fa => e.src
  | _ => (timedOpen f c).head?.getD e.src

/-- ESCALATION_TIMER_EXPIRY (R507): the timer of a class runs out. -/
def execEscalationTimerExpiry (cls : Fin 3) (s : State) : Host.Outcome State Fault Refusal :=
  let c : FClass := if cls.val = 0 then .ce else if cls.val = 1 then .uc else .fa
  .next (match escTimer s.flt c with
    | none => s
    | some e =>
      if collectorOn s ∧ e.due ≤ s.tick then escalate (escSource s.flt c e) { s with flt := stopEsc c s.flt } else s)

/-- THERM_HALT_TIMER_EXPIRY (R507). See log 49 (DESIGN CHOICE, safe). -/
def execThermHaltTimerExpiry (s : State) : Host.Outcome State Fault Refusal :=
  .next (match s.flt.tmrTherm with
    | none => s
    | some t => if collectorOn s ∧ t ≤ s.tick then escalate 7 { s with flt.tmrTherm := none } else s)

/-- ENTROPY_HEALTH_FAIL (R187): the test that failed, and the DRBG stops. -/
def execEntropyHealthFail (adaptive : Bool) (s : State) : Host.Outcome State Fault Refusal :=
  whenDue (collectorOn s) s
    (raiseFault 8 (if adaptive then 2 else 1) { s with vtf := { s.vtf with drbgOk := false, entFail := true } })

/-- A write of FLT_ACK (R504, R507, R517). -/
def ackWrite (v : BitVec 16) (s : State) : State :=
  let n := bits v.toNat 0 7
  if n < 96 ∧ s.flt.latch.getLsbD n = true then
    { s with flt := settleTimers { s.flt with ack := setBit96 s.flt.ack n true } }
  else s

/-- FLT_ACK_WRITE (R504). See log 29 (DESIGN CHOICE, unsafe). -/
def execFltAckWrite (v : BitVec 16) (s : State) : Host.Outcome State Fault Refusal := whenDue (collectorOn s) s (ackWrite v s)

/-- A write of FLT_LATCHk (R501, R521). -/
def latchWrite (k : Nat) (v : BitVec 16) (s : State) : State :=
  clearLatches s (BitVec.ofNat 96 (v.toNat * 2 ^ (16 * k)))

/-- FAULT_LATCH_CLEAR (R501): a fault in the same window is a fault state that persists, and wins. See log 68 (DESIGN CHOICE, unsafe). -/
def execFaultLatchClear (k : Fin 6) (v : BitVec 16) (s : State) : Host.Outcome State Fault Refusal :=
  whenDue (collectorOn s) s (latchWrite k.val v s)

/-- A write of FLT_HSEL (R518): captured first, emptied afterwards. -/
def hselWrite (v : BitVec 16) (s : State) : State :=
  let sel := bits v.toNat 0 6
  let got := if sel < 32 then s.flt.hist[sel]? else if sel = 32 then s.flt.first else none
  { s with flt := emptyHist (v.getLsbD 14) (v.getLsbD 15) { s.flt with hsel := BitVec.ofNat 6 sel, hdata := got } }

/-- FLT_HSEL_WRITE (R518). See log 29 (DESIGN CHOICE, unsafe). -/
def execFltHselWrite (v : BitVec 16) (s : State) : Host.Outcome State Fault Refusal := whenDue (collectorOn s) s (hselWrite v s)

/-- A write of FLT_FORCEk (R511, R522): a source newly forced shows its fault state, unless it is masked. Sources 80 to 95 have their
rails tied. See log 61 (DEDUCED, unsafe). -/
def forceWrite (k : Nat) (v : BitVec 16) (s : State) : State :=
  let old := s.flt.force
  let mask : BitVec 96 := BitVec.ofNat 96 (0xFFFF * 2 ^ (16 * k))
  let new := ((old &&& ~~~mask) ||| BitVec.ofNat 96 (v.toNat * 2 ^ (16 * k))) &&& ~~~1#96
  let s1 := { s with flt.force := new }
  ((List.range 80).filter fun n => new.getLsbD n && !old.getLsbD n).foldl (fun t n => raiseFault n 0 t) s1

/-- FLT_FORCE_WRITE (R511). See log 29 (DESIGN CHOICE, unsafe). See log 61 (DEDUCED, unsafe). -/
def execFltForceWrite (k : Fin 6) (v : BitVec 16) (s : State) : Host.Outcome State Fault Refusal :=
  whenDue (collectorOn s) s (forceWrite k.val v s)

end Sys2Proof.Machine
end

