-- ==== Sys2Proof/Machine/Trust.lean ====
section
/-! DEFINITION. Sessions, attestation, provisioning, keys, counters, SANITIZE and the debug lock (R184 to R213, R265 to R267, R285 to
R288). -/
namespace Sys2Proof.Machine
open Sys2Proof

/-- The key that a role and host key slot name (R194). -/
def roleKey (s : State) (role kid : Nat) : Option (List Byte) := if role = 1 then s.vtf.owner else vAt s.vtf.hosts kid

/-- The first number from 1 to 0xFFFF, counted on from `k`, that names no open session. -/
def freeSes (s : State) : Nat → Nat → Nat
  | 0, k => k
  | n + 1, k => if s.vtf.sessions.any fun x => x.ses == k then freeSes s n (k % 65535 + 1) else k

/-- SESSION_OPEN (R186, R194, R195, R265). Which unused number SES takes, the spec leaves open: a free value. -/
def cmdSessionOpen (c : Ctx) (s : State) : Verdict :=
  let role := pf c 0 1
  let kid := pf c 1 1
  let qh := bytesAt c.plain 8 64
  let nh := bytesAt c.plain 72 16
  let th := ascii "ZZ-OPEN-V1" ++ leB 1 role ++ leB 1 kid ++ Config.devId.toList ++ qh ++ nh
  if c.pkt.ses ≠ 0 ∨ 1 < role ∨ 3 < kid ∨ (role = 1 ∧ kid ≠ 0) ∨ Config.onCurve qh = false then reject c .badParam s
  else match roleKey s role kid with
    | none => reject c .noCap s
    | some key =>
      if !Config.ecdsaVerify key th (bytesAt c.plain 88 64) then rejectAuth c s
      else if 16 ≤ s.vtf.sessions.length then reject c .quota s
      else if !drbgReady s then reject c .fault s
      else
        let f1 := takeFresh s
        let f2 := takeFresh f1.2
        let f3 := takeFresh f2.2
        let priv := (Config.drbg f1.1 32).toList
        let nd := (Config.drbg f2.1 16).toList
        let ses := freeSes s 16 (1 + (Config.freeBits 16 f3.1).toNat % 65535)
        let qd := (Config.ecdhPublic priv).toList
        let td := th ++ qd ++ nd ++ leB 2 ses
        let info := ascii "ZZ-SESS-V1" ++ leB 2 ses ++ leB 1 role ++ (Config.sha256 td).toList
        let keys := (Config.hkdf (Config.ecdh priv qh).toList (nh ++ nd) info 72).toList
        let x : Session := { Session.reset with ses := ses, role := if role = 1 then .owner else .host, kid := kid, keys := keys }
        let data := leB 1 role ++ leB 1 kid ++ leB 2 ses ++ zeros 4 ++ qd ++ nd ++ (Config.dikSign td).toList
        answer c .ok 0 data { f3.2 with vtf.sessions := f3.2.vtf.sessions ++ [x] }

/-- Sessions that a condition names ended (R199). -/
def endSessions (p : Session → Bool) (s : State) : State := { s with vtf.sessions := s.vtf.sessions.filter fun x => !p x }

/-- SESSION_CLOSE (R199, R266). -/
def cmdSessionClose (c : Ctx) (s : State) : Verdict :=
  let t := if pf c 0 2 = 0 then c.pkt.ses.toNat else pf c 0 2
  if t ≠ c.pkt.ses.toNat ∧ c.role ≠ some .owner then reject c .noCap s
  else if !(s.vtf.sessions.any fun x => x.ses == t) then reject c .badParam s
  else answer c .ok 0 [] (endSessions (fun x => x.ses == t) s)

/-- A measurement (R210): SHA-256 of what was loaded, zeros if nothing was. See log 28 (DESIGN CHOICE, safe). -/
def measureOf (b : List Byte) : List Byte := if b.isEmpty then zeros 32 else (Config.sha256 b).toList

/-- The Merkle root of a boot slot's image; zeros where the slot holds none. -/
def bootRoot (s : State) (k : Nat) : List Byte :=
  if (bslot s k).st = .valid then padTo 32 (bytesAt (bslot s k).manifest 32 32) else zeros 32

/-- VARIANT (R209, R263, R320). -/
def variantNum (s : State) : Nat := match s.variant with | .ia => 1 | .ib => 2

/-- The attestation report without its signature (R209). See log 13 (DEDUCED, safe). See log 44 (DESIGN CHOICE, unsafe). -/
def attestReport (s : State) (nonce : List Byte) : List Byte :=
  let hk := (List.range 4).foldl (fun n i => n + b2n (vAt s.vtf.hosts i).isSome * 2 ^ i) 0
  let owned := decide (s.vtf.life ≠ .unowned)
  leB 4 0x54415A5A ++ leB 1 1 ++ leB 1 (lifeNum s.vtf.life) ++ leB 1 s.vtf.debug ++ leB 1 (mediaNum s.arr.media)
    ++ Config.devId.toList ++ leB 1 0xB0 ++ leB 1 (variantNum s) ++ leB 1 hk ++ zeros 1
    ++ leB 4 (if owned then s.vtf.pol.toNat else 0) ++ leB 8 s.dtime ++ nonce
    ++ (match s.vtf.owner with | some k => (Config.sha256 k).toList | none => zeros 32)
    ++ Config.hamadaHash.toList ++ Config.fwHash.toList ++ measureOf s.vtf.patchH ++ measureOf s.vtf.ucodeH ++ measureOf s.vtf.extH
    ++ measureOf (s.wadi.bundles.flatMap fun b => b.2.file) ++ bootRoot s s.boot.active ++ bootRoot s (mirage s)
    ++ (List.range 9).flatMap (fun i => leB 8 (vAt s.vtf.counters i)) ++ zeros 8

/-- ATTEST (R209, R267). -/
def cmdAttest (c : Ctx) (s : State) : Verdict :=
  match pf c 32 1 with
  | 0 =>
    let r := attestReport s (bytesAt c.plain 0 32)
    answer c .ok 0 (r ++ (Config.dikSign r).toList) s
  | 1 => answer c .ok 0 (Config.cert 1) s
  | 2 => answer c .ok 0 (Config.cert 2) s
  | _ => reject c .badParam s

/-- A key of the device's own put in the key table (R184). See log 52 (DESIGN CHOICE, unsafe). -/
def ownKey (s : State) : State := (newKey none s).2

/-- PROVISION (R143, R186, R188 to R190, R213, R285). It waits for RECOVERY, in which the store it creates is mounted.
See log 46 (DEDUCED, unsafe). See log 52 (DESIGN CHOICE, unsafe). -/
def cmdProvision (c : Ctx) (s : State) : Verdict :=
  let opub := bytesAt c.plain 0 64
  let pol := pf c 64 4
  let msg := ascii "ZZ-PROV-V1" ++ Config.devId.toList ++ leB 8 (vAt s.vtf.counters 5) ++ opub ++ leB 4 pol
  if c.pkt.ses ≠ 0 ∨ s.vtf.life ≠ .unowned then reject c .noCap s
  else if Config.onCurve opub = false then reject c .badParam s
  else if s.vtf.debug = 2 ∧ s.vtf.porSinceD2 = false then reject c .halted s
  else if !Config.ecdsaVerify opub msg (bytesAt c.plain 72 64) then rejectAuth c s
  else if !drbgReady s then reject c .fault s
  else if s.pwr.phase ≠ .recovery then .wait 7
  else
    let f := takeFresh s
    let s1 := { f.2 with
      vtf := { f.2.vtf with
        kwrap := some (Config.drbg f.1 32).toList, keys := [], nextKey := 0, owner := some opub, pol := BitVec.ofNat 32 pol
        debug := 0, porSinceD2 := false, life := .owned, everOwned := true }
      dtime := if s.vtf.everOwned then s.dtime else 0
      arr := { f.2.arr with ceTotal := 0, ucTotal := 0 }
      prev := EndState.reset }
    let s2 := makeStream 0 Attr.reset (iter ownKey 5 s1)
    let s3 := startHalf (createRec 0 1 Attr.reset none s2)
    answer c .ok 0 [] (mountNow s3)

/-- A stream's key rotated (R201, R286): records that it has appended keep the key they were appended under. See log 52 (DESIGN CHOICE, unsafe). -/
def rotateStream (c : Ctx) (s : State) : Verdict :=
  let sid := pf c 4 4
  match liveStream s sid with
  | none => reject c .noStream s
  | some st =>
    if 4 ≤ st.keys.length then reject c .quota s
    else if !drbgReady s then reject c .fault s
    else
      let s1 := if st.attr.shared then s else placeStream sid s
      let k := newKey (some sid) s1
      let j := newJob 0 [ctxReply c .ok k.1 []] false .plain k.2
      let open_ := if st.attr.shared then none else (streamOf s1 sid).bind (·.openSeg)
      let sealed := match open_ with | some g => sealSegment g 2 (some j.1) j.2 | none => (0, j.2)
      let s2 := updStream sealed.2 sid fun x => { x with keys := k.1 :: x.keys }
      let s3 := pruneKeys sid (updJob s2 j.1 fun y => { y with waits := sealed.1 })
      .fin (if sealed.1 = 0 then finishJob j.1 s3 else s3)

/-- KEY_ROTATE (R186, R191, R199, R286). See log 52 (DESIGN CHOICE, unsafe). -/
def cmdKeyRotate (c : Ctx) (s : State) : Verdict :=
  let kfl := pf c 1 1
  let slot := pf c 2 1
  let key := bytesAt c.plain 8 64
  match pf c 0 1 with
  | 1 => rotateStream c s
  | 2 =>
    let msg := ascii "ZZ-XFER-V1" ++ Config.devId.toList ++ leB 8 (vAt s.vtf.counters 4) ++ key
    if Config.onCurve key = false then reject c .badParam s
    else if !Config.ecdsaVerify key msg (bytesAt c.plain 72 64) then rejectAuth c s
    else
      let s1 := bumpCounter 4 s
      answer c .ok 0 [] { s1 with vtf := { s1.vtf with
        owner := some key, sessions := []
        hosts := if kfl.testBit 0 then Vector.replicate 4 none else s1.vtf.hosts } }
  | 3 =>
    if 3 < slot then reject c .badParam s
    else if kfl.testBit 1 = false ∧ Config.onCurve key = false then reject c .badParam s
    else
      let s1 := endSessions (fun x => decide (x.role = .host) && x.kid == slot) s
      answer c .ok 0 [] { s1 with vtf.hosts := vSet s1.vtf.hosts slot (if kfl.testBit 1 then none else some key) }
  | 4 => answer c .ok 0 [] { s with vtf.pol := BitVec.ofNat 32 (pf c 4 4) }
  | _ => reject c .badParam s

/-- COUNTER_BUMP (R205, R207, R287). -/
def cmdCounterBump (c : Ctx) (s : State) : Verdict :=
  let i := pf c 0 1
  if i < 16 ∨ 31 < i then reject c .badParam s
  else if 2 ^ 32 ≤ vAt s.vtf.bumps i then reject c .quota s
  else
    let s1 := bumpCounter i s
    answer c .ok 0 (leB 8 (vAt s1.vtf.counters i)) s1

/-- Whether a cached line or a translation belongs to a segment. -/
def lineOfSeg (l : CLine) : Bool := match l.la with | .seg _ => true | _ => false

/-- The array with its store removed, every mapped slot waiting to be overwritten (R212). Wear, spares and retirement stay, and so do the
segments of the metadata area, which hold what SANITIZE keeps. See log 52 (DESIGN CHOICE, unsafe). -/
def sanitizeArr (a : ArraySt) : ArraySt :=
  { a with
    segs := [], map := a.map.filter fun e => decide (metaBase ≤ e.1), writes := [], moves := Vector.replicate 4 none, evacPending := a.evacPending.filter metaSlot, openShared := []
    remembered := [], cards := [], heapDone := [], heapBad := a.heapBad.filter fun e => decide (metaBase ≤ e.1)
    heapEng := Vector.replicate 4 none
    dies := vMap (fun x => { x with tailLive := [], refresh := [], regRef := [] }) a.dies
    slots := a.slots.map fun e => if metaSlot e.1 then e else (e.1, { e.2 with
      used := false, seg := none, zeroing := e.2.zeroing || e.2.used }) }

/-- Commands that were admitted before a SANITIZE complete (R199): what is staged is written, open trains abort, and what still waits is
answered; a HOLDUP_TEST or POWER_STATE goes on. See log 52 (DESIGN CHOICE, unsafe). -/
def settleJobs (s : State) : State :=
  if s.store.mounted then
    let s1 := (s.eng.trains.filter fun t => decide (t.st = .opened)).foldl
      (fun t x => abortTrain x 3 .noStream x.members.length true t) s
    let s2 := settleAll s1
    (s2.eng.jobs.filter fun j => match j.kind with | .holdup _ | .power _ => false | _ => true).foldl (fun t j => finishJob j.id t) s2
  else s

/-- What SANITIZE does before its reply (R199, R212). The phase falls back to RECOVERY, since no store is mounted; early appends that were
accepted are no longer (R311). See log 52 (DESIGN CHOICE, unsafe). -/
def sanitizeNow (boot : Bool) (debug : Nat) (s0 : State) : State :=
  let s := (List.range 4).foldl (fun t k => recoverMove k t) (settleJobs s0)
  let s1 := bumpCounter 5 s
  let s2 := { s1 with
    store := { StoreSt.reset with mountCount := s.store.mountCount, lastHalf := s.store.lastHalf }
    arr := sanitizeArr s1.arr
    eng := { s1.eng with trains := [], aborts := [], ctx := [], extFile := none }
    oas := { s1.oas with budget := 0, cLast := none, esrLast := none }
    vtf := { s1.vtf with
      life := .unowned, pol := 0, owner := none, hosts := Vector.replicate 4 none, kwrap := none, keys := [], nextKey := 0
      sessions := [], debug := debug, sanitize := some s1.tick }
    wadi := { Wadi.reset with brCnt := s1.wadi.brCnt }
    cores := vMap (fun c => { c with tlb := c.tlb.filter fun e => match e.phys with | .seg _ => false | _ => true }) s1.cores
    cache := { s1.cache with
      mapCache := []
      tiles := vMap (fun t => { t with lines := t.lines.filter fun l => !lineOfSeg l }) s1.cache.tiles }
    ucode := { s1.ucode with user := none, stored := none, commit := none }
    mem := { s1.mem with seg := [], ext := [] }
    pwr := { s1.pwr with phase := if s1.pwr.phase = .service then .recovery else s1.pwr.phase }
    prev := EndState.reset }
  let s3 := s1.mem.ext.foldl (fun t e => match e.2.core with
    | some k => updCore t k fun c => { c with running := false }
    | none => t) s2
  let s4 := if boot then
      bootClose { s3 with boot := { s3.boot with slots := Vector.replicate 2 BSlot.reset, trialPend := false, fallback := false } }
    else s3
  let s5 := recomputeW (returnCredits s4.oas.outst s4)
  if earlyAccepted s0 then readyMsg s5 false else s5

/-- SANITIZE (R212, R287). See log 52 (DESIGN CHOICE, unsafe). -/
def cmdSanitize (c : Ctx) (s : State) : Verdict :=
  if 1 < pf c 0 1 then reject c .badParam s
  else answer c .ok 0 [] (sanitizeNow (decide (pf c 0 1 = 1)) (if s.vtf.debug = 2 then 2 else 0) s)

/-- SANITIZE_OVERWRITE_COMPLETE (R212): every slot that waited has been overwritten, and is free. See log 52 (DESIGN CHOICE, unsafe). -/
def execSanitizeOverwriteComplete (s : State) : Host.Outcome State Fault Refusal :=
  whenDue (alive s && s.vtf.sanitize.isSome) s (mediaTest { s with
    vtf.sanitize := none
    arr.slots := s.arr.slots.map fun e =>
      if e.2.zeroing then (e.1, { e.2 with zeroing := false, prog := e.2.prog + 1 }) else e })

/-- The challenges other than those of a level. -/
def otherChals (level : Nat) (s : State) : List Chal := s.vtf.chals.filter fun x => x.level != level

/-- DEBUG_UNLOCK (R213, R288). A new challenge takes the place of one for the same level only. See log 52 (DESIGN CHOICE, unsafe). -/
def cmdDebugUnlock (c : Ctx) (s : State) : Verdict :=
  let step := pf c 0 1
  let level := pf c 1 1
  if 3 ≤ s.vtf.dbgFails then reject c .noCap s
  else if 1 < step ∨ 2 < level ∨ (step = 1 ∧ level = 0) then reject c .badParam s
  else if step = 0 then
    if level = 0 then answer c .ok 0 [] { s with vtf.debug := 0 }
    else if !drbgReady s then reject c .fault s
    else
      let f := takeFresh s
      let b := (Config.drbg f.1 32).toList
      answer c .ok 0 b { f.2 with
        vtf.chals := otherChals level s ++ [{ level := level, bytes := b, due := s.tick + 60000000 }] }
  else match s.vtf.chals.find? fun x => x.level == level with
    | none => reject c .badParam s
    | some x =>
      if x.due ≤ s.tick then reject c .badParam s
      else
        let msg := ascii "ZZ-DBG-V1" ++ leB 1 level ++ Config.devId.toList ++ x.bytes
        let key := if level = 1 then s.vtf.owner.getD [] else Config.factoryKey
        let s1 := { s with vtf.chals := otherChals level s }
        if !Config.ecdsaVerify key msg (bytesAt c.plain 8 64) then
          rejectAuth c { s1 with vtf.dbgFails := s1.vtf.dbgFails + 1 }
        else if level = 1 then answer c .ok 0 [] { bumpCounter 6 s1 with vtf := { (bumpCounter 6 s1).vtf with debug := 1 } }
        else
          let s2 := bumpCounter 6 (sanitizeNow true 2 s1)
          answer c .ok 0 [] { s2 with vtf.porSinceD2 := false }

/-- DEBUG_CHALLENGE_EXPIRY (R213). -/
def execDebugChallengeExpiry (s : State) : Host.Outcome State Fault Refusal :=
  .next { s with vtf.chals := s.vtf.chals.filter fun x => decide (s.tick < x.due) }

end Sys2Proof.Machine
end

