-- ==== Sys2Proof/Machine/Engine.lean ====
section
/-! DEFINITION. The command engine: queues, admission, dispatch, status pages, and the power states that POWER_STATE asks for (R244 to
R288, R533 to R538). -/
namespace Sys2Proof.Machine
open Sys2Proof

/-- The state word of a queue (R326). -/
def qstatWord (s : State) (q : Nat) : Nat :=
  let l := queueOf s q
  let t := b2n (trainOfQueue s q).isSome * 2 ^ 26
  match l with
  | [] => t
  | p :: _ =>
    b2n (decide (p.cause ≠ 0)) * 2 ^ 31 + p.cause % 16 * 2 ^ 27 + t + b2n (fUrg p.pkt) * 2 ^ 25
      + b2n (decide (p.pkt.chan = .sideband)) * 2 ^ 24 + min 0xFFFF l.length

/-- IDENTIFY (R263). -/
def cmdIdentify (c : Ctx) (s : State) : Verdict :=
  let up := decide (s.link.ls = .active)
  answer c .ok 0 (leB 4 0x5120 ++ leB 1 0xB0 ++ leB 1 (variantNum s) ++ leB 1 (lifeNum s.vtf.life)
    ++ leB 1 (b2n s.store.mounted + 2 * b2n (earlyAccepted s)) ++ Config.devId.toList ++ leB 4 Config.fwVersion.toNat
    ++ leB 4 1048576 ++ leB 2 3072 ++ leB 1 (if up then s.link.width else 0)
    ++ leB 1 (if up then s.link.rate.toNat + 1 else 0) ++ zeros 4) s

/-- Latched sources. -/
def latchCount (s : State) : Nat := ((List.range 96).filter fun n => s.flt.latch.getLsbD n).length

/-- PSTATE as GET_STATUS gives it (R264). -/
def pstateByte : PState → Nat
  | .run => 0
  | .idle => 1
  | .doze => 2
  | .rest => 3
  | .off => 0

/-- GET_STATUS PAGE 0 (R264). The progress of an overwrite that runs is a free value from 0 to 100. See log 43 (DESIGN CHOICE, safe). -/
def statusPage (s : State) (pct : Nat) : List Byte :=
  leB 1 (phaseNum s.pwr.phase) ++ leB 1 (pstateByte s.pwr.pstate) ++ leB 1 (mediaNum s.arr.media) ++ leB 1 (lifeNum s.vtf.life)
    ++ leB 4 s.oas.win ++ leB 4 (available s.oas) ++ leB 4 s.oas.outst ++ leB 4 s.store.streams.length ++ leB 2 (heldCtx s)
    ++ leB 1 s.vtf.sessions.length
    ++ leB 1 (b2n s.store.mounted + 2 * b2n s.oas.overV + 4 * b2n s.oas.warn + 8 * b2n s.link.brNew
        + 16 * b2n s.vtf.sanitize.isSome)
    ++ leB 1 pct ++ leB 1 (ofSigned 8 s.oas.temp) ++ leB 2 (latchCount s) ++ zeros 4

/-- The array health page (R143). The mean programme count is rounded down. See log 43 (DESIGN CHOICE, safe). -/
def healthPage (s : State) : List Byte :=
  let progs := s.arr.slots.filter fun e => !e.2.retired
  let good := 2126592 - s.arr.retired
  let ds := s.arr.dies.toList
  leB 1 (mediaNum s.arr.media) ++ leB 1 s.arr.sirocco ++ zeros 2 ++ leB 4 (ofSigned 32 (spareCap s)) ++ leB 4 20972
    ++ leB 4 (playaFree s) ++ leB 4 s.arr.retired ++ leB 4 (((List.range 8).map (dieRows s)).sum)
    ++ leB 4 (((List.range 8).map (dieSpare s)).sum) ++ leB 4 (ofSigned 32 (overProv s))
    ++ leB 8 (s.arr.slots.foldl (fun m e => max m e.2.prog) 0) ++ leB 8 ((progs.map fun e => e.2.prog).sum / good)
    ++ leB 4 s.arr.ceTotal ++ leB 4 s.arr.ucTotal ++ leB 4 (vAt s.vtf.counters 2)
    ++ leB 1 (ds.foldl (fun m d => min m d.lastPatrolMin.toNat) 0x3F) ++ zeros 3

/-- GET_STATUS (R264) at the head of a queue, which its own word does not count: it is admitted (R326). -/
def cmdGetStatus (c : Ctx) (q : Nat) (s : State) : Verdict :=
  match pf c 0 1 with
  | 0 =>
    if s.vtf.sanitize.isSome then
      let f := takeFresh s
      answer c .ok 0 (statusPage s ((Config.freeBits 7 f.1).toNat % 101)) f.2
    else answer c .ok 0 (statusPage s 100) s
  | 1 => answer c .ok 0 (healthPage s) s
  | 2 =>
    let t := setQueue s q (queueOf s q).tail
    answer c .ok 0 ((List.range 64).flatMap fun k => leB 4 (qstatWord t k)) s
  | _ => reject c .badParam s

/-- A tile's ways as DOZE leaves it (R533, R535). -/
def tileWake (x : Tile) : Tile := { x with en := x.preDoze, powered := x.preDoze, sweep := 0, upAfter := 0 }

/-- The link with LSEQ, replay buffers and credits afresh (R301, R314, R531). See log 42 (DESIGN CHOICE, unsafe). -/
def linkFresh (l : Link) : Link :=
  { l with
    rxE := 0, nakOut := false, txSeq := 0, replay := [], lastAck := none, lastCred := (0, 0, 0), asm := none, chUsed := 0, cdUsed := 0
    chCum := 0, cdCum := 0, rgCum := 0, credSeen := false, rdLim := 0, rhLim := 0, msLim := 0, rdInf := false, rhInf := false
    msInf := false, rdCum := 0, rhCum := 0, msCum := 0, rplOff := 0, mseq := 0 }

/-- The device leaves DOZE or REST (R533, R536, R550). The link wakes with it: TS1 from the host trains from CONFIG after REST.
See log 42 (DESIGN CHOICE, unsafe). -/
def wakeNow (cause : Nat) (s : State) : State :=
  let p := { s.pwr with
    pstate := .run, heldWake := none, entry := none, wakeCause := BitVec.ofNat 4 cause
    wakeFrom := decide (s.pwr.pstate = .rest), idleSince := s.tick }
  match s.pwr.pstate with
  | .doze =>
    { s with
      pwr := p
      cache.tiles := vMap tileWake s.cache.tiles
      link := if s.link.ls = .lowpower then
          { s.link with ls := .recovery, recAt := s.tick, rtCnt := satInc s.link.rtCnt }
        else s.link }
  | .rest =>
    { s with
      pwr := p
      cache.tiles := vMap (fun (x : Tile) => { x with powered := x.en }) s.cache.tiles
      link := if s.tbx.hung.getLsbD 0 then s.link
        else { linkFresh s.link with ls := if cause = 1 then .config else .detect, ts1 := false } }
  | _ => s

/-- A wake event (R533, R538): held while an entry is under way after its reply. See log 42 (DESIGN CHOICE, unsafe). -/
def wake (cause : Nat) (s : State) : State :=
  match s.pwr.entry with
  | some (_, 0) => { s with pwr.heldWake := match s.pwr.heldWake with | some x => some x | none => some cause }
  | some _ => s
  | none => wakeNow cause s

/-- A power state entered: a wake that was held leaves it again at once (R538). -/
def entered (p : PState) (s : State) : State :=
  let s1 := { s with pwr := { s.pwr with pstate := p, entry := none } }
  match s.pwr.heldWake with
  | some c => if p = .off then s1 else wakeNow c s1
  | none => s1

/-- Whether no way of any tile is being swept. -/
def sweepsDone (s : State) : Bool := s.cache.tiles.toList.all fun t => decide (t.sweep = 0)

/-- The steps of an entry that follow its reply, as far as they may go (R314, R535 to R537). See log 42 (DESIGN CHOICE, unsafe). -/
def settleEntry (s : State) : State :=
  match s.pwr.entry with
  | some (p, 0) =>
    if s.link.eiosAfter then
      let sent := s.link.replies.isEmpty && (decide (p = .doze) || s.link.replay.isEmpty || decide (s.link.ls = .disabled))
      if s.link.ls = .recovery ∨ s.link.ls = .rate ∨ (s.link.ls = .active ∧ !sent) then s
      else match p with
        | .doze =>
          let s1 := { s with
            link := { s.link with
              eiosAfter := false
              ls := if s.link.ls = .active then .lowpower else s.link.ls }
            cache.tiles := vMap (fun (x : Tile) => { x with preDoze := x.en, sweep := x.powered &&& s.pwr.dozeMask }) s.cache.tiles }
          if sweepsDone s1 then entered .doze s1 else s1
        | _ => entered p { s with link := { s.link with eiosAfter := false, ls := .disabled, ts1 := false } }
    else if sweepsDone s then entered p s
    else s
  | _ => s

/-- POWER_STATE (R283, R535 to R538). See log 42 (DESIGN CHOICE, unsafe). -/
def cmdPower (c : Ctx) (s : State) : Verdict :=
  let st := pf c 0 1
  if 3 < st then reject c .badParam s
  else if st = 0 then answer c .ok 0 [] s
  else if st = 1 then
    let s1 := formReply (ctxReply c .ok 0 []) s
    .fin (settleEntry { s1 with pwr.entry := some (.doze, 0), link.eiosAfter := true })
  else
    let j := newJob 1 [ctxReply c .ok 0 []] true (.power st) s
    .fin { j.2 with pwr.entry := some (if st = 2 then .rest else .off, j.1 + 1) }

/-- Whether a command is a barrier (R255). -/
def isBarrier (c : Ctx) : Bool :=
  match c.pkt.opc.toNat with
  | 0x0070 => decide (pf c 0 1 ≠ 0)
  | 0x0080 | 0x0083 => true
  | 0x0081 => decide (pf c 0 1 = 2)
  | 0x0071 => decide (pf c 0 1 = 1)
  | _ => false

/-- The commands admitted before mount, beside the stream commands (R256). -/
def premount (opc : Nat) : Bool :=
  [0x0001, 0x0002, 0x0010, 0x0011, 0x0012, 0x0060, 0x0061, 0x0070, 0x0080, 0x0083, 0x00F0].contains opc

/-- Whether an opcode is a stream command (R256, R261). -/
def streamOpc (opc : Nat) : Bool := decide (0x0020 ≤ opc) && decide (opc ≤ 0x0028)

/-- A command that has passed its checks carried out (R261). See log 16 (DESIGN CHOICE, unsafe). -/
def dispatch (c : Ctx) (q : Nat) (s : State) : Verdict :=
  match c.pkt.opc.toNat with
  | 0x0001 => cmdIdentify c s
  | 0x0002 => cmdGetStatus c q s
  | 0x0010 => cmdSessionOpen c s
  | 0x0011 => cmdSessionClose c s
  | 0x0012 => cmdAttest c s
  | 0x0020 => cmdCreate c s
  | 0x0021 => cmdOpen c s
  | 0x0022 => cmdClose c s
  | 0x0023 => cmdAppend c q s
  | 0x0024 => cmdRead c s
  | 0x0025 => cmdSeal c s
  | 0x0026 => cmdTrim c s
  | 0x0027 => cmdInfo c s
  | 0x0028 => cmdDelete c s
  | 0x0030 => cmdBootStage c s
  | 0x0031 => cmdBootCommit c s
  | 0x0032 => cmdBootActivate c s
  | 0x0040 => cmdRuleLoad c s
  | 0x0041 => cmdRuleBind c s
  | 0x0042 => cmdRuleUnload c s
  | 0x0050 => cmdExtLoad c s
  | 0x0051 => cmdUopLoad c s
  | 0x0060 => cmdFaultRead c s
  | 0x0061 => cmdFaultClear c s
  | 0x0062 => cmdFaultInject c s
  | 0x0070 => cmdPower c s
  | 0x0071 => cmdHoldup c s
  | 0x0080 => cmdProvision c s
  | 0x0081 => cmdKeyRotate c s
  | 0x0082 => cmdCounterBump c s
  | 0x0083 => cmdSanitize c s
  | _ => cmdDebugUnlock c s

/-- The command that a packet spells once it has passed the checks. -/
def ctxOf (p : QPkt) : Ctx := { pkt := p.pkt, plain := p.plain, keys := p.keys, role := p.role, owner := p.owner }

/-- The queues whose heads compete, in the order of arbitration (R252): urgent heads first, round robin within a class. -/
def arbOrder (s : State) : List Nat :=
  let from_ (k : Nat) : List Nat := (List.range 64).map fun i => (k + 1 + i) % 64
  let urg (q : Nat) : Bool := match queueOf s q with | p :: _ => fUrg p.pkt | [] => false
  let has (q : Nat) : Bool := !(queueOf s q).isEmpty
  ((from_ s.eng.rrUrg).filter fun q => has q && urg q) ++ ((from_ s.eng.rrNorm).filter fun q => has q && !urg q)

/-- The queue whose barrier holds admission: the one granted it, else the first of the barriers that have reached a head (R255). -/
def barrierAt (s : State) : Option Nat :=
  match s.eng.barQ with
  | some q => some q
  | none => (arbOrder s).find? fun q =>
      match queueOf s q with | p :: _ => p.passed && isBarrier (ctxOf p) && (s.store.mounted || premount p.pkt.opc.toNat) | [] => false

/-- Admission of a command that has passed its checks: mount, reply backlog, barriers, then the command itself (R251, R255, R256,
R307). -/
def admitPassed (c : Ctx) (q : Nat) (s : State) : Verdict :=
  let opc := c.pkt.opc.toNat
  let busy := s.eng.jobs.any fun j => !j.replies.isEmpty
  if s.pwr.phase = .halt then .fin (formReply (plainReply c.pkt .halted) s)
  else if !s.store.mounted && !premount opc && !streamOpc opc then .wait 7
  else if !s.store.mounted && streamOpc opc && decide (opc ≠ 0x0023) then reject c .noCtx s
  else if decide (c.pkt.chan = .host) && decide (512 ≤ s.link.replies.length) then .wait 8
  else if (s.eng.jobs.any (·.barrier)) || (match barrierAt s with | some b => decide (b ≠ q) | none => false)
      || s.pwr.entry.isSome then .wait 6
  else if isBarrier c then
    let s1 := { s with eng.barQ := some q }
    if busy || s.eng.trains.any (fun t => decide (t.st = .opened)) then .stay 6 s1
    else match dispatch c q s1 with
      | .fin t => .fin { t with eng.barQ := none }
      | .wait n => .stay n s1
      | v => v
  else dispatch c q s

/-- The head of a queue replaced. -/
def setHead (q : Nat) (p : QPkt) (s : State) : State :=
  match queueOf s q with
  | [] => s
  | _ :: rest => setQueue s q (p :: rest)

/-- The head of a queue taken from it, and the link credits it held returned (R305). -/
def dropHead (q : Nat) (p : QPkt) (s : State) : State :=
  let s1 := setQueue s q (queueOf s q).tail
  pump { s1 with link := { s1.link with chUsed := s1.link.chUsed - p.ch, cdUsed := s1.link.cdUsed - p.cd } }

/-- Whether a wait of a train's next member stops the train's clock (R66). -/
def pauses (cause : Nat) : Bool := cause == 1 || cause == 2 || cause == 3

/-- The head of a queue that waits for a cause: the credit wait starts at the first refusal of a charge, of credits or of
pending slots, and the clock of its train stops and starts (R66, R88, R168, R326). -/
def headWaits (q cause : Nat) (p : QPkt) (s : State) : State :=
  let p1 := { p with cause := cause, waitFrom := if (cause = 1 ∨ cause = 3) ∧ p.waitFrom.isNone then some s.tick else p.waitFrom }
  match p.pausedAt with
  | none => setHead q { p1 with pausedAt := if pauses cause then some s.tick else none } s
  | some t =>
    if pauses cause then setHead q p1 s
    else
      let s1 := setHead q { p1 with pausedAt := none } s
      { s1 with eng.trains := s1.eng.trains.map fun x =>
          if x.qid = q ∧ x.st = .opened then { x with lastAt := x.lastAt + (s.tick - t) } else x }

/-- A late member, or a failing one, answered as its train's members are (R66). -/
def answerAs (r : Reply) (sts : Status) (res : Nat) (s : State) : State :=
  formReply { r with sts := sts, res := BitVec.ofNat 32 res, data := [] } s

/-- A CHAIN append that failed a check of R247: it aborts its train with cause 3, or is answered as a late member (R66, R247).
See log 17 (DEDUCED, unsafe). -/
def failMember (q : Nat) (r : Reply) (last : Bool) (s : State) : State :=
  let note (a : AbortAns) (t : State) : State :=
    let keep := t.eng.aborts.filter fun a => a.1 != q
    { t with eng.aborts := if last then keep else keep ++ [(q, a)] }
  match trainOfQueue s q, look q s.eng.aborts with
  | some t, _ => answerAs r r.sts (3 * 65536 + t.members.length) (abortTrain t 3 r.sts t.members.length (!last) s)
  | none, some a => answerAs r a.sts (a.cause * 65536 + a.index) (note a s)
  | none, none => answerAs r r.sts (3 * 65536) (note { cause := 3, sts := r.sts, index := 0, untilAt := s.tick + 50000 } s)

/-- What becomes of a head that has passed its checks: whether it left its queue, and the state. -/
def headPassed (q : Nat) (p : QPkt) (s : State) : Bool × State :=
  match admitPassed (ctxOf p) q s with
  | .fin t => (true, dropHead q p t)
  | .wait n => (false, headWaits q n p s)
  | .stay n t => (false, headWaits q n p t)

/-- Whether a packet passed its checks under a session that has ended since (R199). -/
def sessionGone (s : State) (p : QPkt) : Bool :=
  !p.keys.isEmpty && !(s.vtf.sessions.any fun x => x.ses == p.pkt.ses.toNat && x.keys == p.keys)

/-- The checks of R247 on the packet at the head of a queue, made as it comes there (R61, R66, R199, R256): whether it left, answered, and
the state. A head that stays has passed them. See log 16 (DESIGN CHOICE, unsafe). -/
def checkHead (q : Nat) (s0 : State) : Bool × State :=
  match queueOf s0 q with
  | [] => (false, s0)
  | p :: _ =>
    let member := decide (p.pkt.chan = .host) && fChain p.pkt && !p.short
    if p.passed then
      if sessionGone s0 p && decide (s0.pwr.phase ≠ .halt) then
        let r := plainReply p.pkt .auth
        (true, dropHead q p (if member then failMember q r (fLast p.pkt) (countAuth s0) else formReply r (countAuth s0)))
      else (false, s0)
    else
      let breaks := !member || decide (p.pkt.opc ≠ 0x0023)
      let s := match trainOfQueue s0 q with
        | some t => if breaks && decide (s0.pwr.phase ≠ .halt) then
            abortTrain t 1 .badParam t.members.length (!(fLast p.pkt && member)) s0 else s0
        | none => s0
      if p.short then (true, dropHead q p (formReply (plainReply p.pkt (if s.pwr.phase = .halt then .halted else .badLen)) s))
      else match checkPacket p.pkt (trainOfQueue s q).isSome s with
        | .refused r t =>
          if member && decide (s.pwr.phase ≠ .halt) then
            if breaks then
              match trainOfQueue s0 q, look q s.eng.aborts with
              | some x, _ => (true, dropHead q p (answerAs r .badParam (65536 + x.members.length) t))
              | none, some a => (true, dropHead q p (failMember q { r with sts := a.sts } (fLast p.pkt) t))
              | none, none => (true, dropHead q p (formReply r t))
            else (true, dropHead q p (failMember q r (fLast p.pkt) t))
          else (true, dropHead q p (formReply r t))
        | .passed c t => (false, setHead q { p with passed := true, plain := c.plain, keys := c.keys, role := c.role } t)

/-- The packet at the head of a queue taken up (R61, R66, R247, R251, R256): answered, admitted, or left to wait. -/
def admitHead (q : Nat) (s : State) : Bool × State :=
  match checkHead q s with
  | (true, t) => (true, t)
  | (false, t) =>
    match queueOf t q with
    | [] => (false, t)
    | p :: _ => headPassed q p t

/-- The packets that come to the head of a queue are checked at once (R256); those that fail are answered. See log 16 (DESIGN CHOICE, unsafe). -/
def newHead (q : Nat) : Nat → State → State
  | 0, s => s
  | n + 1, s => match checkHead q s with | (true, t) => newHead q n t | (false, t) => t

/-- A head has left its queue: the packet behind it is checked. -/
def headLeft (q : Nat) (s : State) : State := newHead q (queueOf s q).length s

/-- The number of the queue last served in the class of a head (R252). See log 16 (DESIGN CHOICE, unsafe). -/
def served (q : Nat) (urg : Bool) (s : State) : State :=
  if urg then { s with eng.rrUrg := q } else { s with eng.rrNorm := q }

/-- The first queue of a list whose head may leave is served; the causes of the others are noted. The answer says whether one was.
See log 16 (DESIGN CHOICE, unsafe). -/
def grant : List Nat → State → Bool × State
  | [], s => (false, s)
  | q :: rest, s =>
    let urg := match queueOf s q with | p :: _ => fUrg p.pkt | [] => false
    match admitHead q s with
    | (true, t) => (true, served q urg (headLeft q t))
    | (false, t) => grant rest t

/-- A packet that has come to the head of its empty queue is taken up in its turn: after the heads of other queues that are ready and go
before it (R252). See log 16 (DESIGN CHOICE, unsafe). -/
def takeTurn (q : Nat) : Nat → State → State
  | 0, s => s
  | n + 1, s =>
    match grant ((arbOrder s).takeWhile (· ≠ q)) s with
    | (true, t) => takeTurn q n t
    | (false, t) => (grant [q] t).2

/-- Whether packets are taken up: released, and no loss sequence has begun. -/
def engineOn (s : State) : Bool := s.pwr.released && !inLoss s

/-- QUEUE_HEAD_ADMIT (R251, R252): one grant of the arbiter. See log 16 (DESIGN CHOICE, unsafe). -/
def execQueueHeadAdmit (s : State) : Host.Outcome State Fault Refusal :=
  whenDue (engineOn s && decide (s.pwr.pstate ≠ .off)) s (settleEntry (grant (arbOrder s) s).2)

/-- Any request leaves IDLE (R533). -/
def noteRequest (s : State) : State :=
  { s with pwr := { s.pwr with pstate := if s.pwr.pstate = .idle then .run else s.pwr.pstate, idleSince := s.tick } }

/-- A CHAIN packet that arrives renews the answering of late members in its queue (R66). -/
def renewAbort (q : Nat) (p : QPkt) (s : State) : State :=
  if decide (p.pkt.chan = .host) && fChain p.pkt && !p.short then
    { s with eng.aborts := s.eng.aborts.map fun a => if a.1 = q then (q, { a.2 with untilAt := s.tick + 50000 }) else a }
  else s

/-- A packet that has arrived joins its queue, with the owner key held then (R193), and where it is alone there it is checked and taken up
in its turn (R247, R251, R252, R259). A packet that names no queue is answered at once. See log 16 (DESIGN CHOICE, unsafe). -/
def deliver (p : QPkt) (s0 : State) : State :=
  if !engineOn s0 || decide (s0.pwr.pstate = .off) then s0
  else
    let s := noteRequest s0
    let q := if p.pkt.chan = .sideband then 0 else p.pkt.qid.toNat
    if 63 < q then
      let s1 := formReply (plainReply p.pkt (if s.pwr.phase = .halt then .halted else .badParam)) s
      pump { s1 with link := { s1.link with chUsed := s1.link.chUsed - p.ch, cdUsed := s1.link.cdUsed - p.cd } }
    else
      let p1 := { p with owner := s.vtf.owner.getD [] }
      if (queueOf s q).isEmpty then
        match checkHead q (setQueue (renewAbort q p s) q [p1]) with
        | (true, t) => settleEntry (served q (fUrg p.pkt) t)
        | (false, t) => settleEntry (takeTurn q 65 t)
      else setQueue (renewAbort q p s) q (queueOf s q ++ [p1])

/-- A sideband packet holds the sideband until its reply is read (R317), and wakes the device (R533). See log 21 (DESIGN CHOICE, unsafe). -/
def sideArrives (s : State) : State := wake 2 { s with side := { s.side with busy := true } }

/-- A command packet of an opcode arrives by its channel (R244, R259). While a sideband reply is outstanding no further sideband packet
is taken (R317). See log 16 (DESIGN CHOICE, unsafe). -/
def arrive (opc : BitVec 16) (c : CmdIn) (s : State) : State :=
  let pkt : Packet := { chan := c.chan, opc := opc, flg := c.flg, qid := c.qid, tag := c.tag, ses := c.ses, plen := c.plen,
                        seq := c.seq, body := c.body }
  let p : QPkt := { QPkt.reset with pkt := pkt }
  match c.chan with
  | .host => deliver p s
  | .sideband => if s.side.busy || !engineOn s || decide (s.pwr.pstate = .off) then s else deliver p (sideArrives s)

/-- The packet that fewer than 16 delivered bytes spell (R247). See log 16 (DESIGN CHOICE, unsafe). -/
def shortPacket (chan : Chan) (b : List Byte) : Packet :=
  { Packet.empty with
    chan := chan
    opc := BitVec.ofNat 16 (fieldAt b 0 2)
    flg := BitVec.ofNat 8 (fieldAt b 2 1)
    qid := if b.length < 4 ∨ 63 < fieldAt b 3 1 then 0 else BitVec.ofNat 8 (fieldAt b 3 1)
    tag := BitVec.ofNat 16 (fieldAt b 4 2) }

/-- SHORT_COMMAND_PACKET (R247): fewer than 16 bytes arrive on the host link. See log 16 (DESIGN CHOICE, unsafe). -/
def execShortCommandPacket (b : List Byte) (s : State) : Host.Outcome State Fault Refusal :=
  whenDue (decide (b.length < 16)) s (deliver { QPkt.reset with pkt := shortPacket .host b, short := true } s)

/-- The bytes of a command packet as delivered (R244). See log 16 (DESIGN CHOICE, unsafe). -/
def packetOf (chan : Chan) (b : List Byte) : Packet :=
  { chan := chan, opc := BitVec.ofNat 16 (fieldAt b 0 2), flg := BitVec.ofNat 8 (fieldAt b 2 1), qid := BitVec.ofNat 8 (fieldAt b 3 1)
    tag := BitVec.ofNat 16 (fieldAt b 4 2), ses := BitVec.ofNat 16 (fieldAt b 6 2), plen := BitVec.ofNat 32 (fieldAt b 8 4)
    seq := BitVec.ofNat 32 (fieldAt b 12 4), body := b.drop 16 }

/-- A delivered command packet, short or whole, with the link credits it holds. -/
def deliverBytes (chan : Chan) (b : List Byte) (ch cd : Nat) (s : State) : State :=
  if b.length < 16 then deliver { QPkt.reset with pkt := shortPacket chan b, short := true, ch := ch, cd := cd } s
  else deliver { QPkt.reset with pkt := packetOf chan b, ch := ch, cd := cd } s

/-- CREDIT_WAIT_EXPIRY (R24, R53, R88, R168): an append that waits for credits or pending slots and whose credit wait has run out is
answered. -/
def expireCredit (q : Nat) (s : State) : State :=
  match queueOf s q with
  | p :: _ =>
    match p.waitFrom with
    | some t =>
      if s.oas.cwait ≠ 0 ∧ t + s.oas.cwait * 1000 ≤ s.tick ∧ p.pkt.opc = 0x0023 ∧ (p.cause = 1 ∨ p.cause = 3) then
        let r := ctxReply (ctxOf p) .noCred 0 []
        let dropHead (q : Nat) (p : QPkt) (s : State) : State := headLeft q (dropHead q p s)
        if fChain p.pkt then
          match trainOfQueue s q with
          | some x =>
            let i := x.members.length
            dropHead q p (answerAs r .noCred (7 * 65536 + i) (abortTrain x 7 .noCred i (!fLast p.pkt) s))
          | none =>
            let keep := s.eng.aborts.filter fun a => a.1 != q
            let late := keep ++ [(q, { cause := 7, sts := .noCred, index := 0, untilAt := s.tick + 50000 })]
            dropHead q p (answerAs r .noCred (7 * 65536) { s with eng.aborts := if fLast p.pkt then keep else late })
        else dropHead q p (formReply r s)
      else s
    | none => s
  | [] => s

/-- CREDIT_WAIT_EXPIRY (R88). See log 1 (DESIGN CHOICE, safe). -/
def execCreditWaitExpiry (s : State) : Host.Outcome State Fault Refusal :=
  whenDue (alive s) s ((List.range 64).foldl (fun t q => expireCredit q t) s)

/-- Whether the next member of a train waits at the head of its queue with the train's clock stopped (R66). -/
def trainPaused (s : State) (t : Train) : Bool :=
  match queueOf s t.qid with
  | p :: _ => p.pausedAt.isSome
  | [] => false

/-- CARAVAN_INACTIVITY_TIMEOUT (R66 cause 5): open trains whose next member has not been admitted in 50,000 ticks abort. -/
def execCaravanInactivityTimeout (s : State) : Host.Outcome State Fault Refusal :=
  whenDue (alive s) s
    ((s.eng.trains.filter fun t => decide (t.st = .opened) && !trainPaused s t && decide (t.lastAt + 50000 < s.tick)).foldl
      (fun u t => abortTrain t 5 .badParam t.members.length true u) s)

/-- CARAVAN_ABORT_ANSWER_END (R66). -/
def execCaravanAbortAnswerEnd (s : State) : Host.Outcome State Fault Refusal :=
  .next { s with eng.aborts := s.eng.aborts.filter fun a => decide (s.tick < a.2.untilAt) }

/-- Whether nothing waits for the array: no outstanding credit, no staged record, no write in flight. -/
def drained (s : State) : Bool :=
  decide (s.oas.outst = 0) && s.store.staging.isEmpty && s.arr.writes.isEmpty && s.store.waiting.isEmpty

/-- REST_ENTRY_DRAINED (R536): O = 0 and no move runs; caches are cleaned and powered off, and the reply is sent. -/
def execRestEntryDrained (s : State) : Host.Outcome State Fault Refusal :=
  .next (match s.pwr.entry with
    | some (.rest, j + 1) =>
      if alive s && drained s && s.arr.moves.toList.all (·.isNone) then
        let s1 := cleanCaches true s
        let s2 := { s1 with cache.tiles := vMap (fun (x : Tile) => { x with powered := 0, sweep := 0 }) s1.cache.tiles }
        settleEntry (finishJob j { s2 with pwr.entry := some (.rest, 0), link.eiosAfter := true })
      else s
    | _ => s)

/-- OFF_ENTRY_DRAINED (R97, R283, R537): the checkpoint and the clean-shutdown marker are written where a store is mounted, the reply is
sent, and the phase is HALT. See log 42 (DESIGN CHOICE, unsafe). -/
def execOffEntryDrained (s : State) : Host.Outcome State Fault Refusal :=
  .next (match s.pwr.entry with
    | some (.off, j + 1) =>
      if alive s && drained s && s.arr.moves.toList.all (·.isNone) then
        let s1 := cleanCaches false s
        let s2 := if s1.store.mounted then
            let t := writeCkpt s1
            { t with prev := { t.prev with clean := true, power := false } }
          else s1
        let s3 := finishJob j s2
        settleEntry { s3 with
          pwr := { s3.pwr with phase := .halt, entry := some (.off, 0) }
          link.eiosAfter := true
          oas := { s3.oas with charging := false, chgStart := none } }
      else s
    | _ => s)

/-- Whether a slot marked failing waits for its evacuation. See log 42 (DESIGN CHOICE, unsafe). -/
def slotFailing (s : State) : Bool := s.arr.slots.any fun e => e.2.failing && !e.2.retired

/-- WAKE_EVENT (R533, R550): 1 host TS1, 2 a sideband packet, 3 a fault latch at or above ITHR, 4 a slot marked failing (from REST).
See log 1 (DESIGN CHOICE, safe). See log 42 (DESIGN CHOICE, unsafe). -/
def execWakeEvent (cause : BitVec 4) (s : State) : Host.Outcome State Fault Refusal :=
  .next (match cause.toNat with
    | 1 => wake 1 s
    | 2 => if s.side.busy then wake 2 s else s
    | 3 => if faultIrq s then wake 3 s else s
    | 4 =>
      let resting := decide (s.pwr.pstate = .rest) || (match s.pwr.entry with | some (.rest, 0) => true | _ => false)
      if slotFailing s && resting then wake 4 s else s
    | _ => s)

/-- Whether nothing is pending in the device (R534). -/
def quiet (s : State) : Bool :=
  (s.cores.toList.all fun c => !c.running || c.stopped || c.waiti || c.mrkWait.isSome)
    && (s.eng.queues.toList.all (·.isEmpty)) && s.eng.jobs.isEmpty
    && s.store.staging.isEmpty && s.arr.writes.isEmpty && s.wadi.pend.isEmpty && s.wadi.seqs.toList.all (·.isNone)
    && s.arr.moves.toList.all (·.isNone)
    && (s.arr.dies.toList.all fun d => !d.cal && !d.patrol && d.refresh.isEmpty && d.recal.isEmpty)
    && !s.cache.busy && !s.mmu.busy && sweepsDone s

/-- IDLE_ENTRY (R534). -/
def execIdleEntry (s : State) : Host.Outcome State Fault Refusal :=
  whenDue (alive s && decide (s.pwr.pstate = .run) && s.pwr.entry.isNone && quiet s && decide (s.pwr.idleSince + 100 ≤ s.tick)) s
    { s with pwr.pstate := .idle }

/-- IDLE_EXIT (R533). -/
def execIdleExit (s : State) : Host.Outcome State Fault Refusal := whenDue (decide (s.pwr.pstate = .idle)) s (noteRequest s)

end Sys2Proof.Machine
end

