-- ==== Sys2Proof/Machine/Link.lean ====
section
/-! DEFINITION. The Pradom host link: training, reception, acknowledgement and replay, credits, host-window registers, and the management
sideband (R289 to R326, R103 to R105). -/
namespace Sys2Proof.Machine
open Sys2Proof

/-- The strap width (R289). -/
def strapWidth (s : State) : Nat :=
  match bits s.pwr.straps.toNat 2 2 with
  | 1 => 2
  | 2 => 4
  | _ => 1

/-- The widest width the device trains: the -IB caps it at two (R2, R289). -/
def capWidth (s : State) : Nat := match s.variant with | .ia => strapWidth s | .ib => min 2 (strapWidth s)

/-- Whether lanes 0 to w - 1 all trained. -/
def lanesGood (lanes : BitVec 4) (w : Nat) : Bool := (List.range w).all fun i => lanes.getLsbD i

/-- The width that trains (R289). -/
def trainWidth (cap : Nat) (lanes : BitVec 4) : Option Nat := ([4, 2, 1].filter (· ≤ cap)).find? (lanesGood lanes)

/-- The highest rate that both sides advertise and RATECAP allows (R290). -/
def agreedRate (l : Link) : BitVec 2 :=
  let ok (r : Nat) : Bool := l.peer.getLsbD r && decide (r ≤ l.rateCap.toNat)
  if ok 2 then 2 else if ok 1 then 1 else 0

/-- The link in ACTIVE: CREDIT is sent, and what waits goes (R296, R306). -/
def linkUp (s : State) : State :=
  let l := { s.link with ls := .active, target := s.link.rate, retrain := false, advAt := s.tick }
  settleEntry (pump { s with link := sendCredit l s.tick })

/-- Whether the lanes may run at all: released, no loss sequence, and crossing 0 not hung (R544). -/
def linkOn (s : State) : Bool := s.pwr.released && !inLoss s && decide (s.pwr.pstate ≠ .off) && !s.tbx.hung.getLsbD 0

/-- RECOVERY entered (R295, R323). -/
def toRecovery (s : State) : State :=
  { s with link := { s.link with ls := .recovery, recAt := s.tick, rtCnt := satInc s.link.rtCnt } }

/-- LINK_DETECT_TS1_START (R295, R297): 1 ms after the internal reset release. -/
def execLinkDetectTs1Start (s : State) : Host.Outcome State Fault Refusal :=
  whenDue (linkOn s && decide (s.link.ls = .detect) && !s.link.ts1 && decide (s.pwr.phase ≠ .test)
      && decide (s.link.recAt + 1000 ≤ s.tick)) s
    { s with link.ts1 := true }

/-- LINK_TS1_RECEIVED (R295, R313, R314, R328): from DETECT, and from HOTRESET once TS1 comes without HOTRST, the link goes
to CONFIG; it wakes a device in DOZE or REST.
See log 6 (DESIGN CHOICE, unsafe). See log 19 (DEDUCED, unsafe). -/
def execLinkTs1Received (s : State) : Host.Outcome State Fault Refusal :=
  .next (if !linkOn s || decide (s.pwr.phase = .test) then s
  else match s.link.ls with
    | .detect | .hotreset => { s with link := { s.link with ls := .config, rate := 0 } }
    | .lowpower => if s.pwr.pstate = .doze then wake 1 s else toRecovery s
    | .disabled => if s.pwr.pstate = .rest ∨ s.pwr.entry = some (.rest, 0) then wake 1 s else s
    | _ => s)

/-- Where CONFIG ends (R289, R296): `lanes` exchanged their TS2 blocks with their own numbers, and the host offered `peer`.
See log 19 (DEDUCED, unsafe). -/
def configDone (lanes : BitVec 4) (peer : BitVec 3) (s : State) : State :=
  match trainWidth (capWidth s) lanes with
  | none => s
  | some w =>
    let l0 := { s.link with
      width := w
      narrow := decide (w < (if s.variant = .ib then min 2 (strapWidth s) else strapWidth s))
      laneOk := lanes &&& BitVec.ofNat 4 (2 ^ capWidth s - 1)
      peer := peer }
    if s.link.ls = .rate then linkUp { s with link := l0 }
    else
      let l := { l0 with rate := 0, ts1 := false }
      let r := agreedRate l
      if r = 0 then linkUp { s with link := l } else { s with link := { l with ls := .rate, target := r, recAt := s.tick } }

/-- LINK_CONFIG_COMPLETE (R296): in CONFIG, and once more at the new rate in RATE. -/
def execLinkConfigComplete (lanes : BitVec 4) (peer : BitVec 3) (s : State) : Host.Outcome State Fault Refusal :=
  whenDue (linkOn s && (decide (s.link.ls = .config)
      || (decide (s.link.ls = .rate) && decide (s.link.rate = s.link.target)))) s
    (configDone lanes peer s)

/-- LINK_RATE_CHANGE_IDLE_END (R296 step 3): the lanes have stood in electrical idle for 10 µs. See log 1 (DESIGN CHOICE, safe). -/
def execLinkRateChangeIdleEnd (s : State) : Host.Outcome State Fault Refusal :=
  whenDue (linkOn s && decide (s.link.ls = .rate) && decide (s.link.recAt + 10 ≤ s.tick)) s { s with link.rate := s.link.target }

/-- BLOCK_LOCK_LOST (R293). -/
def execBlockLockLost (s : State) : Host.Outcome State Fault Refusal :=
  whenDue (linkOn s && decide (s.link.ls = .active)) s (toRecovery s)

/-- LINK_RECOVERY_COMPLETE (R295, R296): ACTIVE, or RATE where RETRAIN asks for another rate. -/
def execLinkRecoveryComplete (s : State) : Host.Outcome State Fault Refusal :=
  whenDue (linkOn s && decide (s.link.ls = .recovery)) s
    (if s.link.retrain ∧ agreedRate s.link ≠ s.link.rate then
      { s with link := { s.link with ls := .rate, target := agreedRate s.link, recAt := s.tick } }
    else linkUp s)

/-- LINK_RECOVERY_TIMEOUT (R298, R526): DETECT, LINK_DOWN, and a LINK reset unless a start of a higher kind other than SOFT runs.
See log 19 (DEDUCED, unsafe). -/
def execLinkRecoveryTimeout (s : State) : Host.Outcome State Fault Refusal :=
  whenDue (linkOn s && decide (s.link.ls = .recovery) && decide (s.link.recAt + 2000 ≤ s.tick)) s
    (let s1 := raiseFault 12 (BitVec.ofNat 32 (lstateNum .recovery)) { s with link := { s.link with ls := .detect, rate := 0 } }
    linkReset s1)

/-- A word of the host window read (R308, R318 to R326, R103 to R105). A reserved offset reads 0.
See log 5 (DESIGN CHOICE, unsafe). See log 43 (DESIGN CHOICE, safe). -/
def hwRead (ofs : Nat) (s : State) : Nat :=
  let l := s.link
  if 0x100 ≤ ofs ∧ ofs < 0x200 then qstatWord s ((ofs - 0x100) / 4)
  else match ofs with
    | 0x000 => 0x5A5A5120
    | 0x004 => 0xB0000000 + variantNum s * 65536 + 0x100
    | 0x008 =>
      b2n s.store.mounted * 2 ^ 31 + phaseNum s.pwr.phase * 2 ^ 28 + pstateNum s.pwr.pstate * 2 ^ 26
        + mediaNum s.arr.media * 2 ^ 24 + lifeNum s.vtf.life * 2 ^ 22
        + b2n (decide (s.vtf.life = .rollback) || decide (s.pwr.phase = .halt)) * 2 ^ 21 + l.msgp.toNat
    | 0x00C => b2n l.softReq * 2 ^ 31 + b2n l.retrain * 2 ^ 7 + l.rateCap.toNat * 2 ^ 5 + b2n l.sbClr
    | 0x010 => s.oas.cwait * 2 ^ 20 + (if s.oas.winKnown then available s.oas else 0) % 2 ^ 20
    | 0x014 =>
      b2n (arrayOnly s.oas) * 2 ^ 31 + b2n s.oas.overV * 2 ^ 30 + b2n s.oas.warn * 2 ^ 29 + b2n s.oas.meas.running * 2 ^ 28
        + s.oas.win % 2 ^ 20
    | 0x018 =>
      lstateNum l.ls * 2 ^ 28 + l.width * 2 ^ 25 + l.rate.toNat * 2 ^ 23 + b2n l.narrow * 2 ^ 22 + l.laneOk.toNat * 2 ^ 18
        + l.rtCnt.toNat * 2 ^ 8 + l.rpCnt.toNat
    | 0x020 =>
      b2n (faultN s) * 2 ^ 31
        + (match s.flt.first with | some e => clsNum e.cls * 2 ^ 29 + e.src % 128 * 2 ^ 22 | none => 3 * 2 ^ 29)
        + b2n s.flt.hovf * 2 ^ 21 + latchCount s * 2 ^ 14 + s.flt.hist.length * 2 ^ 8
    | 0x024 => b2n l.hirqEn * 2 ^ 31 + l.fthr.toNat * 2 ^ 29 + l.msgEn.toNat
    | 0x028 => b2n l.brNew * 2 ^ 31 + b2n l.brInexact * 2 ^ 30 + l.brCnt.toNat
    | _ => 0

/-- A write of HW_CTRL (R322). -/
def ctrlWrite (v : BitVec 32) (s : State) : State :=
  let l := s.link
  let cap := bits v.toNat 5 2
  let s1 := { s with link := { l with
    rateCap := if cap = 3 then l.rateCap else BitVec.ofNat 2 cap
    sbClr := v.getLsbD 0
    softReq := l.softReq || (v.getLsbD 31 && decide (bits v.toNat 24 7 = 0x35)) } }
  if v.getLsbD 7 && !l.retrain && decide (l.ls = .active) then toRecovery { s1 with link.retrain := true } else s1

/-- A write of a word of the host window (R308, R11). A reserved offset ignores it. See log 68 (DESIGN CHOICE, unsafe). -/
def hwWrite (ofs : Nat) (v : BitVec 32) (s : State) : State :=
  let l := s.link
  match ofs with
  | 0x008 => { s with link.msgp := l.msgp &&& ~~~(BitVec.ofNat 4 v.toNat) }
  | 0x00C => ctrlWrite v s
  | 0x010 => { s with oas.cwait := bits v.toNat 20 12 }
  | 0x018 => { s with link := { l with rtCnt := 0, rpCnt := 0 } }
  | 0x024 =>
    { s with link := { l with hirqEn := v.getLsbD 31, fthr := BitVec.ofNat 2 (bits v.toNat 29 2), msgEn := BitVec.ofNat 4 v.toNat } }
  | 0x028 => { s with link.brNew := l.brNew && !v.getLsbD 31 }
  | _ => s

/-- LINK_RETRAIN (R322): a write of HW_CTRL with RETRAIN set. -/
def execLinkRetrain (v : BitVec 32) (s : State) : Host.Outcome State Fault Refusal :=
  whenDue (linkOn s && decide (s.link.ls = .active) && v.getLsbD 7) s (ctrlWrite v s)

/-- LINK_COUNTER_CLEAR (R323). -/
def execLinkCounterClear (s : State) : Host.Outcome State Fault Refusal :=
  whenDue (linkOn s && decide (s.link.ls = .active)) s (hwWrite 0x018 0 s)

/-- LINK_PROTO raised with the TYPE of the packet (R300). See log 19 (DEDUCED, unsafe). -/
def linkProto (typ : Byte) (s : State) : State := raiseFault 13 (typ.zeroExtend 32) s

/-- The CD credits a CMD link packet charges (R305). See log 20 (DESIGN CHOICE, unsafe). -/
def cmdCharge (first : Bool) (len : Nat) : Nat := if first then ceilDiv (len - 192) 64 else ceilDiv len 64

/-- A register access completed (R308): `none` reads. -/
def regAccess (ofs : Nat) (xtag : BitVec 16) (data : Option (BitVec 32)) (s : State) : State :=
  let bad := decide (ofs % 4 ≠ 0) || decide (4096 ≤ ofs)
  let v := if bad then 0 else match data with | none => hwRead ofs s | some _ => 0
  let s1 := match data with | some d => if bad then s else hwWrite ofs d s | none => s
  let p : TxPkt := { TxPkt.reset with
    typ := 0x03, xtag := xtag, payload := leB 2 ofs ++ [BitVec.ofNat 8 (b2n bad), 0] ++ leB 4 v }
  let l := s1.link
  pump { s1 with link := { l with
    rgCum := (l.rgCum + 1) % 65536, cpls := l.cpls ++ [(l.ordNext, p)], ordNext := l.ordNext + 1 } }

/-- An open assembly delivered as received (R309). See log 20 (DESIGN CHOICE, unsafe). -/
def closeAssembly (s : State) : State :=
  match s.link.asm with
  | none => s
  | some a => deliverBytes .host a.bytes a.ch a.cd { s with link.asm := none }

/-- A CMD link packet (R305, R309). -/
def cmdLink (first last : Bool) (payload : List Byte) (s0 : State) : State :=
  let s := if first then closeAssembly s0 else s0
  let cd := cmdCharge first payload.length
  let ch := b2n first
  let l := { s.link with chCum := (s.link.chCum + ch) % 65536, cdCum := (s.link.cdCum + cd) % 65536 }
  if !first && s.link.asm.isNone then pump (linkProto 0x10 { s with link := l })
  else
    let old := s.link.asm.getD Assembly.reset
    let a : Assembly := { bytes := old.bytes ++ payload, ch := old.ch + ch, cd := old.cd + cd, due := s.tick + 10000 }
    let s1 := { s with link := { l with chUsed := l.chUsed + ch, cdUsed := l.cdUsed + cd, asm := some a } }
    if last then closeAssembly s1
    else if 1024 ≤ a.cd then
      let s2 := { s1 with link := { s1.link with
        asm := none, chUsed := s1.link.chUsed - a.ch, cdUsed := s1.link.cdUsed - a.cd } }
      pump (formReply (plainReply (packetOf .host a.bytes) (if s.pwr.phase = .halt then .halted else .badLen)) s2)
    else s1

/-- A data link packet that breaks the rules of R300: its credits return at once.
See log 19 (DEDUCED, unsafe). See log 20 (DESIGN CHOICE, unsafe). -/
def badData (typ lfl : Byte) (len : Nat) (s : State) : State :=
  let l := s.link
  let first := lfl.getLsbD 0
  let l1 := match typ.toNat with
    | 0x01 | 0x02 => { l with rgCum := (l.rgCum + 1) % 65536 }
    | 0x10 => { l with
        chCum := (l.chCum + b2n first) % 65536, cdCum := (l.cdCum + cmdCharge first len) % 65536 }
    | _ => l
  pump (linkProto typ { s with link := l1 })

/-- An accepted data link packet acted on (R300, R308, R309). See log 20 (DESIGN CHOICE, unsafe). -/
def takeData (xtag : BitVec 16) (typ lfl : Byte) (payload : List Byte) (s0 : State) : State :=
  let s := noteRequest s0
  let n := payload.length
  let clear := allZero (bytesAt payload 2 2)
  let ofs := fieldAt payload 0 2
  match typ.toNat with
  | 0x01 => if n = 4 ∧ lfl = 0 ∧ clear = true then regAccess ofs xtag none s else badData typ lfl n s
  | 0x02 =>
    if n = 8 ∧ lfl = 0 ∧ clear = true then regAccess ofs xtag (some (BitVec.ofNat 32 (fieldAt payload 4 4))) s else badData typ lfl n s
  | 0x10 =>
    if 1 ≤ n ∧ n ≤ 1024 ∧ lfl.toNat < 4 ∧ xtag = 0 then cmdLink (lfl.getLsbD 0) (lfl.getLsbD 1) payload s else badData typ lfl n s
  | _ => badData typ lfl n s

/-- A data link packet received (R302). See log 19 (DEDUCED, unsafe). -/
def rxData (good : Bool) (lseq xtag : BitVec 16) (typ lfl : Byte) (payload : List Byte) (s : State) : State :=
  let l := s.link
  let e := l.rxE
  let prev := (e + 65535) % 65536
  let back := (e + 65536 - lseq.toNat) % 65536
  if good && decide (back = 0) then
    settleEntry (takeData xtag typ lfl payload
      { s with link := { l with rxE := (e + 1) % 65536, nakOut := false, lastAck := some (false, e) } })
  else if good && decide (back ≤ 4096) then { s with link.lastAck := some (false, prev) }
  else if l.nakOut then s
  else { s with link := { l with nakOut := true, lastAck := some (true, prev) } }

/-- Whether link packets flow. -/
def linkFlows (s : State) : Bool := linkOn s && decide (s.link.ls = .active)

/-- REGWR (R308). -/
def execRegwr (lseq xtag ofs : BitVec 16) (data : BitVec 32) (s : State) : Host.Outcome State Fault Refusal :=
  whenDue (linkFlows s) s (rxData true lseq xtag 0x02 0 (leB 2 ofs.toNat ++ zeros 2 ++ leB 4 data.toNat) s)

/-- CMD (R309). -/
def execCmd (lseq : BitVec 16) (lfl : Byte) (payload : List Byte) (s : State) : Host.Outcome State Fault Refusal :=
  whenDue (linkFlows s) s (rxData true lseq 0 0x10 lfl payload s)

/-- CMD_ASSEMBLY_TIMEOUT (R309). -/
def execCmdAssemblyTimeout (s : State) : Host.Outcome State Fault Refusal :=
  .next (match s.link.asm with
    | some a => if linkOn s && decide (a.due ≤ s.tick) then closeAssembly s else s
    | none => s)

/-- The link with every packet up to a number released; none where the number is not unacknowledged (R303). -/
def released (l : Link) (n : Nat) (now : Nat) : Option Link :=
  match l.replay with
  | [] => none
  | p :: _ =>
    let d := (n + 65536 - p.lseq) % 65536
    if d < l.replay.length then some { l with replay := l.replay.drop (d + 1), advAt := now } else none

/-- Every held packet sent again; after the fourth resend of the same oldest packet, RECOVERY and LINK_REPLAY (R303).
See log 19 (DEDUCED, unsafe). -/
def resend (s : State) : State :=
  match s.link.replay with
  | [] => s
  | p :: rest =>
    let l := { s.link with rpCnt := satInc s.link.rpCnt, advAt := s.tick }
    if 4 ≤ p.sent then
      raiseFault 14 (BitVec.ofNat 32 p.lseq) (toRecovery { s with link := { l with replay := { p with sent := 1 } :: rest } })
    else { s with link := { l with replay := { p with sent := p.sent + 1 } :: rest } }

/-- An ACK acted on (R303). -/
def takeAck (n : Nat) (s : State) : State :=
  match released s.link n s.tick with
  | some l => settleEntry (pump { s with link := l })
  | none => s

/-- A NAK acted on (R303). -/
def takeNak (n : Nat) (s : State) : State :=
  match released s.link n s.tick with
  | some l => settleEntry (pump (resend { s with link := l }))
  | none => s

/-- A CREDIT acted on (R306): one that sets another bit of CFL is discarded (R300). See log 19 (DEDUCED, unsafe). -/
def takeCredit (rdl rhl msl cfl : Nat) (s : State) : State :=
  if 8 ≤ cfl then s
  else settleEntry (pump { s with link := { s.link with
    credSeen := true, rdLim := rdl, rhLim := rhl, msLim := msl
    rdInf := cfl.testBit 0, rhInf := cfl.testBit 1, msInf := cfl.testBit 2 } })

/-- A control link packet acted on; one that breaks the rules is discarded silently (R300). See log 19 (DEDUCED, unsafe). -/
def takeControl (lseq xtag : BitVec 16) (typ lfl : Byte) (payload : List Byte) (s : State) : State :=
  if lfl ≠ 0 ∨ xtag ≠ 0 then s
  else match typ.toNat, payload.length with
    | 0x80, 0 => takeAck lseq.toNat s
    | 0x81, 0 => takeNak lseq.toNat s
    | 0x82, 8 =>
      if lseq ≠ 0 then s
      else takeCredit (fieldAt payload 0 2) (fieldAt payload 2 2) (fieldAt payload 4 2) (fieldAt payload 6 2) s
    | _, _ => s

/-- Whether a TYPE is that of a control link packet (R300). -/
def isControl (typ : Byte) : Bool := decide (0x80 ≤ typ.toNat) && decide (typ.toNat ≤ 0x82)

/-- HOST_LINK_DATA_PACKET (R299, R300, R302): the link packet's header fields, its payload and its CRC, none where its
blocks frame no packet. A control TYPE is taken as the control link packet it is. See log 19 (DEDUCED, unsafe). -/
def execHostLinkDataPacket (crc : Option (BitVec 32)) (lseq xtag : BitVec 16) (typ lfl : Byte) (payload : List Byte)
    (s : State) : Host.Outcome State Fault Refusal :=
  let good := decide (crc = some (linkCrc typ lfl lseq.toNat xtag.toNat payload))
  whenDue (linkFlows s) s
    (if !isControl typ then rxData good lseq xtag typ lfl payload s
    else if good then takeControl lseq xtag typ lfl payload s
    else s)

/-- ACK (R303). See log 19 (DEDUCED, unsafe). -/
def execAck (n : BitVec 16) (s : State) : Host.Outcome State Fault Refusal := whenDue (linkFlows s) s (takeAck n.toNat s)

/-- NAK (R303). See log 19 (DEDUCED, unsafe). -/
def execNak (n : BitVec 16) (s : State) : Host.Outcome State Fault Refusal := whenDue (linkFlows s) s (takeNak n.toNat s)

/-- CREDIT (R306): one that sets another bit of CFL is discarded (R300). -/
def execCredit (rdl rhl msl cfl : BitVec 16) (s : State) : Host.Outcome State Fault Refusal :=
  whenDue (linkFlows s) s (takeCredit rdl.toNat rhl.toNat msl.toNat cfl.toNat s)

/-- REPLAY_TIMEOUT (R303). See log 19 (DEDUCED, unsafe). -/
def execReplayTimeout (s : State) : Host.Outcome State Fault Refusal :=
  whenDue (linkFlows s && !s.link.replay.isEmpty && decide (s.link.advAt + 10 ≤ s.tick)) s (resend s)

/-- CREDIT_SEND_TIMER (R306). -/
def execCreditSendTimer (s : State) : Host.Outcome State Fault Refusal :=
  whenDue (linkFlows s && decide (s.link.credAt + 10 ≤ s.tick)) s { s with link := sendCredit s.link s.tick }

/-- The 7-bit sideband address (R315). -/
def sideAddr (s : State) : Nat := 0x3A + bits s.pwr.straps.toNat 0 2

/-- Whether the sideband answers: its data line is high-impedance under VIO_LOW and in a loss (R91, R315, R329, R341).
See log 21 (DESIGN CHOICE, unsafe). -/
def sideOn (s : State) : Bool :=
  s.pwr.released && !inLoss s && !s.pwr.vioLow && decide (s.pwr.pstate ≠ .off) && decide (s.jtag.ir ≠ 0)

/-- A write rejected in transport (R317, R562). See log 21 (DESIGN CHOICE, unsafe). -/
def sideReject (s : State) : State :=
  { s with side := { s.side with rejected := true, rejCnt := satInc s.side.rejCnt, ack := true } }

/-- Whether the bytes of a write transfer carry a packet (R316, R317). See log 21 (DESIGN CHOICE, unsafe). -/
def sideGood (b : List Byte) : Bool :=
  decide (21 ≤ b.length) && decide (b.length ≤ 64) && decide (b.head? = some 1)
    && decide (b.drop (b.length - 4) = crcBytes (b.take (b.length - 4)))

/-- SIDEBAND_WRITE (R316, R317). See log 21 (DESIGN CHOICE, unsafe). -/
def execSidebandWrite (addr : BitVec 7) (bytes : List Byte) (s : State) : Host.Outcome State Fault Refusal :=
  .next (if !sideOn s then s
  else if addr.toNat ≠ sideAddr s ∨ s.side.busy then { s with side.ack := false }
  else if sideGood bytes then
    deliver { QPkt.reset with pkt := packetOf .sideband ((bytes.drop 1).take (bytes.length - 5)) }
      (sideArrives { s with side := { s.side with rejected := false, ack := true } })
  else sideReject s)

/-- The bytes of a read transfer up to SCRC (R316). See log 21 (DESIGN CHOICE, unsafe). -/
def sideFrame (x : Side) : List Byte :=
  let b := if x.rejected then [0x02, 0, 0] else match x.reply with
    | some r => [0x01] ++ leB 2 r.length ++ r
    | none => [0x00, 0, 0]
  b ++ crcBytes b

/-- SIDEBAND_READ (R316, R317) of `len` bytes. -/
def execSidebandRead (addr : BitVec 7) (len : Nat) (s : State) : Host.Outcome State Fault Refusal :=
  .next (if !sideOn s then s
  else if addr.toNat ≠ sideAddr s then { s with side.ack := false }
  else
    let f := sideFrame s.side
    let out := f.take len ++ List.replicate (len - f.length) 0xFF
    let x := { s.side with out := out, ack := true, rejected := false }
    if !s.side.rejected && s.side.reply.isSome && decide (f.length ≤ len) then
      { s with side := { x with reply := none, busy := false } }
    else { s with side := x })

/-- SIDEBAND_BUS_TIMEOUT (R317 rule 5). -/
def execSidebandBusTimeout (partialWrite : Bool) (s : State) : Host.Outcome State Fault Refusal :=
  whenDue (sideOn s && partialWrite && !s.side.busy) s (sideReject s)

/-- SIDEBAND_REPLY_DISCARD (R317 rule 4). -/
def execSidebandReplyDiscard (s : State) : Host.Outcome State Fault Refusal :=
  whenDue (s.side.reply.isSome && decide (s.side.readyAt + 1000000 ≤ s.tick)) s
    { s with side := { s.side with reply := none, busy := false } }

end Sys2Proof.Machine
end

