-- ==== Sys2Proof/Machine/Mmu.lean ====
section
/-! DEFINITION. Translation: the stage-1 walk, the segment map and its cache, the TLBs, and their invalidation (R447 to R456, R468 to R475). -/
namespace Sys2Proof.Machine
open Sys2Proof

/-- A walk fault, or a Walk Target Fault, with DET of CORE_FDET (R456). -/
structure WFault where
  /-- Walk Target Fault. -/
  target : Bool
  /-- DET. -/
  det : Nat
  deriving DecidableEq, Repr, Inhabited

/-- DET of a walk fault: STAGE, LEVEL and CAUSE (R456). See log 32 (DESIGN CHOICE, safe). -/
def wdet (stage level cause : Nat) : Nat := (stage - 1) * 128 + level * 32 + cause

/-- A stage-1 walk fault. -/
def wf1 (level cause : Nat) : WFault := { target := false, det := wdet 1 level cause }

/-- A stage-2 walk fault; it reports level 0 (R450). -/
def wf2 (cause : Nat) : WFault := { target := false, det := wdet 2 0 cause }

/-- A Walk Target Fault. -/
def wt (level cause : Nat) : WFault := { target := true, det := wdet 1 level cause }

/-- The segment-map cache with an entry brought in: 4 ways, indexed by SEGNO[16:0], with random replacement (R451).
See log 23 (DESIGN CHOICE, unsafe). See log 24 (DESIGN CHOICE, safe). -/
def mapFill (g : Nat) (s : State) : State :=
  let l := s.cache.mapCache
  if l.contains g || decide (0x200000 ≤ g) then s
  else
    let set := l.filter fun x => x % 131072 == g % 131072
    if set.length < 4 then { s with cache.mapCache := l ++ [g] }
    else
      let f := takeFresh s
      let out := (set[(Config.freeBits 2 f.1).toNat]?).getD 0
      { f.2 with cache.mapCache := l.filter (· != out) ++ [g] }

/-- Whether reading the map entry of a segment finds both copies uncorrectable (R451, R497): while the fault state of MAPERR stands with that
SEGNO as its detail, and the segment-map cache does not hold the entry. The metadata map never misses. See log 23 (DESIGN CHOICE, unsafe). -/
def mapBad (g : Nat) (s : State) : Bool :=
  decide (g < 0x200000) && !s.cache.mapCache.contains g && s.flt.present.getLsbD 79
    && decide ((look 79 s.flt.detail).map BitVec.toNat = some g)

/-- Whether DET says MAPERR (R456). -/
def isMapErr (det : Nat) : Bool := det == wdet 2 0 8

/-- The codeword of a copy of the map found uncorrectable: its shell reports and counts it (R121, R150). Which unit of the metadata area
and which codeword hold the entry, and its margin, the spec leaves open: free values; copy A lies on D0 to D3 and copy B on D4 to D7 (R115).
See log 23 (DESIGN CHOICE, unsafe). -/
def copyBad (copy : Nat) (s : State) : State :=
  let f := takeFresh s
  let v := (Config.freeBits 32 f.1).toNat
  codewordRead (metaBase + metaSegs + 8 * (bits v 0 16 % 593) + 4 * copy + bits v 16 2) (bits v 18 6) (BitVec.ofNat 6 (bits v 24 6))
    false true true f.2

/-- Both copies reported, where a walk raises MAPERR (R451). See log 23 (DESIGN CHOICE, unsafe). -/
def mapReport (det : Nat) (s : State) : State := if isMapErr det then copyBad 1 (copyBad 0 s) else s

/-- Stage 2: the map entry of a segment (R450, R451). See log 23 (DESIGN CHOICE, unsafe). -/
def stage2 (g : Nat) (s : State) : Except WFault (MapEntry × State) :=
  if 0x202000 ≤ g then .error (wf2 5)
  else if mapBad g s then .error (wf2 8)
  else match mapLook s g with
    | none => .error (wf2 6)
    | some e => .ok (e, mapFill g s)

/-- Whether a map entry's KIND is packed (R126). -/
def kindPacked (k : Nat) : Bool := k == 0 || k == 2

/-- An entry of a stage-1 table read as one access of 4 words through the tile cache (R448, R453). `lvl` is the level of the table.
See log 22 (DEDUCED, unsafe). -/
def readEntry (c lvl idx : Nat) (tab : Phys) (s : State) : Except WFault (List Word × State) :=
  let at4 (l : LAddr × Nat) (t : State) : List Word × State :=
    ((List.range 4).map fun i => seenWord t l.1 (l.2 + i), fillLine (c / 4) (c % 4) false l.1 t)
  match tab with
  | .sram n => if sramWords < n + 256 then .error (wf1 lvl 5) else .ok (at4 (sramLine (n + 4 * idx)) s)
  | .seg a =>
    match stage2 (a / 131072) s with
    | .error e => .error e
    | .ok (e, t) =>
      if kindPacked e.kind then .error (wt lvl 0x12)
      else if 65536 ≤ a % 131072 + 4 * idx then .error (wf2 5)
      else .ok (at4 (segLine (a + 4 * idx)) t)
  | .xalias _ => .error (wt lvl 0x11)

/-- A leaf of stage 1 (R448). -/
structure Leaf where
  /-- Level. -/
  lvl : Nat
  /-- TYPE. -/
  typ : Nat
  /-- base. -/
  base : Nat
  /-- log2 of the page size in words. -/
  log : Nat
  /-- SE; XALIAS pages always are (R457). -/
  se : Bool
  /-- WR. -/
  wr : Bool
  deriving DecidableEq, Repr, Inhabited

/-- What an entry word says: the next table, or a leaf. The checks come in this order: W0's tag, V, the other tags, the targets of a
pointer, reserved fields (R448, R449, R452). See log 22 (DEDUCED, unsafe). -/
def entryMeans (lvl : Nat) (ws : List Word) : Except WFault (Phys ⊕ Leaf) :=
  let w (i : Nat) : Nat := ((ws[i]?).getD default).data.toNat
  let tagOk (i : Nat) : Bool := decide (((ws[i]?).getD default).tag.toNat ≤ 1)
  let w0 := w 0
  let typ := bits w0 12 2
  let base := w 1 * 2 ^ 23 + bits (w 2) 0 15 * 256
  let spare := decide (bits w0 0 5 ≠ 0) || bitN (w 2) 15 || decide (w 3 ≠ 0)
  if !tagOk 0 then .error (wf1 lvl 2)
  else if !bitN w0 15 then .error (wf1 lvl 1)
  else if !(tagOk 1 && tagOk 2 && tagOk 3) then .error (wf1 lvl 2)
  else if !bitN w0 14 then
    if bitN w0 11 then .error (wt lvl 0x10)
    else if typ = 2 then .error (wt lvl 0x11)
    else if spare || decide (typ = 3) || bitN w0 10 || decide (bits w0 5 5 ≠ 0) || decide (lvl = 3) then .error (wf1 lvl 3)
    else .ok (.inl (if typ = 0 then .sram base else .seg base))
  else
    let log := bits w0 5 5 + 8
    if spare || decide (typ = 3) || decide (log < 26 - 6 * lvl) || decide (32 - 6 * lvl < log) || decide (base % 2 ^ log ≠ 0)
        || (decide (typ = 2) && (decide (16 < log) || decide (65536 ≤ base))) then .error (wf1 lvl 3)
    else .ok (.inr { lvl := lvl, typ := typ, base := base, log := log, se := bitN w0 11 || decide (typ = 2), wr := bitN w0 10 })

/-- The walk from a table on; `n` levels are left (R448). See log 22 (DEDUCED, unsafe). -/
def walkFrom (c da : Nat) : Nat → Phys → State → Except WFault (Leaf × State)
  | 0, _, _ => .error (wf1 3 3)
  | n + 1, tab, s =>
    let lvl := 3 - n
    match readEntry c lvl (bits da (26 - 6 * lvl) 6) tab s with
    | .error e => .error e
    | .ok (ws, t) =>
      match entryMeans lvl ws with
      | .error e => .error e
      | .ok (.inl next) => walkFrom c da n next t
      | .ok (.inr leaf) => .ok (leaf, t)

/-- A domain's descriptor. -/
def descOf (s : State) (dom : Nat) : Desc := (look dom s.mmu.desc).getD Desc.reset

/-- Stage 1 for an address in a domain (R447, R448). See log 22 (DEDUCED, unsafe). See log 64 (DESIGN CHOICE, unsafe). -/
def stage1 (c dom da : Nat) (s : State) : Except WFault (Leaf × State) :=
  let d := descOf s dom
  let k := d.start.toNat
  if !d.v then .error (wf1 0 7)
  else if 2 ^ (32 - 6 * k) ≤ da then .error (wf1 k 5)
  else walkFrom c da (4 - k) (.sram d.root.toNat) s

/-- Where an address goes. -/
structure Trans where
  /-- The word or the port. -/
  phys : Phys
  /-- Side-effect page. -/
  se : Bool
  /-- The segment is packed. -/
  packed : Bool
  /-- The segment is remembered (R460). -/
  remembered : Bool
  deriving DecidableEq, Repr, Inhabited

/-- Whether a TLB entry covers an address of a domain. -/
def tlbCovers (dom da : Nat) (e : TlbEntry) : Bool :=
  decide (e.dom.toNat = dom) && decide (e.base ≤ da) && decide (da < e.base + e.size)

/-- A core's TLB with an entry inserted: overlapping entries leave it, and a full TLB replaces one at random (R453).
See log 24 (DESIGN CHOICE, safe). -/
def tlbInsert (c : Nat) (e : TlbEntry) (s : State) : State :=
  let keep := (coreOf s c).tlb.filter fun x => !(x.dom == e.dom && decide (x.base < e.base + e.size) && decide (e.base < x.base + x.size))
  if keep.length < 64 then updCore s c fun x => { x with tlb := keep ++ [e] }
  else
    let f := takeFresh s
    updCore f.2 c fun x => { x with tlb := keep.eraseIdx (Config.freeBits 6 f.1).toNat ++ [e] }

/-- A TLB entry with what stage 2 says of its segment (R452). See log 25 (DESIGN CHOICE, unsafe). -/
def withStage2 (g : Nat) (m : MapEntry) (e : TlbEntry) (s : State) : TlbEntry :=
  { e with gen := m.gen, slot := m.slot, packed := kindPacked m.kind, remembered := s.arr.remembered.contains g }

/-- Whether the shell owns the slot of an entry for its segment and generation (R127). See log 25 (DESIGN CHOICE, unsafe). -/
def shellAgrees (g : Nat) (e : TlbEntry) (s : State) : Bool :=
  decide ((slotOf s e.slot).gen = e.gen) && decide (slotSeg s e.slot = some g)

/-- The word or port a TLB entry gives for an address it covers. -/
def entryPhys (e : TlbEntry) (da : Nat) : Phys :=
  match e.phys with
  | .sram n => .sram (n + (da - e.base))
  | .seg n => .seg (n + (da - e.base))
  | .xalias p => .xalias ((p + (da - e.base)) % 65536)

/-- The last checks of an address that an entry covers: WR, the end of working SRAM, the end of a heap segment (R448, R450).
See log 22 (DEDUCED, unsafe). -/
def entryChecks (e : TlbEntry) (da : Nat) (store : Bool) : Except WFault Trans :=
  if store && !e.wr then .error (wf1 e.lvl 4)
  else
    let p := entryPhys e da
    let t : Trans := { phys := p, se := e.se, packed := e.packed, remembered := e.remembered }
    match p with
    | .sram n => if sramWords ≤ n then .error (wf1 e.lvl 5) else .ok t
    | .seg a => if e.packed = false ∧ 65536 ≤ a % 131072 then .error (wf2 5) else .ok t
    | .xalias _ => .ok t

/-- Stage 2 of an entry, where it has one; then the checks, and the entry put into the TLB. -/
def settleTlb (c da : Nat) (store : Bool) (e : TlbEntry) (s : State) : Except WFault (Trans × State) :=
  if store && !e.wr then .error (wf1 e.lvl 4)
  else match e.phys with
    | .seg a =>
      match stage2 (a / 131072) s with
      | .error x => .error x
      | .ok (m, t) =>
        let e1 := withStage2 (a / 131072) m e t
        match entryChecks e1 da store with
        | .error x => .error x
        | .ok r => .ok (r, tlbInsert c e1 t)
    | _ =>
      match entryChecks e da store with
      | .error x => .error x
      | .ok r => .ok (r, tlbInsert c e s)

/-- The TLB entry that a leaf gives for an address: at most one segment (R452). See log 22 (DEDUCED, unsafe). -/
def leafEntry (dom da : Nat) (l : Leaf) : TlbEntry :=
  let page := da / 2 ^ l.log * 2 ^ l.log
  let part := if l.typ = 1 then (da - page) / 131072 * 131072 else 0
  { TlbEntry.reset with
    dom := BitVec.ofNat 8 dom, base := page + part, size := if l.typ = 1 then min (2 ^ l.log) 131072 else 2 ^ l.log
    phys := if l.typ = 0 then .sram l.base else if l.typ = 1 then .seg (l.base + part) else .xalias l.base
    se := l.se, wr := l.wr, lvl := l.lvl }

/-- An address of a domain translated for a core (R447 to R453); a stale stage 2 is repeated (R127, R452). -/
def translate (c dom da : Nat) (store : Bool) (s : State) : Except WFault (Trans × State) :=
  match (coreOf s c).tlb.find? (tlbCovers dom da) with
  | some e =>
    match e.phys with
    | .seg a =>
      if shellAgrees (a / 131072) e s then
        match entryChecks e da store with
        | .error x => .error x
        | .ok r => .ok (r, s)
      else settleTlb c da store e s
    | _ =>
      match entryChecks e da store with
      | .error x => .error x
      | .ok r => .ok (r, s)
  | none =>
    match stage1 c dom da s with
    | .error x => .error x
    | .ok (l, t) => settleTlb c da store (leafEntry dom da l) t

/-- TLB entries taken out of every core's TLB (R455). -/
def tlbDrop (p : TlbEntry → Bool) (s : State) : State := updCores s fun c => { c with tlb := c.tlb.filter fun e => !p e }

/-- Whether an entry maps a segment. -/
def maps (g : Nat) (e : TlbEntry) : Bool :=
  match e.phys with
  | .seg a => decide (a / 131072 = g)
  | _ => false

/-- MMU_INV with GO (R455, R473): ignored while BUSY is 1; a reserved OP sets INVERR. See log 25 (DESIGN CHOICE, unsafe). -/
def invGo (op dom : Nat) (s : State) : State :=
  if s.mmu.busy then s
  else
    let run (p : TlbEntry → Bool) : State := tlbDrop p { s with mmu.busy := true }
    match op with
    | 1 => run fun e => decide (e.dom.toNat = dom)
    | 2 => run fun e => tlbCovers dom s.mmu.iaddr.toNat e
    | 3 => run fun _ => true
    | 4 => run (maps (s.mmu.iaddr.toNat % 2 ^ 22))
    | _ => { s with mmu.invErr := true }

/-- A write of MMU_INV takes effect (R473). -/
def invWrite (v : BitVec 16) (s : State) : State :=
  let op := bits v.toNat 12 3
  let dom := bits v.toNat 0 8
  let s1 := if v.getLsbD 15 then invGo op dom s else s
  { s1 with mmu := { s1.mmu with invOp := BitVec.ofNat 3 op, invDom := BitVec.ofNat 8 dom } }

/-- The domain whose DOMAIN capability with TABLES a write of MMU_INV needs, if it needs one (R455). -/
def invNeeds (v : BitVec 16) : Option Nat :=
  if !v.getLsbD 15 then none
  else match bits v.toNat 12 3 with
    | 1 | 2 => some (bits v.toNat 0 8)
    | 3 | 4 => some 0
    | _ => none

/-- The address of a translation as a line address and word, for memory that is cached. -/
def physLine : Phys → Option (LAddr × Nat)
  | .sram n => some (sramLine n)
  | .seg a => some (segLine a)
  | .xalias _ => none

/-- A maintenance operation on the line of one D-space word; a page that cannot be translated, or is SE, is skipped (R443). -/
def maintainDa (op c dom da : Nat) (s : State) : State :=
  match translate c dom da false s with
  | .error e => mapReport e.det { s with cache.skip := true }
  | .ok (t, s1) =>
    if t.se then { s1 with cache.skip := true }
    else match physLine t.phys with
      | some l => maintainAll op l.1 s1
      | none => { s1 with cache.skip := true }

/-- The addresses, one for each line, of a range that ends at 0xFFFF_FFFF at the latest (R443). -/
def rangeLines (a n : Nat) : List Nat :=
  if n = 0 then []
  else
    let last := min (a + n - 1) 0xFFFFFFFF
    (List.range (last / 32 - a / 32 + 1)).map fun i => if i = 0 then a else (a / 32 + i) * 32

/-- A set/way operation (R443). -/
def maintainWay (op tile set way : Nat) (s : State) : State :=
  match (tileOf s tile).lines.find? fun l => l.set == set && l.way == way with
  | none => s
  | some l =>
    if (tileOf s tile).powered.getLsbD way then
      maintainLine op tile l.la (if op = 2 then s else drainForLine l.la s)
    else s

/-- CCH_MOP with GO (R443, R462, R464). See log 25 (DESIGN CHOICE, unsafe). -/
def mopGo (c dom op mode tile : Nat) (s : State) : State :=
  if s.cache.busy then s
  else if op = 0 ∨ mode = 3 then { s with cache.err := true }
  else
    let s1 := { s with cache.busy := true }
    let a := s.cache.maddr.toNat
    match mode with
    | 0 => maintainDa op c dom a s1
    | 1 => (rangeLines a s.cache.mcnt.toNat).foldl (fun t x => maintainDa op c dom x t) s1
    | _ => maintainWay op tile (a % 1024) (a / 65536 % 8) s1

/-- A write of CCH_MOP takes effect (R462). -/
def mopWrite (c dom : Nat) (v : BitVec 16) (s : State) : State :=
  let op := bits v.toNat 13 2
  let mode := bits v.toNat 11 2
  let tile := bits v.toNat 6 2
  let s1 := if v.getLsbD 15 then mopGo c dom op mode tile s else s
  { s1 with cache := { s1.cache with mop := BitVec.ofNat 2 op, mmode := BitVec.ofNat 2 mode, mtile := BitVec.ofNat 2 tile } }

/-- A write of CCH_PWRt takes effect (R442, R467). See log 25 (DESIGN CHOICE, unsafe). -/
def wayPower (en : BitVec 8) (x : Tile) : Tile :=
  let up := en &&& ~~~x.en
  let down := x.en &&& ~~~en
  { x with
    en := en
    upAfter := (x.upAfter ||| (up &&& x.sweep)) &&& ~~~down
    powered := x.powered ||| (up &&& ~~~x.sweep)
    sweep := x.sweep ||| (down &&& x.powered) }

/-- A tile's power-down sweep ends (R442). See log 25 (DESIGN CHOICE, unsafe). -/
def sweepEnd (t : Nat) (s : State) : State :=
  let w := (tileOf s t).sweep
  updTile (sweepWays t w true (drainCores s)) t fun x => { x with
    powered := (x.powered &&& ~~~w) ||| (x.upAfter &&& w), sweep := 0, upAfter := 0 }

end Sys2Proof.Machine
end

