-- ==== Sys2Proof/Machine/Seal.lean ====
section
/-! DEFINITION. The seal engine: its ports' operations, D-space operands, and completion (R563 to R567). -/
namespace Sys2Proof.Machine
open Sys2Proof

/-- One core's SEAL_ ports. -/
def sealOf (s : State) (c : Nat) : SealRegs := (coreOf s c).sealR

/-- One core's SEAL_ ports changed. -/
def updSeal (s : State) (c : Nat) (f : SealRegs → SealRegs) : State := updCore s c fun x => { x with sealR := f x.sealR }

/-- An operand as read at GO. -/
def runArg (r : SealRegs) (k : Nat) : Nat := (vAt r.runArgs k).toNat

/-- SID of the running operation. -/
def runSid (r : SealRegs) : Nat := runArg r 0 * 65536 + runArg r 1

/-- SRC of the running operation. -/
def runSrc (r : SealRegs) : Nat := runArg r 2 * 65536 + runArg r 3

/-- DST of the running operation. -/
def runDst (r : SealRegs) : Nat := runArg r 4 * 65536 + runArg r 5

/-- LEN of the running operation. -/
def runLen (r : SealRegs) : Nat := runArg r 6

/-- The XTS tweak: TWK3 to TWK0 as bits [63:0], zero above (R564). -/
def runTweak (r : SealRegs) : List Byte :=
  leB 2 (runArg r 7) ++ leB 2 (runArg r 8) ++ leB 2 (runArg r 9) ++ leB 2 (runArg r 10) ++ zeros 8

/-- The right a seal operation needs, as a bit of a KEY capability (R364, R563). See log 26 (DESIGN CHOICE, unsafe). -/
def sealRight (op : Nat) : Option Nat :=
  match op with
  | 1 | 2 => some 0
  | 3 => some 1
  | 4 => some 2
  | _ => none

/-- The SID operand that a GO would read now. -/
def argSid (r : SealRegs) : Nat := (vAt r.args 0).toNat * 65536 + (vAt r.args 1).toNat

/-- Whether the current level of a core may start an operation (R563). A reserved OP names no right and needs no KEY capability.
See log 26 (DESIGN CHOICE, unsafe). -/
def sealMay (s : State) (c op : Nat) : Bool :=
  let x := coreOf s c
  holdsCap x (capPort 1 0x1800) &&
  match sealRight op with
  | none => true
  | some b => holdsCap x (capKey b (if op = 4 then none else some (argSid x.sealR)))

/-- SEAL_CTL with GO: ignored while BUSY is 1 (R563, R565). See log 26 (DESIGN CHOICE, unsafe). -/
def sealGo (c op : Nat) (s : State) : State :=
  let x := coreOf s c
  if x.sealR.busy then s
  else if (sealRight op).isNone then updSeal s c fun r => { r with ok := false, err := 1 }
  else updSeal s c fun r => { r with
    busy := true, ok := false, err := 0, runOp := op, runArgs := r.args, runDom := (curLevel x).dom }

/-- A write of SEAL_CTL (R565). -/
def sealCtlWrite (c : Nat) (v : BitVec 16) (s : State) : State :=
  let op := bits v.toNat 12 3
  let s1 := if v.getLsbD 15 then sealGo c op s else s
  updSeal s1 c fun r => { r with op := BitVec.ofNat 3 op }

/-- How a part of a seal operation ends: with a value and the state, in an error of SEAL_STAT, or waiting for a header tagged MRK. -/
inductive SealOut (α : Type) where
  /-- Done. -/
  | ok (a : α) (s : State)
  /-- ERR. -/
  | err (n : Nat) (s : State)
  /-- Waits (R459). -/
  | wait

/-- One D-space word read for the seal engine. A port page, and a word tagged FWD, are access faults. -/
def sealWord (c dom da : Nat) (s : State) : SealOut Word :=
  match translate c dom (da % 2 ^ 32) false s with
  | .error e => .err 3 (mapReport e.det s)
  | .ok (t, s1) =>
    match physLine t.phys with
    | none => .err 3 s
    | some l =>
      let w := seenWord (drainForLine l.1 s1) l.1 l.2
      let s2 := drainForLine l.1 s1
      if w.tag = 0xD then .wait
      else if w.tag = 0x7 then .err 3 s
      else .ok w (if t.se then s2 else fillLine (c / 4) (c % 4) false l.1 s2)

/-- The tags a source word may have (R564). -/
def sealTagOk (w : Word) : Bool := [0x0, 0x1, 0x2, 0xC, 0xE].contains w.tag.toNat

/-- The bytes of `n` source words. -/
def sealRead (c dom : Nat) : Nat → Nat → State → SealOut (List Byte)
  | _, 0, s => .ok [] s
  | da, n + 1, s =>
    match sealWord c dom da s with
    | .wait => .wait
    | .err e t => .err e t
    | .ok w t =>
      if sealTagOk w then
        match sealRead c dom (da + 1) n t with
        | .ok bs u => .ok (leB 2 w.data.toNat ++ bs) u
        | x => x
      else .err 4 t

/-- One destination word written, tagged RAW. -/
def sealPut (c dom da : Nat) (v : BitVec 16) (s : State) : SealOut Unit :=
  match translate c dom (da % 2 ^ 32) true s with
  | .error e => .err 3 (mapReport e.det s)
  | .ok (t, s1) =>
    match physLine t.phys with
    | none => .err 3 s
    | some l =>
      let s2 := drainForLine l.1 s1
      let w := seenWord s2 l.1 l.2
      if w.tag = 0xD ∧ t.packed = false then .wait
      else if w.tag = 0x7 ∧ t.packed = false then .err 3 s
      else
        let word : Word := { tag := 1, data := v }
        .ok () (if t.se then storeUncached l.1 l.2 word s2 else storeWord (coreAgent c) false l.1 l.2 (da % 2 ^ 32) word s2)

/-- Bytes written to words in ascending order; what was written before an error stays. -/
def sealWrite (c dom : Nat) : Nat → List Byte → State → SealOut Unit
  | da, a :: b :: rest, s =>
    match sealPut c dom da (BitVec.ofNat 16 (a.toNat + 256 * b.toNat)) s with
    | .ok _ t => sealWrite c dom (da + 1) rest t
    | x => x
  | _, _, s => .ok () s

/-- Whether two runs of words overlap. See log 26 (DESIGN CHOICE, unsafe). -/
def overlap (a n b m : Nat) : Bool := decide (a < b + m) && decide (b < a + n)

/-- Whether LEN, SIDH and the overlap of an operation are in range (R564, R566). See log 26 (DESIGN CHOICE, unsafe). -/
def sealArgsOk (r : SealRegs) : Bool :=
  let n := runLen r
  let src := runSrc r
  let dst := runDst r
  let lenOk := decide (1 ≤ n) && decide (n ≤ 32768) && (decide (2 < r.runOp) || decide (n % 8 = 0))
  let apart := match r.runOp with
    | 1 | 2 => decide (src = dst) || !overlap src n dst n
    | 3 => !overlap src n dst 16
    | _ => true
  lenOk && (decide (r.runOp = 4) || decide (runArg r 0 < 16)) && apart

/-- The current key of the stream an operation names (R201, R567). -/
def sealKey (s : State) (r : SealRegs) : Option (List Byte) :=
  match streamOf s (runSid r) with
  | none => none
  | some st => match st.keys with
    | [] => none
    | k :: _ => some (keyBytes s k)

/-- The end of an operation, with OK and ERR (R567). See log 26 (DESIGN CHOICE, unsafe). -/
def sealEnd (c : Nat) (ok : Bool) (err : Nat) (s : State) : State :=
  updSeal s c fun r => { r with busy := false, ok := ok, err := BitVec.ofNat 4 err, runOp := 0 }

/-- A running operation carried out (R564): an operand error, the accesses, and the result. See log 26 (DESIGN CHOICE, unsafe). -/
def sealRun (c : Nat) (s : State) : State :=
  let r := sealOf s c
  let dom := r.runDom.toNat
  let n := runLen r
  if !sealArgsOk r then sealEnd c false 2 s
  else if r.runOp = 1 ∨ r.runOp = 2 then
    match sealKey s r with
    | none => sealEnd c false 5 s
    | some key =>
      match sealRead c dom (runSrc r) n s with
      | .wait => s
      | .err e t => sealEnd c false e t
      | .ok bs t =>
        match sealWrite c dom (runDst r) ((if r.runOp = 1 then Config.xtsEnc else Config.xtsDec) key (runTweak r) bs |> padTo (2 * n)) t with
        | .wait => s
        | .err e u => sealEnd c false e u
        | .ok _ u => sealEnd c false 0 u
  else if r.runOp = 3 then
    match sealRead c dom (runDst r) 16 s with
    | .wait => s
    | .err e t => sealEnd c false e t
    | .ok chain t =>
      match sealRead c dom (runSrc r) n t with
      | .wait => s
      | .err e u => sealEnd c false e u
      | .ok msg u =>
        match sealWrite c dom (runDst r) (Config.sha256 (chain ++ msg)).toList u with
        | .wait => s
        | .err e v => sealEnd c false e v
        | .ok _ v => sealEnd c false 0 v
  else
    match sealRead c dom (runSrc r) n s with
    | .wait => s
    | .err e t => sealEnd c false e t
    | .ok msg t =>
      match sealRead c dom (runDst r) 32 t with
      | .wait => s
      | .err e u => sealEnd c false e u
      | .ok sig u =>
        match u.vtf.owner with
        | none => sealEnd c false 0 u
        | some key => sealEnd c (Config.ecdsaVerify key msg sig) 0 u

end Sys2Proof.Machine
end

