-- ==== Sys2Proof/Machine/Ports.lean ====
section
/-! DEFINITION. X-space: what every port reads and what a write of it does when it takes effect (R376 to R379, R428 to R435, R461 to
R475, R488 to R494, R513 to R523, R545 to R567, and the port tables of the other chapters). -/
namespace Sys2Proof.Machine
open Sys2Proof

/-- Whether a core runs drained (R425). -/
def drainedPhase (s : State) : Bool :=
  decide (s.pwr.phase = .startup) || decide (s.pwr.phase = .test) || decide (s.pwr.phase = .recovery)

/-- Whether writes to a port take effect under R424 and R425 (R558). -/
def syncPort (p : Nat) : Bool :=
  p == 2 || p == 3 || p == 8 || (decide (0x10 ≤ p) && decide (p ≤ 0x3F)) || p == 0x800
    || (decide (0x810 ≤ p) && decide (p ≤ 0x837)) || (decide (0xC00 ≤ p) && decide (p ≤ 0xC06)) || (decide (0xC08 ≤ p) && decide (p ≤ 0xC0A))
    || p == 0x2801 || p == 0x2802 || (decide (0x2820 ≤ p) && decide (p ≤ 0x282B)) || p == 0x3806 || p == 0x3807 || p == 0x4001 || p == 0x4002

/-- Whether a write of a sync port writes a reserved value for which its chapter gives no result (R393): OP or MODE of CCH_MOP, and OP of
MMU_INV, without GO. -/
def reservedWrite (p : Nat) (v : BitVec 16) : Bool :=
  if p = 0x800 then !v.getLsbD 15 && (decide (bits v.toNat 13 2 = 0) || decide (bits v.toNat 11 2 = 3))
  else if p = 0xC08 then !v.getLsbD 15 && (decide (bits v.toNat 12 3 = 0) || decide (4 < bits v.toNat 12 3))
  else false

/-- The island a port belongs to, where its block lies in a clocked island (R544). -/
def portIsland (p : Nat) : Option Nat :=
  if 0x2C00 ≤ p ∧ p < 0x3000 then some 0
  else if 0x3000 ≤ p ∧ p < 0x3400 then some 1
  else if 0x3400 ≤ p ∧ p < 0x3800 then some 2
  else if 0x2000 ≤ p ∧ p < 0x2400 then some (4 + (p - 0x2000) / 0x80)
  else if 0x2400 ≤ p ∧ p < 0x2800 then some 12
  else none

/-- Whether a port lies behind a hung crossing. -/
def portHung (p : Nat) (s : State) : Bool :=
  match portIsland p with
  | some i => s.tbx.hung.getLsbD i
  | none => false

/-- The high or the low half of 32 bits. -/
def half (v : BitVec 32) (high : Bool) : Nat := if high then v.toNat / 65536 else v.toNat % 65536

/-- 32 bits with a half replaced. -/
def setHalf (v : BitVec 32) (high : Bool) (h : BitVec 16) : BitVec 32 :=
  if high then BitVec.ofNat 32 (h.toNat * 65536 + v.toNat % 65536) else BitVec.ofNat 32 (v.toNat / 65536 * 65536 + h.toNat)

/-- Whether the L6 request of the collector stands at a core (R504, R515). -/
def coreFaultIrq (c : Nat) (s : State) : Bool := collectorOn s && faultIrq s && decide (s.flt.icore.toNat = c)

/-- Requests pending at L1 to L6 of a core, bit n for Ln (R434). -/
def pendBits (c : Nat) (s : State) : Nat :=
  let x := coreOf s c
  let l6 := x.ireq.getLsbD 6 || coreFaultIrq c s || !x.dsePend.isEmpty
  bits x.ireq.toNat 1 5 * 2 + b2n l6 * 64

/-- A word of the spill registers of a level of a core: SSB, SSP, SSL by port (R379). -/
def spillReg (l : LevelSt) (k : Nat) : BitVec 32 := if k = 0 then l.ssb else if k = 1 then l.ssp else l.ssl

/-- Reads of the core-local block (R376 to R379, R428 to R435). -/
def readCore (c p : Nat) (s : State) : Nat :=
  let x := coreOf s c
  let l := curLevel x
  if 0x10 ≤ p ∧ p ≤ 0x3F then half (spillReg (vAt x.lv (p % 16 / 2)) ((p - 0x10) / 16)) (p % 2 = 0)
  else match p with
    | 0x0 => c
    | 0x1 => b2n x.ufe * 128 + l.bank.length
    | 0x2 => half x.vbase true
    | 0x3 => half x.vbase false
    | 0x4 => l.xcause.toNat
    | 0x5 => half l.faddr true
    | 0x6 => half l.faddr false
    | 0x7 => l.fdet.toNat
    | 0x8 => x.ien.toNat
    | 0x9 => b2n x.pfPend * 256 + b2n x.mcPend * 128 + pendBits c s
    | 0xA => b2n l.nest * 2 ^ 15 + b2n l.pfLost * 2 ^ 14 + b2n (drainedPhase s) * 2 ^ 13
    | _ => 0

/-- Reads of the cache ports (R461 to R467). -/
def readCch (p : Nat) (s : State) : Nat :=
  let k := s.cache
  if 0x810 ≤ p ∧ p ≤ 0x82F then
    (if (p - 0x810) % 8 = 7 then 0 else (vAt (tileOf s ((p - 0x810) / 8)).wmask ((p - 0x810) % 8)).toNat)
  else if 0x830 ≤ p ∧ p ≤ 0x833 then (tileOf s (p - 0x830)).lock.toNat
  else if 0x834 ≤ p ∧ p ≤ 0x837 then
    b2n (decide ((tileOf s (p - 0x834)).sweep ≠ 0)) * 2 ^ 15 + (tileOf s (p - 0x834)).en.toNat
  else match p with
    | 0x800 => b2n k.busy * 2 ^ 15 + k.mop.toNat * 2 ^ 13 + k.mmode.toNat * 2 ^ 11 + k.mtile.toNat * 2 ^ 6
    | 0x801 => half k.maddr true
    | 0x802 => half k.maddr false
    | 0x803 => half k.mcnt true
    | 0x804 => half k.mcnt false
    | 0x805 => b2n k.busy * 2 ^ 15 + b2n k.skip * 2 ^ 14 + b2n k.err * 2 ^ 13
    | _ => 0

/-- Reads of the translation ports (R468 to R475). -/
def readMmu (c p : Nat) (s : State) : Nat :=
  let m := s.mmu
  let d := descOf s m.dsel.toNat
  match p with
  | 0xC00 => m.dsel.toNat
  | 0xC01 => d.root.toNat / 65536
  | 0xC02 => d.root.toNat % 65536
  | 0xC03 => b2n d.v * 2 ^ 15 + d.start.toNat * 2 ^ 13 + d.hwn.toNat * 2 ^ 9
  | 0xC04 => d.hwseg.toNat / 65536
  | 0xC05 => d.hwseg.toNat % 65536
  | 0xC06 => d.hwbase.toNat / 65536
  | 0xC08 => b2n m.busy * 2 ^ 15 + m.invOp.toNat * 2 ^ 12 + m.invDom.toNat
  | 0xC09 => half m.iaddr true
  | 0xC0A => half m.iaddr false
  | 0xC0B => b2n m.busy * 2 ^ 15 + b2n m.invErr * 2 ^ 14 + (coreOf s c).tlb.length
  | _ => 0

/-- Reads of the Barchan, Wadi, SEAL_ and Ventifact ports (R153 to R155, R180 to R183, R215 to R218, R565 to R567). -/
def readEngines (c p : Nat) (s : State) : Nat :=
  let r := sealOf s c
  if 0x1801 ≤ p ∧ p ≤ 0x180B then (vAt r.args (p - 0x1801)).toNat
  else if 0x1C02 ≤ p ∧ p ≤ 0x1C05 then bits s.vtf.cval.toNat (16 * (p - 0x1C02)) 16
  else match p with
    | 0x1000 => b2n s.arr.pause * 2 ^ 15 + s.arr.wlThr.toNat
    | 0x1001 =>
      (((List.range 4).map fun k => b2n (s.store.mounted && ((vAt s.arr.moves k).isSome || (vAt s.arr.heapEng k).isSome)) * 2 ^ (12 + k)).sum) + mediaNum s.arr.media * 2 ^ 10
        + b2n (barchanSusp s) * 2 ^ 9
    | 0x1002 => min 0xFFFF (spareCap s).toNat
    | 0x1003 => min 0xFFFF (playaFree s / 64)
    | 0x1004 => min 0xFFFF s.arr.retired
    | 0x1400 =>
      (((List.range 8).map fun k => b2n (runOf s k).isSome * 2 ^ (8 + k)).sum) + b2n s.wadi.budRej * 128 + s.wadi.bindings.length
    | 0x1401 => committed s
    | 0x1402 => s.wadi.brCnt.toNat
    | 0x1403 => s.wadi.pend.length + (s.wadi.seqs.toList.filter (·.isSome)).length
    | 0x1800 => b2n r.busy * 2 ^ 15 + r.op.toNat * 2 ^ 12
    | 0x180C => b2n r.busy * 2 ^ 15 + b2n r.ok * 2 ^ 14 + r.err.toNat
    | 0x1C00 =>
      lifeNum s.vtf.life * 2 ^ 14 + s.vtf.debug * 2 ^ 12 + b2n s.vtf.drbgOk * 2 ^ 11 + b2n s.vtf.entFail * 2 ^ 10 + s.vtf.sessions.length
    | 0x1C01 => s.vtf.csel.toNat
    | 0x1C06 => s.vtf.authCnt.toNat
    | _ => 0

/-- Reads of a die's ports (R145 to R151). See log 27 (DESIGN CHOICE, unsafe). -/
def readAry (d o : Nat) (s : State) : Nat :=
  let x := dieOf s d
  if 7 ≤ o ∧ o ≤ 14 then (vAt x.hist (o - 7)).toNat
  else match o with
    | 0 => b2n x.cal * 2 ^ 15 + b2n x.patrol * 2 ^ 14 + b2n (decide (s.arr.sirocco ≠ 0)) * 2 ^ 13 + x.margMin.toNat
    | 1 => b2n x.cal * 2 ^ 15 + b2n x.auto * 2 ^ 14 + x.lastReg.toNat
    | 2 => b2n x.patrol * 2 ^ 15 + x.period.toNat
    | 3 => x.recalThr.toNat * 256 + x.scrubThr.toNat
    | 4 => dieRows s d
    | 5 => x.ceCnt.toNat
    | 6 => x.ucCnt.toNat
    | _ => 0

/-- Reads of the Oasis ports (R107 to R112). -/
def readOas (p : Nat) (s : State) : Nat :=
  let o := s.oas
  match p with
  | 0x2400 =>
    b2n o.overV * 2 ^ 15 + b2n o.warn * 2 ^ 14 + b2n (arrayOnly o) * 2 ^ 13 + b2n o.meas.running * 2 ^ 12 + b2n (o.charging && s.pwr.released) * 2 ^ 11
      + b2n o.cfail * 2 ^ 10 + b2n (decide (s.tick < s.pwr.pfailUntil)) * 2 ^ 9 + b2n o.measSkip * 2 ^ 8 + o.vhold / 100 % 256
  | 0x2401 => b2n o.warnArray * 128 + b2n o.chgEn * 64 + o.pwr.toNat * 16 + o.mper.toNat
  | 0x2402 => o.cUse / 100 % 65536
  | 0x2403 => match o.esr with | some e => min 0xFFFF e | none => 0xFFFF
  | 0x2404 => o.winBytes / 1024 % 65536
  | 0x2405 => o.budget
  | _ => 0

/-- The bits of FLT_HDATAk (R519). -/
def histData (e : Option HistEntry) (k : Nat) : Nat :=
  match e with
  | none => 0
  | some e =>
    if k < 4 then bits e.ets (16 * k) 16
    else if k = 4 then 2 ^ 15 + clsNum e.cls * 2 ^ 13 + e.src % 128
    else if k = 5 then half e.det false
    else half e.det true

/-- Reads of the fault ports (R514 to R523). -/
def readFlt (p : Nat) (s : State) : Nat :=
  let f := s.flt
  if 0x2805 ≤ p ∧ p ≤ 0x280B then histData f.hdata (p - 0x2805)
  else if 0x2810 ≤ p ∧ p ≤ 0x2815 then bits f.latch.toNat (16 * (p - 0x2810)) 16
  else if 0x2818 ≤ p ∧ p ≤ 0x281D then bits f.force.toNat (16 * (p - 0x2818)) 16
  else if 0x2820 ≤ p ∧ p ≤ 0x282B then ((List.range 8).map fun j => (vAt f.pol (8 * (p - 0x2820) + j)).toNat * 4 ^ j).sum
  else match p with
    | 0x2800 =>
      b2n (faultN s) * 2 ^ 15 + b2n f.hovf * 2 ^ 14 + b2n f.esc * 2 ^ 13 + f.escSrc * 2 ^ 6 + f.hist.length
    | 0x2801 => f.fthr.toNat * 2 ^ 14 + f.ithr.toNat * 2 ^ 12 + f.icore.toNat * 2 ^ 8
    | 0x2802 => f.kfa.toNat * 2 ^ 10 + f.kuc.toNat * 2 ^ 5 + f.kce.toNat
    | 0x2804 => f.hsel.toNat
    | 0x280C => f.dup.toNat
    | _ => 0

/-- Boot slot state codes (R240). -/
def bstNum : BSt → Nat
  | .empty => 0
  | .staging => 1
  | .valid => 2
  | .bad => 3

/-- Reads of the boot window, sideband, microcode, timebase and power ports (R240 to R243, R489 to R494, R546 to R555, R561, R562). -/
def readRest (p : Nat) (s : State) : Nat :=
  let b := s.boot
  let u := s.ucode
  let g := vAt u.regs u.msel.toNat
  if 0x3C01 ≤ p ∧ p ≤ 0x3C04 then bits s.tbx.tcap.toNat (16 * (p - 0x3C01)) 16
  else match p with
    | 0x3000 =>
      b2n b.ready * 2 ^ 15 + b2n b.isOpen * 2 ^ 14 + (b.served.getD b.active) * 2 ^ 13 + b2n b.fellBack * 2 ^ 12 + b2n b.trial * 2 ^ 11
        + b2n b.noImg * 2 ^ 10 + b2n b.early * 2 ^ 9 + b2n b.failBlk.isSome * 2 ^ 8 + b2n b.done * 2 ^ 7 + b2n b.addr4 * 2 ^ 6
        + bstNum (bslot s b.active).st * 2 ^ 4 + bstNum (bslot s (mirage s)).st * 2 ^ 2
    | 0x3001 => b2n b.keep * 2 ^ 14
    | 0x3002 => match b.failBlk with | some k => 2 ^ 15 + k % 2 ^ 14 | none => 0
    | 0x3003 => b.earlyCnt.toNat
    | 0x3400 => b2n s.side.wasm * 2 ^ 15 + b2n s.side.reply.isSome * 2 ^ 14 + sideAddr s
    | 0x3401 => s.side.rejCnt.toNat
    | 0x3800 =>
      b2n u.lock * 2 ^ 15 + b2n u.user.isSome * 2 ^ 14 + b2n u.commit.isSome * 2 ^ 13
        + (match u.user with | some f => f.words.length | none => 0)
    | 0x3802 => u.paddr.toNat
    | 0x3805 => u.msel.toNat
    | 0x3806 => b2n g.en * 2 ^ 15 + g.roma.toNat
    | 0x3807 => g.tgt.toNat
    | 0x3808 => u.ustat.toNat
    | 0x3C05 => b2n (decide (s.tbx.hung ≠ 0)) * 2 ^ 15 + s.tbx.flush.toNat
    | 0x3C06 => s.tbx.unimp.toNat
    | 0x4000 => phaseNum s.pwr.phase * 2 ^ 13 + kindNum s.pwr.kind * 2 ^ 10 + pstateNum s.pwr.pstate * 2 ^ 8
    | 0x4001 => s.pwr.dozeMask.toNat
    | 0x4002 => b2n s.pwr.wdEn * 2 ^ 15 + s.pwr.wdK.toNat
    | 0x4003 => match s.pwr.wdDue with | some t => if s.pwr.wdEn then ceilDiv (t - s.tick) 1000 else 0 | none => 0
    | 0x4004 => b2n s.pwr.wakeFrom * 16 + s.pwr.wakeCause.toNat
    | _ => 0

/-- The value a port holds for a reading core, without the effects of the read. See log 27 (DESIGN CHOICE, unsafe). -/
def portValue (c p : Nat) (s : State) : Nat :=
  if p < 0x400 then readCore c p s
  else if p < 0x800 then (if p = 0x400 then c / 4 else 0)
  else if p < 0xC00 then readCch p s
  else if p < 0x1000 then readMmu c p s
  else if p < 0x2000 then readEngines c p s
  else if p < 0x2400 then readAry ((p - 0x2000) / 0x80) (p % 0x80) s
  else if p < 0x2800 then readOas p s
  else if p < 0x2C00 then readFlt p s
  else if p < 0x2D00 then (if p % 2 = 0 then hwRead (4 * ((p - 0x2C00) / 2)) s % 65536 else half (coreOf s c).mirror true)
  else readRest p s

/-- What a read of a port does beside answering: the mirror's capture, and the clearing of PWR_WAKE (R550, R560). -/
def readEffect (c p : Nat) (s : State) : State :=
  if 0x2C00 ≤ p ∧ p < 0x2D00 ∧ p % 2 = 0 then
    updCore s c fun x => { x with mirror := BitVec.ofNat 32 (hwRead (4 * ((p - 0x2C00) / 2)) s) }
  else if p = 0x4004 then { s with pwr := { s.pwr with wakeCause := 0, wakeFrom := false } }
  else s

/-- A port read (R544, R557). -/
def portRead (c p : Nat) (s : State) : BitVec 16 × State :=
  if portHung p s then (0, s) else (BitVec.ofNat 16 (portValue c p s), readEffect c p s)

/-- The selected domain's descriptor changed (R468). -/
def updDesc (f : Desc → Desc) (s : State) : State :=
  let dom := s.mmu.dsel.toNat
  { s with mmu.desc := memSet Desc.reset s.mmu.desc dom (f (descOf s dom)) }

/-- Writes of the core-local block (R379, R429, R433, R435). -/
def writeCore (c p : Nat) (v : BitVec 16) (s : State) : State :=
  if 0x10 ≤ p ∧ p ≤ 0x3F then
    let hi := decide (p % 2 = 0)
    updCore s c fun x => { x with lv := vUpd x.lv (p % 16 / 2) fun l =>
      if p < 0x20 then { l with ssb := setHalf l.ssb hi v }
      else if p < 0x30 then { l with ssp := setHalf l.ssp hi v }
      else { l with ssl := setHalf l.ssl hi v } }
  else match p with
    | 0x2 => updCore s c fun x => { x with vbase := setHalf x.vbase true v }
    | 0x3 => updCore s c fun x => { x with vbase := setHalf x.vbase false (v &&& 0xE000#16) }
    | 0x8 => updCore s c fun x => { x with ien := BitVec.ofNat 8 (bits v.toNat 1 6 * 2) }
    | 0xA => updCore s c fun x => { x with lv := vUpd x.lv (lvlOf x) fun l => { l with
        nest := v.getLsbD 15, pfLost := l.pfLost && !v.getLsbD 14 } }
    | _ => s

/-- Writes of the cache ports (R461 to R467). -/
def writeCch (c dom p : Nat) (v : BitVec 16) (s : State) : State :=
  let k := s.cache
  let b : BitVec 8 := BitVec.ofNat 8 v.toNat
  if 0x810 ≤ p ∧ p ≤ 0x82F then
    (if (p - 0x810) % 8 = 7 then s else updTile s ((p - 0x810) / 8) fun x => { x with wmask := vSet x.wmask ((p - 0x810) % 8) b })
  else if 0x830 ≤ p ∧ p ≤ 0x833 then updTile s (p - 0x830) fun x => { x with lock := b }
  else if 0x834 ≤ p ∧ p ≤ 0x837 then updTile s (p - 0x834) (wayPower b)
  else match p with
    | 0x800 => mopWrite c dom v s
    | 0x801 => { s with cache.maddr := setHalf k.maddr true v }
    | 0x802 => { s with cache.maddr := setHalf k.maddr false v }
    | 0x803 => { s with cache.mcnt := setHalf k.mcnt true v }
    | 0x804 => { s with cache.mcnt := setHalf k.mcnt false v }
    | 0x805 => { s with cache := { k with skip := k.skip && !v.getLsbD 14, err := k.err && !v.getLsbD 13 } }
    | _ => s

/-- Writes of the translation ports (R468 to R475). -/
def writeMmu (p : Nat) (v : BitVec 16) (s : State) : State :=
  let n := v.toNat
  match p with
  | 0xC00 => { s with mmu.dsel := BitVec.ofNat 8 n }
  | 0xC01 => updDesc (fun d => { d with root := BitVec.ofNat 23 (n % 128 * 65536 + d.root.toNat % 65536) }) s
  | 0xC02 => updDesc (fun d => { d with root := BitVec.ofNat 23 (d.root.toNat / 65536 * 65536 + n / 256 * 256) }) s
  | 0xC03 => updDesc (fun d => { d with
      v := v.getLsbD 15, start := BitVec.ofNat 2 (bits n 13 2)
      hwn := if 14 < bits n 9 4 then d.hwn else BitVec.ofNat 4 (bits n 9 4) }) s
  | 0xC04 => updDesc (fun d => { d with hwseg := BitVec.ofNat 22 (n % 64 * 65536 + d.hwseg.toNat % 65536) }) s
  | 0xC05 => updDesc (fun d => { d with hwseg := BitVec.ofNat 22 (d.hwseg.toNat / 65536 * 65536 + n) }) s
  | 0xC06 => updDesc (fun d => { d with hwbase := BitVec.ofNat 32 (n / 2 * 131072) }) s
  | 0xC08 => invWrite v s
  | 0xC09 => { s with mmu.iaddr := setHalf s.mmu.iaddr true v }
  | 0xC0A => { s with mmu.iaddr := setHalf s.mmu.iaddr false v }
  | 0xC0B => { s with mmu.invErr := s.mmu.invErr && !v.getLsbD 14 }
  | _ => s

/-- A write of VTF_CSEL captures the counter (R216, R217). -/
def cselWrite (v : BitVec 16) (s : State) : State :=
  let i := v.toNat % 32
  { s with vtf := { s.vtf with csel := BitVec.ofNat 5 i, cval := BitVec.ofNat 64 (vAt s.vtf.counters i) } }

/-- Writes of the Barchan, Wadi, SEAL_ and Ventifact ports. -/
def writeEngines (c p : Nat) (v : BitVec 16) (s : State) : State :=
  if 0x1801 ≤ p ∧ p ≤ 0x180B then updSeal s c fun r => { r with args := vSet r.args (p - 0x1801) v }
  else match p with
    | 0x1000 => { s with arr := { s.arr with pause := v.getLsbD 15, wlThr := BitVec.ofNat 8 v.toNat } }
    | 0x1400 => { s with wadi.budRej := s.wadi.budRej && !v.getLsbD 7 }
    | 0x1402 => { s with wadi.brCnt := 0 }
    | 0x1800 => sealCtlWrite c v s
    | 0x1C01 => cselWrite v s
    | 0x1C06 => { s with vtf.authCnt := 0 }
    | _ => s

/-- Writes of a die's ports (R146 to R151). -/
def writeAry (d o : Nat) (v : BitVec 16) (s : State) : State :=
  let x := dieOf s d
  let n := v.toNat
  if 7 ≤ o ∧ o ≤ 14 then updDie s d fun y => { y with hist := vSet y.hist (o - 7) 0 }
  else match o with
    | 1 =>
      let s1 := updDie s d fun y => { y with auto := v.getLsbD 14 }
      if v.getLsbD 15 && !x.cal then startRecal d s1 else s1
    | 2 =>
      let s1 := updDie s d fun y => { y with period := BitVec.ofNat 8 n }
      if v.getLsbD 15 && !x.patrol then startPatrol d s1 else s1
    | 3 =>
      if bits n 0 6 < bits n 8 6 then s
      else updDie s d fun y => { y with recalThr := BitVec.ofNat 6 (bits n 8 6), scrubThr := BitVec.ofNat 6 (bits n 0 6) }
    | 5 => updDie s d fun y => { y with ceCnt := 0 }
    | 6 => updDie s d fun y => { y with ucCnt := 0 }
    | _ => s

/-- A write of OAS_CHGCFG (R108). See log 27 (DESIGN CHOICE, unsafe). -/
def chgWrite (v : BitVec 16) (s : State) : State :=
  let o := s.oas
  let on := v.getLsbD 6
  let m : BitVec 4 := BitVec.ofNat 4 v.toNat
  let o1 := { o with
    warnArray := v.getLsbD 7, chgEn := on, pwr := if bits v.toNat 4 2 = 3 then o.pwr else BitVec.ofNat 2 (bits v.toNat 4 2), mper := m
    charging := o.charging && on, chgStart := if on then o.chgStart else none }
  { s with oas := if m = o.mper then o1 else { o1 with measNext := s.tick + mperTicks o1 } }

/-- Writes of the Oasis ports (R107, R108, R112). -/
def writeOas (p : Nat) (v : BitVec 16) (s : State) : State :=
  match p with
  | 0x2400 => { s with oas.measSkip := s.oas.measSkip && !v.getLsbD 8 }
  | 0x2401 => chgWrite v s
  | 0x2405 => budgetWrite v.toNat s
  | _ => s

/-- A write of FLT_POLk (R497, R505, R523): locked sources and the reserved policy keep the field. See log 27 (DESIGN CHOICE, unsafe). -/
def polWrite (k : Nat) (v : BitVec 16) (s : State) : State :=
  let new (i : Fin 96) : BitVec 2 :=
    let old := vAt s.flt.pol i.val
    let f := bits v.toNat (2 * (i.val % 8)) 2
    if i.val / 8 = k ∧ f ≠ 3 ∧ srcLocked i.val = false then BitVec.ofNat 2 f else old
  { s with flt.pol := Vector.ofFn new }

/-- A field of FLT_TMR: a value above 17 leaves it (R516). -/
def tmrField (old : BitVec 5) (n : Nat) : BitVec 5 := if 17 < n then old else BitVec.ofNat 5 n

/-- Writes of the fault ports (R514 to R523). -/
def writeFlt (p : Nat) (v : BitVec 16) (s : State) : State :=
  let n := v.toNat
  let f := s.flt
  if 0x2810 ≤ p ∧ p ≤ 0x2815 then latchWrite (p - 0x2810) v s
  else if 0x2818 ≤ p ∧ p ≤ 0x281D then forceWrite (p - 0x2818) v s
  else if 0x2820 ≤ p ∧ p ≤ 0x282B then polWrite (p - 0x2820) v s
  else match p with
    | 0x2801 => { s with flt := { f with
        fthr := BitVec.ofNat 2 (bits n 14 2), ithr := BitVec.ofNat 2 (bits n 12 2), icore := BitVec.ofNat 4 (bits n 8 4) } }
    | 0x2802 => { s with flt := { f with
        kfa := tmrField f.kfa (bits n 10 5), kuc := tmrField f.kuc (bits n 5 5), kce := tmrField f.kce (bits n 0 5) } }
    | 0x2803 => ackWrite v s
    | 0x2804 => hselWrite v s
    | 0x280C => { s with flt.dup := 0 }
    | _ => s

/-- The odd parity bit of a microword (R477). See log 8 (DESIGN CHOICE, unsafe). -/
def microParity (w : BitVec 24) : Bool := ((List.range 24).filter fun i => w.getLsbD i).length % 2 == 0

/-- A microword as it is stored: parity in bit 24. -/
def withParity (w : BitVec 24) : BitVec 25 := BitVec.ofNat 25 (w.toNat + b2n (microParity w) * 2 ^ 24)

/-- The patch lock set, and PATCHH closed over the words written and the enabled settings (R483). See log 63 (DESIGN CHOICE, unsafe). -/
def lockPatches (s : State) : State :=
  if s.ucode.lock then s
  else
    let words := s.ucode.patch.map fun e => (e.1, BitVec.ofNat 24 e.2.toNat)
    let regs := (s.ucode.regs.toList.zipIdx.filter fun e => e.1.en).map fun e =>
      (e.2, BitVec.ofNat 24 (e.1.roma.toNat * 1024 + e.1.tgt.toNat))
    { s with
      ucode.lock := true
      vtf.patchH := if words.isEmpty && regs.isEmpty then [] else Config.patchBytes words regs }

/-- A write of UCD_PDATAL: the microword stored, and the address counted up (R491, R492).
See log 8 (DESIGN CHOICE, unsafe). See log 63 (DESIGN CHOICE, unsafe). -/
def patchWord (lo : BitVec 16) (s : State) : State :=
  let u := s.ucode
  if u.lock then s
  else
    let w : BitVec 24 := BitVec.ofNat 24 (u.pdatah.toNat * 65536 + lo.toNat)
    { s with ucode := { u with patch := put u.paddr.toNat (withParity w) u.patch, paddr := u.paddr + 1 } }

/-- Writes of the microcode ports (R489 to R494); a set lock discards those of the patches. See log 63 (DESIGN CHOICE, unsafe). -/
def writeUcd (p : Nat) (v : BitVec 16) (s : State) : State :=
  let u := s.ucode
  let n := v.toNat
  match p with
  | 0x3801 => if v.getLsbD 15 then lockPatches s else s
  | 0x3802 => if u.lock then s else { s with ucode.paddr := BitVec.ofNat 10 n }
  | 0x3803 => if u.lock then s else { s with ucode.pdatah := BitVec.ofNat 8 n }
  | 0x3804 => patchWord v s
  | 0x3805 => if u.lock then s else { s with ucode.msel := BitVec.ofNat 5 n }
  | 0x3806 =>
    if u.lock then s
    else { s with ucode.regs := vUpd u.regs u.msel.toNat fun r => { r with en := v.getLsbD 15, roma := BitVec.ofNat 14 n } }
  | 0x3807 => if u.lock then s else { s with ucode.regs := vUpd u.regs u.msel.toNat fun r => { r with tgt := BitVec.ofNat 10 n } }
  | 0x3808 => { s with ucode.ustat := if v.getLsbD 15 then u.ustat &&& 0x7FFF#16 else u.ustat }
  | _ => s

/-- TBX_TCAP.CAP: device time captured (R552, R553). -/
def timeCapture (s : State) : State := { s with tbx.tcap := BitVec.ofNat 64 s.dtime }

/-- The watchdog's count from now on with the present K (R539). -/
def wdLoad (s : State) : State := { s with pwr.wdDue := some (s.tick + 1000 * 2 ^ s.pwr.wdK.toNat) }

/-- A write of PWR_WDCTL (R539, R548). -/
def wdWrite (c : Nat) (v : BitVec 16) (s : State) : State :=
  let s1 := { s with pwr.wdK := BitVec.ofNat 4 v.toNat }
  if !s.pwr.wdEn then
    if v.getLsbD 15 then wdLoad { s1 with pwr := { s1.pwr with wdEn := true, wdCore := c } } else s1
  else if v.getLsbD 14 then wdLoad s1
  else s1

/-- Writes of the boot window, sideband, timebase and power ports. -/
def writeRest (c p : Nat) (v : BitVec 16) (s : State) : State :=
  match p with
  | 0x3000 => { s with boot.early := s.boot.early && !v.getLsbD 9 }
  | 0x3001 =>
    let s1 := bootKeep (v.getLsbD 14) s
    if v.getLsbD 15 then bootClose s1 else s1
  | 0x3003 => { s with boot.earlyCnt := 0 }
  | 0x3401 => { s with side.rejCnt := 0 }
  | 0x3C00 => if v.getLsbD 15 then timeCapture s else s
  | 0x3C05 => { s with tbx.flush := s.tbx.flush &&& ~~~(BitVec.ofNat 13 v.toNat) }
  | 0x3C06 => { s with tbx.unimp := 0 }
  | 0x4001 => { s with pwr.dozeMask := BitVec.ofNat 8 v.toNat }
  | 0x4002 => wdWrite c v s
  | _ => s

/-- A write of a port as it takes effect, for a core and the current domain of the level that wrote it (R11, R544, R557). -/
def portEffect (c dom p : Nat) (v : BitVec 16) (s : State) : State :=
  if portHung p s then s
  else if p < 0x400 then writeCore c p v s
  else if p < 0x800 then s
  else if p < 0xC00 then writeCch c dom p v s
  else if p < 0x1000 then writeMmu p v s
  else if p < 0x2000 then writeEngines c p v s
  else if p < 0x2400 then writeAry ((p - 0x2000) / 0x80) (p % 0x80) v s
  else if p < 0x2800 then writeOas p v s
  else if p < 0x2C00 then writeFlt p v s
  else if p < 0x3000 then s
  else if 0x3800 ≤ p ∧ p < 0x3C00 then writeUcd p v s
  else if p < 0x4400 then writeRest c p v s
  else { s with tbx.unimp := satInc s.tbx.unimp }

/-- A write of a port by a core: at once, or pending where the port is sync (R424, R425). -/
def portWrite (c p : Nat) (v : BitVec 16) (s : State) : State :=
  let dom := (curLevel (coreOf s c)).dom
  if syncPort p && !portHung p s then
    updCore s c fun x => { x with sync := x.sync ++
      [{ port := BitVec.ofNat 16 p, val := v, dom := dom, left := if drainedPhase s then some 3 else none }] }
  else portEffect c dom.toNat p v s

/-- A pending write of a sync port takes effect. -/
def applySync (c : Nat) (w : SyncW) (s : State) : State := portEffect c w.dom.toNat w.port.toNat w.val s

/-- Every pending write of a core takes effect, oldest first (R414, R423). -/
def applySyncs (c : Nat) (s : State) : State :=
  ((coreOf s c).sync).foldl (fun t w => applySync c w t) (updCore s c fun x => { x with sync := [] })

/-- One instruction has retired: a pending write of the drained phases takes effect after the third (R425). -/
def countSyncs (c : Nat) (s : State) : State :=
  let l := (coreOf s c).sync
  let due := l.filter fun w => w.left == some 0
  let keep := (l.filter fun w => w.left != some 0).map fun w => { w with left := w.left.map (· - 1) }
  due.foldl (fun t w => applySync c w t) (updCore s c fun x => { x with sync := keep })

end Sys2Proof.Machine
end

