-- ==== Sys2Proof/Machine/Dspace.lean ====
section
/-! DEFINITION. D-space as the instructions reach it: how an access may end, loads, the read barrier, stores with their checks, the write
barrier, and the spill engine (R348 to R363, R390 to R393, R456 to R460). -/
namespace Sys2Proof.Machine
open Sys2Proof

/-- A synchronous exception: its vector, CORE_FADDR, and DET of CORE_FDET (R411, R432). -/
structure Exc where
  /-- Vector. -/
  vec : Nat
  /-- The address CORE_FADDR holds. -/
  faddr : Nat
  /-- DET. -/
  det : Nat
  deriving DecidableEq, Repr, Inhabited

/-- How a part of an instruction ends, with the state it leaves: what earlier elements and the spill engine did stays. -/
inductive Res (α : Type) where
  /-- It goes on. -/
  | ok (a : α) (s : State)
  /-- A precise synchronous exception. -/
  | exc (e : Exc) (s : State)
  /-- A machine check, by its cause (R432). -/
  | check (det : Nat) (s : State)
  /-- The word at an address is tagged MRK: the access waits (R459). -/
  | wait (da : Nat) (s : State)
  deriving Inhabited

/-- A result carried on into the next part. -/
def Res.andThen {α β : Type} (r : Res α) (f : α → State → Res β) : Res β :=
  match r with
  | .ok a s => f a s
  | .exc e s => .exc e s
  | .check d s => .check d s
  | .wait da s => .wait da s

/-- Goes on if a condition holds, and raises an exception if it does not. -/
def guardExc (ok : Bool) (e : Exc) (s : State) : Res Unit := if ok then .ok () s else .exc e s

/-- An exception whose CORE_FADDR and DET are 0. -/
def exc0 (vec : Nat) : Exc := { vec := vec, faddr := 0, det := 0 }

/-- Illegal Operation; the frame of the instruction gives CORE_FADDR (R411). -/
def illegalOp : Exc := exc0 1

/-- Poison, with the address of a loaded or stored BAD word, or 0 (R349, R411). -/
def poisonAt (a : Nat) : Exc := { vec := 5, faddr := a, det := 0 }

/-- TAG_TRAP for the tags of two inputs, the second from the top first (R412). See log 33 (DEDUCED, unsafe). -/
def tagTrap (ta tb : BitVec 4) : Exc := exc0 (0x40 + 16 * ta.toNat + tb.toNat)

/-- Capability Fault: what was refused, and the KIND needed (R411, R432). See log 39 (DEDUCED, unsafe). -/
def capFault (addr kind : Nat) : Exc := { vec := 6, faddr := addr, det := kind }

/-- A walk fault or Walk Target Fault at an address (R456). -/
def walkExc (e : WFault) (da : Nat) : Exc := { vec := if e.target then 8 else 7, faddr := da, det := e.det }

/-- BARRIER_TRAP at an address (R459). -/
def barrierTrap (da : Nat) : Exc := { vec := 0xA, faddr := da, det := 0 }

/-- An address of D-space: offsets wrap modulo 2^32 (R387). -/
def wrap32 (a : Nat) : Nat := a % 2 ^ 32

/-- The current domain of a core (R357). -/
def domOf (s : State) (c : Nat) : Nat := (curLevel (coreOf s c)).dom.toNat

/-- The level a core runs at, changed. -/
def updLevel (s : State) (c : Nat) (f : LevelSt → LevelSt) : State :=
  updCore s c fun x => { x with lv := vUpd x.lv (lvlOf x) f }

/-- The tags of the raw operations, of OUT and of stores into packed segments: FIX, RAW, CHR, LNG, USR (R350, R393, R396). -/
def rawTag (t : BitVec 4) : Bool := [0x0, 0x1, 0x2, 0xC, 0xE].contains t.toNat

/-- FIX or RAW. -/
def fixRaw (t : BitVec 4) : Bool := decide (t.toNat ≤ 1)

/-- A word tagged RAW. -/
def rawW (v : BitVec 16) : Word := { tag := 1, data := v }

/-- A word tagged FIX. -/
def fixW (v : BitVec 16) : Word := { tag := 0, data := v }

/-- A word a translated access reads, its core's buffered stores included (R437, R457). -/
def readAt (c : Nat) (cold : Bool) (t : Trans) (s : State) : Res Word :=
  match t.phys with
  | .xalias p =>
    if holdsCap (coreOf s c) (capPort 0 p) then
      let r := portRead c p s
      .ok (rawW r.1) r.2
    else .exc (capFault p 1) s
  | .sram n =>
    let l := sramLine n
    .ok (seenWord s l.1 l.2) (if t.se then s else fillLine (c / 4) (c % 4) cold l.1 s)
  | .seg a =>
    match (coreOf s c).sbuf.reverse.find? fun e => e.1 == a with
    | some e => .ok e.2.2 s
    | none =>
      let l := segLine a
      .ok (seenWord s l.1 l.2) (if t.se then s else fillLine (c / 4) (c % 4) cold l.1 s)

/-- A word of D-space as it stands, with whatever tag (R355). -/
def readWord (c : Nat) (cold : Bool) (da : Nat) (s : State) : Res Word :=
  match translate c (domOf s c) (wrap32 da) false s with
  | .error e => .exc (walkExc e (wrap32 da)) s
  | .ok (t, s1) => readAt c cold t s1

/-- What the barrier makes of a word read where no reference base names its object: MRK waits and FWD traps (R459). See log 36 (DEDUCED, unsafe). -/
def barred (da : Nat) (w : Word) (s : State) : Res Word :=
  if w.tag = 0xD then .wait (wrap32 da) s
  else if w.tag = 0x7 then .exc (barrierTrap (wrap32 da)) s
  else .ok w s

/-- A word read under the barrier. See log 36 (DEDUCED, unsafe). -/
def readBarred (c : Nat) (cold : Bool) (da : Nat) (s : State) : Res Word :=
  (readWord c cold da s).andThen fun w t => barred da w t

/-- What an ordinary load makes of a word: CAPW and UNB are not pushed (R348). -/
def pushable (da : Nat) (w : Word) (s : State) : Res Word :=
  if w.tag = 0x8 then .exc (capFault (wrap32 da) 0) s
  else if w.tag = 0xA then .exc { vec := 9, faddr := wrap32 da, det := 0 } s
  else .ok w s

/-- The header word at a reference, where the reference leads into a heap segment (R459). See log 36 (DEDUCED, unsafe). -/
def headerAt (c da : Nat) (s : State) : Option (Word × State) :=
  match translate c (domOf s c) (wrap32 da) false s with
  | .error _ => none
  | .ok (t, s1) =>
    match t.phys with
    | .seg _ =>
      if t.packed then none
      else match readAt c false t s1 with
        | .ok w s2 => some (w, s2)
        | _ => none
    | _ => none

/-- The base an access through a reference uses: the header decides (R459). See log 36 (DEDUCED, unsafe). -/
def barrierBase (c base : Nat) (s : State) : Res Nat :=
  match headerAt c base s with
  | none => .ok base s
  | some (w, t) =>
    if w.tag = 0xD then .wait (wrap32 base) t
    else if w.tag = 0x7 then
      (readWord c false (base + 1) t).andThen fun h u =>
      (readWord c false (base + 2) u).andThen fun l v =>
        let nb := h.data.toNat * 65536 + l.data.toNat
        match headerAt c nb v with
        | none => .ok nb v
        | some (w2, x) =>
          if w2.tag = 0xD then .wait nb x
          else if w2.tag = 0x7 then .exc (barrierTrap nb) x
          else .ok nb x
    else .ok base t

/-- A load through a reference: the barrier, the word, and the rules of an ordinary load (R348, R390, R459). -/
def loadThrough (c base off : Nat) (s : State) : Res Word :=
  (barrierBase c base s).andThen fun b t =>
  (readBarred c false (b + off) t).andThen fun w u => pushable (b + off) w u

/-- The domain that a descriptor port acts on for a core: its own pending MMU_DSEL where it has one (R468). See log 37 (DESIGN CHOICE, unsafe). -/
def selDom (c : Nat) (s : State) : Nat :=
  match (coreOf s c).sync.reverse.find? fun w => w.port == 0xC00 with
  | some w => w.val.toNat % 256
  | none => s.mmu.dsel.toNat

/-- The checks of a port write that follow those of its operands' tags: the PORT capability, and the authority that the translation and
seal ports ask for beside it (R364, R393, R447, R455, R563). See log 26 (DESIGN CHOICE, unsafe). See log 29 (DESIGN CHOICE, unsafe). -/
def outMay (c p : Nat) (v : BitVec 16) (s : State) : Option Exc :=
  let x := coreOf s c
  if !holdsCap x (capPort 1 p) then some (capFault p (if p = 0x1800 ∧ v.getLsbD 15 = true then 5 else 1))
  else if 0xC01 ≤ p ∧ p ≤ 0xC06 then
    (if holdsCap x (capDomain 1 (selDom c s)) then none else some (capFault p 6))
  else if p = 0xC08 then
    match invNeeds v with
    | none => none
    | some d => if holdsCap x (capDomain 1 d) then none else some (capFault p 6)
  else if p = 0x1800 then
    (if v.getLsbD 15 && !sealMay s c (bits v.toNat 12 3) then some (capFault p 5) else none)
  else none

/-- Every check of a port write of a word, with the trap of a wrong tag (R385, R393). See log 37 (DESIGN CHOICE, unsafe). -/
def outCheck (c p : Nat) (w : Word) (tt : Exc) (s : State) : Res Unit :=
  if rawTag w.tag && reservedWrite p w.data then .exc illegalOp s
  else if w.tag = 0xF then .exc (poisonAt 0) s
  else if !rawTag w.tag then .exc tt s
  else match outMay c p w.data s with
    | some e => .exc e s
    | none => .ok () s

/-- A store that has passed its checks. -/
structure Plan where
  /-- D-space address. -/
  da : Nat
  /-- Its translation. -/
  trans : Trans
  /-- The word to be stored. -/
  w : Word
  deriving DecidableEq, Repr, Inhabited

/-- The checks of a store of a word at an address: translation, a port's authority, the tags a packed segment takes, and the word that
stands there (R350, R353, R391, R457, R459). `tt` is the trap of a tag that a packed segment or a port refuses. See log 33 (DEDUCED, unsafe). -/
def storeCheck (c : Nat) (cold : Bool) (da : Nat) (w : Word) (tt : Exc) (s : State) : Res Plan :=
  match translate c (domOf s c) (wrap32 da) true s with
  | .error e => .exc (walkExc e (wrap32 da)) s
  | .ok (t, s1) =>
    match t.phys with
    | .xalias p => (outCheck c p w tt s1).andThen fun _ s2 => .ok { da := wrap32 da, trans := t, w := w } s2
    | .sram _ =>
      (readAt c cold t s1).andThen fun old s2 =>
      (barred da old s2).andThen fun _ s3 => .ok { da := wrap32 da, trans := t, w := w } s3
    | .seg _ =>
      if t.packed then
        (if rawTag w.tag then .ok { da := wrap32 da, trans := t, w := rawW w.data } s1 else .exc tt s1)
      else
        (readAt c cold t s1).andThen fun old s2 =>
        (barred da old s2).andThen fun _ s3 => .ok { da := wrap32 da, trans := t, w := w } s3

/-- The write barrier: the card of a word tagged REFH, REFL or ANC in a remembered segment is set before the store (R460). -/
def markCard (a : Nat) (t : Trans) (w : Word) (s : State) : State :=
  if t.remembered && [0x4, 0x5, 0xB].contains w.tag.toNat then
    { s with arr.cards := memSet false s.arr.cards (a / 131072 * 1024 + a % 131072 / 64) true }
  else s

/-- A checked store made: to a port, to working SRAM, or into the core's store buffer (R422, R457, R460). -/
def storeDo (c : Nat) (cold : Bool) (p : Plan) (s : State) : State :=
  match p.trans.phys with
  | .xalias q => portWrite c q p.w.data s
  | .sram n =>
    let l := sramLine n
    if p.trans.se then storeUncached l.1 l.2 p.w s else storeWord (coreAgent c) cold l.1 l.2 p.da p.w s
  | .seg a =>
    let s1 := markCard a p.trans p.w s
    let l := segLine a
    if p.trans.se then storeUncached l.1 l.2 p.w (drainCore c s1)
    else updCore s1 c fun x => { x with sbuf := x.sbuf ++ [(a, p.da, p.w)] }

/-- A store of a word at an address. See log 33 (DEDUCED, unsafe). -/
def storeAt (c : Nat) (cold : Bool) (da : Nat) (w : Word) (tt : Exc) (s : State) : Res Unit :=
  (storeCheck c cold da w tt s).andThen fun p t => .ok () (storeDo c cold p t)

/-- Whether a translation leads to where spilled entries may lie: working SRAM or a heap segment (R361). -/
def spillable (t : Trans) : Bool :=
  match t.phys with
  | .sram _ => true
  | .seg _ => !t.packed
  | .xalias _ => false

/-- Whether SSL ≤ SSP ≤ SSB holds (R379). -/
def spillOrder (l : LevelSt) : Bool := decide (l.ssl.toNat ≤ l.ssp.toNat) && decide (l.ssp.toNat ≤ l.ssb.toNat)

/-- The oldest entry of the bank moved to SSP − 1 (R361, R362, R379). See log 34 (DESIGN CHOICE, unsafe). -/
def spillOne (c : Nat) (s : State) : Res Unit :=
  let l := curLevel (coreOf s c)
  let da := l.ssp.toNat - 1
  if !spillOrder l then .check 4 s
  else match translate c (domOf s c) da true s with
    | .error _ => .check 3 s
    | .ok (t, s1) =>
      if !spillable t then .check 3 s
      else
        (readAt c false t s1).andThen fun old s2 =>
        (barred da old s2).andThen fun _ s3 =>
          .ok () (updLevel (storeDo c false { da := da, trans := t, w := (l.bank.getLast?).getD default } s3) c fun y =>
            { y with bank := y.bank.dropLast, ssp := y.ssp - 1 })

/-- Entries spilled while more than `keep` stand in the bank and SSP is above SSL; at most `fuel` of them. -/
def spillDown (c keep : Nat) : Nat → State → Res Unit
  | 0, s => .ok () s
  | fuel + 1, s =>
    let l := curLevel (coreOf s c)
    if l.bank.length ≤ keep ∨ l.ssp = l.ssl then .ok () s
    else (spillOne c s).andThen fun _ t => spillDown c keep fuel t

/-- The spill engine with more than 12 entries in the bank: it moves the oldest until 8 remain or SSP = SSL (R361). A move that fails
leaves the bank unchanged (R362). See log 34 (DESIGN CHOICE, unsafe). -/
def spillRun (c : Nat) (s : State) : Res Unit :=
  if (curLevel (coreOf s c)).bank.length ≤ 12 then .ok () s
  else match spillDown c 8 16 s with
    | .check d _ => .check d s
    | r => r

/-- The newest spilled entry moved back under the bank (R361, R362, R379). See log 34 (DESIGN CHOICE, unsafe). -/
def refillOne (c : Nat) (s : State) : Res Unit :=
  let l := curLevel (coreOf s c)
  let da := l.ssp.toNat
  if !spillOrder l then .check 4 s
  else match translate c (domOf s c) da false s with
    | .error _ => .check 3 s
    | .ok (t, s1) =>
      if !spillable t then .check 3 s
      else
        (readAt c false t s1).andThen fun w s2 =>
        (barred da w s2).andThen fun v s3 =>
          if v.tag = 0x8 then .check 3 s
          else .ok () (updLevel s3 c fun y => { y with bank := y.bank ++ [v], ssp := y.ssp + 1 })

/-- Entries refilled while fewer than 4 stand in the bank and SSP is below SSB. -/
def refillUp (c : Nat) : Nat → State → Res Unit
  | 0, s => .ok () s
  | fuel + 1, s =>
    let l := curLevel (coreOf s c)
    if 4 ≤ l.bank.length ∨ l.ssb.toNat ≤ l.ssp.toNat then .ok () s
    else (refillOne c s).andThen fun _ t => refillUp c fuel t

/-- The spill engine with fewer than 4 entries in the bank (R361). See log 34 (DESIGN CHOICE, unsafe). -/
def refillRun (c : Nat) (s : State) : Res Unit :=
  match refillUp c 4 s with
  | .check d _ => .check d s
  | r => r

end Sys2Proof.Machine
end

