-- ==== Sys2Proof/Machine/Operands.lean ====
section
/-! DEFINITION. The operand stack as instructions use it: inputs, their tags, and results (R361 to R363, R385, R387, R412). -/
namespace Sys2Proof.Machine
open Sys2Proof

/-- The bank of the level a core runs at, top first. -/
def bankOf (s : State) (c : Nat) : List Word := (curLevel (coreOf s c)).bank

/-- The top `n` entries, top first, after any refill wait; Stack Underflow where there are fewer (R362, R363).
See log 34 (DESIGN CHOICE, unsafe). -/
def need (c n : Nat) (s : State) : Res (List Word) :=
  if n ≤ (bankOf s c).length then .ok ((bankOf s c).take n) s
  else (refillRun c s).andThen fun _ t =>
    if n ≤ (bankOf t c).length then .ok ((bankOf t c).take n) t
    else
      let l := curLevel (coreOf t c)
      .exc (exc0 4) (updCore t c fun x => { x with ufe := decide (l.ssp = l.ssb) })

/-- Room for `news` entries in place of the top `n`: a full bank waits for the spill engine, then overflows (R362, R363).
See log 34 (DESIGN CHOICE, unsafe). -/
def room (c n news : Nat) (s : State) : Res Unit :=
  if (bankOf s c).length - n + news ≤ 16 then .ok () s
  else (spillRun c s).andThen fun _ t =>
    if (bankOf t c).length - n + news ≤ 16 then .ok () t else .exc (exc0 3) t

/-- The top `n` entries replaced by others, top first. -/
def setTop (c n : Nat) (news : List Word) (s : State) : State :=
  updLevel s c fun l => { l with bank := news ++ l.bank.drop n }

/-- The top `n` entries replaced, with the wait and the trap of a full bank. -/
def replaceTop (c n : Nat) (news : List Word) (s : State) : Res Unit :=
  (room c n news.length s).andThen fun _ t => .ok () (setTop c n news t)

/-- Entry `i` of some inputs. -/
def inp (l : List Word) (i : Nat) : Word := (l[i]?).getD default

/-- Whether any input is tagged BAD. -/
def anyBad (l : List Word) : Bool := l.any fun w => w.tag == 0xF

/-- TAG_TRAP by the top two of an instruction's inputs; one input stands for both (R395, R412). See log 33 (DEDUCED, unsafe). -/
def tagTrapOf (l : List Word) : Exc :=
  match l with
  | [] => tagTrap 0 0
  | [a] => tagTrap a.tag a.tag
  | b :: a :: _ => tagTrap a.tag b.tag

/-- The inputs of an instruction: there, not BAD, and with the tags it takes (R385). See log 33 (DEDUCED, unsafe). -/
def inputs (c n : Nat) (tags : List Word → Bool) (s : State) : Res (List Word) :=
  (need c n s).andThen fun l t =>
    if anyBad l then .exc (poisonAt 0) t
    else if !tags l then .exc (tagTrapOf l) t
    else .ok l t

/-- Whether every input carries one of the tags of the raw operations (R396). -/
def allRaw (l : List Word) : Bool := l.all fun w => rawTag w.tag

/-- Whether every input is FIX (R395). -/
def allFix (l : List Word) : Bool := l.all fun w => decide (w.tag = 0)

/-- Whether every input is FIX or RAW. -/
def allFixRaw (l : List Word) : Bool := l.all fun w => fixRaw w.tag

/-- Whether every input is CODE. -/
def allCode (l : List Word) : Bool := l.all fun w => decide (w.tag = 9)

/-- Whether a list's top is a REFL over a REFH (R351). -/
def isRef (l : List Word) : Bool := decide ((inp l 0).tag = 5) && decide ((inp l 1).tag = 4)

/-- The 32 bits of the pair at place `i` of some inputs, its high half second from there. -/
def pairVal (l : List Word) (i : Nat) : Nat := (inp l (i + 1)).data.toNat * 65536 + (inp l i).data.toNat

/-- A pair with given tags, top first. -/
def pairOf (th tl : BitVec 4) (v : Nat) : List Word :=
  [{ tag := tl, data := BitVec.ofNat 16 v }, { tag := th, data := BitVec.ofNat 16 (v / 65536) }]

/-- A reference pair, top first. -/
def refPair (v : Nat) : List Word := pairOf 4 5 v

/-- A CODE pair, top first. -/
def codePair (v : Nat) : List Word := pairOf 9 9 v

end Sys2Proof.Machine
end

