-- ==== Sys2Proof/Machine/Flags.lean ====
section
/-! DEFINITION. The flags of ST, the generic and raw arithmetic with the flags each sets, and the shifts (R368, R395 to R397). -/
namespace Sys2Proof.Machine
open Sys2Proof

/-- The flags N, Z, V and C (R368). -/
structure Flags where
  /-- Negative. -/
  n : Bool
  /-- Zero. -/
  z : Bool
  /-- Overflow. -/
  v : Bool
  /-- Carry. -/
  c : Bool
  deriving DecidableEq, Repr, Inhabited

/-- The flags in ST bits 3 to 0. -/
def flagsOf (x : Core) : Flags := { n := x.st.getLsbD 3, z := x.st.getLsbD 2, v := x.st.getLsbD 1, c := x.st.getLsbD 0 }

/-- ST with flags in bits 3 to 0 and the rest as it was. -/
def withFlags (st : BitVec 16) (f : Flags) : BitVec 16 :=
  (st &&& 0xFFF0#16) ||| BitVec.ofNat 16 (b2n f.n * 8 + b2n f.z * 4 + b2n f.v * 2 + b2n f.c)

/-- A core's flags written. -/
def setFlags (c : Nat) (f : Flags) (s : State) : State := updCore s c fun x => { x with st := withFlags x.st f }

/-- Whether an integer is outside −32,768 to 32,767 (R395). -/
def outside16 (v : Int) : Bool := decide (v < -32768) || decide (32767 < v)

/-- The signed value of 16 bits. -/
def s16 (v : BitVec 16) : Int := v.toInt

/-- N and Z from a 16-bit result, V and C as given (R396). -/
def flags16 (r : BitVec 16) (v c : Bool) : Flags := { n := r.getLsbD 15, z := decide (r = 0), v := v, c := c }

/-- N and Z from a 32-bit result, V and C as given (R396). -/
def flags32 (r : BitVec 32) (v c : Bool) : Flags := { n := r.getLsbD 31, z := decide (r = 0), v := v, c := c }

/-- A generic result: ARITH_OVF where it does not fit (R395). -/
def genericRes (v : Int) : Except Exc (BitVec 16) :=
  if outside16 v then .error (exc0 0xC) else .ok (BitVec.ofInt 16 v)

/-- The generic operations of two operands (R395). -/
inductive Gen2 where
  | add | sub | mul | div | mod
  deriving DecidableEq, Repr, Inhabited

/-- A generic operation of two FIX words (R395). -/
def gen2 (o : Gen2) (a b : BitVec 16) : Except Exc (BitVec 16) :=
  let x := s16 a
  let y := s16 b
  match o with
  | .add => genericRes (x + y)
  | .sub => genericRes (x - y)
  | .mul => genericRes (x * y)
  | .div => if y = 0 then .error (exc0 0xB) else genericRes (x.tdiv y)
  | .mod => if y = 0 then .error (exc0 0xB) else genericRes (x.tmod y)

/-- a + b + carry, and its flags (R396). -/
def addCarry (a b : BitVec 16) (cin : Bool) : BitVec 16 × Flags :=
  let u := a.toNat + b.toNat + b2n cin
  let r : BitVec 16 := BitVec.ofNat 16 u
  (r, flags16 r (outside16 (s16 a + s16 b + b2n cin)) (decide (65536 ≤ u)))

/-- a − b − borrow, and its flags (R396). -/
def subBorrow (a b : BitVec 16) (bin : Bool) : BitVec 16 × Flags :=
  let r : BitVec 16 := a - b - BitVec.ofNat 16 (b2n bin)
  (r, flags16 r (outside16 (s16 a - s16 b - b2n bin)) (decide (a.toNat < b.toNat + b2n bin)))

/-- The raw operations of two operands with one result (R396). -/
inductive Raw2 where
  | addw | subw | adcw | sbcw | and | or | xor
  deriving DecidableEq, Repr, Inhabited

/-- A raw operation of two words, with the carry flag (R396). -/
def raw2 (o : Raw2) (a b : BitVec 16) (cin : Bool) : BitVec 16 × Flags :=
  let logic (r : BitVec 16) : BitVec 16 × Flags := (r, flags16 r false false)
  match o with
  | .addw => addCarry a b false
  | .subw => subBorrow a b false
  | .adcw => addCarry a b cin
  | .sbcw => subBorrow a b cin
  | .and => logic (a &&& b)
  | .or => logic (a ||| b)
  | .xor => logic (a ^^^ b)

/-- The 32-bit product of two words (R396). -/
def mul32 (signed : Bool) (a b : BitVec 16) : BitVec 32 :=
  if signed then BitVec.ofInt 32 (s16 a * s16 b) else BitVec.ofNat 32 (a.toNat * b.toNat)

/-- The flags of a product: C where the low half does not hold it all (R396). -/
def mulFlags (signed : Bool) (p : BitVec 32) : Flags :=
  let lo : BitVec 16 := BitVec.ofNat 16 p.toNat
  let hi : BitVec 16 := BitVec.ofNat 16 (p.toNat / 65536)
  flags32 p false (if signed then decide (hi ≠ if lo.getLsbD 15 then 0xFFFF#16 else 0#16) else decide (hi ≠ 0))

/-- DIVW: quotient, remainder and flags, for a divisor other than 0 (R396). -/
def divSigned (a b : BitVec 16) : BitVec 16 × BitVec 16 × Flags :=
  let corner := decide (a = 0x8000#16) && decide (b = 0xFFFF#16)
  let q := BitVec.ofInt 16 ((s16 a).tdiv (s16 b))
  (q, BitVec.ofInt 16 ((s16 a).tmod (s16 b)), flags16 q corner false)

/-- DIVUW: quotient, remainder and flags, for a divisor other than 0 (R396). -/
def divUnsigned (h l b : BitVec 16) : BitVec 16 × BitVec 16 × Flags :=
  let n := h.toNat * 65536 + l.toNat
  let q : BitVec 16 := BitVec.ofNat 16 (n / b.toNat)
  (q, BitVec.ofNat 16 (n % b.toNat), flags16 q (decide (b.toNat ≤ h.toNat)) false)

/-- The shifts and rotates (R397). -/
inductive Shift where
  | shl | shr | sar | rol | ror
  deriving DecidableEq, Repr, Inhabited

/-- A shift of a word by a count: the result and the carry (R397). -/
def shift (o : Shift) (a : BitVec 16) (n : Nat) (cin : Bool) : BitVec 16 × Bool :=
  let sign := a.getLsbD 15
  let fill : BitVec 16 := if sign then 0xFFFF#16 else 0#16
  if n = 0 then (a, cin)
  else match o with
    | .shl => if n ≤ 15 then (a <<< n, a.getLsbD (16 - n)) else if n = 16 then (0, a.getLsbD 0) else (0, false)
    | .shr => if n ≤ 15 then (a >>> n, a.getLsbD (n - 1)) else if n = 16 then (0, sign) else (0, false)
    | .sar => if n ≤ 15 then (a.sshiftRight n, a.getLsbD (n - 1)) else (fill, sign)
    | .rol =>
      let r := a.rotateLeft (n % 16)
      (r, r.getLsbD 0)
    | .ror =>
      let r := a.rotateRight (n % 16)
      (r, r.getLsbD 15)

/-- A shift with its flags; V is 0 (R396, R397). -/
def shiftF (o : Shift) (a n : BitVec 16) (cin : Bool) : BitVec 16 × Flags :=
  let r := shift o a n.toNat cin
  (r.1, flags16 r.1 false r.2)

/-- a ± b of 32 bits, with the flags of LADD and LSUB (R396). -/
def long2 (sub : Bool) (a b : BitVec 32) : BitVec 32 × Flags :=
  let r := if sub then a - b else a + b
  let t : Int := if sub then a.toInt - b.toInt else a.toInt + b.toInt
  (r, flags32 r (decide (t < -2147483648) || decide (2147483647 < t))
    (if sub then decide (a.toNat < b.toNat) else decide (2 ^ 32 ≤ a.toNat + b.toNat)))

end Sys2Proof.Machine
end

