-- ==== Sys2Proof/Machine/Trap.lean ====
section
/-! DEFINITION. Taking an exception and returning from one: entry, double faults, machine checks, the arbiter of the retirement
boundary, level switches and RETL (R411 to R421). -/
namespace Sys2Proof.Machine
open Sys2Proof

/-- ST as it reads: NI shows whether a NOINT count runs (R368). -/
def stNow (x : Core) : BitVec 16 := (x.st &&& 0xF00F#16) ||| BitVec.ofNat 16 (b2n (decide (x.ni ≠ 0)) * 2048)

/-- ST as an entry saves it: DS tells of a delay slot (R368, R402). See log 31 (DEDUCED, unsafe). -/
def stSaved (x : Core) (ds : Bool) : BitVec 16 := (stNow x &&& 0xEFFF#16) ||| BitVec.ofNat 16 (b2n ds * 4096)

/-- What an entry is: its vector, the level entered, the return address, ST.DS, and what CORE_XCAUSE, CORE_FADDR and CORE_FDET say. -/
structure EntryArgs where
  /-- Level entered. -/
  lvl : Nat
  /-- Vector. -/
  vec : Nat
  /-- Return address. -/
  ra : BitVec 32
  /-- The instruction was in a delay slot. -/
  ds : Bool
  /-- Entered by interrupt, SWL or power fail. -/
  async : Bool
  /-- CORE_FADDR. -/
  faddr : BitVec 32
  /-- OPC of CORE_FDET. -/
  opc : Nat
  /-- DET of CORE_FDET. -/
  det : Nat
  deriving DecidableEq, Repr, Inhabited

/-- Steps 4 to 7 of an entry (R414). A micro-save of the level entered is invalidated (R481). See log 31 (DEDUCED, unsafe). -/
def enterCore (e : EntryArgs) (x : Core) : Core :=
  let saved := stSaved x e.ds
  { x with
    lv := vUpd x.lv e.lvl fun l => { l with
      lnkRa := e.ra, lnkSt := saved
      xcause := BitVec.ofNat 16 (b2n e.async * 2 ^ 15 + e.vec), faddr := e.faddr, fdet := BitVec.ofNat 16 (e.opc * 256 + e.det)
      nest := true, micro := none }
    st := BitVec.ofNat 16 (e.lvl * 8192)
    ni := 0, ia := x.vbase + BitVec.ofNat 32 (16 * e.vec), slot := none, waiti := false, mrkWait := none, stepOne := false }

/-- A core stops, and reports it with DET of L7 (R418, R496). -/
def stopCore (c : Nat) (s : State) : State :=
  let det := bits (vAt (coreOf s c).lv 7).fdet.toNat 0 8
  raiseFault (28 + c) (BitVec.ofNat 32 det) (updCore s c fun x => { x with stopped := true, stepOne := false })

/-- A machine check: L7 vector 0x01F, or the core stops where NEST(7) is 1 (R415, R418). CORE_FADDR is a free value: the spec gives none.
See log 32 (DESIGN CHOICE, safe). -/
def machineCheck (c : Nat) (ra : BitVec 32) (ds : Bool) (opc det : Nat) (s : State) : State :=
  if (vAt (coreOf s c).lv 7).nest then stopCore c s
  else
    let f := takeFresh s
    updCore f.2 c (enterCore { lvl := 7, vec := 0x1F, ra := ra, ds := ds, async := false, faddr := Config.freeBits 32 f.1, opc := opc, det := det })

/-- An entry whose level may have NEST set: then it is a double fault, and LNK of the level stays (R414 step 3, R415).
See log 31 (DEDUCED, unsafe). -/
def enterOrDouble (c : Nat) (e : EntryArgs) (s : State) : State :=
  if (vAt (coreOf s c).lv e.lvl).nest then machineCheck c e.ra e.ds e.opc 1 s
  else updCore s c (enterCore e)

/-- A synchronous trap at the current level (R414): pending sync writes take effect, the spill engine brings the bank down unless the
trap is Stack Overflow, and the entry is made. -/
def trapEntry (c : Nat) (ra : BitVec 32) (ds : Bool) (opc : Nat) (e : Exc) (s : State) : State :=
  let s1 := applySyncs c s
  let args : EntryArgs := { lvl := lvlOf (coreOf s1 c), vec := e.vec, ra := ra, ds := ds, async := false,
                            faddr := BitVec.ofNat 32 e.faddr, opc := opc, det := e.det }
  if e.vec = 3 then enterOrDouble c args s1
  else match spillRun c s1 with
    | .ok _ t => enterOrDouble c args t
    | .check d t => machineCheck c ra ds opc d t
    | .exc e2 t => enterOrDouble c { args with vec := e2.vec, faddr := BitVec.ofNat 32 e2.faddr, det := e2.det } t
    | .wait _ t => enterOrDouble c args t

/-- What the arbiter of a retirement boundary may take beside the next instruction (R420). -/
inductive Due where
  /-- Power fail. -/
  | powerFail
  /-- Machine check. -/
  | check
  /-- A Deferred Store Error, by its address (R422). -/
  | store (da : BitVec 32)
  /-- An interrupt at a level. -/
  | irq (m : Nat)
  deriving DecidableEq, Repr, Inhabited

/-- The highest level whose pending interrupt may be taken (R419). -/
def irqLevel (c : Nat) (s : State) : Option Nat :=
  let x := coreOf s c
  if x.ni ≠ 0 then none
  else ([6, 5, 4, 3, 2, 1] : List Nat).find? fun m => decide (lvlOf x < m) && x.ien.getLsbD m && (pendBits c s).testBit m

/-- Whether a core is at work: started, not stopped, in a power state with its rails up. -/
def coreUp (c : Nat) (s : State) : Bool :=
  s.pwr.released && decide (s.pwr.seq ≠ .off) && decide (s.pwr.pstate ≠ .rest) && decide (s.pwr.pstate ≠ .off)
    && (coreOf s c).running && !(coreOf s c).stopped && !(coreOf s c).halted

/-- What the arbiter takes at a boundary, in its fixed order (R402, R418 to R420). See log 35 (DEDUCED, unsafe). -/
def entryDue (c : Nat) (s : State) : Option Due :=
  let x := coreOf s c
  if !coreUp c s || x.slot.isSome then none
  else if x.pfPend && !x.pfRun then some .powerFail
  else if x.mcPend then some .check
  else match irqLevel c s with
    | none => none
    | some m => match x.dsePend with
      | [] => some (.irq m)
      | da :: _ => if m = 6 then some (.store da) else some (.irq m)

/-- Whether a machine-check handler is running (R418). -/
def inCheckHandler (x : Core) : Bool := decide (lvlOf x = 7) && decide (bits (vAt x.lv 7).xcause.toNat 0 9 = 0x1F)

/-- Power fail entered: whatever NEST(7) is; a machine-check handler that it preempts loses its LNK, and PFLOST says so (R418). -/
def powerFailTake (x : Core) : Core :=
  let lost := inCheckHandler x
  let y := enterCore { lvl := 7, vec := 0x20, ra := x.ia, ds := false, async := true, faddr := 0, opc := 0, det := 0 } x
  { y with pfPend := false, pfRun := true, lv := vUpd y.lv 7 fun l => { l with pfLost := l.pfLost || lost } }

/-- What the arbiter chose is entered (R414, R418, R419, R422). -/
def takeDue (c : Nat) (d : Due) (s : State) : State :=
  let s1 := applySyncs c s
  let x := coreOf s1 c
  let args (lvl vec : Nat) (fa : BitVec 32) : EntryArgs :=
    { lvl := lvl, vec := vec, ra := x.ia, ds := false, async := true, faddr := fa, opc := 0, det := 0 }
  match d with
  | .powerFail => updCore s1 c powerFailTake
  | .check => machineCheck c x.ia false 0 x.mcDet.toNat (updCore s1 c fun y => { y with mcPend := false })
  | .store da => enterOrDouble c (args 6 0x21 da) (updCore s1 c fun y => { y with dsePend := y.dsePend.tail })
  | .irq m => enterOrDouble c (args m (0x18 + m) 0) s1

/-- Whether a RETL ends the power-fail handler: it leaves L7, or the last entry to L7 was the power fail itself (R418).
See log 31 (DEDUCED, unsafe). -/
def endsPowerFail (x : Core) : Bool :=
  decide (lvlOf x = 7) && (decide (bits (vAt x.lv 7).lnkSt.toNat 13 3 ≠ 7) || decide (bits (vAt x.lv 7).xcause.toNat 0 9 = 0x20))

/-- Pending writes of the drained phases take effect at once (R425). -/
def applyDrained (c : Nat) (s : State) : State :=
  let l := (coreOf s c).sync
  (l.filter fun w => w.left.isSome).foldl (fun t w => applySync c w t)
    (updCore s c fun x => { x with sync := l.filter fun w => w.left.isNone })

/-- RETL: through LNK_RA and LNK_ST of the current level (R416, R425). See log 31 (DEDUCED, unsafe). -/
def retl (c : Nat) (s : State) : State :=
  updCore (applyDrained c s) c fun x =>
    let l := curLevel x
    { x with
      lv := vUpd x.lv (lvlOf x) fun k => { k with nest := false }
      pfRun := x.pfRun && !endsPowerFail x, st := l.lnkSt &&& 0xF00F#16, ni := 0, ia := l.lnkRa }

/-- A downward SWL: the current level's activity ends, and execution goes on at level `n` (R417). A micro-save there is invalid (R481).
See log 31 (DEDUCED, unsafe). -/
def swlDown (c n : Nat) (next : BitVec 32) (s : State) : State :=
  updCore s c fun x =>
    { x with
      lv := vUpd (vUpd x.lv (lvlOf x) fun k => { k with nest := false }) n fun k => { k with micro := none }
      pfRun := x.pfRun && decide (lvlOf x ≠ 7), st := (x.st &&& 0x1FFF#16) ||| BitVec.ofNat 16 (n * 8192), ia := next }

end Sys2Proof.Machine
end

