-- ==== Sys2Proof/Machine/Insn.lean ====
section
/-! DEFINITION. One instruction on one core: fetch and decode of its bytes, the guard, its body, and retirement with delay slots and the
loop-end action (R380 to R385, R401 to R405, R420, R425). -/
namespace Sys2Proof.Machine
open Sys2Proof

/-- What an opcode table says of an instruction's encoding (R380, R381, R386). -/
structure Enc where
  /-- Opcode byte. -/
  opc : Nat
  /-- Bytes of the immediate without 0xDD. -/
  imm : Nat
  /-- Marked X. -/
  wide : Bool
  /-- Repeat prefixes it accepts: 0 none, 1 REP, 2 all. -/
  rep : Nat
  /-- Accepts 0xDC. -/
  space : Bool
  /-- 2 where a delay slot follows; 1 for the other control transfers of R402; else 0. -/
  xfer : Nat
  /-- An invalid entry of the decode table: no legal instruction (R410). -/
  dead : Bool
  /-- The byte of the immediate at which a reserved value makes it illegal, if one does. -/
  illAt : Nat → Option Nat

/-- An instruction of format N. -/
def encN (opc : Nat) : Enc := { opc := opc, imm := 0, wide := false, rep := 0, space := false, xfer := 0, dead := false, illAt := fun _ => none }

/-- An instruction of format B whose immediate a test finds illegal. -/
def encB (opc : Nat) (bad : Nat → Bool) : Enc :=
  { encN opc with imm := 1, illAt := fun v => if bad v then some 0 else none }

/-- An instruction of format W. -/
def encW (opc : Nat) : Enc := { encN opc with imm := 2 }

/-- An instruction of format L. -/
def encL (opc : Nat) : Enc := { encN opc with imm := 4 }

/-- The kind of a prefix byte (R381). -/
def prefixKind (b : Byte) : Option Nat :=
  let n := b.toNat
  if 0xE0 ≤ n ∧ n ≤ 0xEF then some 0
  else if 0xD8 ≤ n ∧ n ≤ 0xDA then some 1
  else if n = 0xDC then some 2
  else if n = 0xDD then some 3
  else none

/-- Whether bytes are all prefixes. See log 30 (DESIGN CHOICE, unsafe). -/
def prefixesOnly (l : List Byte) : Bool := l.all fun b => (prefixKind b).isSome

/-- Whether a prefix stands among some. -/
def hasPre (l : List Byte) (n : Nat) : Bool := l.any fun b => b.toNat == n

/-- The first prefix byte at which decode becomes illegal: a second of one kind, or a fourth (R382, R383). -/
def prefixBad : List Nat → Nat → List Byte → Option Nat
  | _, _, [] => none
  | seen, i, b :: l =>
    let k := (prefixKind b).getD 9
    if seen.contains k || decide (3 ≤ i) then some i else prefixBad (k :: seen) (i + 1) l

/-- Whether an instruction accepts a prefix (R381, R382). See log 30 (DESIGN CHOICE, unsafe). See log 37 (DESIGN CHOICE, unsafe). -/
def accepts (e : Enc) (b : Byte) : Bool :=
  match prefixKind b with
  | some 0 => true
  | some 1 => decide (e.rep = 2) || (decide (e.rep = 1) && decide (b = 0xD8#8))
  | some 2 => e.space
  | some 3 => e.wide
  | _ => false

/-- Whether an I-space address is mapped (R356). See log 30 (DESIGN CHOICE, unsafe). -/
def mapped (a : Nat) : Bool :=
  let x := wrap32 a
  decide (x < 0x40000) || (decide (0x100000 ≤ x) && decide (x < 0x2000000))

/-- Bytes of the immediate as it stands in the instruction (R380). See log 30 (DESIGN CHOICE, unsafe). -/
def immLen (e : Enc) (pre : List Byte) : Nat := if e.wide && hasPre pre 0xDD then 2 * e.imm else e.imm

/-- Whether a control transfer of R402 stands where it may not: in a delay slot, or at LEND while LCNT is not 0 (R402, R403). -/
def xferBad (e : Enc) (x : Core) : Bool :=
  decide (e.xfer ≠ 0) && (x.slot.isSome || (decide (x.ia = (curLevel x).lend) && decide ((curLevel x).lcnt ≠ 0)))

/-- The byte of an instruction at which decode becomes illegal (R382 to R384, R386, R402, R403). -/
def illegalAt (e : Enc) (pre : List Byte) (imm : Nat) (x : Core) : Option Nat :=
  match prefixBad [] 0 pre with
  | some i => some i
  | none =>
    if e.dead || !pre.all (accepts e) || xferBad e x then some pre.length
    else (e.illAt imm).map fun j => pre.length + 1 + j

/-- The exception that fetch and decode of an instruction raise, if any: bytes are fetched in order, up to the one where decode becomes
illegal (R383). -/
def decodeExc (e : Enc) (pre : List Byte) (imm : Nat) (x : Core) : Option Exc :=
  let ill := illegalAt e pre imm x
  let last := ill.getD (pre.length + immLen e pre)
  match (List.range (last + 1)).find? fun i => !mapped (x.ia.toNat + i) with
  | some i => some { vec := 2, faddr := wrap32 (x.ia.toNat + i), det := 0 }
  | none => if ill.isSome then some illegalOp else none

/-- An instruction as its body sees it. -/
structure Ins where
  /-- The core. -/
  c : Nat
  /-- The immediate, unsigned. -/
  imm : Nat
  /-- Bytes of the immediate. -/
  ilen : Nat
  /-- The prefix bytes. -/
  pre : List Byte
  /-- Elements or transfers before an interrupt ends it. -/
  lim : Option Nat
  /-- Address of its first byte. -/
  ia : Nat
  /-- Address after its last byte. -/
  next : Nat
  deriving DecidableEq, Repr, Inhabited

/-- The immediate as a signed number, modulo 2^32 (R380). -/
def immS (i : Ins) : Nat := if i.ilen ≠ 0 ∧ i.imm.testBit (8 * i.ilen - 1) then i.imm + 2 ^ 32 - 256 ^ i.ilen else i.imm

/-- How an instruction leaves its place. -/
inductive Flow where
  /-- It retires, and the next instruction follows. -/
  | seq
  /-- A branch with a delay slot, taken to a target. -/
  | branch (target : Nat)
  /-- It retires, and execution goes on at an address. -/
  | goto (a : Nat)
  /-- An interrupt ends it before it is complete: it has not retired. -/
  | again
  /-- It retires and has set level and address itself. -/
  | moved
  deriving DecidableEq, Repr, Inhabited

/-- The guard of an instruction (R367, R381). See log 35 (DEDUCED, unsafe). -/
def guardOf (pre : List Byte) (preds : BitVec 8) : Bool :=
  match pre.find? fun b => prefixKind b == some 0 with
  | none => true
  | some b => (decide (b.toNat % 8 = 0) || preds.getLsbD (b.toNat % 8)) != b.getLsbD 3

/-- An exception of the instruction at `ia`: in a delay slot the branch did not retire either, and its stack is as before it (R402). A walk
fault MAPERR reports its codewords (R451). -/
def trapAt (c ia opc : Nat) (e : Exc) (s : State) : State :=
  let e1 : Exc := if e.vec = 1 then { e with faddr := ia } else e
  let s0 := if e.vec = 7 then mapReport e.det s else s
  let s1 := updLevel s0 c fun l => { l with resume := none, micro := none }
  match (coreOf s1 c).slot with
  | some d => trapEntry c d.br true opc e1 (updLevel s1 c fun l => { l with bank := d.saved, ssp := d.ssp })
  | none => trapEntry c (BitVec.ofNat 32 ia) false opc e1 s1

/-- A machine check of the instruction at `ia`. -/
def checkAt (c ia opc det : Nat) (s : State) : State :=
  let s1 := updLevel s c fun l => { l with micro := none }
  match (coreOf s1 c).slot with
  | some d => machineCheck c d.br true opc det (applySyncs c (updLevel s1 c fun l => { l with bank := d.saved, ssp := d.ssp }))
  | none => machineCheck c (BitVec.ofNat 32 ia) false opc det (applySyncs c s1)

/-- The loop-end action of an instruction at `ia` that retires (R403): where execution goes, and the core. -/
def loopEnd (ia next : Nat) (x : Core) : Core :=
  let l := curLevel x
  if l.lend.toNat = ia ∧ l.lcnt ≠ 0 then
    let n := l.lcnt - 1
    { x with
      lv := vUpd x.lv (lvlOf x) fun k => { k with lcnt := n }
      ia := if n = 0 then BitVec.ofNat 32 next else l.lstart }
  else { x with ia := BitVec.ofNat 32 next }

/-- An instruction retires. `bank` and `ssp` are those before it, which a branch keeps for its delay slot. See log 35 (DEDUCED, unsafe). -/
def retire (i : Ins) (bank : List Word) (ssp : BitVec 32) (fl : Flow) (s : State) : State :=
  let c := i.c
  let s1 := updCore s c fun x => { x with stepOne := false }
  let s2 := updLevel s1 c fun l => { l with resume := if fl = .again then some (BitVec.ofNat 32 i.ia) else none }
  match (coreOf s c).slot, fl with
  | _, .again => s2
  | _, .moved => countSyncs c s1
  | some d, _ =>
    let s3 := updCore s2 c fun x =>
      let y := { x with slot := none }
      if d.taken then { y with ia := d.target } else loopEnd i.ia i.next y
    countSyncs c (countSyncs c s3)
  | none, .branch t =>
    updCore s2 c fun x => { x with
      slot := some { br := BitVec.ofNat 32 i.ia, taken := true, target := BitVec.ofNat 32 t, saved := bank, ssp := ssp }
      ia := BitVec.ofNat 32 i.next }
  | none, .goto a => countSyncs c (updCore s2 c fun x => { x with ia := BitVec.ofNat 32 a })
  | none, .seq => countSyncs c (updCore s2 c (loopEnd i.ia i.next))

/-- A branch whose guard is false: its delay slot follows all the same (R402). See log 35 (DEDUCED, unsafe). -/
def notTaken (i : Ins) (bank : List Word) (ssp : BitVec 32) (s : State) : State :=
  updCore s i.c fun x => { x with
    stepOne := false, ia := BitVec.ofNat 32 i.next
    slot := some { br := BitVec.ofNat 32 i.ia, taken := false, target := 0, saved := bank, ssp := ssp } }

/-- Whether a core takes its next instruction: its rails are up, it does not wait, and the arbiter has nothing before it (R420). A core
that has not been started is started by its first instruction.
See log 7 (DESIGN CHOICE, unsafe). See log 30 (DESIGN CHOICE, unsafe). See log 37 (DESIGN CHOICE, unsafe). -/
def able (c : Nat) (s : State) : Bool :=
  let x := coreOf s c
  s.pwr.released && decide (s.pwr.seq ≠ .off) && decide (s.pwr.pstate ≠ .rest) && decide (s.pwr.pstate ≠ .off)
    && !x.stopped && !x.waiti && x.mrkWait.isNone && (!x.halted || x.stepOne) && (entryDue c s).isNone

/-- The instruction executed: decode, guard, body, and its end (R383 to R385).
See log 7 (DESIGN CHOICE, unsafe). See log 30 (DESIGN CHOICE, unsafe). -/
def runInsn (e : Enc) (f : Fetch) (body : Ins → State → Res Flow) (s0 : State) : State :=
  let c := f.core.val
  let s := updCore s0 c fun x => { x with running := true }
  let x := coreOf s c
  let l := curLevel x
  let ilen := immLen e f.pre
  let imm := f.imm.toNat % 256 ^ ilen
  let ia := x.ia.toNat
  let i : Ins := { c := c, imm := imm, ilen := ilen, pre := f.pre, lim := if x.slot.isSome then none else f.lim, ia := ia,
                   next := wrap32 (ia + f.pre.length + 1 + ilen) }
  match decodeExc e f.pre imm x with
  | some ex => trapAt c ia e.opc ex s
  | none =>
    if !(guardOf f.pre l.preds || decide (l.resume = some x.ia)) then
      if e.xfer = 2 then notTaken i l.bank l.ssp s else retire i l.bank l.ssp .seq s
    else match body i s with
      | .ok fl t => retire i l.bank l.ssp fl t
      | .exc ex t => trapAt c ia e.opc ex t
      | .check d t => checkAt c ia e.opc d t
      | .wait da t => updCore (updLevel t c fun k => { k with resume := some x.ia }) c fun y => { y with mrkWait := some (BitVec.ofNat 32 da) }

/-- An instruction of a row. A level whose user routine was interrupted continues that routine first (R480). Bytes that are no prefixes
before its opcode make it no instruction of the row. See log 30 (DESIGN CHOICE, unsafe). See log 35 (DEDUCED, unsafe). -/
def insn (e : Enc) (mn : String) (f : Fetch) (body : Ins → State → Res Flow) (s : State) : Host.Outcome State Fault Refusal :=
  if !prefixesOnly f.pre then .refused (.illFormed mn)
  else whenDue (able f.core.val s && (curLevel (coreOf s f.core.val)).micro.isNone) s (runInsn e f body s)

/-- A body that replaces the top `n` inputs, once their tags are right, by what a function makes of them. -/
def pureOp (n : Nat) (tags : List Word → Bool) (g : List Word → List Word) (i : Ins) (s : State) : Res Flow :=
  (inputs i.c n tags s).andThen fun l t => (replaceTop i.c n (g l) t).andThen fun _ u => .ok .seq u

end Sys2Proof.Machine
end

