-- ==== Sys2Proof/Machine/StackOps.lean ====
section
/-! DEFINITION. Stack and literal instructions, references and anchors (R388, R389, R350, R354, R362, R458). -/
namespace Sys2Proof.Machine
open Sys2Proof

/-- Entries moved without being read: BAD entries pass (R349, R388). -/
def permOp (n : Nat) (g : List Word → List Word) (i : Ins) (s : State) : Res Flow :=
  (need i.c n s).andThen fun l t => (replaceTop i.c n (g l) t).andThen fun _ u => .ok .seq u

/-- Any tags. -/
def anyTags (_ : List Word) : Bool := true

/-- A literal pushed. -/
def pushOp (g : Ins → List Word) (i : Ins) (s : State) : Res Flow := pureOp 0 anyTags (fun _ => g i) i s

/-- No immediate is illegal. -/
def noBad (_ : Nat) : Bool := false

/-- NOP (R388). -/
def execINop (f : Fetch) (s : State) : Host.Outcome State Fault Refusal :=
  insn (encN 0x01) "NOP" f (fun _ t => .ok .seq t) s

/-- DUP (R388). -/
def execIDup (f : Fetch) (s : State) : Host.Outcome State Fault Refusal :=
  insn (encN 0x02) "DUP" f (permOp 1 fun l => [inp l 0, inp l 0]) s

/-- DROP (R388). -/
def execIDrop (f : Fetch) (s : State) : Host.Outcome State Fault Refusal :=
  insn (encN 0x03) "DROP" f (permOp 1 fun _ => []) s

/-- SWAP (R388). -/
def execISwap (f : Fetch) (s : State) : Host.Outcome State Fault Refusal :=
  insn (encN 0x04) "SWAP" f (permOp 2 fun l => [inp l 1, inp l 0]) s

/-- OVER (R388). -/
def execIOver (f : Fetch) (s : State) : Host.Outcome State Fault Refusal :=
  insn (encN 0x05) "OVER" f (permOp 2 fun l => [inp l 1, inp l 0, inp l 1]) s

/-- ROT (R388). -/
def execIRot (f : Fetch) (s : State) : Host.Outcome State Fault Refusal :=
  insn (encN 0x06) "ROT" f (permOp 3 fun l => [inp l 2, inp l 0, inp l 1]) s

/-- PICK (R388). -/
def execIPick (f : Fetch) (s : State) : Host.Outcome State Fault Refusal :=
  insn (encB 0x07 fun v => decide (13 < v)) "PICK" f
    (fun i t => permOp (i.imm + 1) (fun l => inp l i.imm :: l) i t) s

/-- DUP2 (R388). -/
def execIDup2 (f : Fetch) (s : State) : Host.Outcome State Fault Refusal :=
  insn (encN 0x08) "DUP2" f (permOp 2 fun l => l ++ l) s

/-- DROP2 (R388). -/
def execIDrop2 (f : Fetch) (s : State) : Host.Outcome State Fault Refusal :=
  insn (encN 0x09) "DROP2" f (permOp 2 fun _ => []) s

/-- SWAP2 (R388). -/
def execISwap2 (f : Fetch) (s : State) : Host.Outcome State Fault Refusal :=
  insn (encN 0x0A) "SWAP2" f (permOp 4 fun l => l.drop 2 ++ l.take 2) s

/-- TAGOF (R388). -/
def execITagof (f : Fetch) (s : State) : Host.Outcome State Fault Refusal :=
  insn (encN 0x0B) "TAGOF" f (permOp 1 fun l => [fixW (BitVec.ofNat 16 (inp l 0).tag.toNat), inp l 0]) s

/-- SETTAG (R350). -/
def execISettag (f : Fetch) (s : State) : Host.Outcome State Fault Refusal :=
  insn (encB 0x0C fun v => !settable v) "SETTAG" f
    (fun i t => pureOp 1 anyTags (fun l => [{ tag := BitVec.ofNat 4 i.imm, data := (inp l 0).data }]) i t) s

/-- PUSHNIL (R388). -/
def execIPushnil (f : Fetch) (s : State) : Host.Outcome State Fault Refusal :=
  insn (encN 0x0D) "PUSHNIL" f (pushOp fun _ => [{ tag := 3, data := 0 }]) s

/-- Eight oldest entries spilled (R362): below SSL, or where an access fails, a machine check with the bank unchanged.
See log 34 (DESIGN CHOICE, unsafe). -/
def spill8 (i : Ins) (s : State) : Res Flow :=
  (need i.c 8 s).andThen fun _ t =>
    let l := curLevel (coreOf t i.c)
    if !spillOrder l then .check 4 t
    else if l.ssp.toNat < l.ssl.toNat + 8 then .check 2 t
    else match spillDown i.c (l.bank.length - 8) 8 t with
      | .ok _ u => .ok .seq u
      | .check d _ => .check d t
      | .exc e _ => .exc e t
      | .wait da _ => .wait da t

/-- SPILL8 (R362). -/
def execISpill8 (f : Fetch) (s : State) : Host.Outcome State Fault Refusal := insn (encN 0x0E) "SPILL8" f spill8 s

/-- PUSH8 (R388). -/
def execIPush8 (f : Fetch) (s : State) : Host.Outcome State Fault Refusal :=
  insn (encB 0x10 noBad) "PUSH8" f (pushOp fun i => [fixW (BitVec.ofNat 16 (immS i))]) s

/-- PUSH16 (R388). -/
def execIPush16 (f : Fetch) (s : State) : Host.Outcome State Fault Refusal :=
  insn (encW 0x11) "PUSH16" f (pushOp fun i => [fixW (BitVec.ofNat 16 i.imm)]) s

/-- PUSHR (R388). -/
def execIPushr (f : Fetch) (s : State) : Host.Outcome State Fault Refusal :=
  insn (encW 0x12) "PUSHR" f (pushOp fun i => [rawW (BitVec.ofNat 16 i.imm)]) s

/-- PUSHC (R388). -/
def execIPushc (f : Fetch) (s : State) : Host.Outcome State Fault Refusal :=
  insn (encW 0x13) "PUSHC" f (pushOp fun i => [{ tag := 2, data := BitVec.ofNat 16 i.imm }]) s

/-- PUSHREF (R388). -/
def execIPushref (f : Fetch) (s : State) : Host.Outcome State Fault Refusal :=
  insn (encL 0x14) "PUSHREF" f (pushOp fun i => refPair i.imm) s

/-- PUSHCODE (R388). -/
def execIPushcode (f : Fetch) (s : State) : Host.Outcome State Fault Refusal :=
  insn (encL 0x15) "PUSHCODE" f (pushOp fun i => codePair i.imm) s

/-- MKREF (R389). -/
def execIMkref (f : Fetch) (s : State) : Host.Outcome State Fault Refusal :=
  insn (encN 0x16) "MKREF" f (pureOp 2 allFixRaw fun l => refPair (pairVal l 0)) s

/-- The tags of REFADD's inputs. -/
def refAddTags (l : List Word) : Bool := decide ((inp l 0).tag = 0) && isRef (l.drop 1)

/-- REFADD (R389): d is signed, and the sum is modulo 2^32. -/
def execIRefadd (f : Fetch) (s : State) : Host.Outcome State Fault Refusal :=
  insn (encN 0x17) "REFADD" f
    (pureOp 3 refAddTags fun l => refPair (wrap32 (pairVal l 1 + ((inp l 0).data.signExtend 32).toNat))) s

/-- REFPART (R389). -/
def execIRefpart (f : Fetch) (s : State) : Host.Outcome State Fault Refusal :=
  insn (encN 0x18) "REFPART" f
    (pureOp 2 (fun l => isRef l || allCode l) fun l => [rawW (inp l 0).data, rawW (inp l 1).data]) s

/-- A walk fault of ANCH or ALD at an address: STAGE and LEVEL are a free value, for the spec gives none (R456). -/
def anchorFault (cause da : Nat) (s : State) : Res Flow :=
  let f := takeFresh s
  .exc { vec := 7, faddr := da, det := (Config.freeBits 3 f.1).toNat * 32 + cause } f.2

/-- An anchor's words from a segment word address, top first (R354). -/
def anchorOf (swa : Nat) : List Word :=
  let g := swa / 131072
  let o := swa % 131072
  let w (n : Nat) : Word := { tag := 0xB, data := BitVec.ofNat 16 n }
  [w (o % 65536), w (g % 64 * 1024 + o / 65536), w (g / 64)]

/-- ANCH (R354, R458). -/
def anch (i : Ins) (s : State) : Res Flow :=
  (inputs i.c 2 isRef s).andThen fun l t =>
    let da := pairVal l 0
    match translate i.c (domOf t i.c) da false t with
    | .error e => .exc (walkExc e da) t
    | .ok (r, u) => match r.phys with
      | .seg a => (replaceTop i.c 2 (anchorOf a) u).andThen fun _ v => .ok .seq v
      | _ => anchorFault 9 da u

/-- ANCH (R389). -/
def execIAnch (f : Fetch) (s : State) : Host.Outcome State Fault Refusal := insn (encN 0x19) "ANCH" f anch s

/-- ALD (R354, R458): the anchor's place in the heap window, which is then translated. -/
def ald (i : Ins) (s : State) : Res Flow :=
  (inputs i.c 3 (fun l => l.all fun w => decide (w.tag = 0xB)) s).andThen fun l t =>
    let w1 := (inp l 1).data.toNat
    let g := (inp l 2).data.toNat * 64 + w1 / 1024
    let o := w1 % 2 * 65536 + (inp l 0).data.toNat
    let dom := domOf t i.c
    let d := descOf t dom
    let h := d.hwseg.toNat
    let da := wrap32 (d.hwbase.toNat + (g + 2 ^ 32 - h) * 131072 + o)
    if !d.v then .exc (walkExc (wf1 0 7) da) t
    else if g < h ∨ h + 2 ^ d.hwn.toNat ≤ g then anchorFault 0xA da t
    else match translate i.c dom da false t with
      | .error e => .exc (walkExc e da) t
      | .ok (_, u) => (replaceTop i.c 3 (refPair da) u).andThen fun _ v => .ok .seq v

/-- ALD (R389). -/
def execIAld (f : Fetch) (s : State) : Host.Outcome State Fault Refusal := insn (encN 0x1A) "ALD" f ald s

end Sys2Proof.Machine
end

