-- ==== Sys2Proof/Machine/MemOps.lean ====
section
/-! DEFINITION. Loads and stores, block transfers, I-space accesses, and the port instructions (R390 to R394, R426). -/
namespace Sys2Proof.Machine
open Sys2Proof

/-- LD, and LDI without 0xDC (R390). -/
def loadOp (i : Ins) (s : State) : Res Flow :=
  (inputs i.c 2 isRef s).andThen fun l t =>
  (loadThrough i.c (pairVal l 0) (immS i) t).andThen fun w u =>
  (replaceTop i.c 2 [w] u).andThen fun _ v => .ok .seq v

/-- LD (R390). -/
def execILd (f : Fetch) (s : State) : Host.Outcome State Fault Refusal :=
  insn { encB 0x20 noBad with wide := true } "LD" f loadOp s

/-- The Poison of a store's inputs, top first: the address pair, then the words stored, the first of them deepest (R349, R411). -/
def storePoison (l : List Word) (da n : Nat) : Option Exc :=
  if anyBad (l.take 2) then some (poisonAt 0)
  else ((List.range n).find? fun k => decide ((inp l (1 + n - k)).tag = 0xF)).map fun k => poisonAt (wrap32 (da + k))

/-- ST (R350, R390, R391). -/
def storeOp (i : Ins) (s : State) : Res Flow :=
  (need i.c 3 s).andThen fun l t =>
    let base := pairVal l 0
    match storePoison l (base + immS i) 1 with
    | some e => .exc e t
    | none =>
      if !isRef l then .exc (tagTrapOf l) t
      else
        (barrierBase i.c base t).andThen fun b u =>
        (storeAt i.c false (b + immS i) (inp l 2) (tagTrapOf l) u).andThen fun _ v => .ok .seq (setTop i.c 3 [] v)

/-- ST (R390). -/
def execISt (f : Fetch) (s : State) : Host.Outcome State Fault Refusal :=
  insn { encB 0x21 noBad with wide := true } "ST" f storeOp s

/-- LDP (R351, R352): a pair that is not REFH REFL traps, with nothing done. See log 33 (DEDUCED, unsafe). -/
def loadPair (i : Ins) (s : State) : Res Flow :=
  (inputs i.c 2 isRef s).andThen fun l t =>
  (barrierBase i.c (pairVal l 0) t).andThen fun b u =>
  (readBarred i.c false (b + immS i) u).andThen fun h v =>
  (readBarred i.c false (b + immS i + 1) v).andThen fun w x =>
    if h.tag = 4 ∧ w.tag = 5 then .ok .seq (setTop i.c 2 [w, h] x) else .exc (tagTrap h.tag w.tag) u

/-- LDP (R390). -/
def execILdp (f : Fetch) (s : State) : Host.Outcome State Fault Refusal :=
  insn { encB 0x22 noBad with wide := true } "LDP" f loadPair s

/-- Whether two words are a pair that STP stores: REFH REFL, or NIL NIL (R351). -/
def storablePair (x y : Word) : Bool := (decide (x.tag = 4) && decide (y.tag = 5)) || (decide (x.tag = 3) && decide (y.tag = 3))

/-- STP (R351, R352): both halves are checked before either is stored. -/
def storePair (i : Ins) (s : State) : Res Flow :=
  (need i.c 4 s).andThen fun l t =>
    let base := pairVal l 0
    match storePoison l (base + immS i) 2 with
    | some e => .exc e t
    | none =>
      if !(isRef l && storablePair (inp l 3) (inp l 2)) then .exc (tagTrapOf l) t
      else
        (barrierBase i.c base t).andThen fun b u =>
        (storeCheck i.c false (b + immS i) (inp l 3) (tagTrapOf l) u).andThen fun p v =>
        (storeCheck i.c false (b + immS i + 1) (inp l 2) (tagTrapOf l) v).andThen fun q x =>
          .ok .seq (setTop i.c 4 [] (storeDo i.c false q (storeDo i.c false p x)))

/-- STP (R390). -/
def execIStp (f : Fetch) (s : State) : Host.Outcome State Fault Refusal :=
  insn { encB 0x23 noBad with wide := true } "STP" f storePair s

/-- A byte of I-space: the mask ROM, or what has been written (R356). -/
def iByte (a : Nat) (s : State) : Byte := if a < 0x40000 then Config.romByte a else memGet 0 s.mem.ispace a

/-- LDI with 0xDC: two bytes of I-space (R392). -/
def loadCode (i : Ins) (s : State) : Res Flow :=
  (inputs i.c 2 allCode s).andThen fun l t =>
    let a := wrap32 (pairVal l 0 + immS i)
    let b := wrap32 (a + 1)
    if !mapped a then .exc { vec := 2, faddr := a, det := 0 } t
    else if !mapped b then .exc { vec := 2, faddr := b, det := 0 } t
    else (replaceTop i.c 2 [rawW (BitVec.ofNat 16 ((iByte a t).toNat + 256 * (iByte b t).toNat))] t).andThen fun _ u => .ok .seq u

/-- LDI (R390, R392). -/
def execILdi (f : Fetch) (s : State) : Host.Outcome State Fault Refusal :=
  insn { encW 0x24 with wide := true, space := true } "LDI" f
    (fun i t => if hasPre i.pre 0xDC then loadCode i t else loadOp i t) s

/-- Whether IST's inputs have their tags (R392). -/
def istTags (l : List Word) : Bool := allCode (l.take 2) && fixRaw (inp l 2).tag

/-- A byte of I-space written; every core keeps what its fetch may still see (R426). -/
def istByte (a : Nat) (b : Byte) (s : State) : State :=
  let old := iByte a s
  let t := updCores s fun x => { x with ist := if (look a x.ist).isSome then x.ist else put a old x.ist }
  { t with mem.ispace := memSet 0 t.mem.ispace a b }

/-- IST (R392). -/
def istOp (i : Ins) (s : State) : Res Flow :=
  (inputs i.c 3 istTags s).andThen fun l t =>
    let a := pairVal l 0
    let v := (inp l 2).data.toNat
    if !holdsCap (coreOf t i.c) (capIwrite a (a + 1)) then .exc (capFault a 2) t
    else .ok .seq (istByte (a + 1) (BitVec.ofNat 8 (v / 256)) (istByte a (BitVec.ofNat 8 v) (setTop i.c 3 [] t)))

/-- IST (R390). -/
def execIIst (f : Fetch) (s : State) : Host.Outcome State Fault Refusal := insn (encN 0x25) "IST" f istOp s

/-- Bit `k` of MSK cleared (R394). -/
def clearMsk (c k : Nat) (s : State) : State :=
  updLevel s c fun l => { l with msk := l.msk &&& ~~~(BitVec.ofNat 16 (2 ^ k)) }

/-- The selected transfers of LDM or STM in ascending order; `none` left of `lim` ends them for an interrupt (R394). Whether all are made. -/
def blockGo (c : Nat) (one : Nat → State → Res Unit) : List Nat → Option Nat → State → Res Bool
  | [], _, s => .ok true s
  | k :: ks, lim, s =>
    if (curLevel (coreOf s c)).msk.getLsbD k then
      if lim = some 0 then .ok false s
      else (one k s).andThen fun _ t => blockGo c one ks (lim.map (· - 1)) (clearMsk c k t)
    else blockGo c one ks lim s

/-- LDM and STM (R394): the address pair, the transfers, and what is popped at the end. -/
def blockOp (pop : Nat → Nat) (one : Ins → Nat → Nat → State → Res Unit) (i : Ins) (s : State) : Res Flow :=
  let n := i.imm
  if (curLevel (coreOf s i.c)).msk.toNat / 2 ^ n ≠ 0 then .exc illegalOp s
  else (need i.c (n + 2) s).andThen fun l t =>
    if anyBad (l.take 2) then .exc (poisonAt 0) t
    else if !isRef l then .exc (tagTrapOf l) t
    else (blockGo i.c (one i (pairVal l 0)) (List.range n) i.lim t).andThen fun all u =>
      if all then .ok .seq (setTop i.c (pop n) [] u) else .ok .again u

/-- Transfer k of LDM (R394). -/
def ldmOne (i : Ins) (base k : Nat) (s : State) : Res Unit :=
  (loadThrough i.c base k s).andThen fun w t =>
    .ok () (updLevel t i.c fun l => { l with bank := l.bank.set (2 + k) w })

/-- Transfer k of STM (R394). -/
def stmOne (i : Ins) (base k : Nat) (s : State) : Res Unit :=
  let b := bankOf s i.c
  let w := inp b (2 + k)
  if w.tag = 0xF then .exc (poisonAt (wrap32 (base + k))) s
  else (barrierBase i.c base s).andThen fun nb t => storeAt i.c false (nb + k) w (tagTrapOf b) t

/-- LDM (R394). -/
def execILdm (f : Fetch) (s : State) : Host.Outcome State Fault Refusal :=
  insn (encB 0x26 fun v => decide (v = 0) || decide (14 < v)) "LDM" f (blockOp (fun _ => 2) ldmOne) s

/-- STM (R394). -/
def execIStm (f : Fetch) (s : State) : Host.Outcome State Fault Refusal :=
  insn (encB 0x27 fun v => decide (v = 0) || decide (14 < v)) "STM" f (blockOp (fun n => n + 2) stmOne) s

/-- A port read that replaces the top `n` entries (R393). -/
def portIn (i : Ins) (n p : Nat) (s : State) : Res Flow :=
  if !holdsCap (coreOf s i.c) (capPort 0 p) then .exc (capFault p 1) s
  else (room i.c n 1 s).andThen fun _ t =>
    let r := portRead i.c p t
    .ok .seq (setTop i.c n [rawW r.1] r.2)

/-- IN (R393). -/
def execIIn (f : Fetch) (s : State) : Host.Outcome State Fault Refusal :=
  insn (encW 0x28) "IN" f (fun i t => portIn i 0 i.imm t) s

/-- A port write that pops `n` entries (R393). -/
def portOut (i : Ins) (n p : Nat) (w : Word) (tt : Exc) (s : State) : Res Flow :=
  (outCheck i.c p w tt s).andThen fun _ t => .ok .seq (portWrite i.c p w.data (setTop i.c n [] t))

/-- OUT (R393). -/
def execIOut (f : Fetch) (s : State) : Host.Outcome State Fault Refusal :=
  insn (encW 0x29) "OUT" f
    (fun i t => (need i.c 1 t).andThen fun l u => portOut i 1 i.imm (inp l 0) (tagTrapOf l) u) s

/-- INS (R393). See log 35 (DEDUCED, unsafe). -/
def execIIns (f : Fetch) (s : State) : Host.Outcome State Fault Refusal :=
  insn (encN 0x2A) "INS" f
    (fun i t => (inputs i.c 1 anyTags t).andThen fun l u => portIn i 1 (inp l 0).data.toNat u) s

/-- OUTS (R393). -/
def execIOuts (f : Fetch) (s : State) : Host.Outcome State Fault Refusal :=
  insn (encN 0x2B) "OUTS" f
    (fun i t => (need i.c 2 t).andThen fun l u =>
      if (inp l 0).tag = 0xF then .exc (poisonAt 0) u else portOut i 2 (inp l 0).data.toNat (inp l 1) (tagTrapOf l) u) s

end Sys2Proof.Machine
end

