-- ==== Sys2Proof/Machine/Arith.lean ====
section
/-! DEFINITION. Generic and raw arithmetic, shifts, CRC steps and the bit operations (R395 to R398, R406). -/
namespace Sys2Proof.Machine
open Sys2Proof

/-- The carry flag of a core. -/
def carryOf (s : State) (c : Nat) : Bool := (flagsOf (coreOf s c)).c

/-- A result that fits, pushed in place of `n` inputs, with the flags it sets. -/
def withResult (c n : Nat) (news : List Word) (f : Flags) (s : State) : Res Flow :=
  (replaceTop c n news s).andThen fun _ t => .ok .seq (setFlags c f t)

/-- A generic operation of two FIX words (R395). -/
def genericOp (o : Gen2) (i : Ins) (s : State) : Res Flow :=
  (inputs i.c 2 allFix s).andThen fun l t =>
    match gen2 o (inp l 1).data (inp l 0).data with
    | .error e => .exc e t
    | .ok r => withResult i.c 2 [fixW r] (flags16 r false false) t

/-- ADD (R395). -/
def execIAdd (f : Fetch) (s : State) : Host.Outcome State Fault Refusal := insn (encN 0x30) "ADD" f (genericOp .add) s

/-- SUB (R395). -/
def execISub (f : Fetch) (s : State) : Host.Outcome State Fault Refusal := insn (encN 0x31) "SUB" f (genericOp .sub) s

/-- MUL (R395). -/
def execIMul (f : Fetch) (s : State) : Host.Outcome State Fault Refusal := insn (encN 0x32) "MUL" f (genericOp .mul) s

/-- NEG of a FIX word (R395). -/
def negOp (i : Ins) (s : State) : Res Flow :=
  (inputs i.c 1 allFix s).andThen fun l t =>
    match genericRes (- s16 (inp l 0).data) with
    | .error e => .exc e t
    | .ok r => withResult i.c 1 [fixW r] (flags16 r false false) t

/-- NEG (R395). -/
def execINeg (f : Fetch) (s : State) : Host.Outcome State Fault Refusal := insn (encN 0x33) "NEG" f negOp s

/-- DIV (R395). -/
def execIDiv (f : Fetch) (s : State) : Host.Outcome State Fault Refusal := insn (encN 0x34) "DIV" f (genericOp .div) s

/-- MOD (R395). -/
def execIMod (f : Fetch) (s : State) : Host.Outcome State Fault Refusal := insn (encN 0x35) "MOD" f (genericOp .mod) s

/-- A raw operation of two words (R396). -/
def rawOp (g : BitVec 16 → BitVec 16 → Bool → BitVec 16 × Flags) (i : Ins) (s : State) : Res Flow :=
  (inputs i.c 2 allRaw s).andThen fun l t =>
    let r := g (inp l 1).data (inp l 0).data (carryOf t i.c)
    withResult i.c 2 [rawW r.1] r.2 t

/-- A raw operation of one word (R396). -/
def rawOp1 (g : BitVec 16 → BitVec 16 × Flags) (i : Ins) (s : State) : Res Flow :=
  (inputs i.c 1 allRaw s).andThen fun l t =>
    let r := g (inp l 0).data
    withResult i.c 1 [rawW r.1] r.2 t

/-- ADDW (R396). -/
def execIAddw (f : Fetch) (s : State) : Host.Outcome State Fault Refusal := insn (encN 0x38) "ADDW" f (rawOp (raw2 .addw)) s

/-- SUBW (R396). -/
def execISubw (f : Fetch) (s : State) : Host.Outcome State Fault Refusal := insn (encN 0x39) "SUBW" f (rawOp (raw2 .subw)) s

/-- ADCW (R396). -/
def execIAdcw (f : Fetch) (s : State) : Host.Outcome State Fault Refusal := insn (encN 0x3A) "ADCW" f (rawOp (raw2 .adcw)) s

/-- SBCW (R396). -/
def execISbcw (f : Fetch) (s : State) : Host.Outcome State Fault Refusal := insn (encN 0x3B) "SBCW" f (rawOp (raw2 .sbcw)) s

/-- The low and high halves of 32 bits as words with a tag, the high half on top (R396). -/
def loHi (tag : BitVec 4) (v : BitVec 32) : List Word :=
  [{ tag := tag, data := BitVec.ofNat 16 (v.toNat / 65536) }, { tag := tag, data := BitVec.ofNat 16 v.toNat }]

/-- A product of two words (R396). -/
def mulOp (signed : Bool) (i : Ins) (s : State) : Res Flow :=
  (inputs i.c 2 allRaw s).andThen fun l t =>
    let p := mul32 signed (inp l 1).data (inp l 0).data
    withResult i.c 2 (loHi 1 p) (mulFlags signed p) t

/-- MULW (R396). -/
def execIMulw (f : Fetch) (s : State) : Host.Outcome State Fault Refusal := insn (encN 0x3C) "MULW" f (mulOp true) s

/-- MULUW (R396). -/
def execIMuluw (f : Fetch) (s : State) : Host.Outcome State Fault Refusal := insn (encN 0x3D) "MULUW" f (mulOp false) s

/-- NEGW (R396). -/
def execINegw (f : Fetch) (s : State) : Host.Outcome State Fault Refusal :=
  insn (encN 0x3E) "NEGW" f (rawOp1 fun a => subBorrow 0 a false) s

/-- DIVW (R396): a divisor of 0 raises DIV_ZERO. -/
def divwOp (i : Ins) (s : State) : Res Flow :=
  (inputs i.c 2 allRaw s).andThen fun l t =>
    if (inp l 0).data = 0 then .exc (exc0 0xB) t
    else
      let r := divSigned (inp l 1).data (inp l 0).data
      withResult i.c 2 [rawW r.2.1, rawW r.1] r.2.2 t

/-- DIVW (R396). -/
def execIDivw (f : Fetch) (s : State) : Host.Outcome State Fault Refusal := insn (encN 0x3F) "DIVW" f divwOp s

/-- DIVUW (R396): a divisor of 0 raises DIV_ZERO. -/
def divuwOp (i : Ins) (s : State) : Res Flow :=
  (inputs i.c 3 allRaw s).andThen fun l t =>
    if (inp l 0).data = 0 then .exc (exc0 0xB) t
    else
      let r := divUnsigned (inp l 2).data (inp l 1).data (inp l 0).data
      withResult i.c 3 [rawW r.2.1, rawW r.1] r.2.2 t

/-- DIVUW (R396). -/
def execIDivuw (f : Fetch) (s : State) : Host.Outcome State Fault Refusal := insn (encN 0x40) "DIVUW" f divuwOp s

/-- AND (R396). -/
def execIAnd (f : Fetch) (s : State) : Host.Outcome State Fault Refusal := insn (encN 0x41) "AND" f (rawOp (raw2 .and)) s

/-- OR (R396). -/
def execIOr (f : Fetch) (s : State) : Host.Outcome State Fault Refusal := insn (encN 0x42) "OR" f (rawOp (raw2 .or)) s

/-- XOR (R396). -/
def execIXor (f : Fetch) (s : State) : Host.Outcome State Fault Refusal := insn (encN 0x43) "XOR" f (rawOp (raw2 .xor)) s

/-- NOT (R396). -/
def execINot (f : Fetch) (s : State) : Host.Outcome State Fault Refusal :=
  insn (encN 0x44) "NOT" f (rawOp1 fun a => (~~~ a, flags16 (~~~ a) false false)) s

/-- SHL (R397). -/
def execIShl (f : Fetch) (s : State) : Host.Outcome State Fault Refusal := insn (encN 0x45) "SHL" f (rawOp (shiftF .shl)) s

/-- SHR (R397). -/
def execIShr (f : Fetch) (s : State) : Host.Outcome State Fault Refusal := insn (encN 0x46) "SHR" f (rawOp (shiftF .shr)) s

/-- SAR (R397). -/
def execISar (f : Fetch) (s : State) : Host.Outcome State Fault Refusal := insn (encN 0x47) "SAR" f (rawOp (shiftF .sar)) s

/-- ROL (R397). -/
def execIRol (f : Fetch) (s : State) : Host.Outcome State Fault Refusal := insn (encN 0x48) "ROL" f (rawOp (shiftF .rol)) s

/-- ROR (R397). -/
def execIRor (f : Fetch) (s : State) : Host.Outcome State Fault Refusal := insn (encN 0x49) "ROR" f (rawOp (shiftF .ror)) s

/-- LADD and LSUB (R396): every word of an operand is tagged LNG. -/
def longOp (sub : Bool) (i : Ins) (s : State) : Res Flow :=
  (inputs i.c 4 (fun l => l.all fun w => decide (w.tag = 0xC)) s).andThen fun l t =>
    let r := long2 sub (BitVec.ofNat 32 (pairVal l 2)) (BitVec.ofNat 32 (pairVal l 0))
    withResult i.c 4 (pairOf 0xC 0xC r.1.toNat) r.2 t

/-- LADD (R396). -/
def execILadd (f : Fetch) (s : State) : Host.Outcome State Fault Refusal := insn (encN 0x4A) "LADD" f (longOp false) s

/-- LSUB (R396). -/
def execILsub (f : Fetch) (s : State) : Host.Outcome State Fault Refusal := insn (encN 0x4B) "LSUB" f (longOp true) s

/-- A CRC state, as the pair sh sl, updated by one byte (R406). -/
def crcByte (poly : Bool) (st : Nat) (b : Byte) : Nat :=
  if poly then (crc16Byte (BitVec.ofNat 16 st) b).toNat else (crc32Byte (BitVec.ofNat 32 st) b).toNat

/-- The low and then the high byte of 16 bits. -/
def crcWord (poly : Bool) (st : Nat) (d : BitVec 16) : Nat :=
  crcByte poly (crcByte poly st (BitVec.ofNat 8 d.toNat)) (BitVec.ofNat 8 (d.toNat / 256))

/-- Whether a CRC instruction's immediate has a reserved bit set (R406). See log 33 (DEDUCED, unsafe). -/
def crcBad (v : Nat) : Bool := decide (1 < v)

/-- CRCB and CRCW: d above the state, which is tagged FIX or RAW (R406). -/
def crcOp (g : Bool → Nat → BitVec 16 → Nat) (i : Ins) (s : State) : Res Flow :=
  pureOp 3 (fun l => allFixRaw (l.drop 1)) (fun l => pairOf 1 1 (g (decide (i.imm = 1)) (pairVal l 1) (inp l 0).data)) i s

/-- CRCB (R406). -/
def execICrcb (f : Fetch) (s : State) : Host.Outcome State Fault Refusal :=
  insn (encB 0x75 crcBad) "CRCB" f (crcOp fun p st d => crcByte p st (BitVec.ofNat 8 d.toNat)) s

/-- CRCW (R406). -/
def execICrcw (f : Fetch) (s : State) : Host.Outcome State Fault Refusal :=
  insn (encB 0x76 crcBad) "CRCW" f (crcOp crcWord) s

/-- The parity of 16 bits (R406). -/
def parity16 (v : BitVec 16) : BitVec 16 := BitVec.ofNat 16 (((List.range 16).filter fun k => v.getLsbD k).length % 2)

/-- PAR (R406). -/
def execIPar (f : Fetch) (s : State) : Host.Outcome State Fault Refusal :=
  insn (encN 0x77) "PAR" f (pureOp 1 allRaw fun l => [rawW (parity16 (inp l 0).data)]) s

/-- BREV (R406). -/
def execIBrev (f : Fetch) (s : State) : Host.Outcome State Fault Refusal :=
  insn (encN 0x78) "BREV" f (pureOp 1 allRaw fun l => [rawW (inp l 0).data.reverse]) s

end Sys2Proof.Machine
end

