-- ==== Sys2Proof/Machine/Compare.lean ====
section
/-! DEFINITION. Compares, branches and hardware loops (R399 to R403). -/
namespace Sys2Proof.Machine
open Sys2Proof

/-- Whether the T and F fields of a compare are illegal (R399). -/
def tfBad (v : Nat) : Bool := decide (bits v 6 2 ≠ 0) || (decide (bits v 0 3 = bits v 3 3) && decide (bits v 0 3 ≠ 0))

/-- A compare's immediate of format W: the byte at which it is illegal (R399). -/
def tfBadW (code : Nat → Bool) (v : Nat) : Option Nat :=
  if tfBad (v % 256) then some 0
  else if bits v 12 4 ≠ 0 ∨ code (bits v 8 4) = true then some 1
  else none

/-- One predicate written; a write to P0 is discarded (R367). -/
def putPred (n : Nat) (b : Bool) (p : BitVec 8) : BitVec 8 :=
  if n = 0 then p
  else if b then p ||| BitVec.ofNat 8 (2 ^ n) else p &&& ~~~(BitVec.ofNat 8 (2 ^ n))

/-- T receives a result and F its complement (R399). -/
def setPreds (c imm : Nat) (r : Bool) (s : State) : State :=
  updLevel s c fun l => { l with preds := putPred (bits imm 3 3) (!r) (putPred (bits imm 0 3) r l.preds) }

/-- A compare of two entries, which it pops (R400). -/
def cmpOp (tags : List Word → Bool) (g : Word → Word → Bool) (i : Ins) (s : State) : Res Flow :=
  (inputs i.c 2 tags s).andThen fun l t => .ok .seq (setPreds i.c i.imm (g (inp l 1) (inp l 0)) (setTop i.c 2 [] t))

/-- CEQ (R400). -/
def execICeq (f : Fetch) (s : State) : Host.Outcome State Fault Refusal :=
  insn (encB 0x50 tfBad) "CEQ" f (cmpOp anyTags fun a b => decide (a = b)) s

/-- CNE (R400). -/
def execICne (f : Fetch) (s : State) : Host.Outcome State Fault Refusal :=
  insn (encB 0x51 tfBad) "CNE" f (cmpOp anyTags fun a b => decide (a ≠ b)) s

/-- CLT (R400). -/
def execIClt (f : Fetch) (s : State) : Host.Outcome State Fault Refusal :=
  insn (encB 0x52 tfBad) "CLT" f (cmpOp allFix fun a b => decide (s16 a.data < s16 b.data)) s

/-- CLE (R400). -/
def execICle (f : Fetch) (s : State) : Host.Outcome State Fault Refusal :=
  insn (encB 0x53 tfBad) "CLE" f (cmpOp allFix fun a b => decide (s16 a.data ≤ s16 b.data)) s

/-- CLTU (R400). -/
def execICltu (f : Fetch) (s : State) : Host.Outcome State Fault Refusal :=
  insn (encB 0x54 tfBad) "CLTU" f (cmpOp allRaw fun a b => decide (a.data.toNat < b.data.toNat)) s

/-- CLEU (R400). -/
def execICleu (f : Fetch) (s : State) : Host.Outcome State Fault Refusal :=
  insn (encB 0x55 tfBad) "CLEU" f (cmpOp allRaw fun a b => decide (a.data.toNat ≤ b.data.toNat)) s

/-- CTAG (R400). -/
def ctagOp (i : Ins) (s : State) : Res Flow :=
  (inputs i.c 1 anyTags s).andThen fun l t => .ok .seq (setPreds i.c i.imm (decide ((inp l 0).tag.toNat = bits i.imm 8 4)) t)

/-- CTAG (R400). -/
def execICtag (f : Fetch) (s : State) : Host.Outcome State Fault Refusal :=
  insn { encW 0x56 with illAt := tfBadW fun _ => false } "CTAG" f ctagOp s

/-- An ST condition (R400). -/
def stCond (code : Nat) (f : Flags) : Bool :=
  match code with
  | 0 => f.z
  | 1 => !f.z
  | 2 => f.c
  | 3 => !f.c
  | 4 => f.v
  | 5 => !f.v
  | 6 => f.n
  | 7 => !f.n
  | 8 => f.n != f.v
  | 9 => f.n == f.v
  | 10 => f.c || f.z
  | _ => !f.c && !f.z

/-- CST (R400). -/
def execICst (f : Fetch) (s : State) : Host.Outcome State Fault Refusal :=
  insn { encW 0x57 with illAt := tfBadW fun k => decide (11 < k) } "CST" f
    (fun i t => .ok .seq (setPreds i.c i.imm (stCond (bits i.imm 8 4) (flagsOf (coreOf t i.c))) t)) s

/-- The encoding of a branch with a displacement (R401). -/
def encBr (opc : Nat) : Enc := { encW opc with wide := true, xfer := 2 }

/-- The encoding of a jump through the stack (R401). -/
def encJmp (opc : Nat) : Enc := { encN opc with xfer := 2 }

/-- Where a displacement leads: from the delay slot on (R401). -/
def brTarget (i : Ins) : Nat := wrap32 (i.next + immS i)

/-- BR (R401). -/
def execIBr (f : Fetch) (s : State) : Host.Outcome State Fault Refusal :=
  insn (encBr 0x60) "BR" f (fun i t => .ok (.branch (brTarget i)) t) s

/-- The return address of a call: the byte after the delay slot, whose bytes number `len` + 1 (R401). -/
def retAddr (i : Ins) (len : Fin 8) : Nat := wrap32 (i.next + len.val + 1)

/-- CALL (R401). -/
def callOp (len : Fin 8) (i : Ins) (s : State) : Res Flow :=
  (replaceTop i.c 0 (codePair (retAddr i len)) s).andThen fun _ t => .ok (.branch (brTarget i)) t

/-- CALL (R401). -/
def execICall (len : Fin 8) (f : Fetch) (s : State) : Host.Outcome State Fault Refusal := insn (encBr 0x61) "CALL" f (callOp len) s

/-- A jump to a CODE pair, which it pops (R401). -/
def jumpOp (i : Ins) (s : State) : Res Flow :=
  (inputs i.c 2 allCode s).andThen fun l t => .ok (.branch (pairVal l 0)) (setTop i.c 2 [] t)

/-- JMPI (R401). -/
def execIJmpi (f : Fetch) (s : State) : Host.Outcome State Fault Refusal := insn (encJmp 0x62) "JMPI" f jumpOp s

/-- CALLI (R401). -/
def calliOp (len : Fin 8) (i : Ins) (s : State) : Res Flow :=
  (inputs i.c 2 allCode s).andThen fun l t => .ok (.branch (pairVal l 0)) (setTop i.c 2 (codePair (retAddr i len)) t)

/-- CALLI (R401). -/
def execICalli (len : Fin 8) (f : Fetch) (s : State) : Host.Outcome State Fault Refusal := insn (encJmp 0x63) "CALLI" f (calliOp len) s

/-- RET (R401). -/
def execIRet (f : Fetch) (s : State) : Host.Outcome State Fault Refusal := insn (encJmp 0x64) "RET" f jumpOp s

/-- LOOP (R403): LSTART and LEND are set; with a count of 0 execution goes on after the instruction at LEND, of `len` + 1 bytes. -/
def loopOp (len : Fin 8) (i : Ins) (s : State) : Res Flow :=
  (inputs i.c 1 allFixRaw s).andThen fun l t =>
    let n := (inp l 0).data
    let e := wrap32 (i.next + i.imm)
    let u := updLevel (setTop i.c 1 [] t) i.c fun k => { k with
      lstart := BitVec.ofNat 32 i.next, lend := BitVec.ofNat 32 e, lcnt := if n = 0 then k.lcnt else n }
    .ok (.goto (if n = 0 then wrap32 (e + len.val + 1) else i.next)) u

/-- LOOP (R403). See log 35 (DEDUCED, unsafe). -/
def execILoop (len : Fin 8) (f : Fetch) (s : State) : Host.Outcome State Fault Refusal :=
  insn { encW 0x65 with wide := true, xfer := 1 } "LOOP" f (loopOp len) s

end Sys2Proof.Machine
end

