-- ==== Sys2Proof/Machine/Strings.lean ====
section
/-! DEFINITION. String operations, element by element (R404 to R406, R439, R459). -/
namespace Sys2Proof.Machine
open Sys2Proof

/-- Whether a string operation repeats (R381). -/
def repeats (i : Ins) : Bool := hasPre i.pre 0xD8 || hasPre i.pre 0xD9 || hasPre i.pre 0xDA

/-- Whether REPM or REPD stops after an element with a result (R405). -/
def stopsAt (i : Ins) (r : Bool) : Bool := (hasPre i.pre 0xD9 && !r) || (hasPre i.pre 0xDA && r)

/-- CNT of the current level. -/
def cntOf (s : State) (c : Nat) : Nat := (curLevel (coreOf s c)).cnt.toNat

/-- SRC of the current level. -/
def srcOf (s : State) (c : Nat) : Nat := (curLevel (coreOf s c)).src.toNat

/-- DST of the current level. -/
def dstOf (s : State) (c : Nat) : Nat := (curLevel (coreOf s c)).dst.toNat

/-- One element done: SRC and DST move on as told, and CNT counts down (R404). -/
def elemDone (c : Nat) (src dst : Bool) (s : State) : State :=
  updLevel s c fun l => { l with
    src := if src then l.src + 1 else l.src, dst := if dst then l.dst + 1 else l.dst, cnt := l.cnt - 1 }

/-- Elements until CNT is 0, the stop test holds, or an interrupt comes after `lim` of them (R405). -/
def repeatGo (i : Ins) (one : State → Res Bool) : Nat → Option Nat → State → Res Flow
  | 0, _, s => .ok .seq s
  | fuel + 1, lim, s =>
    if cntOf s i.c = 0 then .ok .seq s
    else if lim = some 0 then .ok .again s
    else (one s).andThen fun r t => if stopsAt i r then .ok .seq t else repeatGo i one fuel (lim.map (· - 1)) t

/-- A string operation: one element if CNT is not 0, or as many as its prefix tells (R405). See log 33 (DEDUCED, unsafe). -/
def stringOp (one : Ins → State → Res Bool) (i : Ins) (s : State) : Res Flow :=
  if repeats i then repeatGo i (one i) (cntOf s i.c) i.lim s
  else if cntOf s i.c = 0 then .ok .seq s
  else (one i s).andThen fun _ t => .ok .seq t

/-- An element of MOVS (R404): words keep their tags; CAPW raises Capability Fault. -/
def movsOne (i : Ins) (s : State) : Res Bool :=
  let src := srcOf s i.c
  (readBarred i.c true src s).andThen fun w t =>
    if w.tag = 0x8 then .exc (capFault src 0) t
    else (storeAt i.c true (dstOf s i.c) w (tagTrap w.tag w.tag) t).andThen fun _ u => .ok true (elemDone i.c true true u)

/-- MOVS (R404). -/
def execIMovs (f : Fetch) (s : State) : Host.Outcome State Fault Refusal :=
  insn { encN 0x70 with rep := 1 } "MOVS" f (stringOp movsOne) s

/-- Whether a read answered a word tagged BAD. See log 33 (DEDUCED, unsafe). -/
def readsBad (r : Res Word) : Bool :=
  match r with
  | .ok w _ => decide (w.tag = 0xF)
  | _ => false

/-- A word that CMPS, SCAN or CRCS has read: BAD raises Poison, UNB Unbound Read, CAPW Capability Fault (R348, R404). -/
def stringWord (da : Nat) (w : Word) (s : State) : Res Word :=
  if w.tag = 0xF then .exc (poisonAt da) s else pushable da w s

/-- An element of CMPS (R404, R405). Poison of either word comes first (R385). -/
def cmpsOne (i : Ins) (s : State) : Res Bool :=
  let src := srcOf s i.c
  let dst := dstOf s i.c
  let r1 := readBarred i.c true src s
  let r2 := readBarred i.c true dst s
  if !readsBad r1 && readsBad r2 then .exc (poisonAt dst) s
  else
    (r1.andThen fun w t => stringWord src w t).andThen fun a t =>
    (readBarred i.c true dst t).andThen fun w u =>
    (stringWord dst w u).andThen fun b v =>
      .ok (decide (a = b)) (elemDone i.c true true (setPreds i.c i.imm (decide (a = b)) v))

/-- CMPS (R404, R405). -/
def execICmps (f : Fetch) (s : State) : Host.Outcome State Fault Refusal :=
  insn { encB 0x71 tfBad with rep := 2 } "CMPS" f (stringOp cmpsOne) s

/-- An element of FILL (R404). -/
def fillOne (i : Ins) (s : State) : Res Bool :=
  let x := inp (bankOf s i.c) 0
  let dst := dstOf s i.c
  if x.tag = 0xF then .exc (poisonAt dst) s
  else (storeAt i.c true dst x (tagTrap x.tag x.tag) s).andThen fun _ t => .ok true (elemDone i.c false true t)

/-- A string operation over inputs that stay on the stack (R404). -/
def stringWith (n : Nat) (one : Ins → State → Res Bool) (i : Ins) (s : State) : Res Flow :=
  (need i.c n s).andThen fun _ t => stringOp one i t

/-- FILL (R404). -/
def execIFill (f : Fetch) (s : State) : Host.Outcome State Fault Refusal :=
  insn { encN 0x72 with rep := 1 } "FILL" f (stringWith 1 fillOne) s

/-- An element of SCAN (R404, R405). -/
def scanOne (i : Ins) (s : State) : Res Bool :=
  let x := inp (bankOf s i.c) 0
  let src := srcOf s i.c
  if x.tag = 0xF then .exc (poisonAt 0) s
  else
    (readBarred i.c true src s).andThen fun w t =>
    (stringWord src w t).andThen fun a u =>
      .ok (decide (a = x)) (elemDone i.c true false (setPreds i.c i.imm (decide (a = x)) u))

/-- SCAN (R404, R405). -/
def execIScan (f : Fetch) (s : State) : Host.Outcome State Fault Refusal :=
  insn { encB 0x73 tfBad with rep := 2 } "SCAN" f (stringWith 1 scanOne) s

/-- An element of CRCS (R404, R406). -/
def crcsOne (i : Ins) (s : State) : Res Bool :=
  let l := (bankOf s i.c).take 2
  let src := srcOf s i.c
  if anyBad l then .exc (poisonAt 0) s
  else
    let r := readBarred i.c true src s
    if readsBad r then .exc (poisonAt src) s
    else if !allFixRaw l then .exc (tagTrapOf l) s
    else
      (r.andThen fun w t => stringWord src w t).andThen fun w t =>
        .ok true (elemDone i.c true false (setTop i.c 2 (pairOf 1 1 (crcWord (decide (i.imm = 1)) (pairVal l 0) w.data)) t))

/-- CRCS (R404, R406). -/
def execICrcs (f : Fetch) (s : State) : Host.Outcome State Fault Refusal :=
  insn { encB 0x74 crcBad with rep := 1 } "CRCS" f (stringWith 2 crcsOne) s

end Sys2Proof.Machine
end

