-- ==== Sys2Proof/Machine/LevelOps.lean ====
section
/-! DEFINITION. Levels, control state, synchronisation and capabilities (R364, R365, R407 to R409, R416, R417, R421 to R426). -/
namespace Sys2Proof.Machine
open Sys2Proof

/-- SWL (R407, R417): to the current level without effect, downwards, or upwards through a vector under a LEVEL capability. -/
def swlOp (i : Ins) (s : State) : Res Flow :=
  let x := coreOf s i.c
  let n := i.imm
  let next : BitVec 32 := BitVec.ofNat 32 i.next
  if n = lvlOf x then .ok .seq s
  else if n < lvlOf x then .ok .moved (swlDown i.c n next s)
  else if !holdsCap x (capLevel n) then .exc (capFault 0 3) s
  else .ok .moved (enterOrDouble i.c
    { lvl := n, vec := 0x10 + n, ra := next, ds := false, async := true, faddr := 0, opc := 0, det := 0 } (applySyncs i.c s))

/-- SWL (R407). -/
def execISwl (f : Fetch) (s : State) : Host.Outcome State Fault Refusal :=
  insn { (encB 0x80 fun v => decide (7 < v)) with xfer := 1 } "SWL" f swlOp s

/-- RETL (R416): to a level above the current one it is illegal. -/
def retlOp (i : Ins) (s : State) : Res Flow :=
  let x := coreOf s i.c
  if lvlOf x < bits (curLevel x).lnkSt.toNat 13 3 then .exc illegalOp s else .ok .moved (retl i.c s)

/-- RETL (R407). -/
def execIRetl (f : Fetch) (s : State) : Host.Outcome State Fault Refusal :=
  insn { encN 0x81 with xfer := 1 } "RETL" f retlOp s

/-- NOINT (R407, R421). -/
def nointOp (i : Ins) (s : State) : Res Flow :=
  if (coreOf s i.c).ni ≠ 0 then .exc illegalOp s else .ok .seq (updCore s i.c fun x => { x with ni := i.imm })

/-- NOINT (R407). -/
def execINoint (f : Fetch) (s : State) : Host.Outcome State Fault Refusal :=
  insn (encB 0x82 fun v => decide (v = 0) || decide (192 < v)) "NOINT" f nointOp s

/-- SETDOM (R407). -/
def setdomOp (i : Ins) (s : State) : Res Flow :=
  if !holdsCap (coreOf s i.c) (capDomain 0 i.imm) then .exc (capFault 0 6) s
  else .ok .seq (updLevel s i.c fun l => { l with dom := BitVec.ofNat 8 i.imm })

/-- SETDOM (R407). -/
def execISetdom (f : Fetch) (s : State) : Host.Outcome State Fault Refusal := insn (encB 0x83 noBad) "SETDOM" f setdomOp s

/-- The control state that RDC pushes, top first (R408). -/
def ctlWords (k : Nat) (l : LevelSt) : List Word :=
  match k with
  | 0 => pairOf 1 1 l.src.toNat
  | 1 => pairOf 1 1 l.dst.toNat
  | 2 => [rawW l.cnt]
  | 3 => pairOf 1 1 l.lstart.toNat
  | 4 => pairOf 1 1 l.lend.toNat
  | 5 => [rawW l.lcnt]
  | 6 => [rawW l.msk]
  | 7 => codePair l.lnkRa.toNat
  | _ => [rawW l.lnkSt]

/-- RDC (R407, R408). -/
def rdcOp (i : Ins) (s : State) : Res Flow :=
  (replaceTop i.c 0 (ctlWords i.imm (curLevel (coreOf s i.c))) s).andThen fun _ t => .ok .seq t

/-- RDC (R407). -/
def execIRdc (f : Fetch) (s : State) : Host.Outcome State Fault Refusal :=
  insn (encB 0x84 fun v => decide (8 < v)) "RDC" f rdcOp s

/-- The words of control state (R408). -/
def ctlLen (k : Nat) : Nat := if k = 2 ∨ k = 5 ∨ k = 6 ∨ k = 8 then 1 else 2

/-- Control state written from words, top first (R408). -/
def putCtl (k : Nat) (ws : List Word) (l : LevelSt) : LevelSt :=
  let v : BitVec 32 := BitVec.ofNat 32 (pairVal ws 0)
  let w := (inp ws 0).data
  match k with
  | 0 => { l with src := v }
  | 1 => { l with dst := v }
  | 2 => { l with cnt := w }
  | 3 => { l with lstart := v }
  | 4 => { l with lend := v }
  | 5 => { l with lcnt := w }
  | 6 => { l with msk := w }
  | 7 => { l with lnkRa := v }
  | _ => { l with lnkSt := w }

/-- WRC (R407, R408). -/
def wrcOp (i : Ins) (s : State) : Res Flow :=
  let n := ctlLen i.imm
  (inputs i.c n (if i.imm = 7 then allCode else allFixRaw) s).andThen fun l t =>
    .ok .seq (updLevel (setTop i.c n [] t) i.c (putCtl i.imm l))

/-- WRC (R407). -/
def execIWrc (f : Fetch) (s : State) : Host.Outcome State Fault Refusal :=
  insn (encB 0x85 fun v => decide (8 < v)) "WRC" f wrcOp s

/-- PUSHST (R407). -/
def execIPushst (f : Fetch) (s : State) : Host.Outcome State Fault Refusal :=
  insn (encN 0x86) "PUSHST" f (fun i t => (replaceTop i.c 0 [rawW (stNow (coreOf t i.c))] t).andThen fun _ u => .ok .seq u) s

/-- POPST writes only the flags (R368, R407). -/
def popstOp (i : Ins) (s : State) : Res Flow :=
  (inputs i.c 1 allFixRaw s).andThen fun l t =>
    let v := (inp l 0).data
    .ok .seq (setFlags i.c { n := v.getLsbD 3, z := v.getLsbD 2, v := v.getLsbD 1, c := v.getLsbD 0 } (setTop i.c 1 [] t))

/-- POPST (R407). -/
def execIPopst (f : Fetch) (s : State) : Host.Outcome State Fault Refusal := insn (encN 0x87) "POPST" f popstOp s

/-- SYNC (R407, R423): pending writes of sync ports and buffered stores are complete when it retires. -/
def execISync (f : Fetch) (s : State) : Host.Outcome State Fault Refusal :=
  insn (encN 0x88) "SYNC" f (fun i t => .ok .seq (drainCore i.c (applySyncs i.c t))) s

/-- SYNCI (R407, R426): this core's fetch sees the block as written. -/
def synciOp (i : Ins) (s : State) : Res Flow :=
  (inputs i.c 2 allCode s).andThen fun l t =>
    let a := pairVal l 0
    if !holdsCap (coreOf t i.c) (capIwrite a a) then .exc (capFault a 2) t
    else .ok .seq (updCore (setTop i.c 2 [] t) i.c fun x => { x with ist := x.ist.filter fun e => decide (e.1 / 256 ≠ a / 256) })

/-- SYNCI (R407). -/
def execISynci (f : Fetch) (s : State) : Host.Outcome State Fault Refusal :=
  insn { encN 0x89 with xfer := 1 } "SYNCI" f synciOp s

/-- WAITI (R407, R421): it retires, a NOINT count ends, and the core waits until an interrupt is taken. See log 35 (DEDUCED, unsafe). -/
def execIWaiti (f : Fetch) (s : State) : Host.Outcome State Fault Refusal :=
  insn { encN 0x8A with xfer := 1 } "WAITI" f
    (fun i t => .ok .seq (updCore t i.c fun x => { x with waiti := true, ni := 0 })) s

/-- A slot of the current level. -/
def capAt (s : State) (c k : Nat) : Cap := vAt (curLevel (coreOf s c)).caps k

/-- A slot of a level written. -/
def putCap (c lvl k : Nat) (v : Cap) (s : State) : State :=
  updCore s c fun x => { x with lv := vUpd x.lv lvl fun l => { l with caps := vSet l.caps k v } }

/-- A capability from the four words of a group, W0 first. -/
def capOf (w : Nat → Word) : Cap := { w0 := (w 0).data, w1 := (w 1).data, w2 := (w 2).data, w3 := (w 3).data }

/-- CDERIVE (R365, R409). See log 39 (DEDUCED, unsafe). -/
def cderiveOp (i : Ins) (s : State) : Res Flow :=
  (inputs i.c 4 allFixRaw s).andThen fun l t =>
    let req := capOf fun k => inp l (3 - k)
    if capOk req && capInside req (capAt t i.c (i.imm / 16)) then
      .ok .seq (putCap i.c (lvlOf (coreOf t i.c)) (i.imm % 16) req (setTop i.c 4 [] t))
    else .exc (capFault 0 0) t

/-- CDERIVE (R409). -/
def execICderive (f : Fetch) (s : State) : Host.Outcome State Fault Refusal := insn (encB 0x90 noBad) "CDERIVE" f cderiveOp s

/-- Whether a slot immediate has a reserved bit set (R409). -/
def slotBad (v : Nat) : Bool := decide (15 < v)

/-- CCLR (R365, R409). -/
def execICclr (f : Fetch) (s : State) : Host.Outcome State Fault Refusal :=
  insn (encB 0x91 slotBad) "CCLR" f
    (fun i t => .ok .seq (putCap i.c (lvlOf (coreOf t i.c)) i.imm Cap.reset t)) s

/-- CXFER (R365, R409). See log 39 (DEDUCED, unsafe). -/
def cxferOp (i : Ins) (s : State) : Res Flow :=
  let n := bits i.imm 8 3
  if lvlOf (coreOf s i.c) ≤ n then .exc (capFault 0 0) s
  else .ok .seq (putCap i.c n (bits i.imm 0 4) (capAt s i.c (bits i.imm 4 4)) s)

/-- CXFER (R409). -/
def execICxfer (f : Fetch) (s : State) : Host.Outcome State Fault Refusal :=
  insn { encW 0x92 with illAt := fun v => if bits v 11 5 ≠ 0 then some 1 else none } "CXFER" f cxferOp s

/-- The checks of four stores in ascending order, all made before any of them. -/
def planFour (c : Nat) (tt : Exc) (w : Nat → Word) (base : Nat) : List Nat → State → Res (List Plan)
  | [], s => .ok [] s
  | k :: ks, s =>
    (storeCheck c false (base + k) (w k) tt s).andThen fun p t =>
    (planFour c tt w base ks t).andThen fun ps u => .ok (p :: ps) u

/-- CSTORE (R365, R409). -/
def cstoreOp (i : Ins) (s : State) : Res Flow :=
  (inputs i.c 2 isRef s).andThen fun l t =>
    let a := capAt t i.c i.imm
    let w (k : Nat) : Word := { tag := 8, data := if k = 0 then a.w0 else if k = 1 then a.w1 else if k = 2 then a.w2 else a.w3 }
    (barrierBase i.c (pairVal l 0) t).andThen fun b u =>
    (planFour i.c (tagTrapOf l) w b [0, 1, 2, 3] u).andThen fun ps v =>
      .ok .seq (setTop i.c 2 [] (ps.foldl (fun x p => storeDo i.c false p x) v))

/-- CSTORE (R409). -/
def execICstore (f : Fetch) (s : State) : Host.Outcome State Fault Refusal := insn (encB 0x93 slotBad) "CSTORE" f cstoreOp s

/-- Words read in ascending order. -/
def readFour (c base : Nat) : List Nat → State → Res (List Word)
  | [], s => .ok [] s
  | k :: ks, s =>
    (readBarred c false (base + k) s).andThen fun w t =>
    (readFour c base ks t).andThen fun ws u => .ok (w :: ws) u

/-- CLOAD (R365, R409). See log 39 (DEDUCED, unsafe). -/
def cloadOp (i : Ins) (s : State) : Res Flow :=
  (inputs i.c 2 isRef s).andThen fun l t =>
  (barrierBase i.c (pairVal l 0) t).andThen fun b u =>
  (readFour i.c b [0, 1, 2, 3] u).andThen fun ws v =>
    let cap := capOf (inp ws)
    match (List.range 4).find? fun k => decide ((inp ws k).tag ≠ 8) with
    | some k => .exc (capFault (wrap32 (b + k)) 0) u
    | none =>
      if capOk cap then .ok .seq (putCap i.c (lvlOf (coreOf v i.c)) i.imm cap (setTop i.c 2 [] v))
      else .exc (capFault (wrap32 b) 0) u

/-- CLOAD (R409). -/
def execICload (f : Fetch) (s : State) : Host.Outcome State Fault Refusal := insn (encB 0x94 slotBad) "CLOAD" f cloadOp s

end Sys2Proof.Machine
end

