-- ==== Sys2Proof/Machine/User.lean ====
section
/-! DEFINITION. User instructions: the decode table, the micro-operations, micro-saves, and END (R410, R476 to R481, R484 to R487, R494). -/
namespace Sys2Proof.Machine
open Sys2Proof

/-- The first user-microcode fault since UCD_USTAT was cleared (R494). -/
def noteUser (c opc cause : Nat) (s : State) : State :=
  if s.ucode.ustat.getLsbD 15 then s
  else { s with ucode.ustat := BitVec.ofNat 16 (2 ^ 15 + cause * 2 ^ 12 + c * 2 ^ 8 + opc % 16) }

/-- A decode entry; without a loaded file every entry is invalid (R486). -/
def userEntry (s : State) (opc : Nat) : UEntry :=
  match s.ucode.user with
  | none => UEntry.reset
  | some f => (f.decode[opc - 0xF0]?).getD UEntry.reset

/-- The encoding that a decode entry gives its opcode (R410, R484). -/
def userEnc (opc : Nat) (e : UEntry) : Enc :=
  { encN opc with imm := min e.fmt.toNat 2, wide := e.x, dead := !e.v }

/-- A tag that an entry of the stack may carry: FWD, CAPW and MRK become RAW. -/
def stackTag (t : BitVec 4) : BitVec 4 := if [0x7, 0x8, 0xD].contains t.toNat then 1 else t

/-- A routine at its first microword: temporaries and micro-flags are free values. See log 15 (DESIGN CHOICE, safe). -/
def microStart (start : Nat) (s : State) : Micro × State :=
  let f := takeFresh s
  let v := Config.freeBits 85 f.1
  let w (k : Nat) : Word := { tag := stackTag (BitVec.ofNat 4 (v.toNat / 2 ^ (20 * k + 16))), data := BitVec.ofNat 16 (v.toNat / 2 ^ (20 * k)) }
  ({ Micro.reset with
      pc := start, mt := #v[w 0, w 1, w 2, w 3]
      fz := v.getLsbD 80, fn := v.getLsbD 81, fc := v.getLsbD 82, fv := v.getLsbD 83, ft := v.getLsbD 84 }, f.2)

/-- UOP of a microword (R478). -/
def uopOf (w : BitVec 24) : Nat := bits w.toNat 19 5

/-- A of a microword. -/
def uopA (w : BitVec 24) : Nat := bits w.toNat 17 2

/-- B of a microword. -/
def uopB (w : BitVec 24) : Nat := bits w.toNat 15 2

/-- IMM of a microword. -/
def uopImm (w : BitVec 24) : Nat := bits w.toNat 0 12

/-- A micro-temporary. -/
def mtOf (m : Micro) (k : Nat) : Word := vAt m.mt k

/-- A micro-temporary written, and on to the next microword. -/
def mtPut (m : Micro) (k : Nat) (w : Word) : Micro := { m with mt := vSet m.mt k w, pc := m.pc + 1 }

/-- On to the next microword. -/
def microNext (m : Micro) : Micro := { m with pc := m.pc + 1 }

/-- The result and flags of an ALU operation (R479, R396, R397). See log 38 (DESIGN CHOICE, safe). -/
def aluOf (op : Nat) (a b : BitVec 16) (cin : Bool) : BitVec 16 × Flags :=
  let p := mul32 Config.mulHiSigned a b
  match op with
  | 0 => raw2 .addw a b cin
  | 1 => raw2 .subw a b cin
  | 2 => raw2 .and a b cin
  | 3 => raw2 .or a b cin
  | 4 => raw2 .xor a b cin
  | 5 => shiftF .shl a b cin
  | 6 => shiftF .shr a b cin
  | 7 => shiftF .sar a b cin
  | 8 => shiftF .rol a b cin
  | 9 => shiftF .ror a b cin
  | 10 => (BitVec.ofNat 16 p.toNat, mulFlags Config.mulHiSigned p)
  | _ => (BitVec.ofNat 16 (p.toNat / 65536), mulFlags Config.mulHiSigned p)

/-- ALU (R479). -/
def aluStep (m : Micro) (a b op : Nat) : Micro :=
  let r := aluOf op (mtOf m a).data (mtOf m b).data m.fc
  { mtPut m a (rawW r.1) with fz := r.2.z, fn := r.2.n, fc := r.2.c, fv := r.2.v }

/-- A BR condition (R479). -/
def microCond (k : Nat) (m : Micro) : Bool :=
  match k with
  | 0 => true
  | 1 => m.ft
  | 2 => !m.ft
  | 3 => m.fz
  | 4 => !m.fz
  | 5 => m.fc
  | 6 => m.fv
  | _ => m.fn

/-- BR (R479): signed IMM[8:0] from this micro-address. -/
def brStep (m : Micro) (imm : Nat) : Micro :=
  if microCond (bits imm 9 3) m then
    { m with pc := if imm.testBit 8 then m.pc + imm % 512 - 512 else m.pc + imm % 512 }
  else microNext m

/-- The address pair of LDW and STW, top first (R391, R479). -/
def microPair (m : Micro) (b : Nat) : List Word := [mtOf m (b + 1), mtOf m b]

/-- LDW, under every rule of LD (R391, R479). -/
def ldwStep (c : Nat) (m : Micro) (a b : Nat) (s : State) : Res Micro :=
  let l := microPair m b
  if anyBad l then .exc (poisonAt 0) s
  else if !isRef l then .exc (tagTrapOf l) s
  else (loadThrough c (pairVal l 0) 0 s).andThen fun w t => .ok (mtPut m a w) t

/-- The checks of a held store, under every rule of ST (R391, R479). -/
def stwCheck (c : Nat) (l : List Word) (w : Word) (s : State) : Res Plan :=
  let base := pairVal l 0
  if anyBad l then .exc (poisonAt 0) s
  else if w.tag = 0xF then .exc (poisonAt base) s
  else if !isRef l then .exc (tagTrapOf l) s
  else (barrierBase c base s).andThen fun b t => storeCheck c false b w (tagTrapOf l) t

/-- STW (R479). -/
def stwStep (c : Nat) (m : Micro) (a b : Nat) (s : State) : Res Micro :=
  let l := microPair m b
  (stwCheck c l (mtOf m a) s).andThen fun _ t =>
    .ok { microNext m with held := some { port := false, addr := BitVec.ofNat 32 (pairVal l 0), val := mtOf m a } } t

/-- INP (R393, R479). -/
def inpStep (c : Nat) (m : Micro) (a b : Nat) (s : State) : Res Micro :=
  let p := (mtOf m b).data.toNat
  if (mtOf m b).tag = 0xF then .exc (poisonAt 0) s
  else if !holdsCap (coreOf s c) (capPort 0 p) then .exc (capFault p 1) s
  else
    let r := portRead c p s
    .ok (mtPut m a (rawW r.1)) r.2

/-- Whether OUTP may reach a port (R484, R487). -/
def outRange (s : State) (p : Nat) : Bool :=
  match s.ucode.user with
  | none => false
  | some f => decide (f.outLo.toNat ≤ p) && decide (p ≤ f.outHi.toNat)

/-- OUTP (R393, R479, R487). -/
def outpStep (c opc : Nat) (m : Micro) (a b : Nat) (s : State) : Res Micro :=
  let p := (mtOf m b).data.toNat
  let w := mtOf m a
  if (mtOf m b).tag = 0xF then .exc (poisonAt 0) s
  else if !outRange s p then .exc (capFault p 1) (noteUser c opc 2 s)
  else (outCheck c p w (tagTrap w.tag w.tag) s).andThen fun _ t =>
    .ok { microNext m with held := some { port := true, addr := BitVec.ofNat 32 p, val := w } } t

/-- PEEK (R479): an entry that is BAD is read, and raises Poison (R349). -/
def peekStep (c : Nat) (m : Micro) (a d : Nat) (s : State) : Res Micro :=
  (need c (d + 1) s).andThen fun l t =>
    if (inp l d).tag = 0xF then .exc (poisonAt 0) t else .ok (mtPut m a (inp l d)) t

/-- The held write checked again before END changes anything: what it will do (R385, R479). See log 37 (DESIGN CHOICE, unsafe). -/
def heldCheck (c : Nat) (h : Option HeldWrite) (s : State) : Res (State → State) :=
  match h with
  | none => .ok (fun t => t) s
  | some w =>
    if w.port then
      (outCheck c w.addr.toNat w.val (tagTrap w.val.tag w.val.tag) s).andThen fun _ t =>
        .ok (portWrite c w.addr.toNat w.val.data) t
    else
      (stwCheck c (refPair w.addr.toNat) w.val s).andThen fun p t => .ok (storeDo c false p) t

/-- END (R479): pops, pushes and the held write, as one retirement. -/
def endStep (c : Nat) (m : Micro) (imm : Nat) (s : State) : Res Flow :=
  let n := imm % 16
  let push := bits imm 4 2
  (need c n s).andThen fun _ t =>
  (heldCheck c m.held t).andThen fun act u =>
  (replaceTop c n ((List.range push).map fun k => mtOf m (push - 1 - k)) u).andThen fun _ v =>
    let w := if imm.testBit 6 then setFlags c { n := m.fn, z := m.fz, v := m.fv, c := m.fc } v else v
    .ok .seq (act (updLevel w c fun l => { l with micro := none }))

/-- A microword that may not be executed: UCODE_PAR, and a machine check (R477). -/
def badMicro {α : Type} (c pc : Nat) (s : State) : Res α :=
  .check 5 (raiseFault 19 (BitVec.ofNat 32 (c * 65536 + 0x4400 + pc)) s)

/-- One microword of a user routine other than END and TRAP (R479). -/
def microStep (i : Ins) (opc : Nat) (w : BitVec 24) (m : Micro) (s : State) : Res Micro :=
  let c := i.c
  let a := uopA w
  let b := uopB w
  let imm := uopImm w
  match uopOf w with
  | 0x00 => .ok (microNext m) s
  | 0x01 => peekStep c m a (imm % 16) s
  | 0x02 => .ok (mtPut m a (rawW ((BitVec.ofNat 12 imm).signExtend 16))) s
  | 0x03 => .ok (mtPut m a (rawW (BitVec.ofNat 16 (if imm.testBit 0 then i.imm / 65536 else i.imm)))) s
  | 0x04 => .ok (aluStep m a b (imm % 16)) s
  | 0x05 => .ok (mtPut m a { mtOf m a with tag := BitVec.ofNat 4 imm }) s
  | 0x06 => .ok { microNext m with ft := decide ((mtOf m a).tag.toNat = imm % 16) } s
  | 0x07 => .ok (brStep m imm) s
  | 0x08 => ldwStep c m a b s
  | 0x09 => stwStep c m a b s
  | 0x0A => inpStep c m a b s
  | 0x0B => outpStep c opc m a b s
  | _ => badMicro c m.pc s

/-- A user routine from a microword on, for at most `fuel` of them; an interrupt after `lim` of them saves it (R480, R487).
See log 37 (DESIGN CHOICE, unsafe). -/
def microRun (i : Ins) (opc : Nat) : Nat → Option Nat → Micro → State → Res Flow
  | 0, _, _, s => .exc illegalOp (noteUser i.c opc 1 s)
  | fuel + 1, lim, m, s =>
    if lim = some 0 then .ok .again (updLevel s i.c fun l => { l with micro := some m })
    else match (s.ucode.user.bind fun f => f.words[m.pc]?) with
      | none => badMicro i.c m.pc s
      | some w =>
        let m1 := { m with count := m.count + 1 }
        if uopOf w = 0x0C then .exc (exc0 (bits (uopImm w) 0 9)) s
        else if uopOf w = 0x0D then endStep i.c m1 (uopImm w) s
        else (microStep i opc w m1 s).andThen fun m2 t => microRun i opc fuel (lim.map (· - 1)) m2 t

/-- A user instruction's body: from its micro-save where it has one, else from its first microword (R480, R484).
See log 37 (DESIGN CHOICE, unsafe). -/
def userBody (opc : Nat) (e : UEntry) (i : Ins) (s : State) : Res Flow :=
  match (curLevel (coreOf s i.c)).micro with
  | some m => microRun i opc (1024 - m.count) i.lim m s
  | none =>
    let r := microStart e.start s
    microRun i opc 1024 i.lim r.1 r.2

/-- The report of an invalid entry, where it is what made decode illegal (R410, R487). -/
def noteInvalid (c opc : Nat) (e : UEntry) (f : Fetch) (s : State) : State :=
  if !e.v && decide (decodeExc (userEnc opc e) f.pre f.imm.toNat (coreOf s c) = some illegalOp) && (prefixBad [] 0 f.pre).isNone then
    noteUser c opc 3 s
  else s

/-- USER_INSTRUCTION (R410, R486, R487): held while a UOP_LOAD commits. See log 37 (DESIGN CHOICE, unsafe). -/
def execUserInstruction (opc : Byte) (f : Fetch) (s : State) : Host.Outcome State Fault Refusal :=
  let c := f.core.val
  let e := userEntry s opc.toNat
  if opc.toNat < 0xF0 ∨ prefixesOnly f.pre = false then .refused (.illFormed "USER_INSTRUCTION")
  else whenDue (able c s && s.ucode.commit.isNone) s
    (runInsn (userEnc opc.toNat e) f (userBody opc.toNat e) (noteInvalid c opc.toNat e f s))

end Sys2Proof.Machine
end

