-- ==== Sys2Proof/Machine/Events.lean ====
section
/-! DEFINITION. The events of a core: interrupt, machine check and power-fail entry, Deferred Store Errors, NOINT, the spill engine at
work in the background, and the end of a wait on MRK (R361, R362, R418 to R422, R459). -/
namespace Sys2Proof.Machine
open Sys2Proof

/-- A core's requests at L1 to L6 as their sources now assert them; they are level-sensitive (R419). -/
def assertReq (c : Nat) (req : BitVec 8) (s : State) : State := updCore s c fun x => { x with ireq := req &&& 0x7E#8 }

/-- INTERRUPT_ENTRY (R419, R420). -/
def execInterruptEntry (core : Fin 16) (req : BitVec 8) (s : State) : Host.Outcome State Fault Refusal :=
  let t := assertReq core.val req s
  .next (match entryDue core.val t with
    | some (.irq m) => takeDue core.val (.irq m) t
    | _ => t)

/-- A microword fetched by a core's instruction fails its parity: UCODE_PAR, and a machine check at the instruction (R477).
See log 32 (DESIGN CHOICE, safe). -/
def microFail (c : Nat) (a : BitVec 15) (s : State) : State :=
  checkAt c (coreOf s c).ia.toNat 0 5 (raiseFault 19 (BitVec.ofNat 32 (c * 65536 + a.toNat)) s)

/-- MACHINE_CHECK (R418, R477): a pending check is taken, or a microword's parity fails. See log 32 (DESIGN CHOICE, safe). -/
def execMachineCheck (core : Fin 16) (par : Option (BitVec 15)) (s : State) : Host.Outcome State Fault Refusal :=
  let c := core.val
  .next (match par with
    | some a => if able c s && (coreOf s c).running then microFail c a s else s
    | none => match entryDue c s with
      | some .check => takeDue c .check s
      | _ => s)

/-- POWER_FAIL_ENTRY (R418). -/
def execPowerFailEntry (core : Fin 16) (s : State) : Host.Outcome State Fault Refusal :=
  .next (match entryDue core.val s with
    | some .powerFail => takeDue core.val .powerFail s
    | _ => s)

/-- A store on the array fails: it has no effect, and its core has a Deferred Store Error pending (R422, R445). -/
def storeFails (c : Nat) (fail : StoreFail) (s : State) : State :=
  match fail with
  | .pending => s
  | .buffered => match (coreOf s c).sbuf with
    | [] => s
    | (_, da, _) :: rest => updCore s c fun x => { x with sbuf := rest, dsePend := x.dsePend ++ [BitVec.ofNat 32 da] }
  | .line tile set way =>
    match (tileOf s tile.val).lines.find? fun l => l.set == set.val && l.way == way.val && l.dirty with
    | none => s
    | some l => match l.la with
      | .sram _ => s
      | .seg _ => updCore (dropLine tile.val l.la s) l.core fun x => { x with dsePend := x.dsePend ++ [BitVec.ofNat 32 l.da] }

/-- DEFERRED_STORE_ERROR (R422). -/
def execDeferredStoreError (core : Fin 16) (fail : StoreFail) (s : State) : Host.Outcome State Fault Refusal :=
  let t := storeFails core.val fail s
  .next (match entryDue core.val t with
    | some (.store da) => takeDue core.val (.store da) t
    | _ => t)

/-- NOINT_EXPIRY (R421). -/
def execNointExpiry (core : Fin 16) (s : State) : Host.Outcome State Fault Refusal :=
  .next (updCore s core.val fun x => { x with ni := 0 })

/-- The spill engine's work in the background: a machine check it meets becomes pending (R362). It rests between a branch and its delay
slot, and where it meets a header tagged MRK or FWD. See log 34 (DESIGN CHOICE, unsafe). -/
def engineRun (c : Nat) (r : Res Unit) (s : State) : State :=
  if !coreUp c s || (coreOf s c).slot.isSome then s
  else match r with
    | .ok _ t => t
    | .check d t => updCore t c fun x => { x with mcPend := true, mcDet := BitVec.ofNat 8 d }
    | _ => s

/-- SPILL_ENGINE_SPILL (R361). See log 34 (DESIGN CHOICE, unsafe). -/
def execSpillEngineSpill (core : Fin 16) (s : State) : Host.Outcome State Fault Refusal :=
  .next (engineRun core.val (spillRun core.val s) s)

/-- SPILL_ENGINE_REFILL (R361). See log 34 (DESIGN CHOICE, unsafe). -/
def execSpillEngineRefill (core : Fin 16) (s : State) : Host.Outcome State Fault Refusal :=
  .next (engineRun core.val (refillRun core.val s) s)

/-- Whether the word a core waits on is still tagged MRK. -/
def stillMrk (c : Nat) (da : BitVec 32) (s : State) : Bool :=
  match readWord c false da.toNat s with
  | .ok w _ => decide (w.tag = 0xD)
  | _ => false

/-- HEAP_MRK_WAIT_END (R459): the header has changed, and the waiting access may read it again. See log 35 (DEDUCED, unsafe). -/
def execHeapMrkWaitEnd (core : Fin 16) (s : State) : Host.Outcome State Fault Refusal :=
  let c := core.val
  .next (match (coreOf s c).mrkWait with
    | none => s
    | some da => if stillMrk c da s then s else updCore s c fun x => { x with mrkWait := none })

end Sys2Proof.Machine
end

