-- ==== Sys2Proof/Machine/PortCmds.lean ====
section
/-! DEFINITION. Commands that are writes or reads of single registers, and the ends of what they start (R11, R216, R442 to R444, R455,
R483, R492, R539, R550, R552, R560, R563 to R567). -/
namespace Sys2Proof.Machine
open Sys2Proof

/-- WATCHDOG_ARM (R539): a write of PWR_WDCTL with EN and K. -/
def execWatchdogArm (core : Fin 16) (k : BitVec 4) (s : State) : Host.Outcome State Fault Refusal :=
  whenDue s.pwr.released s (wdWrite core.val (BitVec.ofNat 16 (2 ^ 15 + k.toNat)) s)

/-- WATCHDOG_KICK (R539): a write of PWR_WDCTL with KICK and K. -/
def execWatchdogKick (core : Fin 16) (k : BitVec 4) (s : State) : Host.Outcome State Fault Refusal :=
  whenDue s.pwr.released s (wdWrite core.val (BitVec.ofNat 16 (2 ^ 14 + k.toNat)) s)

/-- TIME_CAPTURE (R552, R553). -/
def execTimeCapture (s : State) : Host.Outcome State Fault Refusal := whenDue s.pwr.released s (timeCapture s)

/-- COUNTER_SELECT (R216, R217). -/
def execCounterSelect (v : BitVec 16) (s : State) : Host.Outcome State Fault Refusal := whenDue s.pwr.released s (cselWrite v s)

/-- HOST_LINK_MIRROR_CAPTURE (R560): an IN from an even port of the mirror. -/
def execHostLinkMirrorCapture (core : Fin 16) (k : Fin 128) (s : State) : Host.Outcome State Fault Refusal :=
  whenDue s.pwr.released s (portRead core.val (0x2C00 + 2 * k.val) s).2

/-- WAKE_CAUSE_READ (R550). -/
def execWakeCauseRead (s : State) : Host.Outcome State Fault Refusal := whenDue s.pwr.released s (readEffect 0 0x4004 s)

/-- STARTUP left for RECOVERY: the patches lock, and a change in the acceptance of early appends is told (R311, R483, R527).
See log 42 (DESIGN CHOICE, unsafe). -/
def leaveStartup (s : State) : State :=
  if s.pwr.phase = .startup then
    let t := { lockPatches s with pwr := { s.pwr with phase := .recovery } }
    if earlyAccepted t != earlyAccepted s then readyMsg t (earlyAccepted t) else t
  else s

/-- PATCH_LOCK (R483): UCD_CTRL.LOCKSET, or the end of STARTUP. See log 42 (DESIGN CHOICE, unsafe). -/
def execPatchLock (leave : Bool) (s : State) : Host.Outcome State Fault Refusal :=
  whenDue (s.pwr.released && !inLoss s) s (if leave then leaveStartup s else lockPatches s)

/-- PATCH_WORD_WRITE (R492). -/
def execPatchWordWrite (lo : BitVec 16) (s : State) : Host.Outcome State Fault Refusal := whenDue s.pwr.released s (patchWord lo s)

/-- A write of CCH_MOP with GO by a core (R443, R462). -/
def mopCmd (op : Nat) (m : MopArgs) (s : State) : State :=
  let c := m.core.val
  if s.cache.busy then s
  else mopWrite c (domOf s c) (BitVec.ofNat 16 (2 ^ 15 + op * 2 ^ 13 + m.mode.toNat * 2 ^ 11 + m.tile.toNat * 2 ^ 6)) s

/-- CACHE_CLEAN (R443, R444). -/
def execCacheClean (m : MopArgs) (s : State) : Host.Outcome State Fault Refusal := whenDue s.pwr.released s (mopCmd 1 m s)

/-- CACHE_INVALIDATE (R443, R444). -/
def execCacheInvalidate (m : MopArgs) (s : State) : Host.Outcome State Fault Refusal := whenDue s.pwr.released s (mopCmd 2 m s)

/-- CACHE_CLEAN_INVALIDATE (R443, R444). -/
def execCacheCleanInvalidate (m : MopArgs) (s : State) : Host.Outcome State Fault Refusal := whenDue s.pwr.released s (mopCmd 3 m s)

/-- CACHE_MAINTENANCE_COMPLETE (R444). See log 25 (DESIGN CHOICE, unsafe). -/
def execCacheMaintenanceComplete (s : State) : Host.Outcome State Fault Refusal := .next { s with cache.busy := false }

/-- CACHE_WAY_POWER_DOWN (R442): bits of CCH_PWRt written 0. -/
def execCacheWayPowerDown (tile : Fin 4) (ways : BitVec 8) (s : State) : Host.Outcome State Fault Refusal :=
  whenDue s.pwr.released s (updTile s tile.val fun x => wayPower (x.en &&& ~~~ways) x)

/-- CACHE_WAY_SWEEP_COMPLETE (R442): a DOZE entry that waited for it goes on. See log 25 (DESIGN CHOICE, unsafe). -/
def execCacheWaySweepComplete (tile : Fin 4) (s : State) : Host.Outcome State Fault Refusal :=
  whenDue (decide ((tileOf s tile.val).sweep ≠ 0)) s (settleEntry (sweepEnd tile.val s))

/-- CACHE_WAY_POWER_UP (R442): bits of CCH_PWRt written 1. -/
def execCacheWayPowerUp (tile : Fin 4) (ways : BitVec 8) (s : State) : Host.Outcome State Fault Refusal :=
  whenDue s.pwr.released s (updTile s tile.val fun x => wayPower (x.en ||| ways) x)

/-- A write by an OUT of a core that a check of authority may refuse with Capability Fault (R364). See log 29 (DESIGN CHOICE, unsafe). -/
def gated (c : Nat) (may : Bool) (e : Exc) (t s : State) : Host.Outcome State Fault Refusal :=
  whenDue (able c s) s (if may then t else trapAt c (coreOf s c).ia.toNat 0x29 e s)

/-- A write of MMU_INV with GO by a core, under DOMAIN with TABLES (R455, R473). -/
def invCmd (c op dom : Nat) (s : State) : Host.Outcome State Fault Refusal :=
  let v : BitVec 16 := BitVec.ofNat 16 (2 ^ 15 + op * 2 ^ 12 + dom)
  gated c ((outMay c 0xC08 v s).isNone) ((outMay c 0xC08 v s).getD default)
    (if s.mmu.busy then s else invWrite v s) s

/-- TLB_INVALIDATE_DOMAIN (R455). -/
def execTlbInvalidateDomain (core : Fin 16) (dom : BitVec 8) (s : State) : Host.Outcome State Fault Refusal :=
  invCmd core.val 1 dom.toNat s

/-- TLB_INVALIDATE_ADDRESS (R455): the address stands in MMU_IADDR. -/
def execTlbInvalidateAddress (core : Fin 16) (dom : BitVec 8) (s : State) : Host.Outcome State Fault Refusal :=
  invCmd core.val 2 dom.toNat s

/-- TLB_INVALIDATE_ALL (R455). -/
def execTlbInvalidateAll (core : Fin 16) (s : State) : Host.Outcome State Fault Refusal := invCmd core.val 3 0 s

/-- TLB_INVALIDATE_SEGNO (R455): the SEGNO stands in MMU_IADDR. -/
def execTlbInvalidateSegno (core : Fin 16) (s : State) : Host.Outcome State Fault Refusal := invCmd core.val 4 0 s

/-- TLB_INVALIDATION_COMPLETE (R455). See log 25 (DESIGN CHOICE, unsafe). -/
def execTlbInvalidationComplete (s : State) : Host.Outcome State Fault Refusal := .next { s with mmu.busy := false }

/-- A write of SEAL_CTL with GO by a core (R563, R565). -/
def sealCmd (c op : Nat) (s : State) : Host.Outcome State Fault Refusal :=
  let v : BitVec 16 := BitVec.ofNat 16 (2 ^ 15 + op * 2 ^ 12)
  gated c ((outMay c 0x1800 v s).isNone) ((outMay c 0x1800 v s).getD default) (sealCtlWrite c v s) s

/-- SEAL_XTS_ENCRYPT (R564). -/
def execSealXtsEncrypt (core : Fin 16) (s : State) : Host.Outcome State Fault Refusal := sealCmd core.val 1 s

/-- SEAL_XTS_DECRYPT (R564). -/
def execSealXtsDecrypt (core : Fin 16) (s : State) : Host.Outcome State Fault Refusal := sealCmd core.val 2 s

/-- SEAL_CHAIN_EXTEND (R564). -/
def execSealChainExtend (core : Fin 16) (s : State) : Host.Outcome State Fault Refusal := sealCmd core.val 3 s

/-- SEAL_VERIFY (R564). -/
def execSealVerify (core : Fin 16) (s : State) : Host.Outcome State Fault Refusal := sealCmd core.val 4 s

/-- SEAL_OPERATION_COMPLETE (R564, R567). See log 26 (DESIGN CHOICE, unsafe). -/
def execSealOperationComplete (core : Fin 16) (s : State) : Host.Outcome State Fault Refusal :=
  whenDue (sealOf s core.val).busy s (sealRun core.val s)

/-- REGISTER_WRITE (R11): a write of a host-window register by its offset, or of a port as it takes effect. See log 29 (DESIGN CHOICE, unsafe). -/
def execRegisterWrite (host : Bool) (core : Fin 16) (addr : BitVec 16) (v : BitVec 32) (s : State) : Host.Outcome State Fault Refusal :=
  whenDue s.pwr.released s
    (if host then hwWrite addr.toNat v s else portEffect core.val (domOf s core.val) addr.toNat (BitVec.ofNat 16 v.toNat) s)

end Sys2Proof.Machine
end

