-- ==== Sys2Proof/Machine/Heap.lean ====
section
/-! DEFINITION. Compaction of heap segments: objects moved, and the scan of marked cards (R135, R353, R459, R460). -/
namespace Sys2Proof.Machine
open Sys2Proof

/-- A Barchan engine as an agent of its tile (R438, R465). -/
def barchan (n : Nat) : Agent := { tile := n, req := 4, core := 0 }

/-- A heap word as a Barchan engine reads it: buffered stores first drain. -/
def heapRead (a : Nat) (s : State) : Word := let l := segLine a; seenWord s l.1 l.2

/-- A heap word written by a Barchan engine. -/
def heapWrite (n a : Nat) (w : Word) (s : State) : State := let l := segLine a; storeWord (barchan n) true l.1 l.2 0 w s

/-- Words copied in ascending order. -/
def heapCopy (n src dst : Nat) : Nat → State → State
  | 0, s => s
  | k + 1, s => heapCopy n (src + 1) (dst + 1) k (heapWrite n dst (heapRead src s) s)

/-- Whether a segment word address lies in a mapped heap segment. -/
def inHeap (a : Nat) (s : State) : Bool :=
  match mapLook s (a / 131072) with
  | some e => !kindPacked e.kind && decide (a % 131072 < 65536)
  | none => false

/-- The length of an object by its header (R353). -/
def objLen (w : Word) : Nat := w.data.toNat % 4096 + 1

/-- The move of an object finished: copied with its header, then forwarded by the pair after it (R135, R353). `da` is the D-space address
of the copy that the pair holds. See log 40 (DESIGN CHOICE, unsafe). -/
def finishMove (n src dst : Nat) (da : BitVec 32) (s : State) : State :=
  let h := heapRead src s
  let s1 := heapCopy n (src + 1) (dst + 1) (objLen h - 1) (heapWrite n dst { h with tag := 6 } s)
  let s2 := heapWrite n (src + 1) { tag := 4, data := BitVec.ofNat 16 (da.toNat / 65536) } s1
  let s3 := heapWrite n (src + 2) { tag := 5, data := BitVec.ofNat 16 da.toNat } s2
  heapWrite n src { tag := 7, data := 0 } s3

/-- HEAP_OBJECT_MOVE (R93, R135, R353, R459): first the header is marked MRK; with `copied` the object that is marked is copied and forwarded,
which an engine does even when it is to suspend. After the last object the source waits for its scan. A power-loss sequence stops it.
See log 40 (DESIGN CHOICE, unsafe). -/
def execHeapObjectMove (engine : Fin 4) (src dst : Nat) (da : BitVec 32) (copied last : Bool) (s0 : State) :
    Host.Outcome State Fault Refusal :=
  let n := engine.val
  let s := drainCores s0
  let h := heapRead src s
  let len := objLen h
  let busy (v : Option Nat) (t : State) : State := { t with arr.heapEng := vSet t.arr.heapEng n v }
  .next (if !s.pwr.released || inLoss s || !inHeap src s || decide (65536 < src % 131072 + len) then s0
  else if copied then
    if h.tag = 0xD ∧ inHeap dst s = true ∧ dst % 131072 + len ≤ 65536 ∧ 3 ≤ len then
      let t := busy (if last then none else some (src / 131072)) (finishMove n src dst da s)
      if last ∧ t.arr.heapDone.contains (src / 131072) = false then { t with arr.heapDone := t.arr.heapDone ++ [src / 131072] } else t
    else s0
  else if h.tag = 6 ∧ barchanSusp s = false ∧ (vAt s.arr.moves n).isNone = true then
    busy (some (src / 131072)) (heapWrite n src { h with tag := 0xD } s)
  else s0)

/-- The mapped heap segments, those of the metadata area last (R126). See log 40 (DESIGN CHOICE, unsafe). See log 64 (DESIGN CHOICE, unsafe). -/
def heapSegs (s : State) : List Nat :=
  (s.arr.map.filter fun e => !kindPacked e.2.kind).map (·.1)
    ++ ((List.range metaSegs).drop 584).filterMap fun i =>
      if (look (metaBase + i) s.arr.map).isNone && (mapLook s (metaBase + i)).isSome then some (metaBase + i) else none

/-- Whether a D-space address reaches a segment through stage 1 of some domain: for which domain a reference in the heap is meant, its words
do not say. See log 40 (DESIGN CHOICE, unsafe). -/
def refReaches (src da : Nat) (s : State) : Bool :=
  s.mmu.desc.any fun d =>
    match stage1 0 d.1 da s with
    | .ok (l, _) => (match entryPhys (leafEntry d.1 da l) da with | .seg a => a / 131072 == src | _ => false)
    | .error _ => false

/-- Whether a reference pair that begins at a word refers into a segment (R351). -/
def pairInto (src a : Nat) (s : State) : Bool :=
  let h := heapRead a s
  let l := heapRead (a + 1) s
  h.tag == 4 && l.tag == 5 && refReaches src (h.data.toNat * 65536 + l.data.toNat) s

/-- Whether an anchor that begins at a word refers into a segment (R354). -/
def anchorInto (src a : Nat) (s : State) : Bool :=
  let x := heapRead a s
  let y := heapRead (a + 1) s
  x.tag == 0xB && y.tag == 0xB && (heapRead (a + 2) s).tag == 0xB && x.data.toNat * 64 + y.data.toNat / 1024 == src

/-- Whether a word belongs to a reference or an anchor into a segment. See log 40 (DESIGN CHOICE, unsafe). -/
def wordInto (src a : Nat) (s : State) : Bool :=
  pairInto src a s || pairInto src (a - 1) s || anchorInto src a s || anchorInto src (a - 1) s || anchorInto src (a - 2) s

/-- Whether a card of 64 words holds a word that refers into a segment (R135, R460). See log 40 (DESIGN CHOICE, unsafe). -/
def cardInto (src k : Nat) (s : State) : Bool :=
  (List.range 64).any fun i => wordInto src (k / 1024 * 131072 + k % 1024 * 64 + i) s

/-- CARD_SCAN (R93, R135, R460) by an engine that moves no segment: the remembered bits are set and the segments' translations invalidated, and each marked card is cleared and
scanned. Where no marked card holds a reference into a finished source, the source returns to the pool and nothing stays remembered.
See log 40 (DESIGN CHOICE, unsafe). -/
def execCardScan (src : Nat) (engine : Fin 4) (s0 : State) : Host.Outcome State Fault Refusal :=
  let s := drainCores s0
  .next (if !s.pwr.released || inLoss s || barchanSusp s || (vAt s.arr.moves engine.val).isSome || !(heapSegs s).contains src then s0
  else if !s.arr.remembered.contains src then
    let gs := heapSegs s
    { tlbDrop (fun e => gs.any fun g => maps g e) s with arr.remembered := gs }
  else
    let found := (s.arr.cards.map (·.1)).any fun k => cardInto src k s
    let t := { s with arr.cards := [] }
    if !found && t.arr.heapDone.contains src then
      let gs := heapSegs t
      let u := unmapSeg (tlbDrop (fun e => gs.any fun g => maps g e) t) src
      mediaTest { u with arr := { u.arr with remembered := [], heapDone := u.arr.heapDone.filter (· != src) } }
    else t)

end Sys2Proof.Machine
end

