-- ==== Sys2Proof/Machine/HostCmds.lean ====
section
/-! DEFINITION. The host commands: a packet of each opcode arrives (R261). What it then does stands in `dispatch`. -/
namespace Sys2Proof.Machine
open Sys2Proof

/-- IDENTIFY (R263). -/
def execIdentify (c : CmdIn) (s : State) : Host.Outcome State Fault Refusal := .next (arrive 0x0001 c s)

/-- GET_STATUS (R264). -/
def execGetStatus (c : CmdIn) (s : State) : Host.Outcome State Fault Refusal := .next (arrive 0x0002 c s)

/-- SESSION_OPEN (R194). -/
def execSessionOpen (c : CmdIn) (s : State) : Host.Outcome State Fault Refusal := .next (arrive 0x0010 c s)

/-- SESSION_CLOSE (R266). -/
def execSessionClose (c : CmdIn) (s : State) : Host.Outcome State Fault Refusal := .next (arrive 0x0011 c s)

/-- ATTEST (R209). -/
def execAttest (c : CmdIn) (s : State) : Host.Outcome State Fault Refusal := .next (arrive 0x0012 c s)

/-- STREAM_CREATE (R268). -/
def execStreamCreate (c : CmdIn) (s : State) : Host.Outcome State Fault Refusal := .next (arrive 0x0020 c s)

/-- STREAM_OPEN (R269). -/
def execStreamOpen (c : CmdIn) (s : State) : Host.Outcome State Fault Refusal := .next (arrive 0x0021 c s)

/-- STREAM_CLOSE (R269). -/
def execStreamClose (c : CmdIn) (s : State) : Host.Outcome State Fault Refusal := .next (arrive 0x0022 c s)

/-- STREAM_APPEND (R270). -/
def execStreamAppend (c : CmdIn) (s : State) : Host.Outcome State Fault Refusal := .next (arrive 0x0023 c s)

/-- STREAM_READ (R271). -/
def execStreamRead (c : CmdIn) (s : State) : Host.Outcome State Fault Refusal := .next (arrive 0x0024 c s)

/-- STREAM_SEAL (R273). -/
def execStreamSeal (c : CmdIn) (s : State) : Host.Outcome State Fault Refusal := .next (arrive 0x0025 c s)

/-- STREAM_TRIM (R58). -/
def execStreamTrim (c : CmdIn) (s : State) : Host.Outcome State Fault Refusal := .next (arrive 0x0026 c s)

/-- STREAM_INFO (R275). -/
def execStreamInfo (c : CmdIn) (s : State) : Host.Outcome State Fault Refusal := .next (arrive 0x0027 c s)

/-- STREAM_DELETE (R60). -/
def execStreamDelete (c : CmdIn) (s : State) : Host.Outcome State Fault Refusal := .next (arrive 0x0028 c s)

/-- BOOT_STAGE (R222). -/
def execBootStage (c : CmdIn) (s : State) : Host.Outcome State Fault Refusal := .next (arrive 0x0030 c s)

/-- BOOT_COMMIT (R223). -/
def execBootCommit (c : CmdIn) (s : State) : Host.Outcome State Fault Refusal := .next (arrive 0x0031 c s)

/-- BOOT_ACTIVATE (R225). -/
def execBootActivate (c : CmdIn) (s : State) : Host.Outcome State Fault Refusal := .next (arrive 0x0032 c s)

/-- RULE_LOAD (R164). -/
def execRuleLoad (c : CmdIn) (s : State) : Host.Outcome State Fault Refusal := .next (arrive 0x0040 c s)

/-- RULE_BIND (R166). -/
def execRuleBind (c : CmdIn) (s : State) : Host.Outcome State Fault Refusal := .next (arrive 0x0041 c s)

/-- RULE_UNLOAD (R170). -/
def execRuleUnload (c : CmdIn) (s : State) : Host.Outcome State Fault Refusal := .next (arrive 0x0042 c s)

/-- EXT_LOAD (R279). -/
def execExtLoad (c : CmdIn) (s : State) : Host.Outcome State Fault Refusal := .next (arrive 0x0050 c s)

/-- UOP_LOAD (R485). -/
def execUopLoad (c : CmdIn) (s : State) : Host.Outcome State Fault Refusal := .next (arrive 0x0051 c s)

/-- FAULT_READ (R281). -/
def execFaultRead (c : CmdIn) (s : State) : Host.Outcome State Fault Refusal := .next (arrive 0x0060 c s)

/-- FAULT_CLEAR (R282). -/
def execFaultClear (c : CmdIn) (s : State) : Host.Outcome State Fault Refusal := .next (arrive 0x0061 c s)

/-- FAULT_INJECT (R510). -/
def execFaultInject (c : CmdIn) (s : State) : Host.Outcome State Fault Refusal := .next (arrive 0x0062 c s)

/-- POWER_STATE (R283). -/
def execPowerState (c : CmdIn) (s : State) : Host.Outcome State Fault Refusal := .next (arrive 0x0070 c s)

/-- HOLDUP_TEST (R102). -/
def execHoldupTest (c : CmdIn) (s : State) : Host.Outcome State Fault Refusal := .next (arrive 0x0071 c s)

/-- PROVISION (R189). -/
def execProvision (c : CmdIn) (s : State) : Host.Outcome State Fault Refusal := .next (arrive 0x0080 c s)

/-- KEY_ROTATE (R286). -/
def execKeyRotate (c : CmdIn) (s : State) : Host.Outcome State Fault Refusal := .next (arrive 0x0081 c s)

/-- COUNTER_BUMP (R207). -/
def execCounterBump (c : CmdIn) (s : State) : Host.Outcome State Fault Refusal := .next (arrive 0x0082 c s)

/-- SANITIZE (R212). -/
def execSanitize (c : CmdIn) (s : State) : Host.Outcome State Fault Refusal := .next (arrive 0x0083 c s)

/-- DEBUG_UNLOCK (R213). -/
def execDebugUnlock (c : CmdIn) (s : State) : Host.Outcome State Fault Refusal := .next (arrive 0x00F0 c s)

end Sys2Proof.Machine
end

