-- ==== Sys2Proof/Machine/Jtag.lean ====
section
/-! DEFINITION. The JTAG TAP: the public instructions, and vendor instructions under the debug level (R213, R341, R365, R527, R544). -/
namespace Sys2Proof.Machine
open Sys2Proof

/-- Whether the TAP works: VIO stands. -/
def tapOn (s : State) : Bool := !s.pwr.vioLow

/-- JTAG_EXTEST (R341): the boundary register drives the pins; in a power-loss sequence it is selected and drives none of them (R329). -/
def execJtagExtest (cells : BitVec 17) (s : State) : Host.Outcome State Fault Refusal :=
  whenDue (tapOn s) s { s with jtag := { s.jtag with ir := 0, bsr := cells } }

/-- JTAG_IDCODE (R341). -/
def execJtagIdcode (s : State) : Host.Outcome State Fault Refusal :=
  whenDue (tapOn s) s { s with jtag := { s.jtag with ir := 1, dr := 0xB5120A6B } }

/-- The one-bit bypass register selected. See log 41 (DESIGN CHOICE, unsafe). -/
def bypass (ir : BitVec 5) (s : State) : State := { s with jtag := { s.jtag with ir := ir, dr := 0 } }

/-- JTAG_BYPASS (R341). -/
def execJtagBypass (s : State) : Host.Outcome State Fault Refusal := whenDue (tapOn s) s (bypass 0x1F s)

/-- JTAG_SAMPLE_PRELOAD (R341): the pins are sampled, and the boundary register is preloaded. -/
def execJtagSamplePreload (pins cells : BitVec 17) (s : State) : Host.Outcome State Fault Refusal :=
  whenDue (tapOn s) s { s with jtag := { s.jtag with ir := 2, dr := pins.zeroExtend 32, bsr := cells } }

/-- Whether a port belongs to the Ventifact or seal block, which debug level 1 does not open (R213). See log 41 (DESIGN CHOICE, unsafe). -/
def secretPort (p : Nat) : Bool := (decide (0x1800 ≤ p) && decide (p ≤ 0x1FFF))

/-- Whether a vendor action is one that the debug level opens (R213). See log 41 (DESIGN CHOICE, unsafe). -/
def vendorOpen (level : Nat) (a : Vendor) : Bool :=
  decide (2 ≤ level) || (decide (level = 1) && match a with
    | .haltCore _ => true
    | .resumeCore _ => true
    | .stepCore _ => true
    | .readD _ _ => true
    | .writeD _ _ _ _ => true
    | .readX _ p => !secretPort p.toNat
    | .writeX _ p _ => !secretPort p.toNat
    | .testMode => false)

/-- The word that a debug access to a domain's address reaches, if it reaches memory. See log 41 (DESIGN CHOICE, unsafe). -/
def debugPlace (dom da : Nat) (store : Bool) (s : State) : Option (Trans × LAddr × Nat) :=
  match translate 0 dom da store s with
  | .error _ => none
  | .ok (t, _) => (physLine t.phys).map fun l => (t, l.1, l.2)

/-- A debug read of a word of a domain into the data register: a free value where the address leads to no memory.
See log 41 (DESIGN CHOICE, unsafe). -/
def debugRead (dom da : Nat) (s : State) : State :=
  match debugPlace dom da false s with
  | some (_, la, off) =>
    let w := seenWord (drainForLine la s) la off
    { s with jtag.dr := BitVec.ofNat 32 (w.tag.toNat * 65536 + w.data.toNat) }
  | none =>
    let f := takeFresh s
    { f.2 with jtag.dr := Config.freeBits 32 f.1 }

/-- A debug write of a word of a domain; one that carries tag 0x8 is discarded (R365). See log 41 (DESIGN CHOICE, unsafe). -/
def debugWrite (dom da : Nat) (w : Word) (s : State) : State :=
  if w.tag = 8 then s
  else match debugPlace dom da true s with
    | some (t, la, off) => storeUncached la off (if t.packed then rawW w.data else w) (drainForLine la s)
    | none => s

/-- A vendor action carried out (R213, R527). -/
def vendorAct (a : Vendor) (s : State) : State :=
  match a with
  | .haltCore c => updCore s c.val fun x => { x with halted := true, stepOne := false }
  | .resumeCore c => updCore s c.val fun x => { x with halted := false, stepOne := false }
  | .stepCore c => updCore s c.val fun x => { x with stepOne := x.halted }
  | .readD dom da => debugRead dom.toNat da.toNat s
  | .writeD dom da tag data => debugWrite dom.toNat da.toNat { tag := tag, data := data } s
  | .readX c p =>
    let r := portRead c.val p.toNat s
    { r.2 with jtag.dr := r.1.zeroExtend 32 }
  | .writeX c p data => portEffect c.val (domOf s c.val) p.toNat data s
  | .testMode =>
    let t := if s.pwr.phase = .startup then lockPatches s else s
    { t with jtag.test := true, pwr.phase := .test, link.ls := .detect, link.ts1 := false }

/-- JTAG_VENDOR_INSTRUCTION (R213, R341): a code that is none of the public ones acts if the debug level opens it, and is BYPASS if not.
See log 41 (DESIGN CHOICE, unsafe). -/
def execJtagVendorInstruction (ir : BitVec 5) (act : Vendor) (s : State) : Host.Outcome State Fault Refusal :=
  if ir.toNat ≤ 2 ∨ ir.toNat = 31 then .refused (.illFormed "JTAG_VENDOR_INSTRUCTION")
  else whenDue (tapOn s && s.pwr.released) s
    (if vendorOpen s.vtf.debug act then vendorAct act { s with jtag.ir := ir } else bypass ir s)

/-- JTAG_TAP_RESET (R544): the TAP controller and the instruction register only. See log 41 (DESIGN CHOICE, unsafe). -/
def execJtagTapReset (s : State) : Host.Outcome State Fault Refusal := .next { s with jtag.ir := 1 }

end Sys2Proof.Machine
end

