-- ==== Sys2Proof/Machine/Dispatch.lean ====
section
/-! DEFINITION. The dispatcher: one arm for each row of the opcode table, each one direct call of the row's meaning. -/
namespace Sys2Proof.Machine
open Sys2Proof

/-- The effect of one command on everything but the queue. -/
def exec (i : Instr) (s : State) : Host.Outcome State Fault Refusal :=
  match i with
  | .powerOnReset => Sys2Proof.Machine.execPowerOnReset s
  | .vmainOkFilterExpiry => Sys2Proof.Machine.execVmainOkFilterExpiry s
  | .vioValidExpiry => Sys2Proof.Machine.execVioValidExpiry s
  | .internalResetRelease straps dnu => Sys2Proof.Machine.execInternalResetRelease straps dnu s
  | .mount => Sys2Proof.Machine.execMount s
  | .pinReset => Sys2Proof.Machine.execPinReset s
  | .fatalRelease => Sys2Proof.Machine.execFatalRelease s
  | .softReset => Sys2Proof.Machine.execSoftReset s
  | .crossingHung island => Sys2Proof.Machine.execCrossingHung island s
  | .linkHotReset => Sys2Proof.Machine.execLinkHotReset s
  | .watchdogExpiry => Sys2Proof.Machine.execWatchdogExpiry s
  | .vmainFail => Sys2Proof.Machine.execVmainFail s
  | .flushBegin => Sys2Proof.Machine.execFlushBegin s
  | .cLiveEstimate vholdMv chargeNc meanMv => Sys2Proof.Machine.execCLiveEstimate vholdMv chargeNc meanMv s
  | .flushStopAtVRes => Sys2Proof.Machine.execFlushStopAtVRes s
  | .flushComplete => Sys2Proof.Machine.execFlushComplete s
  | .converterOff floor => Sys2Proof.Machine.execConverterOff floor s
  | .vioLow => Sys2Proof.Machine.execVioLow s
  | .warnEnter => Sys2Proof.Machine.execWarnEnter s
  | .warnExit => Sys2Proof.Machine.execWarnExit s
  | .chargerStop => Sys2Proof.Machine.execChargerStop s
  | .chargerResume => Sys2Proof.Machine.execChargerResume s
  | .chgTimeout => Sys2Proof.Machine.execChgTimeout s
  | .vholdOver vholdMv => Sys2Proof.Machine.execVholdOver vholdMv s
  | .measurementStart => Sys2Proof.Machine.execMeasurementStart s
  | .measurementPeriodExpiry => Sys2Proof.Machine.execMeasurementPeriodExpiry s
  | .temperatureMeasurementTrigger => Sys2Proof.Machine.execTemperatureMeasurementTrigger s
  | .measurementComplete stepMv unc => Sys2Proof.Machine.execMeasurementComplete stepMv unc s
  | .measurementSkip => Sys2Proof.Machine.execMeasurementSkip s
  | .holdupDischargeComplete edelUj => Sys2Proof.Machine.execHoldupDischargeComplete edelUj s
  | .windowRecompute vholdMv => Sys2Proof.Machine.execWindowRecompute vholdMv s
  | .creditWaitExpiry => Sys2Proof.Machine.execCreditWaitExpiry s
  | .queueHeadAdmit => Sys2Proof.Machine.execQueueHeadAdmit s
  | .stagingDrainWrite die => Sys2Proof.Machine.execStagingDrainWrite die s
  | .codewordWriteComplete die ok loops => Sys2Proof.Machine.execCodewordWriteComplete die ok loops s
  | .tailRingAgeTimeout die => Sys2Proof.Machine.execTailRingAgeTimeout die s
  | .timedExpiryReclaim => Sys2Proof.Machine.execTimedExpiryReclaim s
  | .earlyMergeRetry => Sys2Proof.Machine.execEarlyMergeRetry s
  | .caravanInactivityTimeout => Sys2Proof.Machine.execCaravanInactivityTimeout s
  | .caravanAbortAnswerEnd => Sys2Proof.Machine.execCaravanAbortAnswerEnd s
  | .codewordRead g cw margin soft reread uncorr => Sys2Proof.Machine.execCodewordRead g cw margin soft reread uncorr s
  | .codewordRefresh w => Sys2Proof.Machine.execCodewordRefresh w s
  | .regionRecalibration die => Sys2Proof.Machine.execRegionRecalibration die s
  | .temperatureRecalibrationTrigger die => Sys2Proof.Machine.execTemperatureRecalibrationTrigger die s
  | .arrayRecalibrateStart die => Sys2Proof.Machine.execArrayRecalibrateStart die s
  | .patrolRead g cw margin soft reread uncorr last => Sys2Proof.Machine.execPatrolRead g cw margin soft reread uncorr last s
  | .patrolStart die => Sys2Proof.Machine.execPatrolStart die s
  | .wearLevelMoveStart die => Sys2Proof.Machine.execWearLevelMoveStart die s
  | .slotEvacuationStart => Sys2Proof.Machine.execSlotEvacuationStart s
  | .segmentMoveCopyPassComplete p => Sys2Proof.Machine.execSegmentMoveCopyPassComplete p s
  | .segmentMoveInvalidationAck engine => Sys2Proof.Machine.execSegmentMoveInvalidationAck engine s
  | .sharedSegmentCompaction g => Sys2Proof.Machine.execSharedSegmentCompaction g s
  | .heapObjectMove engine src dst da copied last => Sys2Proof.Machine.execHeapObjectMove engine src dst da copied last s
  | .cardScan src engine => Sys2Proof.Machine.execCardScan src engine s
  | .siroccoSample temp => Sys2Proof.Machine.execSiroccoSample temp s
  | .ruleExecutionStart die => Sys2Proof.Machine.execRuleExecutionStart die s
  | .anop die w => Sys2Proof.Machine.execAnop die w s
  | .aseek die w rereads => Sys2Proof.Machine.execAseek die w rereads s
  | .ardr die w rereads => Sys2Proof.Machine.execArdr die w rereads s
  | .aapp die w => Sys2Proof.Machine.execAapp die w s
  | .snop die w => Sys2Proof.Machine.execSnop die w s
  | .srec die w => Sys2Proof.Machine.execSrec die w s
  | .scrc die w => Sys2Proof.Machine.execScrc die w s
  | .mnop die w => Sys2Proof.Machine.execMnop die w s
  | .mhdr die w => Sys2Proof.Machine.execMhdr die w s
  | .mcpy die w => Sys2Proof.Machine.execMcpy die w s
  | .mtrg die w => Sys2Proof.Machine.execMtrg die w s
  | .mset die w => Sys2Proof.Machine.execMset die w s
  | .cnop die w => Sys2Proof.Machine.execCnop die w s
  | .cend die w => Sys2Proof.Machine.execCend die w s
  | .cloop die w => Sys2Proof.Machine.execCloop die w s
  | .cbrz die w => Sys2Proof.Machine.execCbrz die w s
  | .cwait die w => Sys2Proof.Machine.execCwait die w s
  | .shortCommandPacket b => Sys2Proof.Machine.execShortCommandPacket b s
  | .identify c => Sys2Proof.Machine.execIdentify c s
  | .getStatus c => Sys2Proof.Machine.execGetStatus c s
  | .sessionOpen c => Sys2Proof.Machine.execSessionOpen c s
  | .sessionClose c => Sys2Proof.Machine.execSessionClose c s
  | .attest c => Sys2Proof.Machine.execAttest c s
  | .streamCreate c => Sys2Proof.Machine.execStreamCreate c s
  | .streamOpen c => Sys2Proof.Machine.execStreamOpen c s
  | .streamClose c => Sys2Proof.Machine.execStreamClose c s
  | .streamAppend c => Sys2Proof.Machine.execStreamAppend c s
  | .streamRead c => Sys2Proof.Machine.execStreamRead c s
  | .streamSeal c => Sys2Proof.Machine.execStreamSeal c s
  | .streamTrim c => Sys2Proof.Machine.execStreamTrim c s
  | .streamInfo c => Sys2Proof.Machine.execStreamInfo c s
  | .streamDelete c => Sys2Proof.Machine.execStreamDelete c s
  | .bootStage c => Sys2Proof.Machine.execBootStage c s
  | .bootCommit c => Sys2Proof.Machine.execBootCommit c s
  | .bootActivate c => Sys2Proof.Machine.execBootActivate c s
  | .ruleLoad c => Sys2Proof.Machine.execRuleLoad c s
  | .ruleBind c => Sys2Proof.Machine.execRuleBind c s
  | .ruleUnload c => Sys2Proof.Machine.execRuleUnload c s
  | .extLoad c => Sys2Proof.Machine.execExtLoad c s
  | .uopLoad c => Sys2Proof.Machine.execUopLoad c s
  | .userMicrocodeCommit => Sys2Proof.Machine.execUserMicrocodeCommit s
  | .faultRead c => Sys2Proof.Machine.execFaultRead c s
  | .faultClear c => Sys2Proof.Machine.execFaultClear c s
  | .faultInject c => Sys2Proof.Machine.execFaultInject c s
  | .powerState c => Sys2Proof.Machine.execPowerState c s
  | .holdupTest c => Sys2Proof.Machine.execHoldupTest c s
  | .provision c => Sys2Proof.Machine.execProvision c s
  | .keyRotate c => Sys2Proof.Machine.execKeyRotate c s
  | .counterBump c => Sys2Proof.Machine.execCounterBump c s
  | .sanitize c => Sys2Proof.Machine.execSanitize c s
  | .sanitizeOverwriteComplete => Sys2Proof.Machine.execSanitizeOverwriteComplete s
  | .debugUnlock c => Sys2Proof.Machine.execDebugUnlock c s
  | .debugChallengeExpiry => Sys2Proof.Machine.execDebugChallengeExpiry s
  | .restEntryDrained => Sys2Proof.Machine.execRestEntryDrained s
  | .offEntryDrained => Sys2Proof.Machine.execOffEntryDrained s
  | .wakeEvent cause => Sys2Proof.Machine.execWakeEvent cause s
  | .idleEntry => Sys2Proof.Machine.execIdleEntry s
  | .idleExit => Sys2Proof.Machine.execIdleExit s
  | .linkDetectTs1Start => Sys2Proof.Machine.execLinkDetectTs1Start s
  | .linkTs1Received => Sys2Proof.Machine.execLinkTs1Received s
  | .linkConfigComplete lanes peer => Sys2Proof.Machine.execLinkConfigComplete lanes peer s
  | .linkRateChangeIdleEnd => Sys2Proof.Machine.execLinkRateChangeIdleEnd s
  | .blockLockLost => Sys2Proof.Machine.execBlockLockLost s
  | .linkRecoveryComplete => Sys2Proof.Machine.execLinkRecoveryComplete s
  | .linkRecoveryTimeout => Sys2Proof.Machine.execLinkRecoveryTimeout s
  | .linkRetrain v => Sys2Proof.Machine.execLinkRetrain v s
  | .linkCounterClear => Sys2Proof.Machine.execLinkCounterClear s
  | .hostLinkDataPacket crc lseq xtag typ lfl payload => Sys2Proof.Machine.execHostLinkDataPacket crc lseq xtag typ lfl payload s
  | .regwr lseq xtag ofs data => Sys2Proof.Machine.execRegwr lseq xtag ofs data s
  | .cmd lseq lfl payload => Sys2Proof.Machine.execCmd lseq lfl payload s
  | .cmdAssemblyTimeout => Sys2Proof.Machine.execCmdAssemblyTimeout s
  | .ack n => Sys2Proof.Machine.execAck n s
  | .nak n => Sys2Proof.Machine.execNak n s
  | .credit rdl rhl msl cfl => Sys2Proof.Machine.execCredit rdl rhl msl cfl s
  | .replayTimeout => Sys2Proof.Machine.execReplayTimeout s
  | .creditSendTimer => Sys2Proof.Machine.execCreditSendTimer s
  | .sidebandWrite addr bytes => Sys2Proof.Machine.execSidebandWrite addr bytes s
  | .sidebandRead addr len => Sys2Proof.Machine.execSidebandRead addr len s
  | .sidebandBusTimeout partialWrite => Sys2Proof.Machine.execSidebandBusTimeout partialWrite s
  | .sidebandReplyDiscard => Sys2Proof.Machine.execSidebandReplyDiscard s
  | .read r => Sys2Proof.Machine.execRead r s
  | .fastRead r => Sys2Proof.Machine.execFastRead r s
  | .quadOutputFastRead r => Sys2Proof.Machine.execQuadOutputFastRead r s
  | .quadIoFastRead r => Sys2Proof.Machine.execQuadIoFastRead r s
  | .readStatus r => Sys2Proof.Machine.execReadStatus r s
  | .readIdentification n => Sys2Proof.Machine.execReadIdentification n s
  | .readSfdp r => Sys2Proof.Machine.execReadSfdp r s
  | .enter4ByteAddressMode => Sys2Proof.Machine.execEnter4ByteAddressMode s
  | .exit4ByteAddressMode => Sys2Proof.Machine.execExit4ByteAddressMode s
  | .ignoredFlashCommand => Sys2Proof.Machine.execIgnoredFlashCommand s
  | .unknownBootOpcode => Sys2Proof.Machine.execUnknownBootOpcode s
  | .bootSealVerified => Sys2Proof.Machine.execBootSealVerified s
  | .bootWindowReady => Sys2Proof.Machine.execBootWindowReady s
  | .bootBlockVerify ok => Sys2Proof.Machine.execBootBlockVerify ok s
  | .bootWindowClose => Sys2Proof.Machine.execBootWindowClose s
  | .bootWindowAutoClose => Sys2Proof.Machine.execBootWindowAutoClose s
  | .bootKeepWrite keep => Sys2Proof.Machine.execBootKeepWrite keep s
  | .jtagExtest cells => Sys2Proof.Machine.execJtagExtest cells s
  | .jtagIdcode => Sys2Proof.Machine.execJtagIdcode s
  | .jtagBypass => Sys2Proof.Machine.execJtagBypass s
  | .jtagSamplePreload pins cells => Sys2Proof.Machine.execJtagSamplePreload pins cells s
  | .jtagVendorInstruction ir act => Sys2Proof.Machine.execJtagVendorInstruction ir act s
  | .jtagTapReset => Sys2Proof.Machine.execJtagTapReset s
  | .faultLatch src det persists => Sys2Proof.Machine.execFaultLatch src det persists s
  | .brokenWire src level => Sys2Proof.Machine.execBrokenWire src level s
  | .brokenWireRecovered src => Sys2Proof.Machine.execBrokenWireRecovered src s
  | .escalationTimerExpiry cls => Sys2Proof.Machine.execEscalationTimerExpiry cls s
  | .thermHaltTimerExpiry => Sys2Proof.Machine.execThermHaltTimerExpiry s
  | .entropyHealthFail adaptive => Sys2Proof.Machine.execEntropyHealthFail adaptive s
  | .fltAckWrite v => Sys2Proof.Machine.execFltAckWrite v s
  | .faultLatchClear k v => Sys2Proof.Machine.execFaultLatchClear k v s
  | .fltHselWrite v => Sys2Proof.Machine.execFltHselWrite v s
  | .fltForceWrite k v => Sys2Proof.Machine.execFltForceWrite k v s
  | .watchdogArm core k => Sys2Proof.Machine.execWatchdogArm core k s
  | .watchdogKick core k => Sys2Proof.Machine.execWatchdogKick core k s
  | .timeCapture => Sys2Proof.Machine.execTimeCapture s
  | .counterSelect v => Sys2Proof.Machine.execCounterSelect v s
  | .hostLinkMirrorCapture core k => Sys2Proof.Machine.execHostLinkMirrorCapture core k s
  | .wakeCauseRead => Sys2Proof.Machine.execWakeCauseRead s
  | .ruleBudgetWrite v => Sys2Proof.Machine.execRuleBudgetWrite v s
  | .patchLock leave => Sys2Proof.Machine.execPatchLock leave s
  | .patchWordWrite lo => Sys2Proof.Machine.execPatchWordWrite lo s
  | .cacheClean m => Sys2Proof.Machine.execCacheClean m s
  | .cacheInvalidate m => Sys2Proof.Machine.execCacheInvalidate m s
  | .cacheCleanInvalidate m => Sys2Proof.Machine.execCacheCleanInvalidate m s
  | .cacheMaintenanceComplete => Sys2Proof.Machine.execCacheMaintenanceComplete s
  | .cacheWayPowerDown tile ways => Sys2Proof.Machine.execCacheWayPowerDown tile ways s
  | .cacheWaySweepComplete tile => Sys2Proof.Machine.execCacheWaySweepComplete tile s
  | .cacheWayPowerUp tile ways => Sys2Proof.Machine.execCacheWayPowerUp tile ways s
  | .tlbInvalidateDomain core dom => Sys2Proof.Machine.execTlbInvalidateDomain core dom s
  | .tlbInvalidateAddress core dom => Sys2Proof.Machine.execTlbInvalidateAddress core dom s
  | .tlbInvalidateAll core => Sys2Proof.Machine.execTlbInvalidateAll core s
  | .tlbInvalidateSegno core => Sys2Proof.Machine.execTlbInvalidateSegno core s
  | .tlbInvalidationComplete => Sys2Proof.Machine.execTlbInvalidationComplete s
  | .sealXtsEncrypt core => Sys2Proof.Machine.execSealXtsEncrypt core s
  | .sealXtsDecrypt core => Sys2Proof.Machine.execSealXtsDecrypt core s
  | .sealChainExtend core => Sys2Proof.Machine.execSealChainExtend core s
  | .sealVerify core => Sys2Proof.Machine.execSealVerify core s
  | .sealOperationComplete core => Sys2Proof.Machine.execSealOperationComplete core s
  | .registerWrite host core addr v => Sys2Proof.Machine.execRegisterWrite host core addr v s
  | .interruptEntry core req => Sys2Proof.Machine.execInterruptEntry core req s
  | .machineCheck core par => Sys2Proof.Machine.execMachineCheck core par s
  | .powerFailEntry core => Sys2Proof.Machine.execPowerFailEntry core s
  | .deferredStoreError core fail => Sys2Proof.Machine.execDeferredStoreError core fail s
  | .nointExpiry core => Sys2Proof.Machine.execNointExpiry core s
  | .spillEngineSpill core => Sys2Proof.Machine.execSpillEngineSpill core s
  | .spillEngineRefill core => Sys2Proof.Machine.execSpillEngineRefill core s
  | .heapMrkWaitEnd core => Sys2Proof.Machine.execHeapMrkWaitEnd core s
  | .iNop f => Sys2Proof.Machine.execINop f s
  | .iDup f => Sys2Proof.Machine.execIDup f s
  | .iDrop f => Sys2Proof.Machine.execIDrop f s
  | .iSwap f => Sys2Proof.Machine.execISwap f s
  | .iOver f => Sys2Proof.Machine.execIOver f s
  | .iRot f => Sys2Proof.Machine.execIRot f s
  | .iPick f => Sys2Proof.Machine.execIPick f s
  | .iDup2 f => Sys2Proof.Machine.execIDup2 f s
  | .iDrop2 f => Sys2Proof.Machine.execIDrop2 f s
  | .iSwap2 f => Sys2Proof.Machine.execISwap2 f s
  | .iTagof f => Sys2Proof.Machine.execITagof f s
  | .iSettag f => Sys2Proof.Machine.execISettag f s
  | .iPushnil f => Sys2Proof.Machine.execIPushnil f s
  | .iSpill8 f => Sys2Proof.Machine.execISpill8 f s
  | .iPush8 f => Sys2Proof.Machine.execIPush8 f s
  | .iPush16 f => Sys2Proof.Machine.execIPush16 f s
  | .iPushr f => Sys2Proof.Machine.execIPushr f s
  | .iPushc f => Sys2Proof.Machine.execIPushc f s
  | .iPushref f => Sys2Proof.Machine.execIPushref f s
  | .iPushcode f => Sys2Proof.Machine.execIPushcode f s
  | .iMkref f => Sys2Proof.Machine.execIMkref f s
  | .iRefadd f => Sys2Proof.Machine.execIRefadd f s
  | .iRefpart f => Sys2Proof.Machine.execIRefpart f s
  | .iAnch f => Sys2Proof.Machine.execIAnch f s
  | .iAld f => Sys2Proof.Machine.execIAld f s
  | .iLd f => Sys2Proof.Machine.execILd f s
  | .iSt f => Sys2Proof.Machine.execISt f s
  | .iLdp f => Sys2Proof.Machine.execILdp f s
  | .iStp f => Sys2Proof.Machine.execIStp f s
  | .iLdi f => Sys2Proof.Machine.execILdi f s
  | .iIst f => Sys2Proof.Machine.execIIst f s
  | .iLdm f => Sys2Proof.Machine.execILdm f s
  | .iStm f => Sys2Proof.Machine.execIStm f s
  | .iIn f => Sys2Proof.Machine.execIIn f s
  | .iOut f => Sys2Proof.Machine.execIOut f s
  | .iIns f => Sys2Proof.Machine.execIIns f s
  | .iOuts f => Sys2Proof.Machine.execIOuts f s
  | .iAdd f => Sys2Proof.Machine.execIAdd f s
  | .iSub f => Sys2Proof.Machine.execISub f s
  | .iMul f => Sys2Proof.Machine.execIMul f s
  | .iNeg f => Sys2Proof.Machine.execINeg f s
  | .iDiv f => Sys2Proof.Machine.execIDiv f s
  | .iMod f => Sys2Proof.Machine.execIMod f s
  | .iAddw f => Sys2Proof.Machine.execIAddw f s
  | .iSubw f => Sys2Proof.Machine.execISubw f s
  | .iAdcw f => Sys2Proof.Machine.execIAdcw f s
  | .iSbcw f => Sys2Proof.Machine.execISbcw f s
  | .iMulw f => Sys2Proof.Machine.execIMulw f s
  | .iMuluw f => Sys2Proof.Machine.execIMuluw f s
  | .iNegw f => Sys2Proof.Machine.execINegw f s
  | .iDivw f => Sys2Proof.Machine.execIDivw f s
  | .iDivuw f => Sys2Proof.Machine.execIDivuw f s
  | .iAnd f => Sys2Proof.Machine.execIAnd f s
  | .iOr f => Sys2Proof.Machine.execIOr f s
  | .iXor f => Sys2Proof.Machine.execIXor f s
  | .iNot f => Sys2Proof.Machine.execINot f s
  | .iShl f => Sys2Proof.Machine.execIShl f s
  | .iShr f => Sys2Proof.Machine.execIShr f s
  | .iSar f => Sys2Proof.Machine.execISar f s
  | .iRol f => Sys2Proof.Machine.execIRol f s
  | .iRor f => Sys2Proof.Machine.execIRor f s
  | .iLadd f => Sys2Proof.Machine.execILadd f s
  | .iLsub f => Sys2Proof.Machine.execILsub f s
  | .iCeq f => Sys2Proof.Machine.execICeq f s
  | .iCne f => Sys2Proof.Machine.execICne f s
  | .iClt f => Sys2Proof.Machine.execIClt f s
  | .iCle f => Sys2Proof.Machine.execICle f s
  | .iCltu f => Sys2Proof.Machine.execICltu f s
  | .iCleu f => Sys2Proof.Machine.execICleu f s
  | .iCtag f => Sys2Proof.Machine.execICtag f s
  | .iCst f => Sys2Proof.Machine.execICst f s
  | .iBr f => Sys2Proof.Machine.execIBr f s
  | .iCall len f => Sys2Proof.Machine.execICall len f s
  | .iJmpi f => Sys2Proof.Machine.execIJmpi f s
  | .iCalli len f => Sys2Proof.Machine.execICalli len f s
  | .iRet f => Sys2Proof.Machine.execIRet f s
  | .iLoop len f => Sys2Proof.Machine.execILoop len f s
  | .iMovs f => Sys2Proof.Machine.execIMovs f s
  | .iCmps f => Sys2Proof.Machine.execICmps f s
  | .iFill f => Sys2Proof.Machine.execIFill f s
  | .iScan f => Sys2Proof.Machine.execIScan f s
  | .iCrcs f => Sys2Proof.Machine.execICrcs f s
  | .iCrcb f => Sys2Proof.Machine.execICrcb f s
  | .iCrcw f => Sys2Proof.Machine.execICrcw f s
  | .iPar f => Sys2Proof.Machine.execIPar f s
  | .iBrev f => Sys2Proof.Machine.execIBrev f s
  | .iSwl f => Sys2Proof.Machine.execISwl f s
  | .iRetl f => Sys2Proof.Machine.execIRetl f s
  | .iNoint f => Sys2Proof.Machine.execINoint f s
  | .iSetdom f => Sys2Proof.Machine.execISetdom f s
  | .iRdc f => Sys2Proof.Machine.execIRdc f s
  | .iWrc f => Sys2Proof.Machine.execIWrc f s
  | .iPushst f => Sys2Proof.Machine.execIPushst f s
  | .iPopst f => Sys2Proof.Machine.execIPopst f s
  | .iSync f => Sys2Proof.Machine.execISync f s
  | .iSynci f => Sys2Proof.Machine.execISynci f s
  | .iWaiti f => Sys2Proof.Machine.execIWaiti f s
  | .iCderive f => Sys2Proof.Machine.execICderive f s
  | .iCclr f => Sys2Proof.Machine.execICclr f s
  | .iCxfer f => Sys2Proof.Machine.execICxfer f s
  | .iCstore f => Sys2Proof.Machine.execICstore f s
  | .iCload f => Sys2Proof.Machine.execICload f s
  | .userInstruction opc f => Sys2Proof.Machine.execUserInstruction opc f s
  | .streamDeletionComplete => Sys2Proof.Machine.execStreamDeletionComplete s

end Sys2Proof.Machine
end

