-- ==== Sys2Proof/Machine/Tick.lean ====
section
/-! DEFINITION. What one tick does when no command waits: the clocks advance, and the store buffers drain (R40, R422, R534). -/
namespace Sys2Proof.Machine
open Sys2Proof

/-- Whether device time advances: while the device is powered, through resets too (R40). See log 2 (DESIGN CHOICE, unsafe). -/
def timeRuns (s : State) : Bool :=
  (s.pwr.vmainHigh || inLoss s) && decide (s.pwr.seq ≠ .off) && decide (s.pwr.pstate ≠ .off)

/-- One tick without a command. See log 2 (DESIGN CHOICE, unsafe). See log 65 (DESIGN CHOICE, safe). -/
def tickNow (s : State) : State :=
  let t := drainCores s
  { t with
    tick := t.tick + 1
    dtime := if timeRuns t then t.dtime + 1 else t.dtime
    pwr.idleSince := if quiet t then t.pwr.idleSince else t.tick + 1 }

/-- What a step does, given what the machine makes of a command: the command at the front of the queue with the queue's rest, or a tick
where none waits. See log 2 (DESIGN CHOICE, unsafe). See log 65 (DESIGN CHOICE, safe). -/
def stepWith (run : Instr → State → Host.Outcome State Fault Refusal) (s : State) : Host.Outcome State Fault Refusal :=
  match s.pending with
  | [] => .next (tickNow s)
  | c :: rest => run c { s with pending := rest }

end Sys2Proof.Machine
end

