-- ==== Sys2Proof/Machine/Step.lean ====
section
/-! DEFINITION. One step of the block: the command at the front of its queue, or a tick. -/
namespace Sys2Proof.Machine
open Sys2Proof

/-- One step. See log 2 (DESIGN CHOICE, unsafe). -/
def step (s : State) : Host.Outcome State Fault Refusal := stepWith exec s

/-- A state with the command that a table word spells put at the front of its queue; unchanged where the word spells none.
See log 3 (DESIGN CHOICE, unsafe). -/
def State.withFetchWord (s : State) (nbits w : Nat) : State :=
  match decodeTableWord nbits w with
  | none => s
  | some c => { s with pending := c :: s.pending }

end Sys2Proof.Machine
end

