-- ==== Sys2Proof/Safety.lean ====
section
/-! DEFINITION. The terms in which claims are stated: which parts of the state a command leaves alone, when an instruction or a host command
runs to its end, and the state it then leaves. -/
namespace Sys2Proof.Machine
open Sys2Proof

/-- The parts of the state. -/
inductive Region where
  | variant | dtime | tick | fresh | store | arr | eng | oas | flt | vtf | link | side | boot | wadi | cores | mmu | cache | ucode
  | mem | pwr | tbx | prev | jtag | pending
  deriving DecidableEq, Repr

/-- A part is the same in two states. -/
def sameIn (r : Region) (s t : State) : Prop :=
  match r with
  | .variant => t.variant = s.variant
  | .dtime => t.dtime = s.dtime
  | .tick => t.tick = s.tick
  | .fresh => t.fresh = s.fresh
  | .store => t.store = s.store
  | .arr => t.arr = s.arr
  | .eng => t.eng = s.eng
  | .oas => t.oas = s.oas
  | .flt => t.flt = s.flt
  | .vtf => t.vtf = s.vtf
  | .link => t.link = s.link
  | .side => t.side = s.side
  | .boot => t.boot = s.boot
  | .wadi => t.wadi = s.wadi
  | .cores => t.cores = s.cores
  | .mmu => t.mmu = s.mmu
  | .cache => t.cache = s.cache
  | .ucode => t.ucode = s.ucode
  | .mem => t.mem = s.mem
  | .pwr => t.pwr = s.pwr
  | .tbx => t.tbx = s.tbx
  | .prev => t.prev = s.prev
  | .jtag => t.jtag = s.jtag
  | .pending => t.pending = s.pending

/-- Every part but those listed is the same in two states. -/
def OnlyIn (l : List Region) (s t : State) : Prop := ∀ r, r ∉ l → sameIn r s t

/-- The immediate of an instruction, unsigned (R380). -/
def immOf (e : Enc) (f : Fetch) : Nat := f.imm.toNat % 256 ^ immLen e f.pre

/-- The address after the last byte of an instruction that stands at a core's IA. -/
def nextIa (e : Enc) (f : Fetch) (x : Core) : Nat := wrap32 (x.ia.toNat + f.pre.length + 1 + immLen e f.pre)

/-- An instruction as its body sees it. -/
def insOf (e : Enc) (f : Fetch) (s : State) : Ins :=
  let x := coreOf s f.core.val
  { c := f.core.val, imm := immOf e f, ilen := immLen e f.pre, pre := f.pre, lim := if x.slot.isSome then none else f.lim
    ia := x.ia.toNat, next := nextIa e f x }

/-- A started core takes an instruction whose bytes are a legal encoding where it stands (R383, R402, R420). -/
abbrev Decodes (e : Enc) (f : Fetch) (s : State) : Prop :=
  prefixesOnly f.pre = true ∧ able f.core.val s = true ∧ (coreOf s f.core.val).running = true
    ∧ (curLevel (coreOf s f.core.val)).micro = none ∧ decodeExc e f.pre (immOf e f) (coreOf s f.core.val) = none

/-- The instruction decodes, and its guard is true, or it goes on after an interruption (R367, R384, R405). -/
abbrev Ready (e : Enc) (f : Fetch) (s : State) : Prop :=
  Decodes e f s ∧ (guardOf f.pre (curLevel (coreOf s f.core.val)).preds = true
    ∨ (curLevel (coreOf s f.core.val)).resume = some (coreOf s f.core.val).ia)

/-- A core with the level it runs at changed. -/
def onLevel (g : LevelSt → LevelSt) (x : Core) : Core := { x with lv := vUpd x.lv (lvlOf x) g }

/-- What every retirement clears: a debug step, and the place of an interrupted instruction. -/
def retiredCore (x : Core) : Core := onLevel (fun l => { l with resume := none }) { x with stepOne := false }

/-- The state an instruction leaves that took `s` to `t` and goes on in sequence: the loop-end action chooses the next address, and a
retirement is counted to the pending sync writes (R403, R425). In a delay slot the branch retires with it, and a branch taken sends execution
to its target (R402). Nothing else differs from `t`. -/
def seqFrom (e : Enc) (f : Fetch) (s t : State) : State :=
  let c := f.core.val
  let x := coreOf s c
  match (coreOf t c).slot with
  | none => countSyncs c (updCore t c fun y => loopEnd x.ia.toNat (nextIa e f x) (retiredCore y))
  | some d => countSyncs c (countSyncs c (updCore t c fun y =>
      let z := { retiredCore y with slot := none }
      if d.taken then { z with ia := d.target } else loopEnd x.ia.toNat (nextIa e f x) z))

/-- The state a taken branch leaves that took `s` to `t`: its delay slot is next, and keeps the operand stack from before it (R402). -/
def branchFrom (e : Enc) (f : Fetch) (s t : State) (target : Nat) : State :=
  let x := coreOf s f.core.val
  updCore t f.core.val fun y => { retiredCore y with
    slot := some { br := BitVec.ofNat 32 x.ia.toNat, taken := true, target := BitVec.ofNat 32 target
                   saved := (curLevel x).bank, ssp := (curLevel x).ssp }
    ia := BitVec.ofNat 32 (nextIa e f x) }

/-- The state an instruction leaves that took `s` to `t` and goes on at an address. -/
def gotoFrom (f : Fetch) (t : State) (a : Nat) : State :=
  countSyncs f.core.val (updCore t f.core.val fun y => { retiredCore y with ia := BitVec.ofNat 32 a })

/-- The state an instruction leaves that has itself set level and address. -/
def movedFrom (f : Fetch) (t : State) : State := countSyncs f.core.val (updCore t f.core.val fun y => { y with stepOne := false })

/-- The operand stack of the level a core runs at, replaced, top first. -/
def withBank (c : Nat) (l : List Word) (s : State) : State := updLevel s c fun k => { k with bank := l }

/-- A row's instruction, ready at a core whose operand stack is `l`, leaves the stack `l'` and otherwise only goes on in sequence. -/
def StackStep (e : Enc) (row : Fetch → Instr) (f : Fetch) (l l' : List Word) (s : State) : Prop :=
  Ready e f s → bankOf s f.core.val = l → l'.length ≤ 16 →
    exec (row f) s = .next (seqFrom e f s (withBank f.core.val l' s))

/-- The same, and the flags of ST become `fl`. -/
def FlagStep (e : Enc) (row : Fetch → Instr) (f : Fetch) (l l' : List Word) (fl : Flags) (s : State) : Prop :=
  Ready e f s → bankOf s f.core.val = l → l'.length ≤ 16 →
    exec (row f) s = .next (seqFrom e f s (setFlags f.core.val fl (withBank f.core.val l' s)))

/-- The exception an instruction raises that had changed nothing: at the instruction, or at the branch whose delay slot it stands in
(R402, R414). -/
def trapped (e : Enc) (f : Fetch) (x : Exc) (s : State) : State := trapAt f.core.val (coreOf s f.core.val).ia.toNat e.opc x s

/-- A row's instruction, ready at a core whose operand stack is `l`, raises an exception. -/
def TrapStep (e : Enc) (row : Fetch → Instr) (f : Fetch) (l : List Word) (x : Exc) (s : State) : Prop :=
  Ready e f s → bankOf s f.core.val = l → exec (row f) s = .next (trapped e f x s)

/-- A word with a tag. -/
abbrev tw (t : BitVec 4) (d : BitVec 16) : Word := { tag := t, data := d }

/-- 32 bits as two words, the low half on top. -/
def words32 (th tl : BitVec 4) (v : BitVec 32) : List Word := [tw tl (v.setWidth 16), tw th ((v >>> 16).setWidth 16)]

/-- Whether a signed value does not fit 16 bits. -/
abbrev over16 (v : Int) : Bool := decide (v < -0x8000 ∨ 0x7FFF < v)

/-- One bit of a CRC over the reflected polynomial of CRC-32C (R406). -/
def crcBit32 (x : BitVec 32) : BitVec 32 := if x.getLsbD 0 then (x >>> 1) ^^^ 0x82F63B78 else x >>> 1

/-- One bit of CRC-16/CCITT (R406). -/
def crcBit16 (x : BitVec 16) : BitVec 16 := if x.getLsbD 15 then (x <<< 1) ^^^ 0x1021 else x <<< 1

/-- Eight times. -/
def eight {α : Type} (g : α → α) (x : α) : α := g (g (g (g (g (g (g (g x)))))))

/-- A byte into a CRC state (R406). -/
def crcStep (poly : Bool) (st : BitVec 32) (b : BitVec 8) : BitVec 32 :=
  if poly then (eight crcBit16 (st.setWidth 16 ^^^ (b.setWidth 16 <<< 8))).setWidth 32 else eight crcBit32 (st ^^^ b.setWidth 32)

/-- A compare leaves its result in predicate T and the complement in F, P0 never changing (R399). -/
def predsAfter (imm : BitVec 32) (res : Bool) (p : BitVec 8) : BitVec 8 :=
  let t := (imm.setWidth 3).toNat
  let c := ((imm >>> 3).setWidth 3 : BitVec 3).toNat
  BitVec.ofBoolListLE ((List.range 8).map fun k =>
    if k = 0 then p.getLsbD 0 else if k = c then !res else if k = t then res else p.getLsbD k)

/-- A compare, ready at a stack `l`, leaves `l'` and its result in its predicates, and changes ST nowhere. -/
def CompareStep (e : Enc) (row : Fetch → Instr) (f : Fetch) (l l' : List Word) (res : Bool) (s : State) : Prop :=
  Ready e f s → bankOf s f.core.val = l →
    exec (row f) s = .next (seqFrom e f s
      (updLevel s f.core.val fun k => { k with bank := l', preds := predsAfter f.imm res k.preds }))

/-- The immediate of a W-format instruction as a signed 32-bit number: 16 bits, or 32 with 0xDD (R380). -/
def dispOf (f : Fetch) : BitVec 32 := if hasPre f.pre 0xDD then f.imm else (f.imm.setWidth 16).signExtend 32

/-- How an instruction ends by what its accesses answer: in sequence, by an exception or a machine check at it, or waiting at an object
header tagged MRK (R405, R411, R418, R459). -/
def accessEnd {α : Type} (e : Enc) (f : Fetch) (s : State) (r : Res α) (k : α → State → State) : State :=
  let c := f.core.val
  let ia := (coreOf s c).ia
  match r with
  | .ok a t => seqFrom e f s (k a t)
  | .exc x t => trapAt c ia.toNat e.opc x t
  | .check d t => checkAt c ia.toNat e.opc d t
  | .wait da t => updCore (updLevel t c fun l => { l with resume := some ia }) c fun y => { y with mrkWait := some (BitVec.ofNat 32 da) }

/-- The immediate of a B-format instruction as a signed 32-bit number: 8 bits, or 16 with 0xDD (R380). -/
def offB (f : Fetch) : Nat := (if hasPre f.pre 0xDD then (f.imm.setWidth 16).signExtend 32 else (f.imm.setWidth 8).signExtend 32 : BitVec 32).toNat

/-- An instruction that an interrupt ends before it is complete: it has not retired, and is next again (R394, R405). -/
def againAt (f : Fetch) (s t : State) : State :=
  updLevel (updCore t f.core.val fun x => { x with stepOne := false }) f.core.val fun l => { l with resume := some (coreOf s f.core.val).ia }

/-- SRC, DST and CNT after one element (R404). -/
def stringMoved (src dst : Bool) (c : Nat) (s : State) : State :=
  updLevel s c fun l => { l with
    src := if src then l.src + 1 else l.src, dst := if dst then l.dst + 1 else l.dst, cnt := l.cnt - 1 }

/-- What the second input word of a port instruction needs (R393). -/
abbrev outPasses (c p : Nat) (w : Word) (s : State) : Prop :=
  rawTag w.tag = true ∧ reservedWrite p w.data = false ∧ outMay c p w.data s = none

/-- A capability slot of level `lvl` of a core. -/
def capSlot (s : State) (c lvl k : Nat) : Cap := vAt (vAt (coreOf s c).lv lvl).caps k

/-- A capability written into a slot. -/
def withCap (c lvl k : Nat) (v : Cap) (s : State) : State :=
  updCore s c fun x => { x with lv := vUpd x.lv lvl fun l => { l with caps := vSet l.caps k v } }

/-- The encoding and the bytes of an instruction of the fixed opcodes; none for the commands that are no instructions, and for
USER_INSTRUCTION, whose encoding the decode table gives (R386, R410). -/
def cpuOf (i : Instr) : Option (Enc × Fetch) :=
  match i with
  | .iNop f => some (encN 0x01, f)
  | .iDup f => some (encN 0x02, f)
  | .iDrop f => some (encN 0x03, f)
  | .iSwap f => some (encN 0x04, f)
  | .iOver f => some (encN 0x05, f)
  | .iRot f => some (encN 0x06, f)
  | .iPick f => some (encB 0x07 fun v => decide (13 < v), f)
  | .iDup2 f => some (encN 0x08, f)
  | .iDrop2 f => some (encN 0x09, f)
  | .iSwap2 f => some (encN 0x0A, f)
  | .iTagof f => some (encN 0x0B, f)
  | .iSettag f => some (encB 0x0C fun v => !settable v, f)
  | .iPushnil f => some (encN 0x0D, f)
  | .iSpill8 f => some (encN 0x0E, f)
  | .iPush8 f => some (encB 0x10 noBad, f)
  | .iPush16 f => some (encW 0x11, f)
  | .iPushr f => some (encW 0x12, f)
  | .iPushc f => some (encW 0x13, f)
  | .iPushref f => some (encL 0x14, f)
  | .iPushcode f => some (encL 0x15, f)
  | .iMkref f => some (encN 0x16, f)
  | .iRefadd f => some (encN 0x17, f)
  | .iRefpart f => some (encN 0x18, f)
  | .iAnch f => some (encN 0x19, f)
  | .iAld f => some (encN 0x1A, f)
  | .iLd f => some ({ encB 0x20 noBad with wide := true }, f)
  | .iSt f => some ({ encB 0x21 noBad with wide := true }, f)
  | .iLdp f => some ({ encB 0x22 noBad with wide := true }, f)
  | .iStp f => some ({ encB 0x23 noBad with wide := true }, f)
  | .iLdi f => some ({ encW 0x24 with wide := true, space := true }, f)
  | .iIst f => some (encN 0x25, f)
  | .iLdm f => some (encB 0x26 fun v => decide (v = 0) || decide (14 < v), f)
  | .iStm f => some (encB 0x27 fun v => decide (v = 0) || decide (14 < v), f)
  | .iIn f => some (encW 0x28, f)
  | .iOut f => some (encW 0x29, f)
  | .iIns f => some (encN 0x2A, f)
  | .iOuts f => some (encN 0x2B, f)
  | .iAdd f => some (encN 0x30, f)
  | .iSub f => some (encN 0x31, f)
  | .iMul f => some (encN 0x32, f)
  | .iNeg f => some (encN 0x33, f)
  | .iDiv f => some (encN 0x34, f)
  | .iMod f => some (encN 0x35, f)
  | .iAddw f => some (encN 0x38, f)
  | .iSubw f => some (encN 0x39, f)
  | .iAdcw f => some (encN 0x3A, f)
  | .iSbcw f => some (encN 0x3B, f)
  | .iMulw f => some (encN 0x3C, f)
  | .iMuluw f => some (encN 0x3D, f)
  | .iNegw f => some (encN 0x3E, f)
  | .iDivw f => some (encN 0x3F, f)
  | .iDivuw f => some (encN 0x40, f)
  | .iAnd f => some (encN 0x41, f)
  | .iOr f => some (encN 0x42, f)
  | .iXor f => some (encN 0x43, f)
  | .iNot f => some (encN 0x44, f)
  | .iShl f => some (encN 0x45, f)
  | .iShr f => some (encN 0x46, f)
  | .iSar f => some (encN 0x47, f)
  | .iRol f => some (encN 0x48, f)
  | .iRor f => some (encN 0x49, f)
  | .iLadd f => some (encN 0x4A, f)
  | .iLsub f => some (encN 0x4B, f)
  | .iCeq f => some (encB 0x50 tfBad, f)
  | .iCne f => some (encB 0x51 tfBad, f)
  | .iClt f => some (encB 0x52 tfBad, f)
  | .iCle f => some (encB 0x53 tfBad, f)
  | .iCltu f => some (encB 0x54 tfBad, f)
  | .iCleu f => some (encB 0x55 tfBad, f)
  | .iCtag f => some ({ encW 0x56 with illAt := tfBadW fun _ => false }, f)
  | .iCst f => some ({ encW 0x57 with illAt := tfBadW fun k => decide (11 < k) }, f)
  | .iBr f => some (encBr 0x60, f)
  | .iCall _ f => some (encBr 0x61, f)
  | .iJmpi f => some (encJmp 0x62, f)
  | .iCalli _ f => some (encJmp 0x63, f)
  | .iRet f => some (encJmp 0x64, f)
  | .iLoop _ f => some ({ encW 0x65 with wide := true, xfer := 1 }, f)
  | .iMovs f => some ({ encN 0x70 with rep := 1 }, f)
  | .iCmps f => some ({ encB 0x71 tfBad with rep := 2 }, f)
  | .iFill f => some ({ encN 0x72 with rep := 1 }, f)
  | .iScan f => some ({ encB 0x73 tfBad with rep := 2 }, f)
  | .iCrcs f => some ({ encB 0x74 crcBad with rep := 1 }, f)
  | .iCrcb f => some (encB 0x75 crcBad, f)
  | .iCrcw f => some (encB 0x76 crcBad, f)
  | .iPar f => some (encN 0x77, f)
  | .iBrev f => some (encN 0x78, f)
  | .iSwl f => some ({ (encB 0x80 fun v => decide (7 < v)) with xfer := 1 }, f)
  | .iRetl f => some ({ encN 0x81 with xfer := 1 }, f)
  | .iNoint f => some (encB 0x82 fun v => decide (v = 0) || decide (192 < v), f)
  | .iSetdom f => some (encB 0x83 noBad, f)
  | .iRdc f => some (encB 0x84 fun v => decide (8 < v), f)
  | .iWrc f => some (encB 0x85 fun v => decide (8 < v), f)
  | .iPushst f => some (encN 0x86, f)
  | .iPopst f => some (encN 0x87, f)
  | .iSync f => some (encN 0x88, f)
  | .iSynci f => some ({ encN 0x89 with xfer := 1 }, f)
  | .iWaiti f => some ({ encN 0x8A with xfer := 1 }, f)
  | .iCderive f => some (encB 0x90 noBad, f)
  | .iCclr f => some (encB 0x91 slotBad, f)
  | .iCxfer f => some ({ encW 0x92 with illAt := fun v => if bits v 11 5 ≠ 0 then some 1 else none }, f)
  | .iCstore f => some (encB 0x93 slotBad, f)
  | .iCload f => some (encB 0x94 slotBad, f)
  | _ => none

/-- A core as an entry to a level leaves it (R414): LNK, ST, the exception registers and NEST, and fetch at the vector. -/
def enteredAt (lvl vec : Nat) (ra : BitVec 32) (ds async : Bool) (fa : BitVec 32) (fdet : BitVec 16) (x : Core) : Core :=
  { x with
    lv := vUpd x.lv lvl fun l => { l with
      lnkRa := ra
      lnkSt := (x.st &&& 0xE00F) ||| (if x.ni = 0 then 0 else 0x0800) ||| (if ds then 0x1000 else 0)
      xcause := (if async then 0x8000 else 0) + BitVec.ofNat 16 vec, faddr := fa, fdet := fdet, nest := true, micro := none }
    st := BitVec.ofNat 16 (lvl * 8192), ni := 0, ia := x.vbase + BitVec.ofNat 32 (16 * vec)
    slot := none, waiti := false, mrkWait := none, stepOne := false }

/-- The level a core runs at with its micro-save and the place of an interrupted instruction gone. -/
def dropPlaces (x : Core) : Core := onLevel (fun l => { l with resume := none, micro := none }) x

/-- The level a core runs at with its operand stack put back as it was before a branch (R402). -/
def backBefore (d : DSlot) (x : Core) : Core := onLevel (fun l => { l with bank := d.saved, ssp := d.ssp }) x

/-- Whether a core, at work and outside a delay slot, has an interrupt of level `m` as the highest that it may take (R419, R420). -/
abbrev mayInterrupt (c m : Nat) (s : State) : Prop :=
  let k := coreOf s c
  coreUp c s = true ∧ k.slot = none ∧ (k.pfPend && !k.pfRun) = false ∧ k.mcPend = false ∧ k.ni = 0 ∧ lvlOf k < m ∧ m < 7
    ∧ k.ien.getLsbD m = true ∧ (pendBits c s).testBit m = true
    ∧ ∀ j, m < j → j < 7 → k.ien.getLsbD j = false ∨ (pendBits c s).testBit j = false

/-- What a reset other than LINK restarts (R528, R531): the device starts again, its cores, translation units, caches and engines as they are
at reset, sessions ended and nothing mounted. -/
abbrev Restarted (k : Kind) (t : State) : Prop :=
  t.pwr.phase = .startup ∧ t.pwr.kind = k ∧ t.pwr.pstate = .run ∧ t.pwr.seq = .none ∧ t.pwr.fatal = false ∧ t.pwr.wdEn = false
    ∧ t.mmu = Mmu.reset ∧ t.cache = Cache.reset ∧ t.vtf.sessions = [] ∧ t.store.mounted = false ∧ t.mem.sram = [] ∧ t.flt.force = 0
    ∧ t.eng.jobs = [] ∧ (∀ q, queueOf t q = [])
    ∧ ∀ c : Fin 16, coreOf t c.val = { Core.reset with running := decide (k = .soft ∧ c.val = 0) }

/-- What no reset lowers, loses or moves (R205, R524, R531): counters, keys, lifecycle, the segment map, the stored user microcode, device
time, which never goes back, and the queue of commands (R40). -/
abbrev KeptByReset (s t : State) : Prop :=
  t.vtf.counters = s.vtf.counters ∧ t.vtf.keys = s.vtf.keys ∧ t.vtf.life = s.vtf.life ∧ t.arr.map = s.arr.map
    ∧ t.ucode.stored = s.ucode.stored ∧ s.dtime ≤ t.dtime ∧ t.tick = s.tick ∧ t.variant = s.variant ∧ t.pending = s.pending

/-- A die's sequencer stands at an instruction that holds a word in one of its three slots, that slot is still to act, and the sequencer may
step (R156, R159). -/
abbrev slotReady (p : Part) (d : Nat) (w : BitVec 32) (s : State) (r : Run) : Prop :=
  runOf s d = some r ∧ (∃ i, insnAt s r = some i ∧ partWord p i = w) ∧ partDone p r = false ∧ seqMay s d = true

/-- A slot has acted: its execution is what it left, with the slot complete. -/
def slotDone (p : Part) (d : Nat) (r : Run) (s : State) : State := setRun s d (some (markPart p r))

/-- The other three slots of an instruction have completed, its control slot holds a word, and the sequencer may step; the step's cost
passes no declared quantity of the bundle (R156, R174). -/
abbrev ctlReady (d : Nat) (w : BitVec 32) (s : State) (r : Run) (b : Binding) (cost : Nat) : Prop :=
  runOf s d = some r ∧ look r.pend.binding s.wadi.bindings = some b ∧ (∃ i, insnAt s r = some i ∧ i.ctl = w)
    ∧ r.doneA = true ∧ r.doneS = true ∧ r.doneM = true ∧ seqMay s d = true
    ∧ r.mSteps + 1 ≤ (bundleOf s b.bundle).steps ∧ r.mEu + cost ≤ (bundleOf s b.bundle).eu * 1000
    ∧ r.mBytes ≤ (bundleOf s b.bundle).arrayBytes ∧ r.mRecs ≤ (bundleOf s b.bundle).maxRec

/-- A step has ended: it is metered, its results are what the next instruction, at index `k` within loops `l`, starts from (R156, R160). -/
def stepDone (d : Nat) (r : Run) (cost k : Nat) (l : List (Nat × Nat × Nat)) (s : State) : State :=
  setRun { s with wadi.drainNext := vSet s.wadi.drainNext d true } d (some { r with
    mSteps := r.mSteps + 1, mEu := r.mEu + cost, idx := k, loops := l, base := r.cur, pre := [], doneA := false, doneS := false, doneM := false })

/-- The packet of an opcode that a command row carries, as it joins its queue (R244). -/
def hostPkt (opc : BitVec 16) (x : CmdIn) : QPkt :=
  { QPkt.reset with pkt :=
      { chan := x.chan, opc := opc, flg := x.flg, qid := x.qid, tag := x.tag, ses := x.ses, plen := x.plen, seq := x.seq, body := x.body } }

/-- The same packet once its checks are passed. -/
def passedPkt (opc : BitVec 16) (x : CmdIn) (c : Ctx) : QPkt :=
  { hostPkt opc x with passed := true, plain := c.plain, keys := c.keys, role := c.role }

/-- A packet as it stands in its queue, with the owner key held when it arrived (R193). -/
def queued (opc : BitVec 16) (x : CmdIn) (s : State) : QPkt := { hostPkt opc x with owner := s.vtf.owner.getD [] }

/-- A packet joins its empty queue. -/
def joined (opc : BitVec 16) (x : CmdIn) (s : State) : State :=
  setQueue (renewAbort x.qid.toNat (hostPkt opc x) (noteRequest s)) x.qid.toNat [queued opc x s]

/-- A packet comes alone into an empty queue of the host's and may be taken up at once: its checks pass as `c`, the store is mounted or the
opcode is admitted before mount, no backlog or power transition holds it, no head of another queue goes before it and no barrier of another
queue holds it, and `s2` is the state its command acts on (R247, R251, R252, R255, R256, R307). -/
abbrev Admitted (opc : BitVec 16) (x : CmdIn) (c : Ctx) (s s2 : State) : Prop :=
  let q := x.qid.toNat
  x.chan = .host ∧ q < 64 ∧ engineOn s = true ∧ s.pwr.pstate ≠ .off ∧ queueOf s q = [] ∧ trainOfQueue s q = none
    ∧ (s.store.mounted = true ∨ premount opc.toNat = true ∨ opc = 0x0023) ∧ s.link.replies.length < 512
    ∧ (∀ j ∈ s.eng.jobs, j.barrier = false) ∧ s.eng.barQ = none ∧ s.pwr.entry = none
    ∧ (∃ t, checkPacket (hostPkt opc x).pkt false (joined opc x s) = .passed c t
      ∧ s2 = setHead q { passedPkt opc x c with owner := s.vtf.owner.getD [] } t)
    ∧ (arbOrder s2).head? = some q ∧ ∀ b, barrierAt s2 = some b → b = q

/-- The same for a barrier command, before which every command that was admitted is answered and no train is open (R255). -/
abbrev AdmittedAlone (opc : BitVec 16) (x : CmdIn) (c : Ctx) (s s2 : State) : Prop :=
  (∃ t, Admitted opc x c s t ∧ s2 = { t with eng.barQ := some x.qid.toNat }) ∧ (∀ j ∈ s.eng.jobs, j.replies = [])
    ∧ ∀ t ∈ s.eng.trains, t.st ≠ .opened

/-- The state once a command that left `t` has left its queue. -/
def leftQueue (opc : BitVec 16) (x : CmdIn) (c : Ctx) (t : State) : State :=
  settleEntry (served x.qid.toNat (fUrg (hostPkt opc x).pkt) (headLeft x.qid.toNat (dropHead x.qid.toNat (passedPkt opc x c) t)))

/-- The state once a command that left `t` is answered. -/
def replied (opc : BitVec 16) (x : CmdIn) (c : Ctx) (sts : Status) (res : Nat) (data : List Byte) (t : State) : State :=
  leftQueue opc x c (formReply (ctxReply c sts res data) t)

/-- The same for a barrier command, which is over then. -/
def repliedAlone (opc : BitVec 16) (x : CmdIn) (c : Ctx) (sts : Status) (res : Nat) (data : List Byte) (t : State) : State :=
  leftQueue opc x c { formReply (ctxReply c sts res data) t with eng.barQ := none }

/-- The rows that carry a command packet, with their opcodes (R261). -/
def hostRows : List ((CmdIn → Instr) × BitVec 16) :=
  [(.identify, 0x0001), (.getStatus, 0x0002), (.sessionOpen, 0x0010), (.sessionClose, 0x0011), (.attest, 0x0012), (.streamCreate, 0x0020),
   (.streamOpen, 0x0021), (.streamClose, 0x0022), (.streamAppend, 0x0023), (.streamRead, 0x0024), (.streamSeal, 0x0025),
   (.streamTrim, 0x0026), (.streamInfo, 0x0027), (.streamDelete, 0x0028), (.bootStage, 0x0030), (.bootCommit, 0x0031),
   (.bootActivate, 0x0032), (.ruleLoad, 0x0040), (.ruleBind, 0x0041), (.ruleUnload, 0x0042), (.extLoad, 0x0050), (.uopLoad, 0x0051),
   (.faultRead, 0x0060), (.faultClear, 0x0061), (.faultInject, 0x0062), (.powerState, 0x0070), (.holdupTest, 0x0071),
   (.provision, 0x0080), (.keyRotate, 0x0081), (.counterBump, 0x0082), (.sanitize, 0x0083), (.debugUnlock, 0x00F0)]

/-- The state once a packet that was alone in its queue is refused with a reply, its checks having left `t`. -/
def refusedWith (opc : BitVec 16) (x : CmdIn) (r : Reply) (t : State) : State :=
  settleEntry (served x.qid.toNat (fUrg (hostPkt opc x).pkt) (dropHead x.qid.toNat (hostPkt opc x) (formReply r t)))


/-- Every monotonic counter is at least a bound (R205). -/
def CountersAtLeast (v : Nat → Nat) (s : State) : Prop := ∀ i : Fin 32, v i.val ≤ vAt s.vtf.counters i.val

end Sys2Proof.Machine
end

