-- ==== Sys2Proof/Certificates/Slice0/Obligations.lean ====
section
/-! DEFINITION. The statements about the model: what each command does, what it leaves alone, and what every command keeps. -/
open Sys2Proof Sys2Proof.Machine

/-! ## The machine as a whole -/

/-- A step takes the command at the front of the queue and runs it on the rest. -/
def Obligations.StepRunsFrontCommand : Prop :=
  ∀ (c : Instr) (rest : List Instr) (s : State), step { s with pending := c :: rest } = exec c { s with pending := rest }

/-! ## Stack and literal instructions -/

/-- R388: the stack permutations and TAGOF move whole entries, BAD ones too, and change nothing else; NOP changes nothing. -/
def Obligations.StackPermutations : Prop :=
  ∀ (f : Fetch) (s : State) (a b c d : Word) (r : List Word),
    (Ready (encN 0x01) f s → exec (.iNop f) s = .next (seqFrom (encN 0x01) f s s))
    ∧ StackStep (encN 0x02) .iDup f (a :: r) (a :: a :: r) s
    ∧ StackStep (encN 0x03) .iDrop f (a :: r) r s
    ∧ StackStep (encN 0x04) .iSwap f (b :: a :: r) (a :: b :: r) s
    ∧ StackStep (encN 0x05) .iOver f (b :: a :: r) (a :: b :: a :: r) s
    ∧ StackStep (encN 0x06) .iRot f (c :: b :: a :: r) (a :: c :: b :: r) s
    ∧ StackStep (encN 0x08) .iDup2 f (b :: a :: r) (b :: a :: b :: a :: r) s
    ∧ StackStep (encN 0x09) .iDrop2 f (b :: a :: r) r s
    ∧ StackStep (encN 0x0A) .iSwap2 f (d :: c :: b :: a :: r) (b :: a :: d :: c :: r) s
    ∧ StackStep (encN 0x0B) .iTagof f (a :: r) (tw 0 (a.tag.setWidth 16) :: a :: r) s
    ∧ (∀ n : Fin 14, f.imm.setWidth 8 = BitVec.ofNat 8 n.val → r[n.val]? = some a →
        StackStep (encB 0x07 fun v => decide (13 < v)) .iPick f r (a :: r) s)

/-- R388, R389: the literals, SETTAG with a permitted code on an entry that is not BAD, and the building and taking apart of references. -/
def Obligations.LiteralsTagsAndReferences : Prop :=
  ∀ (f : Fetch) (s : State) (a l h : Word) (d x y : BitVec 16) (r : List Word),
    StackStep (encN 0x0D) .iPushnil f r (tw 3 0 :: r) s
    ∧ StackStep (encB 0x10 noBad) .iPush8 f r (tw 0 ((f.imm.setWidth 8).signExtend 16) :: r) s
    ∧ StackStep (encW 0x11) .iPush16 f r (tw 0 (f.imm.setWidth 16) :: r) s
    ∧ StackStep (encW 0x12) .iPushr f r (tw 1 (f.imm.setWidth 16) :: r) s
    ∧ StackStep (encW 0x13) .iPushc f r (tw 2 (f.imm.setWidth 16) :: r) s
    ∧ StackStep (encL 0x14) .iPushref f r (words32 4 5 f.imm ++ r) s
    ∧ StackStep (encL 0x15) .iPushcode f r (words32 9 9 f.imm ++ r) s
    ∧ (a.tag ≠ 0xF →
        StackStep (encB 0x0C fun v => !settable v) .iSettag f (a :: r) (tw (f.imm.setWidth 4) a.data :: r) s)
    ∧ (fixRaw l.tag = true → fixRaw h.tag = true → StackStep (encN 0x16) .iMkref f (l :: h :: r) (tw 5 l.data :: tw 4 h.data :: r) s)
    ∧ StackStep (encN 0x17) .iRefadd f (tw 0 d :: tw 5 y :: tw 4 x :: r) (words32 4 5 ((x ++ y) + d.signExtend 32) ++ r) s
    ∧ StackStep (encN 0x18) .iRefpart f (tw 5 y :: tw 4 x :: r) (tw 1 y :: tw 1 x :: r) s
    ∧ StackStep (encN 0x18) .iRefpart f (tw 9 y :: tw 9 x :: r) (tw 1 y :: tw 1 x :: r) s

/-! ## Arithmetic -/

/-- R395: generic arithmetic on FIX words: the exact result where it fits, with N and Z from it and V and C clear; ARITH_OVF where it does not
fit, and DIV_ZERO on a divisor of 0; a tag other than FIX traps by the tag pair, an operand alone as both of it. -/
def Obligations.GenericArithmetic : Prop :=
  (∀ (f : Fetch) (s : State) (a b : Word) (r : List Word), a.tag ≠ 0xF → b.tag ≠ 0xF →
    (a.tag ≠ 0 ∨ b.tag ≠ 0 → ∀ p, p ∈ [(0x30, Instr.iAdd), (0x31, .iSub), (0x32, .iMul), (0x34, .iDiv), (0x35, .iMod)] →
      TrapStep (encN p.1) p.2 f (b :: a :: r) (exc0 (0x40 + 16 * a.tag.toNat + b.tag.toNat)) s)
    ∧ (a.tag ≠ 0 → TrapStep (encN 0x33) .iNeg f (a :: r) (exc0 (0x40 + 17 * a.tag.toNat)) s))
  ∧ ∀ (f : Fetch) (s : State) (a b z : BitVec 16) (r : List Word),
    let fl : Flags := { n := z.getLsbD 15, z := decide (z = 0), v := false, c := false }
    let two := tw 0 b :: tw 0 a :: r
    let res := tw 0 z :: r
    (z.toInt = a.toInt + b.toInt → FlagStep (encN 0x30) .iAdd f two res fl s)
    ∧ (z.toInt = a.toInt - b.toInt → FlagStep (encN 0x31) .iSub f two res fl s)
    ∧ (z.toInt = a.toInt * b.toInt → FlagStep (encN 0x32) .iMul f two res fl s)
    ∧ (z.toInt = - a.toInt → FlagStep (encN 0x33) .iNeg f (tw 0 a :: r) res fl s)
    ∧ (b ≠ 0 → z.toInt = a.toInt.tdiv b.toInt → FlagStep (encN 0x34) .iDiv f two res fl s)
    ∧ (b ≠ 0 → z.toInt = a.toInt.tmod b.toInt → FlagStep (encN 0x35) .iMod f two res fl s)
    ∧ ((∀ w : BitVec 16, w.toInt ≠ a.toInt + b.toInt) → TrapStep (encN 0x30) .iAdd f two (exc0 0xC) s)
    ∧ ((∀ w : BitVec 16, w.toInt ≠ a.toInt - b.toInt) → TrapStep (encN 0x31) .iSub f two (exc0 0xC) s)
    ∧ ((∀ w : BitVec 16, w.toInt ≠ a.toInt * b.toInt) → TrapStep (encN 0x32) .iMul f two (exc0 0xC) s)
    ∧ TrapStep (encN 0x33) .iNeg f (tw 0 0x8000 :: r) (exc0 0xC) s
    ∧ TrapStep (encN 0x34) .iDiv f (tw 0 0xFFFF :: tw 0 0x8000 :: r) (exc0 0xC) s
    ∧ TrapStep (encN 0x34) .iDiv f (tw 0 0 :: tw 0 a :: r) (exc0 0xB) s
    ∧ TrapStep (encN 0x35) .iMod f (tw 0 0 :: tw 0 a :: r) (exc0 0xB) s

/-- R396: the wrapping word operations: RAW results, N and Z of the result, V and C as the table gives; products, quotients and 32-bit sums. -/
def Obligations.WordAndLongArithmetic : Prop :=
  (∀ (f : Fetch) (s : State) (a b : Word) (r : List Word), rawTag a.tag = true → rawTag b.tag = true →
     let cin := (coreOf s f.core.val).st.getLsbD 0
     let cn := if cin then 1 else 0
     let x := a.data
     let y := b.data
     let fl (z : BitVec 16) (v c : Bool) : Flags := { n := z.getLsbD 15, z := decide (z = 0), v := v, c := c }
     let two := b :: a :: r
     FlagStep (encN 0x38) .iAddw f two (tw 1 (x + y) :: r)
         (fl (x + y) (over16 (x.toInt + y.toInt)) (decide (0x10000 ≤ x.toNat + y.toNat))) s
     ∧ FlagStep (encN 0x39) .iSubw f two (tw 1 (x - y) :: r) (fl (x - y) (over16 (x.toInt - y.toInt)) (decide (x.toNat < y.toNat))) s
     ∧ FlagStep (encN 0x3A) .iAdcw f two (tw 1 (x + y + BitVec.ofNat 16 cn) :: r)
         (fl (x + y + BitVec.ofNat 16 cn) (over16 (x.toInt + y.toInt + cn)) (decide (0x10000 ≤ x.toNat + y.toNat + cn))) s
     ∧ FlagStep (encN 0x3B) .iSbcw f two (tw 1 (x - y - BitVec.ofNat 16 cn) :: r)
         (fl (x - y - BitVec.ofNat 16 cn) (over16 (x.toInt - y.toInt - cn)) (decide (x.toNat < y.toNat + cn))) s
     ∧ FlagStep (encN 0x3E) .iNegw f (a :: r) (tw 1 (- x) :: r) (fl (- x) (decide (x = 0x8000)) (decide (x ≠ 0))) s
     ∧ FlagStep (encN 0x41) .iAnd f two (tw 1 (x &&& y) :: r) (fl (x &&& y) false false) s
     ∧ FlagStep (encN 0x42) .iOr f two (tw 1 (x ||| y) :: r) (fl (x ||| y) false false) s
     ∧ FlagStep (encN 0x43) .iXor f two (tw 1 (x ^^^ y) :: r) (fl (x ^^^ y) false false) s
     ∧ FlagStep (encN 0x44) .iNot f (a :: r) (tw 1 (~~~ x) :: r) (fl (~~~ x) false false) s)
  ∧ ((∀ (f : Fetch) (s : State) (a b : Word) (r : List Word), rawTag a.tag = true → rawTag b.tag = true →
     let sp : BitVec 32 := BitVec.ofInt 32 (a.data.toInt * b.data.toInt)
     let up : BitVec 32 := BitVec.ofNat 32 (a.data.toNat * b.data.toNat)
     let q : BitVec 16 := BitVec.ofInt 16 (a.data.toInt.tdiv b.data.toInt)
     let m : BitVec 16 := BitVec.ofInt 16 (a.data.toInt.tmod b.data.toInt)
     FlagStep (encN 0x3C) .iMulw f (b :: a :: r) (tw 1 ((sp >>> 16).setWidth 16) :: tw 1 (sp.setWidth 16) :: r)
       { n := sp.getLsbD 31, z := decide (sp = 0), v := false, c := decide ((sp.setWidth 16).signExtend 32 ≠ sp) } s
     ∧ FlagStep (encN 0x3D) .iMuluw f (b :: a :: r) (tw 1 ((up >>> 16).setWidth 16) :: tw 1 (up.setWidth 16) :: r)
       { n := up.getLsbD 31, z := decide (up = 0), v := false, c := decide (up >>> 16 ≠ 0) } s
     ∧ (b.data ≠ 0 → FlagStep (encN 0x3F) .iDivw f (b :: a :: r) (tw 1 m :: tw 1 q :: r)
         { n := q.getLsbD 15, z := decide (q = 0), v := decide (a.data = 0x8000 ∧ b.data = 0xFFFF), c := false } s)
     ∧ (b.data = 0 → TrapStep (encN 0x3F) .iDivw f (b :: a :: r) (exc0 0xB) s))
   ∧ (∀ (f : Fetch) (s : State) (h l b : Word) (r : List Word),
       rawTag h.tag = true → rawTag l.tag = true → rawTag b.tag = true →
     let n := (h.data ++ l.data).toNat
     let q : BitVec 16 := BitVec.ofNat 16 (n / b.data.toNat)
     (b.data ≠ 0 → FlagStep (encN 0x40) .iDivuw f (b :: l :: h :: r) (tw 1 (BitVec.ofNat 16 (n % b.data.toNat)) :: tw 1 q :: r)
         { n := q.getLsbD 15, z := decide (q = 0), v := decide (b.data.toNat ≤ h.data.toNat), c := false } s)
     ∧ (b.data = 0 → TrapStep (encN 0x40) .iDivuw f (b :: l :: h :: r) (exc0 0xB) s))
   ∧ (∀ (f : Fetch) (s : State) (ah al bh bl : BitVec 16) (r : List Word),
     let x : BitVec 32 := ah ++ al
     let y : BitVec 32 := bh ++ bl
     let four := tw 0xC bl :: tw 0xC bh :: tw 0xC al :: tw 0xC ah :: r
     let past (v : Int) : Bool := decide (v < -0x80000000 ∨ 0x7FFFFFFF < v)
     FlagStep (encN 0x4A) .iLadd f four (words32 0xC 0xC (x + y) ++ r)
       { n := (x + y).getLsbD 31, z := decide (x + y = 0), v := past (x.toInt + y.toInt)
         c := decide (0x100000000 ≤ x.toNat + y.toNat) } s
     ∧ FlagStep (encN 0x4B) .iLsub f four (words32 0xC 0xC (x - y) ++ r)
       { n := (x - y).getLsbD 31, z := decide (x - y = 0), v := past (x.toInt - y.toInt), c := decide (x.toNat < y.toNat) } s))

/-- R397, R406: shifts and rotates by an unsigned count: the result, and C, for a count of 0, of 1 to 15, of 16 and above; the CRC steps, parity and bit
reversal leave ST unchanged. -/
def Obligations.ShiftsRotatesAndCrcs : Prop :=
  (∀ (f : Fetch) (s : State) (a n : Word) (r : List Word), rawTag a.tag = true → rawTag n.tag = true →
     let x := a.data
     let k := n.data.toNat
     let cin := (coreOf s f.core.val).st.getLsbD 0
     let fill : BitVec 16 := if x.getLsbD 15 then 0xFFFF else 0
     let ends (opc : Nat) (row : Fetch → Instr) (z : BitVec 16) (c : Bool) : Prop :=
       FlagStep (encN opc) row f (n :: a :: r) (tw 1 z :: r) { n := z.getLsbD 15, z := decide (z = 0), v := false, c := c } s
     (k = 0 → ends 0x45 .iShl x cin ∧ ends 0x46 .iShr x cin ∧ ends 0x47 .iSar x cin ∧ ends 0x48 .iRol x cin ∧ ends 0x49 .iRor x cin)
     ∧ (1 ≤ k → k ≤ 15 → ends 0x45 .iShl (x <<< k) (x.getLsbD (16 - k)) ∧ ends 0x46 .iShr (x >>> k) (x.getLsbD (k - 1))
         ∧ ends 0x47 .iSar (x.sshiftRight k) (x.getLsbD (k - 1)))
     ∧ (k = 16 → ends 0x45 .iShl 0 (x.getLsbD 0) ∧ ends 0x46 .iShr 0 (x.getLsbD 15))
     ∧ (16 < k → ends 0x45 .iShl 0 false ∧ ends 0x46 .iShr 0 false)
     ∧ (16 ≤ k → ends 0x47 .iSar fill (x.getLsbD 15))
     ∧ (1 ≤ k → ends 0x48 .iRol (x.rotateLeft (k % 16)) ((x.rotateLeft (k % 16)).getLsbD 0)
         ∧ ends 0x49 .iRor (x.rotateRight (k % 16)) ((x.rotateRight (k % 16)).getLsbD 15)))
  ∧ (∀ (f : Fetch) (s : State) (sh sl d a : Word) (r : List Word),
     let st := sh.data ++ sl.data
     let p := f.imm.getLsbD 0
     let lo : BitVec 8 := d.data.setWidth 8
     let hi : BitVec 8 := (d.data >>> 8).setWidth 8
     (fixRaw sh.tag = true → fixRaw sl.tag = true → d.tag ≠ 0xF → f.imm.setWidth 8 = (if p then 1 else 0) →
       StackStep (encB 0x75 crcBad) .iCrcb f (d :: sl :: sh :: r) (words32 1 1 (crcStep p st lo) ++ r) s
       ∧ StackStep (encB 0x76 crcBad) .iCrcw f (d :: sl :: sh :: r) (words32 1 1 (crcStep p (crcStep p st lo) hi) ++ r) s)
     ∧ (rawTag a.tag = true →
       StackStep (encN 0x77) .iPar f (a :: r) (tw 1 (if ((Nat.digits 2 a.data.toNat).sum) % 2 = 1 then 1 else 0) :: r) s
       ∧ StackStep (encN 0x78) .iBrev f (a :: r) (tw 1 a.data.reverse :: r) s))

/-! ## Compares, branches and loops -/

/-- R399, R400: the compares. -/
def Obligations.ComparesWritePredicates : Prop :=
  ∀ (f : Fetch) (s : State) (a b : Word) (r : List Word),
    let two := b :: a :: r
    let fl := (coreOf s f.core.val).st
    let code : BitVec 4 := (f.imm >>> 8).setWidth 4
    (a.tag ≠ 0xF → b.tag ≠ 0xF →
      CompareStep (encB 0x50 tfBad) .iCeq f two r (decide (a.tag = b.tag ∧ a.data = b.data)) s
      ∧ CompareStep (encB 0x51 tfBad) .iCne f two r (decide (a.tag ≠ b.tag ∨ a.data ≠ b.data)) s)
    ∧ (a.tag = 0 → b.tag = 0 →
      CompareStep (encB 0x52 tfBad) .iClt f two r (a.data.slt b.data) s ∧ CompareStep (encB 0x53 tfBad) .iCle f two r (a.data.sle b.data) s)
    ∧ (rawTag a.tag = true → rawTag b.tag = true →
      CompareStep (encB 0x54 tfBad) .iCltu f two r (a.data.ult b.data) s ∧ CompareStep (encB 0x55 tfBad) .iCleu f two r (a.data.ule b.data) s)
    ∧ (a.tag ≠ 0xF →
      CompareStep { encW 0x56 with illAt := tfBadW fun _ => false } .iCtag f (a :: r) (a :: r) (decide (a.tag = code)) s)
    ∧ CompareStep { encW 0x57 with illAt := tfBadW fun k => decide (11 < k) } .iCst f r r
        ([fl.getLsbD 2, !fl.getLsbD 2, fl.getLsbD 0, !fl.getLsbD 0, fl.getLsbD 1, !fl.getLsbD 1, fl.getLsbD 3, !fl.getLsbD 3,
          fl.getLsbD 3 != fl.getLsbD 1, fl.getLsbD 3 == fl.getLsbD 1, fl.getLsbD 0 || fl.getLsbD 2,
          !fl.getLsbD 0 && !fl.getLsbD 2].getD code.toNat false) s

/-- R401, R402: branches, calls and jumps name their target, push or pop their CODE pair, and leave their delay slot to execute next. -/
def Obligations.BranchesCallsAndJumps : Prop :=
  ∀ (f : Fetch) (len : Fin 8) (s : State) (l h : BitVec 16) (r : List Word),
    let c := f.core.val
    let tgt (e : Enc) : BitVec 32 := BitVec.ofNat 32 (nextIa e f (coreOf s c)) + dispOf f
    let back (e : Enc) : BitVec 32 := BitVec.ofNat 32 (nextIa e f (coreOf s c)) + BitVec.ofNat 32 (len.val + 1)
    let goes (e : Enc) (i : Instr) (st st' : List Word) (dest : BitVec 32) : Prop :=
      Ready e f s → bankOf s c = st → st'.length ≤ 16 → exec i s = .next (branchFrom e f s (withBank c st' s) dest.toNat)
    goes (encBr 0x60) (.iBr f) r r (tgt (encBr 0x60))
    ∧ goes (encBr 0x61) (.iCall len f) r (words32 9 9 (back (encBr 0x61)) ++ r) (tgt (encBr 0x61))
    ∧ goes (encJmp 0x62) (.iJmpi f) (tw 9 l :: tw 9 h :: r) r (h ++ l)
    ∧ goes (encJmp 0x63) (.iCalli len f) (tw 9 l :: tw 9 h :: r) (words32 9 9 (back (encJmp 0x63)) ++ r) (h ++ l)
    ∧ goes (encJmp 0x64) (.iRet f) (tw 9 l :: tw 9 h :: r) r (h ++ l)

/-- R403: LOOP sets the loop state and runs the body, or with a count of 0 goes on after the instruction at LEND.
Where the specification leaves a point open, the model's choice of log 35 stands. -/
def Obligations.LoopSetsItsState : Prop :=
  ∀ (f : Fetch) (len : Fin 8) (s : State) (n : Word) (r : List Word),
    let e : Enc := { encW 0x65 with wide := true, xfer := 1 }
    let c := f.core.val
    let start : BitVec 32 := BitVec.ofNat 32 (nextIa e f (coreOf s c))
    let lend : BitVec 32 := start + (if hasPre f.pre 0xDD then f.imm else (f.imm.setWidth 16).setWidth 32)
    let t (cnt : BitVec 16) : State := updLevel s c fun k => { k with bank := r, lstart := start, lend := lend, lcnt := cnt }
    Ready e f s → bankOf s c = n :: r → fixRaw n.tag = true →
      exec (.iLoop len f) s = .next (if n.data = 0
        then gotoFrom f (t (curLevel (coreOf s c)).lcnt) (lend + BitVec.ofNat 32 (len.val + 1)).toNat
        else gotoFrom f (t n.data) start.toNat)


/-! ## Loads, stores and ports -/

/-- R390, R392: a load through a reference replaces the pair by the word its access answers; an access that ends otherwise ends the load.
Where the specification leaves a point open, the model's choice of logs 33 and 36 stands. -/
def Obligations.LoadsEndAsTheirAccess : Prop :=
  ∀ (f : Fetch) (s : State) (l h : BitVec 16) (r : List Word),
    let c := f.core.val
    let base := (h ++ l).toNat
    let eLd : Enc := { encB 0x20 noBad with wide := true }
    let eLdi : Enc := { encW 0x24 with wide := true, space := true }
    let eLdp : Enc := { encB 0x22 noBad with wide := true }
    r.length < 15 →
    (Ready eLd f s → bankOf s c = tw 5 l :: tw 4 h :: r →
      exec (.iLd f) s = .next (accessEnd eLd f s (loadThrough c base (offB f) s) fun w u => setTop c 2 [w] u))
    ∧ (Ready eLdi f s → hasPre f.pre 0xDC = false → bankOf s c = tw 5 l :: tw 4 h :: r →
      exec (.iLdi f) s = .next (accessEnd eLdi f s (loadThrough c base (dispOf f).toNat s) fun w u => setTop c 2 [w] u))
    ∧ (Ready eLdi f s → hasPre f.pre 0xDC = true → bankOf s c = tw 9 l :: tw 9 h :: r →
      let a := (h ++ l) + dispOf f
      mapped a.toNat = true → mapped (a + 1).toNat = true →
      exec (.iLdi f) s = .next (seqFrom eLdi f s (withBank c (tw 1 (iByte (a + 1).toNat s ++ iByte a.toNat s) :: r) s)))
    ∧ (∀ (b : Nat) (u v x : State) (hi lo : Word), Ready eLdp f s → bankOf s c = tw 5 l :: tw 4 h :: r → barrierBase c base s = .ok b u →
      readBarred c false (b + offB f) u = .ok hi v → readBarred c false (b + offB f + 1) v = .ok lo x →
      exec (.iLdp f) s = .next (if hi.tag = 4 ∧ lo.tag = 5 then seqFrom eLdp f s (setTop c 2 [lo, hi] x)
        else trapAt c (coreOf s c).ia.toNat 0x22 (tagTrap hi.tag lo.tag) u))

/-- R390 to R392: a store through a reference pops its inputs once its checked store is made; STP checks both halves first; IST writes two
bytes of I-space under an IWRITE capability.
Where the specification leaves a point open, the model's choice of logs 33 and 36 stands. -/
def Obligations.StoresEndAsTheirAccess : Prop :=
  ∀ (f : Fetch) (s : State) (l h : BitVec 16) (x y : Word) (r : List Word),
    let c := f.core.val
    let base := (h ++ l).toNat
    let tt := tagTrap 4 5
    let eSt : Enc := { encB 0x21 noBad with wide := true }
    let eStp : Enc := { encB 0x23 noBad with wide := true }
    (Ready eSt f s → bankOf s c = tw 5 l :: tw 4 h :: x :: r → x.tag ≠ 0xF →
      exec (.iSt f) s = .next (accessEnd eSt f s
        ((barrierBase c base s).andThen fun b u => storeAt c false (b + offB f) x tt u) fun _ v => setTop c 3 [] v))
    ∧ (Ready eStp f s → bankOf s c = tw 5 l :: tw 4 h :: y :: x :: r →
      (x.tag = 4 ∧ y.tag = 5) ∨ (x.tag = 3 ∧ y.tag = 3) →
      exec (.iStp f) s = .next (accessEnd eStp f s
        ((barrierBase c base s).andThen fun b u => (storeCheck c false (b + offB f) x tt u).andThen fun p v =>
          (storeCheck c false (b + offB f + 1) y tt v).andThen fun q z => .ok (p, q) z)
        fun pq z => setTop c 4 [] (storeDo c false pq.2 (storeDo c false pq.1 z))))
    ∧ (∀ (v : BitVec 16) (t : BitVec 4), t = 0 ∨ t = 1 → Ready (encN 0x25) f s → bankOf s c = tw 9 l :: tw 9 h :: tw t v :: r →
      holdsCap (coreOf s c) (capIwrite base (base + 1)) = true → 0x100000 ≤ base →
      ∃ u, exec (.iIst f) s = .next (seqFrom (encN 0x25) f s u) ∧ bankOf u c = r ∧ OnlyIn [.cores, .mem] s u
        ∧ iByte base u = v.setWidth 8 ∧ iByte (base + 1) u = (v >>> 8).setWidth 8
        ∧ ∀ a, a ≠ base → a ≠ base + 1 → iByte a u = iByte a s)
    ∧ (Ready (encN 0x25) f s → bankOf s c = tw 9 l :: tw 9 h :: tw 1 (x.data) :: r →
      holdsCap (coreOf s c) (capIwrite base (base + 1)) = false →
      exec (.iIst f) s = .next (trapped (encN 0x25) f (capFault base 2) s))

/-- R394: block transfers: with MSK 0 they only pop; one selected transfer is a load or a store of one entry, its MSK bit then clear; a
MSK bit at or above n is illegal; an interrupt before a transfer leaves it to be made. -/
def Obligations.BlockTransfers : Prop :=
  ∀ (f : Fetch) (s : State) (l h : BitVec 16) (blk r : List Word) (n : Nat),
    let c := f.core.val
    let base := (h ++ l).toNat
    let bad (v : Nat) : Bool := decide (v = 0) || decide (14 < v)
    let msk := (curLevel (coreOf s c)).msk
    let e26 := encB 0x26 bad
    let e27 := encB 0x27 bad
    f.imm.setWidth 8 = BitVec.ofNat 8 n → 1 ≤ n → n ≤ 14 → blk.length = n → bankOf s c = tw 5 l :: tw 4 h :: blk ++ r →
    (msk = 0 → Ready e26 f s → exec (.iLdm f) s = .next (seqFrom e26 f s (withBank c (blk ++ r) s)))
    ∧ (msk = 0 → Ready e27 f s → exec (.iStm f) s = .next (seqFrom e27 f s (withBank c r s)))
    ∧ (∀ k w u, k < n → msk = BitVec.ofNat 16 (2 ^ k) → Ready e26 f s → f.lim = none → loadThrough c base k s = .ok w u →
      exec (.iLdm f) s = .next (seqFrom e26 f s (updLevel u c fun m => { m with bank := blk.set k w ++ r, msk := 0 })))
    ∧ (∀ k b u v, k < n → msk = BitVec.ofNat 16 (2 ^ k) → Ready e27 f s → f.lim = none → (inp blk k).tag ≠ 0xF →
      barrierBase c base s = .ok b u → storeAt c false (b + k) (inp blk k) (tagTrap 4 5) u = .ok () v →
      exec (.iStm f) s = .next (seqFrom e27 f s (updLevel v c fun m => { m with bank := r, msk := 0 })))
    ∧ (2 ^ n ≤ msk.toNat → Ready e26 f s → exec (.iLdm f) s = .next (trapped e26 f illegalOp s))
    ∧ (2 ^ n ≤ msk.toNat → Ready e27 f s → exec (.iStm f) s = .next (trapped e27 f illegalOp s))
    ∧ (msk.toNat < 2 ^ n → msk ≠ 0 → (coreOf s c).slot = none → f.lim = some 0 →
      (Ready e26 f s → exec (.iLdm f) s = .next (againAt f s s)) ∧ (Ready e27 f s → exec (.iStm f) s = .next (againAt f s s)))

/-- R354, R458: ANCH makes the anchor of the segment word its reference translates to, and ALD the reference of an anchor's place in the
heap window; a failing translation is its walk fault. -/
def Obligations.AnchorsTranslateBothWays : Prop :=
  ∀ (f : Fetch) (s : State) (l h m : BitVec 16) (r : List Word),
    let c := f.core.val
    let dom := (curLevel (coreOf s c)).dom.toNat
    let d := descOf s dom
    r.length < 13 →
    (∀ (t : Trans) (u : State) (swa : Nat), Ready (encN 0x19) f s → bankOf s c = tw 5 l :: tw 4 h :: r →
      translate c dom (h ++ l).toNat false s = .ok (t, u) → t.phys = .seg swa →
      exec (.iAnch f) s = .next (seqFrom (encN 0x19) f s (setTop c 2
        [tw 0xB (BitVec.ofNat 16 (swa % 131072)), tw 0xB (BitVec.ofNat 16 (swa / 131072 % 64 * 1024 + swa % 131072 / 65536)),
          tw 0xB (BitVec.ofNat 16 (swa / 131072 / 64))] u)))
    ∧ (∀ x, Ready (encN 0x19) f s → bankOf s c = tw 5 l :: tw 4 h :: r → translate c dom (h ++ l).toNat false s = .error x →
      exec (.iAnch f) s = .next (trapped (encN 0x19) f (walkExc x (h ++ l).toNat) s))
    ∧ (let g := h.toNat * 64 + m.toNat / 1024
       let da : BitVec 32 := d.hwbase + BitVec.ofNat 32 ((g - d.hwseg.toNat) * 131072 + m.toNat % 2 * 65536 + l.toNat)
       Ready (encN 0x1A) f s → bankOf s c = tw 0xB l :: tw 0xB m :: tw 0xB h :: r →
       d.v = true → d.hwseg.toNat ≤ g → g < d.hwseg.toNat + 2 ^ d.hwn.toNat →
       exec (.iAld f) s = .next (match translate c dom da.toNat false s with
         | .ok (_, u) => seqFrom (encN 0x1A) f s (setTop c 3 (words32 4 5 da) u)
         | .error x => trapped (encN 0x1A) f (walkExc x da.toNat) s))

/-- R364, R393: a port is read, or written with the data of an entry with a raw tag, under a PORT capability that covers it; without one the
instruction raises Capability Fault. -/
def Obligations.PortInstructionsNeedAuthority : Prop :=
  ∀ (f : Fetch) (s : State) (p : BitVec 16) (t : BitVec 4) (w : Word) (r : List Word),
    let c := f.core.val
    let q := (f.imm.setWidth 16 : BitVec 16).toNat
    let may (k n : Nat) : Bool := holdsCap (coreOf s c) (capPort k n)
    r.length < 15 →
    (Ready (encW 0x28) f s → bankOf s c = r → exec (.iIn f) s = .next (if may 0 q
      then seqFrom (encW 0x28) f s (setTop c 0 [tw 1 (portRead c q s).1] (portRead c q s).2) else trapped (encW 0x28) f (capFault q 1) s))
    ∧ (t ≠ 0xF → Ready (encN 0x2A) f s → bankOf s c = tw t p :: r → exec (.iIns f) s = .next (if may 0 p.toNat
      then seqFrom (encN 0x2A) f s (setTop c 1 [tw 1 (portRead c p.toNat s).1] (portRead c p.toNat s).2)
      else trapped (encN 0x2A) f (capFault p.toNat 1) s))
    ∧ (Ready (encW 0x29) f s → bankOf s c = w :: r → outPasses c q w s →
      exec (.iOut f) s = .next (seqFrom (encW 0x29) f s (portWrite c q w.data (withBank c r s))))
    ∧ (t ≠ 0xF → Ready (encN 0x2B) f s → bankOf s c = tw t p :: w :: r → outPasses c p.toNat w s →
      exec (.iOuts f) s = .next (seqFrom (encN 0x2B) f s (portWrite c p.toNat w.data (withBank c r s))))
    ∧ (Ready (encW 0x29) f s → bankOf s c = w :: r → rawTag w.tag = true → reservedWrite q w.data = false → may 1 q = false →
      exec (.iOut f) s = .next (trapped (encW 0x29) f (capFault q (if q = 0x1800 ∧ w.data.getLsbD 15 = true then 5 else 1)) s))
    ∧ (Ready (encW 0x29) f s → bankOf s c = w :: r → rawTag w.tag = false → w.tag ≠ 0xF →
      exec (.iOut f) s = .next (trapped (encW 0x29) f (tagTrap w.tag w.tag) s))

/-! ## String operations -/

/-- R404 to R406: without a repeat prefix a string operation does one element where CNT is not 0, and none where it is: SRC and DST move on,
CNT counts down, ST never changes; an element's access that fails ends the operation as it ends a load or a store.
Where the specification leaves a point open, the model's choice of log 33 stands. -/
def Obligations.StringElements : Prop :=
  ∀ (f : Fetch) (s : State) (x sl sh : Word) (r : List Word),
    let c := f.core.val
    let v := curLevel (coreOf s c)
    let src := v.src.toNat
    let dst := v.dst.toNat
    let plain := hasPre f.pre 0xD8 = false ∧ hasPre f.pre 0xD9 = false ∧ hasPre f.pre 0xDA = false
    let e70 : Enc := { encN 0x70 with rep := 1 }
    let e71 : Enc := { encB 0x71 tfBad with rep := 2 }
    let e72 : Enc := { encN 0x72 with rep := 1 }
    let e73 : Enc := { encB 0x73 tfBad with rep := 2 }
    let e74 : Enc := { encB 0x74 crcBad with rep := 1 }
    let preds (b : Bool) (t : State) : State := updLevel t c fun k => { k with preds := predsAfter f.imm b k.preds }
    let plainTag (w : Word) : Prop := w.tag ≠ 0xF ∧ w.tag ≠ 8 ∧ w.tag ≠ 0xA
    (v.cnt = 0 →
      (Ready e70 f s → exec (.iMovs f) s = .next (seqFrom e70 f s s)) ∧ (Ready e71 f s → exec (.iCmps f) s = .next (seqFrom e71 f s s))
      ∧ (bankOf s c = x :: r → (Ready e72 f s → exec (.iFill f) s = .next (seqFrom e72 f s s))
          ∧ (Ready e73 f s → exec (.iScan f) s = .next (seqFrom e73 f s s)))
      ∧ (bankOf s c = sl :: sh :: r → Ready e74 f s → exec (.iCrcs f) s = .next (seqFrom e74 f s s)))
    ∧ (v.cnt ≠ 0 → plain →
      (∀ w t, Ready e70 f s → readBarred c true src s = .ok w t → exec (.iMovs f) s = .next (
          if w.tag = 8 then trapAt c (coreOf s c).ia.toNat 0x70 (capFault src 0) t
          else accessEnd e70 f s (storeAt c true dst w (tagTrap w.tag w.tag) t) fun _ u => stringMoved true true c u))
      ∧ (∀ w y t t' u, Ready e71 f s → readBarred c true src s = .ok w t → readBarred c true dst t = .ok y u →
          readBarred c true dst s = .ok y t' → plainTag w → plainTag y →
          exec (.iCmps f) s = .next (seqFrom e71 f s (stringMoved true true c (preds (decide (w = y)) u))))
      ∧ (Ready e72 f s → bankOf s c = x :: r → x.tag ≠ 0xF → exec (.iFill f) s = .next (
          accessEnd e72 f s (storeAt c true dst x (tagTrap x.tag x.tag) s) fun _ u => stringMoved false true c u))
      ∧ (∀ w t, Ready e73 f s → bankOf s c = x :: r → x.tag ≠ 0xF → readBarred c true src s = .ok w t → plainTag w →
          exec (.iScan f) s = .next (seqFrom e73 f s (stringMoved true false c (preds (decide (w = x)) t))))
      ∧ (∀ w t, Ready e74 f s → bankOf s c = sl :: sh :: r → fixRaw sl.tag = true → fixRaw sh.tag = true →
          readBarred c true src s = .ok w t → plainTag w →
          let p := f.imm.getLsbD 0
          let st := crcStep p (crcStep p (sh.data ++ sl.data) (w.data.setWidth 8)) ((w.data >>> 8).setWidth 8)
          exec (.iCrcs f) s = .next (seqFrom e74 f s (stringMoved true false c (setTop c 2 (words32 1 1 st) t)))))

/-! ## Levels, control state and capabilities -/

/-- R368, R407, R408, R421, R423, R426: the control instructions that stay at their level. -/
def Obligations.ControlStateInstructions : Prop :=
  ∀ (f : Fetch) (s : State) (x y : Word) (r : List Word),
    let c := f.core.val
    let k := coreOf s c
    let v := curLevel k
    let n := (f.imm.setWidth 8 : BitVec 8)
    let eRd := encB 0x84 fun v => decide (8 < v)
    let eWr := encB 0x85 fun v => decide (8 < v)
    let eNi := encB 0x82 fun v => decide (v = 0) || decide (192 < v)
    let rd (i : BitVec 8) (l : List Word) : Prop := n = i → StackStep eRd .iRdc f r (l ++ r) s
    let wr (i : BitVec 8) (g : LevelSt → LevelSt) (l : List Word) : Prop := n = i → Ready eWr f s → bankOf s c = l ++ r →
      exec (.iWrc f) s = .next (seqFrom eWr f s (updLevel s c fun z => g { z with bank := r }))
    (Ready eNi f s → exec (.iNoint f) s = .next (if k.ni = 0 then seqFrom eNi f s (updCore s c fun z => { z with ni := n.toNat })
        else trapped eNi f illegalOp s))
    ∧ (Ready (encB 0x83 noBad) f s → exec (.iSetdom f) s = .next (if holdsCap k (capDomain 0 n.toNat)
        then seqFrom (encB 0x83 noBad) f s (updLevel s c fun z => { z with dom := n })
        else trapped (encB 0x83 noBad) f (capFault 0 6) s))
    ∧ rd 0 (words32 1 1 v.src) ∧ rd 1 (words32 1 1 v.dst) ∧ rd 2 [tw 1 v.cnt] ∧ rd 3 (words32 1 1 v.lstart) ∧ rd 4 (words32 1 1 v.lend)
    ∧ rd 5 [tw 1 v.lcnt] ∧ rd 6 [tw 1 v.msk] ∧ rd 7 (words32 9 9 v.lnkRa) ∧ rd 8 [tw 1 v.lnkSt]
    ∧ (fixRaw x.tag = true → fixRaw y.tag = true →
        wr 0 (fun z => { z with src := y.data ++ x.data }) [x, y] ∧ wr 1 (fun z => { z with dst := y.data ++ x.data }) [x, y]
        ∧ wr 2 (fun z => { z with cnt := x.data }) [x] ∧ wr 3 (fun z => { z with lstart := y.data ++ x.data }) [x, y]
        ∧ wr 4 (fun z => { z with lend := y.data ++ x.data }) [x, y] ∧ wr 5 (fun z => { z with lcnt := x.data }) [x]
        ∧ wr 6 (fun z => { z with msk := x.data }) [x] ∧ wr 8 (fun z => { z with lnkSt := x.data }) [x])
    ∧ wr 7 (fun z => { z with lnkRa := y.data ++ x.data }) [tw 9 x.data, tw 9 y.data]
    ∧ StackStep (encN 0x86) .iPushst f r (tw 1 ((k.st &&& 0xF00F) ||| (if k.ni = 0 then 0 else 0x0800)) :: r) s
    ∧ (fixRaw x.tag = true → Ready (encN 0x87) f s → bankOf s c = x :: r → exec (.iPopst f) s = .next (seqFrom (encN 0x87) f s
        (updCore (withBank c r s) c fun z => { z with st := (z.st &&& 0xFFF0) ||| (x.data &&& 0xF) })))
    ∧ (Ready (encN 0x88) f s → exec (.iSync f) s = .next (seqFrom (encN 0x88) f s (drainCore c (applySyncs c s))))
    ∧ (Ready { encN 0x89 with xfer := 1 } f s → bankOf s c = tw 9 x.data :: tw 9 y.data :: r →
        let a := (y.data ++ x.data).toNat
        exec (.iSynci f) s = .next (if holdsCap k (capIwrite a a)
          then seqFrom { encN 0x89 with xfer := 1 } f s
            (updCore (withBank c r s) c fun z => { z with ist := z.ist.filter fun e => decide (e.1 / 256 ≠ a / 256) })
          else trapped { encN 0x89 with xfer := 1 } f (capFault a 2) s))
    ∧ (Ready { encN 0x8A with xfer := 1 } f s → exec (.iWaiti f) s = .next (seqFrom { encN 0x8A with xfer := 1 } f s
        (updCore s c fun z => { z with waiti := true, ni := 0 })))

/-- R416, R417: switching level: SWL to the current level does nothing, downwards ends the current level, upwards enters a vector under a LEVEL
capability; RETL restores ST and IA of the level it leaves, and to a level above is illegal.
Where the specification leaves a point open, the model's choice of log 31 stands. -/
def Obligations.LevelSwitches : Prop :=
  ∀ (f : Fetch) (s : State),
    let c := f.core.val
    let k := coreOf s c
    let n := (f.imm.setWidth 8 : BitVec 8).toNat
    let eSw : Enc := { (encB 0x80 fun v => decide (7 < v)) with xfer := 1 }
    let eRet : Enc := { encN 0x81 with xfer := 1 }
    let next := BitVec.ofNat 32 (nextIa eSw f k)
    (Ready eSw f s → n = lvlOf k → exec (.iSwl f) s = .next (seqFrom eSw f s s))
    ∧ (Ready eSw f s → n < lvlOf k → exec (.iSwl f) s = .next (movedFrom f (updCore s c fun x => { x with
        lv := vUpd (vUpd x.lv (lvlOf x) fun z => { z with nest := false }) n fun z => { z with micro := none }
        pfRun := x.pfRun && decide (lvlOf x ≠ 7), st := (x.st &&& 0x1FFF) ||| BitVec.ofNat 16 (n * 8192), ia := next })))
    ∧ (Ready eSw f s → lvlOf k < n → holdsCap k (capLevel n) = false →
        exec (.iSwl f) s = .next (trapped eSw f (capFault 0 3) s))
    ∧ (Ready eSw f s → lvlOf k < n → holdsCap k (capLevel n) = true → k.sync = [] → (vAt k.lv n).nest = false →
        exec (.iSwl f) s = .next (movedFrom f (updCore s c (enteredAt n (0x10 + n) next false true 0 0))))
    ∧ (Ready eRet f s → lvlOf k < ((curLevel k).lnkSt >>> 13).toNat → exec (.iRetl f) s = .next (trapped eRet f illegalOp s))
    ∧ (Ready eRet f s → ((curLevel k).lnkSt >>> 13).toNat ≤ lvlOf k → k.sync = [] →
        exec (.iRetl f) s = .next (movedFrom f (updCore s c fun x => { x with
          lv := vUpd x.lv (lvlOf x) fun z => { z with nest := false }
          pfRun := x.pfRun && !endsPowerFail x, st := (curLevel x).lnkSt &&& 0xF00F, ni := 0, ia := (curLevel x).lnkRa })))

/-- R365, R409: deriving, clearing and copying capabilities; a capability outside the rules is never made.
Where the specification leaves a point open, the model's choice of log 39 stands. -/
def Obligations.CapabilityInstructions : Prop :=
  ∀ (f : Fetch) (s : State) (w0 w1 w2 w3 : Word) (r : List Word),
    let c := f.core.val
    let k := coreOf s c
    let lvl := lvlOf k
    let b := (f.imm.setWidth 4 : BitVec 4).toNat
    let a := ((f.imm >>> 4).setWidth 4 : BitVec 4).toNat
    let n := ((f.imm >>> 8).setWidth 3 : BitVec 3).toNat
    let req : Cap := { w0 := w0.data, w1 := w1.data, w2 := w2.data, w3 := w3.data }
    let eX : Enc := { encW 0x92 with illAt := fun v => if bits v 11 5 ≠ 0 then some 1 else none }
    (fixRaw w0.tag = true → fixRaw w1.tag = true → fixRaw w2.tag = true → fixRaw w3.tag = true →
      Ready (encB 0x90 noBad) f s → bankOf s c = w3 :: w2 :: w1 :: w0 :: r →
      exec (.iCderive f) s = .next (if capOk req = true ∧ capInside req (capSlot s c lvl a) = true
        then seqFrom (encB 0x90 noBad) f s (withCap c lvl b req (withBank c r s))
        else trapped (encB 0x90 noBad) f (capFault 0 0) s))
    ∧ (Ready (encB 0x91 slotBad) f s → exec (.iCclr f) s = .next (seqFrom (encB 0x91 slotBad) f s
        (withCap c lvl b { w0 := 0, w1 := 0, w2 := 0, w3 := 0 } s)))
    ∧ (Ready eX f s → exec (.iCxfer f) s = .next (if n < lvl then seqFrom eX f s (withCap c n b (capSlot s c lvl a) s)
        else trapped eX f (capFault 0 0) s))

/-- R365: CSTORE stores the four words of a slot tagged CAPW, all checked before any is stored; CLOAD loads a slot from four CAPW words that
keep the rules of capabilities. -/
def Obligations.CapabilityStoreAndLoad : Prop :=
  ∀ (f : Fetch) (s : State) (l h : BitVec 16) (r : List Word),
    let c := f.core.val
    let k := coreOf s c
    let j := (f.imm.setWidth 4 : BitVec 4).toNat
    let cap := capSlot s c (lvlOf k) j
    let e93 := encB 0x93 slotBad
    let e94 := encB 0x94 slotBad
    bankOf s c = tw 5 l :: tw 4 h :: r →
    (∀ b u p0 p1 p2 p3 u0 u1 u2 u3, Ready e93 f s → barrierBase c (h ++ l).toNat s = .ok b u →
      storeCheck c false b (tw 8 cap.w0) (tagTrap 4 5) u = .ok p0 u0 →
      storeCheck c false (b + 1) (tw 8 cap.w1) (tagTrap 4 5) u0 = .ok p1 u1 →
      storeCheck c false (b + 2) (tw 8 cap.w2) (tagTrap 4 5) u1 = .ok p2 u2 →
      storeCheck c false (b + 3) (tw 8 cap.w3) (tagTrap 4 5) u2 = .ok p3 u3 →
      exec (.iCstore f) s = .next (seqFrom e93 f s (setTop c 2 []
        (storeDo c false p3 (storeDo c false p2 (storeDo c false p1 (storeDo c false p0 u3)))))))
    ∧ (∀ b u v0 v1 v2 v3 w0 w1 w2 w3, Ready e94 f s → barrierBase c (h ++ l).toNat s = .ok b u →
      readBarred c false b u = .ok w0 v0 → readBarred c false (b + 1) v0 = .ok w1 v1 →
      readBarred c false (b + 2) v1 = .ok w2 v2 → readBarred c false (b + 3) v2 = .ok w3 v3 →
      w0.tag = 8 → w1.tag = 8 → w2.tag = 8 → w3.tag = 8 →
      let got : Cap := { w0 := w0.data, w1 := w1.data, w2 := w2.data, w3 := w3.data }
      exec (.iCload f) s = .next (if capOk got = true
        then seqFrom e94 f s (withCap c (lvlOf (coreOf v3 c)) j got (setTop c 2 [] v3))
        else trapAt c k.ia.toNat 0x94 (capFault (b % 2 ^ 32) 0) u))

/-- R384: decode comes before the guard: bytes that fetch or decode find wrong raise their exception whatever the guard; a legal instruction
whose guard is false retires with no effect, a branch still going on to its delay slot. A term whose bytes before the opcode are no prefixes
spells no instruction and is refused.
Where the specification leaves a point open, the model's choice of log 30 stands. -/
def Obligations.DecodeComesBeforeTheGuard : Prop :=
  ∀ (i : Instr) (e : Enc) (f : Fetch) (s : State), cpuOf i = some (e, f) →
    let c := f.core.val
    let k := coreOf s c
    let v := curLevel k
    (prefixesOnly f.pre = false → ∃ m, exec i s = .refused (.illFormed m))
    ∧ (prefixesOnly f.pre = true → able c s = true → k.running = true → v.micro = none →
    (∀ x, decodeExc e f.pre (immOf e f) k = some x → exec i s = .next (trapped e f x s))
    ∧ (decodeExc e f.pre (immOf e f) k = none → guardOf f.pre v.preds = false → v.resume ≠ some k.ia →
        exec i s = .next (if e.xfer = 2
          then updCore s c fun x => { x with
            stepOne := false, ia := BitVec.ofNat 32 (nextIa e f k)
            slot := some { br := k.ia, taken := false, target := 0, saved := v.bank, ssp := v.ssp } }
          else seqFrom e f s s)))

/-! ## Exceptions and interrupts -/

/-- R402, R411, R414: taking a synchronous exception at the level it arises at. A trap in a delay slot returns to the branch, with DS set and
the stack from before it; Illegal Operation reports the address of its instruction.
A walk fault MAPERR is reported first, in the places that log 23 leaves free. -/
def Obligations.SynchronousTrapEntry : Prop :=
  ∀ (e : Enc) (f : Fetch) (x : Exc) (s : State),
    let c := f.core.val
    let s0 := if x.vec = 7 then mapReport x.det s else s
    let k := coreOf s0 c
    let fa : BitVec 32 := if x.vec = 1 then (coreOf s c).ia else BitVec.ofNat 32 x.faddr
    let fdet : BitVec 16 := BitVec.ofNat 16 (e.opc * 256 + x.det)
    k.sync = [] → (curLevel k).nest = false →
    (k.slot = none → x.vec = 3 ∨ (curLevel k).bank.length ≤ 12 →
      trapped e f x s = updCore s0 c fun y => enteredAt (lvlOf y) x.vec (coreOf s c).ia false false fa fdet (dropPlaces y))
    ∧ (∀ d, k.slot = some d → x.vec = 3 ∨ d.saved.length ≤ 12 →
      trapped e f x s = updCore s0 c fun y => enteredAt (lvlOf y) x.vec d.br true false fa fdet (backBefore d (dropPlaces y)))

/-- R385, R396, R412: what operands do wrong: too few entries, a BAD entry, and a tag that is not raw where the operation takes raw words, which vectors
by the top two tags.
Where the specification leaves a point open, the model's choice of log 33 stands. -/
def Obligations.OperandTraps : Prop :=
  ∀ (f : Fetch) (s : State) (a b : Word) (r : List Word),
    let c := f.core.val
    let v := curLevel (coreOf s c)
    let both := [(0x30, Instr.iAdd), (0x31, .iSub), (0x32, .iMul), (0x34, .iDiv), (0x35, .iMod)]
    let raws := [(0x38, Instr.iAddw), (0x39, .iSubw), (0x3A, .iAdcw), (0x3B, .iSbcw), (0x3C, .iMulw), (0x3D, .iMuluw), (0x3F, .iDivw),
      (0x41, .iAnd), (0x42, .iOr), (0x43, .iXor), (0x45, .iShl), (0x46, .iShr), (0x47, .iSar), (0x48, .iRol), (0x49, .iRor)]
    let under (opc : Nat) (row : Fetch → Instr) (l : List Word) : Prop := v.ssp = v.ssb → Ready (encN opc) f s → bankOf s c = l →
      exec (row f) s = .next (trapped (encN opc) f (exc0 4) (updCore s c fun x => { x with ufe := true }))
    (∀ p, p ∈ both ++ raws → a.tag = 0xF ∨ b.tag = 0xF → TrapStep (encN p.1) p.2 f (b :: a :: r) (exc0 5) s)
    ∧ (∀ p, p ∈ both ++ raws → under p.1 p.2 [a] ∧ under p.1 p.2 [])
    ∧ (∀ p, p ∈ raws → a.tag ≠ 0xF → b.tag ≠ 0xF → rawTag a.tag = false ∨ rawTag b.tag = false →
        TrapStep (encN p.1) p.2 f (b :: a :: r) (exc0 (0x40 + 16 * a.tag.toNat + b.tag.toNat)) s)

/-- R415, R418: an exception at a level whose NEST is 1 is a double fault, which enters the machine check at L7 and leaves LNK of its own
level; one that arises while NEST of L7 is 1 stops the core and reports it.
Where the specification leaves a point open, the model's choice of log 31 stands. -/
def Obligations.DoubleFaultsAndStops : Prop :=
  ∀ (e : Enc) (f : Fetch) (x : Exc) (s : State),
    let c := f.core.val
    let s0 := if x.vec = 7 then mapReport x.det s else s
    let k := coreOf s0 c
    k.sync = [] → k.slot = none → x.vec = 3 ∨ (curLevel k).bank.length ≤ 12 → (curLevel k).nest = true →
    ((vAt k.lv 7).nest = false → ∃ fa, trapped e f x s = updCore { s0 with fresh := s0.fresh + 1 } c fun y =>
        enteredAt 7 0x1F (coreOf s c).ia false false fa (BitVec.ofNat 16 (e.opc * 256 + 1)) (dropPlaces y))
    ∧ ((vAt k.lv 7).nest = true → trapped e f x s = raiseFault (28 + c) ((vAt k.lv 7).fdet.setWidth 8 |>.setWidth 32)
        (updCore s0 c fun y => { dropPlaces y with stopped := true, stepOne := false }))

/-- R418 to R422, R459: an interrupt, a pending machine check, a power fail and a Deferred Store Error are each entered at the boundary where the
arbiter's order lets them, through their own vector; where none is due nothing is entered. A core that waits on a header tagged MRK waits
until the header changes.
Where the specification leaves a point open, the model's choice of logs 32 and 35 stands. -/
def Obligations.ArbiterEntries : Prop :=
  ∀ (core : Fin 16) (req : BitVec 8) (s : State),
    let c := core.val
    let s1 := updCore s c fun x => { x with ireq := req &&& 0x7E }
    let k := coreOf s c
    let free (s : State) : Prop := coreUp c s = true ∧ (coreOf s c).slot = none ∧ (coreOf s c).sync = []
    (∀ m, mayInterrupt c m s1 → (m = 6 → k.dsePend = []) → k.sync = [] → (vAt k.lv m).nest = false →
      exec (.interruptEntry core req) s = .next (updCore s1 c fun x => enteredAt m (0x18 + m) x.ia false true 0 0 x))
    ∧ ((∀ m, entryDue c s1 ≠ some (.irq m)) → exec (.interruptEntry core req) s = .next s1)
    ∧ (free s → k.pfPend = true → k.pfRun = false → exec (.powerFailEntry core) s = .next (updCore s c fun x =>
        let y := enteredAt 7 0x20 x.ia false true 0 0 x
        { y with pfPend := false, pfRun := true, lv := vUpd y.lv 7 fun l => { l with pfLost := l.pfLost || inCheckHandler x } }))
    ∧ (entryDue c s ≠ some .powerFail → exec (.powerFailEntry core) s = .next s)
    ∧ (free s → (k.pfPend && !k.pfRun) = false → k.mcPend = true → (vAt k.lv 7).nest = false →
        ∃ fa, exec (.machineCheck core none) s = .next (updCore { s with fresh := s.fresh + 1 } c fun x =>
          enteredAt 7 0x1F x.ia false false fa (k.mcDet.setWidth 16) { x with mcPend := false }))
    ∧ (free s → (k.pfPend && !k.pfRun) = false → k.mcPend = true → (vAt k.lv 7).nest = true →
        ∃ t, exec (.machineCheck core none) s = .next t ∧ (coreOf t c).stopped = true ∧ (coreOf t c).lv = k.lv)
    ∧ (∀ da rest, free s → mayInterrupt c 6 s → k.dsePend = da :: rest → (vAt k.lv 6).nest = false →
        exec (.deferredStoreError core .pending) s = .next (updCore s c fun x =>
          enteredAt 6 0x21 x.ia false true da 0 { x with dsePend := rest }))
    ∧ (∀ swa da w rest, k.sbuf = (swa, da, w) :: rest →
        let t := updCore s c fun x => { x with sbuf := rest, dsePend := x.dsePend ++ [BitVec.ofNat 32 da] }
        (∀ d, entryDue c t ≠ some (.store d)) → exec (.deferredStoreError core .buffered) s = .next t)
    ∧ exec (.nointExpiry core) s = .next (updCore s c fun x => { x with ni := 0 })
    ∧ ((coreOf s c).mrkWait = none → exec (.heapMrkWaitEnd core) s = .next s)
    ∧ (∀ da w t, (coreOf s c).mrkWait = some da → readWord c false da.toNat s = .ok w t → exec (.heapMrkWaitEnd core) s = .next (
        if w.tag = 0xD then s else updCore s c fun x => { x with mrkWait := none }))

/-- R361 to R363: the spill engine moves the oldest entries down to SSP while more than 12 stand in a bank, until 8 remain or SSP reaches SSL,
and refills to 4; SPILL8 moves eight, and below SSL it is a machine check with the bank unchanged. A push that finds
its bank full overflows only where the engine makes no room.
Where the specification leaves a point open, the model's choice of log 34 stands. -/
def Obligations.SpillAndRefill : Prop :=
  ∀ (core : Fin 16) (f : Fetch) (s t : State),
    let c := core.val
    let v := curLevel (coreOf s c)
    let v' := curLevel (coreOf t c)
    let room := v.ssp.toNat - v.ssl.toNat
    coreUp c s = true → (coreOf s c).slot = none → spillOrder v = true →
    (v.bank.length ≤ 12 → exec (.spillEngineSpill core) s = .next s)
    ∧ (12 < v.bank.length → v.bank.length ≤ 16 → spillRun c s = .ok () t →
        let n := min (v.bank.length - 8) room
        exec (.spillEngineSpill core) s = .next t ∧ v'.bank = v.bank.take (v.bank.length - n) ∧ v'.ssp.toNat = v.ssp.toNat - n)
    ∧ (4 ≤ v.bank.length ∨ v.ssp = v.ssb → exec (.spillEngineRefill core) s = .next s)
    ∧ (v.bank.length < 4 → refillRun c s = .ok () t →
        let n := min (4 - v.bank.length) (v.ssb.toNat - v.ssp.toNat)
        exec (.spillEngineRefill core) s = .next t ∧ v'.bank.take v.bank.length = v.bank ∧ v'.bank.length = v.bank.length + n
          ∧ v'.ssp.toNat = v.ssp.toNat + n)
    ∧ (f.core = core → Ready (encN 0x0E) f s → 8 ≤ v.bank.length → v.bank.length ≤ 16 → 8 ≤ room →
        spillDown c (v.bank.length - 8) 8 s = .ok () t →
        exec (.iSpill8 f) s = .next (seqFrom (encN 0x0E) f s t) ∧ v'.bank = v.bank.take (v.bank.length - 8)
          ∧ v'.ssp.toNat = v.ssp.toNat - 8)
    ∧ (f.core = core → Ready (encN 0x0E) f s → 8 ≤ v.bank.length → room < 8 →
        exec (.iSpill8 f) s = .next (checkAt c (coreOf s c).ia.toNat 0x0E 2 s))
    ∧ (∀ l : List Word, f.core = core → Ready (encN 0x0D) f s → bankOf s c = l → l.length = 16 →
        (v.ssp = v.ssl → exec (.iPushnil f) s = .next (trapped (encN 0x0D) f (exc0 3) s))
        ∧ (∀ u, spillRun c s = .ok () u → (bankOf u c).length < 16 →
            exec (.iPushnil f) s = .next (seqFrom (encN 0x0D) f s (setTop c 0 [tw 3 0] u)))
        ∧ (∀ d u, spillRun c s = .check d u → exec (.iPushnil f) s = .next (checkAt c (coreOf s c).ia.toNat 0x0D d u)))

/-! ## User instructions -/

/-- R410, R479, R487: the byte-swap routine of the specification, loaded as user microcode, exchanges the bytes of its operand; an opcode
without a decode entry is illegal, and an opcode below 0xF0 is no user instruction.
Where the specification leaves a point open, the model's choice of log 37 stands. -/
def Obligations.UserInstructionsRunTheirRoutine : Prop :=
  ∀ (opc : Byte) (f : Fetch) (s : State) (u : UFile) (a : Word) (r : List Word),
    let c := f.core.val
    (opc.toNat < 0xF0 → exec (.userInstruction opc f) s = .refused (.illFormed "USER_INSTRUCTION"))
    ∧ (0xF0 ≤ opc.toNat →
    (∀ e : UEntry, s.ucode.user = some u → u.decode[opc.toNat - 0xF0]? = some e → e.v = true → e.fmt = 0 → e.x = false → e.start = 0 →
      (∀ k : Fin 4, u.words[k.val]? = [(0x080000 : BitVec 24), 0x120008, 0x208008, 0x680011][k.val]?) →
      s.ucode.commit = none → rawTag a.tag = true → Ready (encN opc.toNat) f s → f.lim = none → bankOf s c = a :: r → r.length < 16 →
      exec (.userInstruction opc f) s = .next (seqFrom (encN opc.toNat) f s
        (withBank c (tw 1 (a.data.rotateLeft 8) :: r) { s with fresh := s.fresh + 1 })))
    ∧ (s.ucode.user = none → s.ucode.commit = none → f.pre = [] → able c s = true → (coreOf s c).running = true →
        mapped (coreOf s c).ia.toNat = true →
        exec (.userInstruction opc f) s = .next (trapped { encN opc.toNat with dead := true } f illegalOp (noteUser c opc.toNat 3 s))))

/-! ## Power loss, resets and the start -/

/-- R91 to R93: the supply monitors. A fall through VMAIN_FAIL starts the power-loss sequence: admission closes, the link goes DISABLED, the charger stops,
and every core at work has power fail pending; a sequence that runs is not changed. The steps of the sequence: the manifest, the flush with its C_live
estimates, the checkpoint with its marker, and the converter off, after which a VMAIN that has returned starts the device with a POR.
Where the specification leaves a point open, the model's choice of logs 1, 47 and 50 stands. -/
def Obligations.SupplyAndPowerLoss : Prop :=
  (∀ s : State,
     (s.pwr.released = true → s.pwr.seq = .none → s.pwr.pstate ≠ .off → ∃ t, exec .vmainFail s = .next t
       ∧ t.pwr.seq = .manifest ∧ t.pwr.fatal = false ∧ t.pwr.phase = s.pwr.phase ∧ t.pwr.vmainHigh = false ∧ t.pwr.vmainOk = false
       ∧ t.link.ls = .disabled ∧ t.link.msgs = [] ∧ t.oas.charging = false ∧ t.prev.power = true ∧ t.prev.lossTs = s.dtime
       ∧ (∀ c : Nat, coreOf t c = if (coreOf s c).running && !(coreOf s c).stopped then { coreOf s c with pfPend := true } else coreOf s c)
       ∧ OnlyIn [.pwr, .link, .oas, .prev, .cores] s t)
     ∧ (s.pwr.seq ≠ .none → ∃ t, exec .vmainFail s = .next t ∧ t.pwr.seq = s.pwr.seq ∧ t.pwr.fatal = s.pwr.fatal ∧ OnlyIn [.pwr] s t)
     ∧ (s.pwr.seq = .none → s.pwr.released = true → s.pwr.pstate ≠ .off → s.flt.masked.getLsbD 5 = false → s.flt.latch.getLsbD 5 = false →
       ∃ t, exec .vioLow s = .next t ∧ t.pwr.vioLow = true ∧ t.pwr.vioOk = false ∧ s.tick ≤ t.pwr.vioAt
         ∧ t.boot.vioReleased = true ∧ t.flt.latch.getLsbD 5 = true ∧ t.flt.present.getLsbD 5 = true)
     ∧ (s.pwr.vioAt + 10000 ≤ s.tick → ∃ t, exec .vioValidExpiry s = .next t ∧ t.pwr.vioOk = true ∧ t.pwr.vioLow = false ∧ t.boot.vioReleased = false
         ∧ t.flt.present.getLsbD 5 = false ∧ OnlyIn [.pwr, .boot, .flt] s t)
     ∧ (s.tick < s.pwr.vioAt + 10000 → exec .vioValidExpiry s = .next s)
     ∧ (s.pwr.vmainHigh = true → s.pwr.vmainAt + 10000 ≤ s.tick → exec .vmainOkFilterExpiry s = .next { s with pwr.vmainOk := true })
     ∧ (s.oas.warn = false → s.pwr.released = true → s.pwr.pstate ≠ .off → s.pwr.seq ≠ .off →
       ∃ t, exec .warnEnter s = .next t ∧ t.oas.warn = true ∧ max s.pwr.pfailUntil s.tick ≤ t.pwr.pfailUntil
         ∧ OnlyIn [.oas, .pwr, .link, .fresh] s t)
     ∧ (s.oas.warn = true → s.pwr.pfailUntil + 1000 ≤ s.tick → (∀ j, j ∈ s.eng.jobs → ∀ b, j.kind ≠ .holdup b) →
       ∃ t, exec .warnExit s = .next t ∧ t.oas.warn = false ∧ OnlyIn [.oas, .pwr, .link] s t))
  ∧ (∀ (s : State) (v q w : Nat),
     let c0 := s.pwr.meterMv * s.pwr.meterMv
     let nj := s.pwr.meterNj + q * w / 1000
     (s.pwr.seq = .manifest → ∃ t, exec .flushBegin s = .next t ∧ t.pwr.seq = .flush ∧ t.pwr.cliveNext = s.tick + 1000
       ∧ t.prev.manifest.isSome = true ∧ t.prev.clive = s.oas.cUse)
     ∧ (s.pwr.seq = .flush → s.pwr.cliveNext ≤ s.tick → exec (.cLiveEstimate v q w) s = .next { s with
         oas.vhold := v
         prev.clive := if c0 ≤ v * v then s.prev.clive else min s.prev.clive (2 * nj * 1000000 / (c0 - v * v))
         pwr := { s.pwr with cliveNext := s.pwr.cliveNext + 100, meterNj := nj } })
     ∧ (s.pwr.seq = .flush → s.vtf.life = .owned → atVres s.oas s.prev.clive s.oas.vhold = true → s.wadi.pend = [] → (∀ d : Nat, vAt s.wadi.seqs d = none) →
       ∃ t n, exec .flushStopAtVRes s = .next t ∧ t.pwr.seq = .marked ∧ t.prev.marker = some (true, s.oas.vhold, n)
         ∧ vAt t.vtf.counters 7 = vAt s.vtf.counters 7 + 1 ∧ t.prev.ckpt = some (vAt s.vtf.counters 7 + 1) ∧ t.arr.writes = []
         ∧ t.prev.ckptSig = (Config.dikSign t.prev.ckptBody).toList)
     ∧ (s.pwr.seq = .flush → s.vtf.life = .owned → flushDone s = true → ∃ t n, exec .flushComplete s = .next t ∧ t.pwr.seq = .marked
         ∧ t.prev.marker = some (false, s.oas.vhold, n) ∧ vAt t.vtf.counters 7 = vAt s.vtf.counters 7 + 1
         ∧ t.prev.ckpt = some (vAt s.vtf.counters 7 + 1))
     ∧ (s.pwr.seq = .flush → s.vtf.life ≠ .owned → flushDone s = true → ∃ t, exec .flushComplete s = .next t ∧ t.pwr.seq = .marked
         ∧ t.vtf = s.vtf ∧ t.prev.ckpt = s.prev.ckpt)
     ∧ (s.pwr.seq = .marked → s.pwr.vmainHigh = false ∨ s.pwr.fatal = true →
         exec (.converterOff false) s = .next { s with arr.writes := [], pwr.seq := .off })
     ∧ (s.pwr.seq = .marked → s.pwr.vmainHigh = true → s.pwr.fatal = false →
         ∃ t, exec (.converterOff false) s = .next t ∧ Restarted .por t ∧ t.pwr.released = false))

/-- R205, R524 to R531: the resets. Each restarts the device and keeps what no reset may lose; a SOFT reset stays released with core 0 in the
start-up code, every other kind waits for the internal reset release; none is taken while a power-loss sequence runs.
Where the specification leaves a point open, the model's choice of log 45 stands. -/
def Obligations.ResetsRestartTheDevice : Prop :=
  ∀ s : State,
    let due (c : Instr) (k : Kind) : Prop := ∃ t, exec c s = .next t ∧ Restarted k t ∧ KeptByReset s t ∧ t.pwr.released = decide (k = .soft)
    (s.pwr.vmainHigh = false → s.pwr.seq = .none ∨ (s.pwr.seq = .off ∧ s.pwr.fatal = false) → due .powerOnReset .por)
    ∧ (s.pwr.seq = .off → s.pwr.fatal = true → due .fatalRelease .fatal)
    ∧ (s.pwr.vmainHigh = true → resetTakes .pin s = true → due .pinReset .pin)
    ∧ (s.link.softReq = true → s.link.cpls = [] → s.pwr.released = true → s.pwr.phase ≠ .halt → resetTakes .soft s = true →
        due .softReset .soft)
    ∧ (∀ n, s.pwr.wdDue = some n → n ≤ s.tick → s.pwr.wdEn = true → s.pwr.seq = .none → s.pwr.pstate ≠ .off → resetTakes .wdog s = true →
        vAt s.flt.pol 77 ≠ 2 → due .watchdogExpiry .wdog)
    ∧ (s.pwr.seq ≠ .none → exec .pinReset s = .next s)

/-- R313, R335, R528, R529, R544: the release after the last of VMAIN_OK, VIO valid and RESETn; a crossing that hangs; a hot reset of the link, which ends
sessions and drops what the host has not had admitted; and MOUNT: an OWNED device in RECOVERY mounts its store, counts the mount, and serves; a checkpoint
that does not match its counter is refused as ROLLBACK with VTF_ROLLBACK.
Where the specification leaves a point open, the model's choice of logs 45, 46 and 48 stands. -/
def Obligations.ReleaseMountAndCrossings : Prop :=
  (∀ (s : State) (straps : BitVec 4) (dnu : Bool) (i : Fin 13),
     (s.pwr.vmainOk = true → s.pwr.vioOk = true → s.pwr.resetUntil ≤ s.tick → s.pwr.released = false → s.pwr.seq = .none → s.pwr.phase = .startup →
       s.flt.present = 0 → ∃ t, exec (.internalResetRelease straps dnu) s = .next t ∧ t.pwr.released = true
         ∧ t.pwr.straps = (if s.pwr.kind = .wdog then s.pwr.straps else straps)
         ∧ (vAt s.flt.pol 11 ≠ 2 → t.pwr.phase = (if (if s.pwr.kind = .por then dnu else s.pwr.dnu) then .test else .startup)
           ∧ t.link.ls = (if s.tbx.hung.getLsbD 0 then .disabled else .detect)) ∧ (coreOf t 0).running = true ∧ t.vtf.drbgOk = true
         ∧ t.dtime = s.dtime + 1)
     ∧ (s.tick < s.pwr.resetUntil → exec (.internalResetRelease straps dnu) s = .next s)
     ∧ (i.val ≠ 3 → s.pwr.released = true → ∃ t, exec (.crossingHung i) s = .next t ∧ t.tbx.hung.getLsbD i.val = true
         ∧ t.tbx.flush.getLsbD i.val = true ∧ (i.val = 0 → t.link.ls = .disabled) ∧ OnlyIn [.tbx, .link] s t)
     ∧ (s.pwr.released = true → s.pwr.seq = .none → s.pwr.phase = .service → s.link.ls = .active ∨ s.link.ls = .recovery →
       ∃ t, exec .linkHotReset s = .next t ∧ t.vtf.sessions = [] ∧ t.link.replay = [] ∧ t.link.txSeq = 0 ∧ t.link.rxE = 0
         ∧ t.link.replies = [] ∧ t.link.cpls = [] ∧ t.link.msgs = [] ∧ t.flt.force = 0
         ∧ (s.eng.trains = [] → s.eng.jobs = [] → s.store.waiting = [] → t.link.ls = .hotreset ∧ t.link.rate = 0
           ∧ OnlyIn [.link, .vtf, .flt, .eng, .tbx] s t)
         ∧ (∀ q p, p ∈ queueOf t q → p.pkt.chan = .sideband)))
  ∧ (∀ s : State, s.pwr.released = true → s.pwr.seq = .none → s.pwr.phase = .recovery → s.vtf.life = .owned → s.store.mounted = false →
     s.wadi.pend = [] → (∀ d : Nat, vAt s.wadi.seqs d = none) →
     (ckptRefused s = false → ∃ t, exec .mount s = .next t ∧ t.store.mounted = true ∧ (t.pwr.seq = .none → t.pwr.phase = .service)
       ∧ vAt t.vtf.counters 8 = vAt s.vtf.counters 8 + 1 ∧ t.store.mountCount = vAt t.vtf.counters 8 ∧ t.ucode.user = s.ucode.stored)
     ∧ (ckptRefused s = true → s.flt.masked.getLsbD 9 = false → s.flt.latch.getLsbD 9 = false → vAt s.flt.pol 9 ≠ 2 → s.pwr.pstate ≠ .off → ∃ t, exec .mount s = .next t
       ∧ t.vtf.life = .rollback ∧ t.store.mounted = false ∧ t.pwr.phase = .recovery ∧ t.flt.latch.getLsbD 9 = true))

/-! ## The hold window and its capacitors -/

/-- R75 to R82, R91, R102: the charger, measurements and HOLDUP_TEST; and the window, recomputed from the measured VHOLD: the energy between
VHOLD and V_floor at 88 per cent, and 75 per cent, less 4 mJ and the rule budget, at 0.75 nJ a byte and at most 32 MiB, in credits of 64
bytes.
Where the specification leaves a point open, the model's choice of logs 1, 49 and 50 stands. -/
def Obligations.ChargerMeasurementsAndWindow : Prop :=
  ∀ (s : State) (v mv : Nat) (u : Uncertainty),
    let o := s.oas
    let calm := s.pwr.seq = .none ∧ s.pwr.pstate ≠ .off
    let c := 200 * (s.tick - o.meas.loadAt) * (1000 - u.c.val) / 1000
    let e := 5 * mv * (1000 + u.esr.val) / 1000
    let bad := decide (5000 < e) || decide (c < 10000)
    calm →
    (o.charging = false → o.chgEn = true → o.meas.running = false → exec .chargerResume s = .next { s with
        oas := { o with vhold := min o.vhold 14900, charging := true, chgStart := some s.tick, chgTimedOut := false } })
    ∧ (o.charging = true → o.meas.running = false → ∃ t, exec .chargerStop s = .next t ∧ t.oas.charging = false ∧ t.oas.vhold = 15000
        ∧ t.oas.chgStart = none ∧ (o.measured = false → t.oas.meas.want.isSome = true))
    ∧ (∀ n, o.chgStart = some n → n + 2000000 ≤ s.tick → o.charging = true → o.chgTimedOut = false → s.flt.masked.getLsbD 2 = false → s.flt.latch.getLsbD 2 = false →
        s.pwr.released = true → ∃ t, exec .chgTimeout s = .next t ∧ t.flt.latch.getLsbD 2 = true ∧ t.oas.chgTimedOut = true)
    ∧ (16000 < v → s.flt.masked.getLsbD 1 = false → s.flt.latch.getLsbD 1 = false → s.pwr.released = true →
        ∃ t, exec (.vholdOver v) s = .next t ∧ t.oas.charging = false ∧ t.oas.vhold = v ∧ t.flt.latch.getLsbD 1 = true)
    ∧ (o.meas.want.isSome = true → o.meas.running = false → o.charging = false → 15000 ≤ o.vhold → o.meas.mode1 = false →
        o.outst ≤ winBytesAt o 14000 / 64 → ∃ t, exec .measurementStart s = .next t ∧ t.oas.meas.running = true ∧ t.oas.meas.loadOn = true
          ∧ t.oas.meas.want = none ∧ t.oas.meas.loadAt = s.tick ∧ t.oas.win = winBytesAt o 14000 / 64)
    ∧ (o.mper ≠ 0 → o.measNext ≤ s.tick → ∃ t, exec .measurementPeriodExpiry s = .next t ∧ t.oas.meas.want.isSome = true
        ∧ t.oas.measNext = s.tick + o.mper.toNat * 100000000 ∧ OnlyIn [.oas] s t)
    ∧ (o.measured = true → 15 ≤ (o.temp - o.measTemp).natAbs → ∃ t, exec .temperatureMeasurementTrigger s = .next t
        ∧ t.oas.meas.want.isSome = true ∧ OnlyIn [.oas] s t)
    ∧ (o.meas.loadOn = true → o.meas.discharging = false → ∃ t, exec (.measurementComplete mv u) s = .next t ∧ t.oas.cLast = some c
        ∧ t.oas.esr = some e ∧ t.oas.cUse = (if bad then 0 else c) ∧ t.oas.cfail = bad ∧ t.oas.measured = true ∧ t.oas.vhold = 14000
        ∧ t.oas.meas.loadOn = false ∧ t.oas.measTs = s.dtime)
    ∧ (o.measured = true → o.meas.running = false → o.meas.wantAt + 1000000 ≤ s.tick → o.meas.want = some .periodic ∨ o.meas.want = some .temperature →
        exec .measurementSkip s = .next { s with oas := { o with measSkip := true, meas := { o.meas with want := none } } })
    ∧ (o.meas.discharging = true → o.meas.loadOn = true → ∃ t, exec (.holdupDischargeComplete v) s = .next t
        ∧ t.oas.ederate = some (v, vFloorMv o) ∧ t.oas.vhold = vFloorMv o ∧ t.oas.meas.loadOn = false ∧ OnlyIn [.oas] s t)
    ∧ (o.meas.running = false → o.meas.mode1 = false → o.ederate = none → o.measured = true → v ≤ 15000 → o.esr = some 500 →
        ∃ t, exec (.windowRecompute v) s = .next t ∧ t.oas.vhold = v ∧ t.oas.win = t.oas.winBytes / 64
          ∧ t.oas.winBytes = (if v ≤ 4500 then 0
            else min 33554432 ((33 * o.cUse * (v * v - 4500 * 4500) * 10000 - (4 * 10 ^ 18 + o.budget * 10 ^ 15)) / (75 * 10 ^ 10)))
          ∧ t.store = s.store ∧ t.vtf = s.vtf ∧ t.arr = s.arr)

/-! ## Streams behind the queue and the array -/

/-- R16, R34, R44, R46, R71, R116, R117: staged records placed and written. A die's sequencer first writes its early records; a record goes
to the fill position of its segment, which rises by the stored size; a verified codeword leaves no record that it covered waiting for it,
a home write is home and a tail write has its tail entry; a failing one takes a spare row of its bank, or with none left marks the slot
failing; a record that has been staged for 2,000 ticks sends its partly filled codeword to the tail ring.
Where the specification leaves a point open, the model's choice of log 58 stands. -/
def Obligations.ArrayWrites : Prop :=
  ∀ (s : State) (d : Fin 8) (n g k : Nat) (x : SegSt) (w : CwWrite),
    let b := slotBank (segSlot s w.segno)
    let ends := s.pwr.released = true ∧ s.pwr.seq ≠ .marked ∧ s.pwr.seq ≠ .off ∧ dieWrite s d.val = some w ∧ w.segno < earlySeg 0
      ∧ (w.tail = true ∨ w.gen = segGen s w.segno)
    let drains := drainOn s = true ∧ inLoss s = false ∧ (dieOf s d.val).tailLive.length < 30720
    dieHung s d.val = false →
    (drainOn s = true → ruleTurn s d.val = false → earlyWrite s d.val = some w → bankRoom s d.val none = true →
      exec (.stagingDrainWrite d) s = .next { s with arr.writes := s.arr.writes ++ [w] })
    ∧ (∀ sid r, drains → ruleTurn s d.val = false → earlyWrite s d.val = none → drainPick s d.val = some (sid, r, some g) →
      bankRoom s d.val (drainBank s sid d.val r (some g)) = true → segOf s g = some x →
      ∃ t y z, exec (.stagingDrainWrite d) s = .next t ∧ recAt t sid r.seq = some y ∧ y.place = some { segno := g, off := x.fill }
        ∧ segOf t g = some z ∧ z.fill = x.fill + (32 + r.payload.length + 15) / 16 * 16)
    ∧ (ends → ∃ t, exec (.codewordWriteComplete d true n) s = .next t
      ∧ (∀ e ∈ w.covers, ∀ y, recAt t e.1 e.2 = some y → w.cw ∉ y.cws)
      ∧ (w.tail = false → keysRise s.arr.segs = true → ∀ z, segOf t w.segno = some z → w.cw ∈ z.home)
      ∧ (w.tail = true → keysRise s.arr.segs = true → segOf t w.segno ≠ none → ∃ e ∈ (dieOf t d.val).tailLive, e.segno = w.segno ∧ e.cw = w.cw))
    ∧ (ends → s.pwr.pstate ≠ .off → s.flt.masked.getLsbD (44 + d.val) = false → slotDie (segSlot s w.segno) = d.val →
      metaSlot (segSlot s w.segno) = false → ∃ t, exec (.codewordWriteComplete d false n) s = .next t ∧ t.flt.latch.getLsbD (44 + d.val) = true
      ∧ (0 < vAt (dieOf s d.val).bankRows b → vAt (dieOf t d.val).bankRows b = vAt (dieOf s d.val).bankRows b - 1)
      ∧ (vAt (dieOf s d.val).bankRows b = 0 →
        (slotOf t (segSlot s w.segno)).failing = true ∨ (slotOf s (segSlot s w.segno)).retired = true))
    ∧ (drains → s.prev.lost = false → agedCw s d.val = some (g, k) → ∃ t, exec (.tailRingAgeTimeout d) s = .next t
      ∧ t.arr.writes = s.arr.writes ++ [{ die := segDie s g, segno := g, gen := segGen s g, cw := k, tail := true, covers := coversOf s g k, job := none }]
      ∧ OnlyIn [.arr, .wadi] s t)

/-- R120 to R125, R146, R147: codewords read, refreshed and recalibrated. A read counts its margin; below the scrub threshold its codeword
is queued for a refresh; one that needed a second read raises ARY_CE, and one that could not be corrected raises ARY_UC and marks its slot
failing. A patrol reads as any requester does, notes each codeword it has read and its least margin, and ends once it has read every one. -/
def Obligations.ArrayReadsAndScrub : Prop :=
  ∀ (s : State) (d : Fin 8) (g : Nat) (cw : Fin 64) (m : BitVec 6) (sf rr uc : Bool) (e : MapEntry),
    let x := dieOf s d.val
    let reads := look g s.arr.map = some e ∧ slotDie e.slot = d.val
    let full (y : Die) : Die := { y with cal := true, calLeft := 1040 }
    shellOn s d.val = true →
    (reads → sf = false → rr = false → uc = false → x.scrubThr ≤ m → x.recalThr ≤ m →
      exec (.codewordRead g cw m sf rr uc) s = .next (updDie s d.val fun y => { y with
        hist := vUpd y.hist (m.toNat / 8) satInc }))
    ∧ (reads → ∃ t, exec (.codewordRead g cw m sf rr uc) s = .next t
      ∧ (m < x.scrubThr ∨ m < x.recalThr ∨ sf = true ∨ rr = true ∨ uc = true → (g, cw.val) ∈ (dieOf t d.val).refresh)
      ∧ (m < x.recalThr ∨ sf = true ∨ rr = true ∨ uc = true → (slotBank e.slot, slotRegion e.slot) ∈ (dieOf t d.val).recal)
      ∧ (rr = true ∨ uc = true → (s.flt.masked.getLsbD (52 + d.val) = false → t.flt.latch.getLsbD (52 + d.val) = true)
        ∧ t.arr.ceTotal = s.arr.ceTotal + 1)
      ∧ (uc = true → (s.flt.masked.getLsbD (60 + d.val) = false → t.flt.latch.getLsbD (60 + d.val) = true)
        ∧ t.arr.ucTotal = s.arr.ucTotal + 1
        ∧ (metaSlot e.slot = false → (slotOf t e.slot).failing = true ∨ (slotOf s e.slot).retired = true) ∧ ∀ z, segOf t g = some z → cw.val ∈ z.uncorr)
      ∧ OnlyIn (if rr || uc then [.arr, .flt, .link, .pwr, .oas, .cores, .prev] else [.arr]) s t)
    ∧ (reads → patrolMay s e.slot = true → prioOk x e.slot = true → x.patrol = true →
      (∃ t, exec (.patrolRead g cw m sf rr uc false) s = .next t ∧ (dieOf t d.val).patrol = true
        ∧ (dieOf t d.val).margMin = (if m < x.margMin then m else x.margMin)
        ∧ ∃ v, look g (dieOf t d.val).patDone = some v ∧ v.getLsbD cw.val = true)
      ∧ (patrolRead (dieOf (patrolNote d.val g cw.val m s) d.val) (patrolled s d.val) = true →
        ∃ t, exec (.patrolRead g cw m sf rr uc true) s = .next t ∧ (dieOf t d.val).patrol = false
          ∧ (dieOf t d.val).lastPatrolMin = (if m < x.margMin then m else x.margMin)))
    ∧ (x.patrol = false → exec (.patrolStart d) s = .next (updDie s d.val fun y => { y with
        patrol := true, margMin := 0x3F, regRef := [], patDone := [] }))
    ∧ (x.patrol = true → exec (.patrolStart d) s = .next s)
    ∧ (s.oas.warn = false → s.oas.overV = false → ∀ ok rest, x.refresh = (g, cw.val) :: rest → ∃ t,
      exec (.codewordRefresh ⟨d, ok⟩) s = .next t ∧ (dieOf t d.val).refresh = rest
      ∧ (x.tailLive = [] → (dieOf t d.val).tailPos = (x.tailPos + 1) % 32768)
      ∧ (ok = true → OnlyIn [.arr] s t)
      ∧ (ok = true → atHome s g cw.val = true → ∀ v ∈ (dieOf t d.val).tailLive, ¬(v.segno = g ∧ v.cw = cw.val))
      ∧ (atHome s g cw.val = false → ∃ v ∈ (dieOf t d.val).tailLive, v.segno = g ∧ v.cw = cw.val)
      ∧ (ok = false → atHome s g cw.val = true → slotDie (segSlot s g) = d.val → s.flt.masked.getLsbD (44 + d.val) = false →
        t.flt.latch.getLsbD (44 + d.val) = true))
    ∧ (x.cal = false → exec (.arrayRecalibrateStart d) s = .next (updDie s d.val full))
    ∧ (x.cal = true → exec (.arrayRecalibrateStart d) s = .next s)
    ∧ (x.auto = true → x.cal = false → 10 ≤ (s.oas.temp - x.calTemp).natAbs →
      exec (.temperatureRecalibrationTrigger d) s = .next (updDie s d.val full))
    ∧ (0 < x.calLeft → ∃ t, exec (.regionRecalibration d) s = .next t ∧ (dieOf t d.val).calLeft = x.calLeft - 1
      ∧ ((dieOf t d.val).cal = true ↔ 1 < x.calLeft) ∧ (x.calLeft = 1 → (dieOf t d.val).calTemp = s.oas.temp) ∧ OnlyIn [.arr] s t)
    ∧ (∀ b r rest, x.calLeft = 0 → x.recal = (b, r) :: rest →
      exec (.regionRecalibration d) s = .next (updDie s d.val fun y => { y with recal := rest, lastReg := BitVec.ofNat 7 r }))

/-- R126 to R137: segment moves. A move marks its target used and its segment MIG; a pass with dirty codewords is repeated, the fourth time
with writes held; a clean one commits the new slot with a new generation; the invalidation ends it, no translation of the segment being
left, and the old slot is free again, or retired after an evacuation, which takes a reserved spare slot where one is left.
Where the specification leaves a point open, the model's choice of logs 24, 25 and 60 stands. -/
def Obligations.SegmentMoves : Prop :=
  ∀ (s : State) (k d : Nat) (g a b : Nat) (e : MapEntry) (q : Fin 4) (m : MoveSt) (x : SegSt),
    let starts (t : State) (v : MoveSt) : Prop := vAt t.arr.moves k = some v ∧ look g t.arr.map = some { e with mig := true }
      ∧ (slotOf t v.dst).used = true ∧ (slotOf t v.dst).prog = (slotOf s v.dst).prog + 1
    let idle := look g s.arr.map = some e ∧ freeEngine s = some k ∧ s.store.mounted = true ∧ s.pwr.released = true ∧ inLoss s = false
      ∧ s.pwr.pstate ≠ .off ∧ s.pwr.phase ≠ .halt
    let took (t : State) : State := barchanTook m.dst (barchanTook m.src t)
    (idle → ∀ d : Fin 8, dieHung s d.val = false → barchanSusp s = false → wearPick s d.val = some (g, a, b) →
      ∃ t, exec (.wearLevelMoveStart d) s = .next t
        ∧ starts t { MoveSt.reset with segno := g, src := a, dst := b, gen := (slotOf s a).gen } ∧ OnlyIn [.arr] s t)
    ∧ (idle → ∀ rest, s.oas.warn = false → s.arr.evacPending = a :: rest → evacReady s a = true → slotSeg s a = some g →
      evacSpare s (slotDie a) (slotBank a) = some b → ∃ t, exec .slotEvacuationStart s = .next t
        ∧ starts t { MoveSt.reset with segno := g, src := a, dst := b, gen := e.gen, evac := true, spare := true }
        ∧ a ∉ t.arr.evacPending)
    ∧ (idle → ∀ rest, s.oas.warn = false → s.arr.evacPending = a :: rest → evacReady s a = true → slotSeg s a = none → slotDie a < 8 →
      ∃ t, exec .slotEvacuationStart s = .next t ∧ (slotOf t a).retired = true ∧ (slotOf t a).failing = false
        ∧ t.arr.retired = s.arr.retired + 1 ∧ overProv t = overProv s - 1
        ∧ (s.flt.masked.getLsbD (68 + slotDie a) = false → t.flt.latch.getLsbD (68 + slotDie a) = true))
    ∧ (idle → barchanSusp s = false → segOf s g = some x → compactable s g x = true → moveable s g = true → chooseDie s .floor = some d →
      allocOnDie s d .floor = some b → ∃ t, exec (.sharedSegmentCompaction g) s = .next t
        ∧ starts t { MoveSt.reset with segno := g, src := segSlot s g, dst := b, gen := e.gen, compact := true }
        ∧ OnlyIn [.arr] s t)
    ∧ (vAt s.arr.moves q.val = some m → m.sealed = false → moveMay s m = true → barchanBank s m.src = true → barchanBank s m.dst = true →
      (m.dirty ≠ [] → exec (.segmentMoveCopyPassComplete ⟨q, none⟩) s = .next { took s with
        arr.moves := vSet s.arr.moves q.val (some { m with dirty := [], passes := m.passes + 1, hold := decide (4 ≤ m.passes + 1) }) })
      ∧ (m.dirty = [] → m.compact = false → look m.segno s.arr.map = some e → ∃ t, exec (.segmentMoveCopyPassComplete ⟨q, none⟩) s = .next t
        ∧ look m.segno t.arr.map = some { e with mig := false, gen := (e.gen + 1) % 4096, slot := m.dst }
        ∧ (slotOf t m.dst).seg = some m.segno ∧ vAt t.arr.moves q.val = some { m with sealed := true } ∧ OnlyIn [.arr] s t)
      ∧ (m.dirty = [] → m.compact = true → look m.segno s.arr.map = some e → ∃ t y,
        exec (.segmentMoveCopyPassComplete ⟨q, none⟩) s = .next t ∧ vAt t.arr.moves q.val = some { m with sealed := true }
        ∧ look m.segno t.arr.map = some y ∧ y.slot = m.dst ∧ y.mig = false))
    ∧ (vAt s.arr.moves q.val = some m → m.sealed = true → moveMay s m = true → keysRise s.arr.slots = true →
      ∃ t, exec (.segmentMoveInvalidationAck q) s = .next t
      ∧ vAt t.arr.moves q.val = none ∧ (∀ c : Nat, ∀ y ∈ (coreOf t c).tlb, tlbHits m.segno y = false)
      ∧ (slotOf t m.src).used = false ∧ (slotOf t m.src).seg = none ∧ (m.evac = true → (slotOf t m.src).retired = true)
      ∧ ∀ w ∈ t.arr.writes, w.segno = m.segno → w.tail = false → w.die = slotDie m.dst)

/-- R135, R142, R353, R459, R460: a live object is first marked MRK, then copied with its header and forwarded to the copy by its first
three words; Barchan scans the marked cards of all heap segments, which are remembered from then on, and frees a finished source to which
nothing refers; Sirocco's level follows the junction temperature with 5 °C of hysteresis.
Where the specification leaves a point open, the model's choice of log 40 stands. -/
def Obligations.HeapCompactionAndSirocco : Prop :=
  ∀ (s : State) (q : Fin 4) (src dst : Nat) (da : BitVec 32) (last : Bool) (temp : Int),
    let u := drainCores s
    let h := heapRead src u
    let len := h.data.toNat % 4096 + 1
    let wr (a : Nat) (w : Word) (t : State) : State := heapWrite q.val a w t
    let busy (v : Option Nat) (t : State) : State := { t with arr.heapEng := vSet t.arr.heapEng q.val v }
    let runs := u.pwr.released = true ∧ inLoss u = false
    let lies := runs ∧ inHeap src u = true ∧ src % 131072 + len ≤ 65536
    let found := (u.arr.cards.map (·.1)).any fun k => cardInto src k u
    let l := s.arr.sirocco
    (lies → h.tag = 6 → barchanSusp u = false → vAt u.arr.moves q.val = none →
      exec (.heapObjectMove q src dst da false last) s = .next (busy (some (src / 131072)) (wr src { h with tag := 0xD } u)))
    ∧ (lies → h.tag = 0xD → inHeap dst u = true → dst % 131072 + len ≤ 65536 → 3 ≤ len →
      exec (.heapObjectMove q src dst da true false) s = .next (busy (some (src / 131072))
        (wr src { tag := 7, data := 0 } (wr (src + 2) { tag := 5, data := da.setWidth 16 } (wr (src + 1) { tag := 4, data := (da >>> 16).setWidth 16 }
          (heapCopy q.val (src + 1) (dst + 1) (len - 1) (wr dst { h with tag := 6 } u))))))
      ∧ ∃ t, exec (.heapObjectMove q src dst da true true) s = .next t ∧ src / 131072 ∈ t.arr.heapDone ∧ vAt t.arr.heapEng q.val = none)
    ∧ (runs → barchanSusp u = false → vAt u.arr.moves q.val = none → src ∈ heapSegs u →
      (src ∉ u.arr.remembered → ∃ t, exec (.cardScan src q) s = .next t ∧ t.arr.remembered = heapSegs u
        ∧ (∀ c : Nat, ∀ y ∈ (coreOf t c).tlb, ∀ g ∈ heapSegs u, maps g y = false) ∧ t.store = u.store ∧ t.mem = u.mem)
      ∧ (src ∈ u.arr.remembered → found = true ∨ src ∉ u.arr.heapDone → exec (.cardScan src q) s = .next { u with arr.cards := [] })
      ∧ (src ∈ u.arr.remembered → found = false → src ∈ u.arr.heapDone → ∃ t, exec (.cardScan src q) s = .next t
        ∧ t.arr.map = del src u.arr.map ∧ t.arr.remembered = [] ∧ src ∉ t.arr.heapDone ∧ t.arr.cards = []))
    ∧ (s.pwr.released = true → inLoss s = false → s.pwr.pstate ≠ .off → ∃ t, exec (.siroccoSample temp) s = .next t ∧ t.oas.temp = temp
      ∧ (105 ≤ temp → t.arr.sirocco = 2) ∧ (100 < temp → temp < 105 → t.arr.sirocco = if l = 2 then 2 else 1)
      ∧ (temp = 100 → t.arr.sirocco = 1) ∧ (95 < temp → temp < 100 → t.arr.sirocco = if l = 0 then 0 else 1)
      ∧ (temp ≤ 95 → t.arr.sirocco = 0) ∧ (110 ≤ temp → s.flt.present.getLsbD 7 = false → s.flt.masked.getLsbD 7 = false →
        t.flt.latch.getLsbD 7 = true))


/-! ## Stream rules -/

/-- R156, R158, R160: the array, seal and move slots of an instruction, each acting on the state as it stood when the step began, with its
cost. AAPP appends the record with the next number of its stream at no charge to the hold account.
Where the specification leaves a point open, the model's choice of log 57 stands. -/
def Obligations.RuleSlotOperations : Prop :=
  ∀ (s : State) (d : Fin 8) (w : SlotArgs) (n : Nat) (r : Run),
    let rdy (p : Part) (op : Nat) : Prop := slotReady p d.val (slotWord op w) s r
    let out (p : Part) (c : Instr) (r1 : Run) : Prop := exec c s = .next (slotDone p d.val r1 s)
    let A := w.a.toNat
    let B := w.b.toNat
    let X := w.imm.toNat
    let src := vAt r.base.buf B
    let sid := (handleOf s r A).getD 0
    let snap := vAt r.pend.snaps A
    let buf (k : Nat) (f : WBuf → WBuf) (y : Run) : Run := { y with cur.buf := vUpd y.cur.buf k f }
    let idx (k : Nat) (v : BitVec 48) (y : Run) : Run := { y with cur.x := vSet y.cur.x k v }
    let cost (c : Nat) (y : Run) : Run := { y with mEu := y.mEu + c }
    let seek (p o : Nat) (y : Run) : Run := { y with cur.curSeq := vSet y.cur.curSeq A p, cur.cur := vSet y.cur.cur A o }
    let rd := cursorRead s sid 4096 (vAt r.base.curSeq A) (vAt r.base.cur A) (sourceRecs s sid snap)
    (rdy .arr 0 → out .arr (.anop d w) r) ∧ (rdy .sea 0 → out .sea (.snop d w) r) ∧ (rdy .mov 0 → out .mov (.mnop d w) r)
    ∧ (rdy .arr 1 → out .arr (.aseek d w n) (cost (1280 + 640 * n) (seek (seekPos (X * 1024) (sourceRecs s sid snap) snap) 0 r)))
    ∧ (rdy .arr 2 → out .arr (.ardr d w n) (cost (960 + 640 * n) (idx X (BitVec.ofNat 48 rd.1.length)
        (buf B (fun b => { b with bytes := rd.1 }) (seek rd.2.1 rd.2.2 r)))) ∧ rd.1.length ≤ 4096)
    ∧ (rdy .arr 3 → ∀ st, streamOf s sid = some st → st.st ≠ .sealed → src.bytes ≠ [] → st.next ≤ seqMax →
      trainHolding s sid = none → st.heldBy = none ∨ st.heldBy = some d.val →
      spaceFor s sid st ((32 + src.bytes.length + 15) / 16 * 16) = .fits → ∃ t r1 st1 y, exec (.aapp d w) s = .next t
        ∧ runOf t d.val = some r1 ∧ r1.doneA = true ∧ r1.mRecs = r.mRecs + 1 ∧ r1.mBytes = r.mBytes + 32 + src.bytes.length
        ∧ r1.mEu = r.mEu + 45 * ((32 + src.bytes.length + 63) / 64) ∧ r1.aapps.length = r.aapps.length + 1 ∧ r1.ostream = some sid
        ∧ streamOf t sid = some st1 ∧ st1.next = st.next + 1 ∧ y ∈ st1.recs ∧ y.seq = st.next ∧ y.payload = src.bytes ∧ y.array = true
        ∧ t.oas.outst = s.oas.outst)
    ∧ (rdy .sea 1 → ∀ st, streamOf s sid = some st → out .sea (.srec d w)
      (let h := padTo 20 src.hdr
       let c := leB 4 (crc32c (h ++ src.bytes)).toNat
       let v := (Config.sha256 ((atStart r sid st).2 ++ h ++ c ++ src.bytes)).toList
       cost (20 * ((32 + src.bytes.length + 511) / 512)) (buf B (fun b => { b with hdr := h ++ c ++ v.take 8, hdl := A, chain := v }) r)))
    ∧ (rdy .sea 2 → out .sea (.scrc d w) (cost (5 * ((src.bytes.length + 511) / 512)) (idx X ((crc32c src.bytes).setWidth 48) r)))
    ∧ (rdy .mov 1 → ∀ st, streamOf s sid = some st → trainHolding s sid = none → st.heldBy = none ∨ st.heldBy = some d.val →
      ∃ t st1, exec (.mhdr d w) s = .next t ∧ streamOf t sid = some st1 ∧ st1 = { st with heldBy := some d.val }
        ∧ runOf t d.val = some { cost 20 (buf B (fun b => { b with
            hdr := leB 4 (sid + X * 2 ^ 25) ++ leB 6 (atStart r sid st).1 ++ leB 2 ((src.bytes.length + 65535) % 65536) ++ leB 8 s.dtime
            hdl := A, chain := [] }) r) with doneM := true })
    ∧ (rdy .mov 1 → ∀ st e, streamOf s sid = some st → st.heldBy = some e → e ≠ d.val → exec (.mhdr d w) s = .next s)
    ∧ (rdy .mov 2 → out .mov (.mcpy d w) (cost (10 * (((vAt r.base.buf A).bytes.length + 511) / 512))
        (buf B (fun b => { b with bytes := (vAt r.base.buf A).bytes }) r)))
    ∧ (rdy .mov 3 → ∀ y, recAt s r.pend.sid r.pend.seq = some y → out .mov (.mtrg d w) (cost 10
        (buf B (fun b => { b with bytes := padTo 32 (recHead24 r.pend.sid y ++ y.chain.take 8) }) r)))
    ∧ (rdy .mov 4 → out .mov (.mset d w) (cost 1 (idx A (w.imm.setWidth 48) r)))

/-- R156, R158, R160, R171, R174: an execution starts on the sequencer of its trigger's die, with buffers, index registers and cursors at 0;
the control slot ends each step, and CEND the execution; a count that passes its declared value stops it, unbinds the bundle and marks it
breached.
Where the specification leaves a point open, the model's choice of log 57 stands. -/
def Obligations.RuleControlOperations : Prop :=
  ∀ (s : State) (d : Fin 8) (w : SlotArgs) (r : Run) (b : Binding) (l : List (Nat × Nat × Nat)) (x y n : Nat) (p : Pend),
    let A := w.a.toNat
    let go (op c : Nat) : Prop := ctlReady d.val (slotWord op w) s r b c
    let out (c : Instr) (cost k : Nat) (m : List (Nat × Nat × Nat)) : Prop := exec c s = .next (stepDone d.val r cost k m s)
    let plain (c : Instr) (cost : Nat) : Prop :=
      (r.loops = [] → out c cost (r.idx + 1) []) ∧ (r.loops = (x, y, n) :: l → r.idx ≠ y → out c cost (r.idx + 1) r.loops)
      ∧ (r.loops = (x, y, n) :: l → r.idx = y → 1 < n → out c cost x ((x, y, n - 1) :: l))
      ∧ (r.loops = [(x, y, n)] → r.idx = y → n ≤ 1 → out c cost (r.idx + 1) [])
    (go 0 0 → plain (.cnop d w) 0)
    ∧ (go 4 1 → (aappsDone s r = true → plain (.cwait d w) 1) ∧ (aappsDone s r = false → exec (.cwait d w) s = .next s))
    ∧ (go 2 1 → out (.cloop d w) 1 (r.idx + 1) ((r.idx + 1, r.idx + A, w.imm.toNat) :: r.loops))
    ∧ (go 3 1 → vAt r.cur.x A ≠ 0 → plain (.cbrz d w) 1)
    ∧ (go 3 1 → vAt r.cur.x A = 0 → out (.cbrz d w) 1 w.imm.toNat
        (r.loops.filter fun q => decide (q.1 ≤ w.imm.toNat) && decide (w.imm.toNat ≤ q.2.1)))
    ∧ (go 1 1 → aappsDone s r = false → exec (.cend d w) s = .next s)
    ∧ (go 1 1 → aappsDone s r = true → ∃ t, exec (.cend d w) s = .next t ∧ runOf t d.val = none
      ∧ ∀ e ∈ t.store.streams, e.2.heldBy ≠ some d.val)
    ∧ (runOf s d.val = some r → look r.pend.binding s.wadi.bindings = some b → (∃ i, insnAt s r = some i ∧ i.ctl = slotWord 0 w) →
      r.doneA = true → r.doneS = true → r.doneM = true → seqMay s d.val = true → s.pwr.pstate ≠ .off → s.flt.masked.getLsbD 15 = false →
      (bundleOf s b.bundle).eu * 1000 < r.mEu ∨ (bundleOf s b.bundle).steps ≤ r.mSteps →
      ∃ t, exec (.cnop d w) s = .next t ∧ runOf t d.val = none ∧ t.flt.latch.getLsbD 15 = true
        ∧ (∀ e ∈ t.wadi.bindings, e.2.bundle ≠ b.bundle) ∧ ∀ z, look b.bundle t.wadi.bundles = some z → z.breached = true)
    ∧ (runOf s d.val = none → nextPend (markIssued s) d.val = some p → seqMay (markIssued s) d.val = true →
      ∃ t v, exec (.ruleExecutionStart d) s = .next t ∧ runOf t d.val = some v ∧ v.pend = p ∧ v.idx = 0 ∧ v.base = v.cur
        ∧ (∀ k, (vAt v.cur.buf k).bytes = []) ∧ (∀ k, vAt v.cur.x k = 0) ∧ p ∉ t.wadi.pend ∧ OnlyIn [.wadi] s t)

/-- R112, R167: OAS_RULE_BUDGET is 0 at reset, reads as it stands with its reserved bits 0, and takes a value up to 16,000 EU at once, with W
computed again; a value above leaves it. Below the committed budget a write leaves it too, and sets BUDREJ. With 470 µF at full charge a budget of
up to 2,590 EU keeps the window at 32 MiB. -/
def Obligations.RuleBudgetTakesEffectAtOnce : Prop :=
  (∀ (s : State) (core : Fin 16) (v : BitVec 16),
     let n := (v.setWidth 14).toNat
     (portHung 0x2405 s = false → s.oas.budget ≤ 16000 → (portRead core.val 0x2405 s).1 = (BitVec.ofNat 14 s.oas.budget).setWidth 16)
     ∧ (alive s = true →
       (n < committed s → exec (.ruleBudgetWrite v) s = .next { s with wadi.budRej := true })
       ∧ (committed s ≤ n → 16000 < n → exec (.ruleBudgetWrite v) s = .next s)
       ∧ (committed s ≤ n → n ≤ 16000 → ∃ t, exec (.ruleBudgetWrite v) s = .next t ∧ t.oas.budget = n
         ∧ t.oas.win = winBytesNow { s.oas with budget := n } / 64 ∧ t.wadi = s.wadi)))
  ∧ State.reset.oas.budget = 0
  ∧ ∀ (o : Oasis) (b : Nat), o.cUse = 470000 → o.esr = some 500 → o.ederate = none → o.meas.running = false → o.meas.mode1 = false →
      o.vhold = 15000 → b ≤ 2590 → winBytesNow { o with budget := b } = 33554432

/-! ## What waits in the engine -/

/-- R24, R52, R54, R60, R61, R66, R74, R88, R212, R251, R252: what goes on without a new packet: a credit wait that runs out, the arbiter,
the end of a stream, of a TIMED segment, of an early-log half, of a train and of an overwrite.
Where the specification leaves a point open, the model's choice of logs 1 and 16 stands. -/
def Obligations.WaitsExpiriesAndReclaims : Prop :=
  ∀ (s : State) (q : Fin 64) (p : QPkt) (t0 sid g : Nat) (st : Stream) (x : SegSt),
    let urgent (k : Nat) : Bool := match queueOf s k with | y :: _ => fUrg y.pkt | [] => false
    (alive s = true → queueOf s q.val = [p] → (∀ k, k ≠ q.val → queueOf s k = []) → p.pkt.opc = 0x0023 → fChain p.pkt = false →
      p.waitFrom = some t0 → p.cause = 1 ∨ p.cause = 3 → s.oas.cwait ≠ 0 → t0 + s.oas.cwait * 1000 ≤ s.tick →
      exec .creditWaitExpiry s = .next (dropHead q.val p (formReply (ctxReply (ctxOf p) .noCred 0 []) s)))
    ∧ (engineOn s = true → s.pwr.pstate ≠ .off → ∀ rest v, arbOrder s = q.val :: rest →
      ((∃ k, k < 64 ∧ urgent k = true) → urgent q.val = true)
      ∧ (admitHead q.val s = (true, v) → exec .queueHeadAdmit s = .next (settleEntry (served q.val (urgent q.val) (headLeft q.val v)))))
    ∧ (alive s = true → s.store.mounted = true → (∀ e ∈ s.arr.segs, e.2.expiring = false) → expiredPick s = some (g, x) → x.sids = [sid] →
      streamOf s sid = some st → ∃ t v z, exec .timedExpiryReclaim s = .next t ∧ streamOf t sid = some v ∧ v.first = firstAfter st g
        ∧ segOf t g = some z ∧ z.expiring = true ∧ t.arr.map = s.arr.map)
    ∧ (alive s = true → s.store.mounted = true → ∀ rest, s.arr.segs = (g, x) :: rest → x.expiring = true → trimPending s x.sids = false →
      ∃ t, exec .timedExpiryReclaim s = .next t ∧ t.arr.segs = rest ∧ t.arr.map = del g s.arr.map)
    ∧ (alive s = true → s.store.mounted = true → ∀ h : Fin 2, (vAt s.store.halves h.val).held = true →
      (vAt s.store.halves (1 - h.val)).held = false → (vAt s.store.halves h.val).recs ≠ [] →
      (∀ e ∈ (vAt s.store.halves h.val).recs, streamOf s e.sid = none ∧ e.merging = none) → (∃ d, d < 8 ∧ 0 < dieAvail s d .playa) →
      ∃ t, exec .earlyMergeRetry s = .next t ∧ (vAt t.store.halves h.val).recs = []
        ∧ (vAt t.store.halves h.val).held = false)
    ∧ (∀ v : Train, alive s = true → s.eng.trains = [v] → v.st = .opened → trainPaused s v = false → v.lastAt + 50000 < s.tick →
      ∃ t, exec .caravanInactivityTimeout s = .next t ∧ t.eng.trains = []
        ∧ (v.qid, { cause := 5, sts := .badParam, index := v.members.length, untilAt := s.tick + 50000 }) ∈ t.eng.aborts)
    ∧ (∃ t, exec .caravanAbortAnswerEnd s = .next t ∧ (∀ e, e ∈ t.eng.aborts ↔ e ∈ s.eng.aborts ∧ s.tick < e.2.untilAt) ∧ OnlyIn [.eng] s t)
    ∧ (∀ rest, s.store.streams = (sid, st) :: rest → look sid rest = none → st.st = .deleting → (∀ j ∈ s.eng.jobs, j.kind ≠ .deleteJob sid) →
      (∀ e ∈ s.store.staging, e.1 ≠ sid) →
      ∃ t, exec .streamDeletionComplete s = .next t ∧ streamOf t sid = none ∧ ∀ e ∈ t.eng.ctx, e.sid ≠ sid)
    ∧ (alive s = true → s.vtf.sanitize.isSome = true → ∃ t, exec .sanitizeOverwriteComplete s = .next t ∧ t.vtf.sanitize = none
      ∧ (∀ e ∈ t.arr.slots, e.2.zeroing = false) ∧ (s.arr.media = .sabkha → OnlyIn [.vtf, .arr] s t))


/-! ## Host commands

Each is stated of a packet that arrives alone and passes its checks: `c` is the command as checked, and `s2` the state it acts on, which has
the packet at the head of its queue. Where a result hangs on a signature or a point that only the cryptography decides, both results are
stated. -/

/-- R55 to R57, R123, R209, R263, R264, R267, R271, R272, R275, R281: the commands that return information.
Where the specification leaves a point open, the model's choice of logs 43 and 54 stands. -/
def Obligations.QueriesAnswer : Prop :=
  ∀ (s s2 s1 : State) (x : CmdIn) (c : Ctx) (st : Stream) (g : SegSt),
    let sid := pf c 0 4
    (Admitted 0x0001 x c s s2 → ∃ data, exec (.identify x) s = .next (replied 0x0001 x c .ok 0 data s2) ∧ data.length = 32
      ∧ fieldAt data 0 4 = 0x5120 ∧ fieldAt data 4 1 = 0xB0 ∧ fieldAt data 5 1 = (match s2.variant with | .ia => 1 | .ib => 2)
      ∧ fieldAt data 6 1 = lifeNum s2.vtf.life ∧ bytesAt data 8 8 = Config.devId.toList ∧ fieldAt data 20 4 = 1048576
      ∧ fieldAt data 24 2 = 3072)
    ∧ (Admitted 0x0002 x c s s2 →
      (pf c 0 1 = 0 → s2.vtf.sanitize = none → ∃ data, exec (.getStatus x) s = .next (replied 0x0002 x c .ok 0 data s2)
        ∧ data.length = 32 ∧ fieldAt data 0 1 = phaseNum s2.pwr.phase ∧ fieldAt data 4 4 = s2.oas.win % 2 ^ 32
        ∧ fieldAt data 8 4 = (max s2.oas.win 4096 - s2.oas.outst) % 2 ^ 32 ∧ fieldAt data 12 4 = s2.oas.outst % 2 ^ 32
        ∧ fieldAt data 24 1 = 100)
      ∧ (pf c 0 1 = 1 → ∃ data, exec (.getStatus x) s = .next (replied 0x0002 x c .ok 0 data s2) ∧ data.length = 64
        ∧ fieldAt data 0 1 = mediaNum s2.arr.media ∧ fieldAt data 8 4 = 20972 ∧ fieldAt data 12 4 = playaFree s2 % 2 ^ 32
        ∧ fieldAt data 48 4 = s2.arr.ceTotal % 2 ^ 32 ∧ fieldAt data 52 4 = s2.arr.ucTotal % 2 ^ 32)
      ∧ (pf c 0 1 = 2 → exec (.getStatus x) s = .next (replied 0x0002 x c .ok 0 ((List.range 64).flatMap fun q => leB 4 (qstatWord (setQueue s2 x.qid.toNat []) q)) s2))
      ∧ (2 < pf c 0 1 → exec (.getStatus x) s = .next (replied 0x0002 x c .badParam 0 [] s2)))
    ∧ (Admitted 0x0012 x c s s2 →
      (pf c 32 1 = 0 → ∃ r, exec (.attest x) s = .next (replied 0x0012 x c .ok 0 (r ++ (Config.dikSign r).toList) s2)
        ∧ fieldAt r 0 4 = 0x54415A5A ∧ fieldAt r 5 1 = lifeNum s2.vtf.life ∧ fieldAt r 6 1 = s2.vtf.debug % 256
        ∧ bytesAt r 8 8 = Config.devId.toList ∧ fieldAt r 24 8 = s2.dtime % 2 ^ 64
        ∧ ((bytesAt c.plain 0 32).length = 32 → bytesAt r 32 32 = bytesAt c.plain 0 32))
      ∧ (pf c 32 1 = 1 ∨ pf c 32 1 = 2 → exec (.attest x) s = .next (replied 0x0012 x c .ok 0 (Config.cert (pf c 32 1)) s2))
      ∧ (2 < pf c 32 1 → exec (.attest x) s = .next (replied 0x0012 x c .badParam 0 [] s2)))
    ∧ (Admitted 0x0027 x c s s2 →
      (streamOf s2 sid = none → exec (.streamInfo x) s = .next (replied 0x0027 x c .noStream 0 [] s2))
      ∧ (streamOf s2 sid = some st → loadCtx sid s2 = some s1 → ∃ data, exec (.streamInfo x) s = .next (replied 0x0027 x c .ok 0 data s1)
        ∧ data.length = 64 ∧ fieldAt data 0 4 = sid % 2 ^ 32 ∧ fieldAt data 4 1 = sstateNum st.st ∧ fieldAt data 5 1 = clsCode st.attr.cls
        ∧ fieldAt data 8 4 = st.gen % 2 ^ 32 ∧ fieldAt data 24 8 = st.first % 2 ^ 64 ∧ fieldAt data 32 8 = (st.next - 1) % 2 ^ 64
        ∧ fieldAt data 40 8 = horizon s1 st % 2 ^ 64 ∧ fieldAt data 48 4 = st.segs.length % 2 ^ 32))
    ∧ (Admitted 0x0024 x c s s2 → 48 ≤ pf c 20 4 → pf c 20 4 ≤ 1048576 → liveStream s2 sid = some st → loadCtx sid s2 = some s1 →
      ((pf c 4 1).testBit 1 = false → ∃ (sts : Status) (res : Nat) (data e : List Byte) (l : List Rec), exec (.streamRead x) s = .next (replied 0x0024 x c sts res data s1)
        ∧ l.Sublist st.recs ∧ (∀ r ∈ l, readable s1 st r = true ∧ ((pf c 4 1).testBit 0 = false → pf c 8 8 ≤ r.seq))
        ∧ data.drop 16 = l.flatMap (recRead s1 sid) ++ e ∧ data.length ≤ 16 + pf c 20 4
        ∧ ((∀ h ∈ s1.store.halves.toList, h.held = false) → e = []))
      ∧ ((pf c 4 1).testBit 1 = true → segOf s1 (pf c 8 4) = some g → pf c 8 4 ∈ st.segs → recsIn st (pf c 8 4) ≠ [] →
        262144 ≤ pf c 20 4 → g.dead = [] → g.uncorr = [] →
        exec (.streamRead x) s = .next (replied 0x0024 x c .ok 0 (segImage s1 (pf c 8 4) g) s1)))
    ∧ (Admitted 0x0060 x c s s2 →
      (pf c 0 1 = 0 → ∃ data, exec (.faultRead x) s = .next (replied 0x0060 x c .ok 0 data s2) ∧ data.length = 32
        ∧ fieldAt data 16 12 = s2.flt.latch.toNat ∧ fieldAt data 28 1 = s2.flt.hist.length % 256)
      ∧ (pf c 0 1 = 1 → pf c 1 1 ≤ 31 → 1 ≤ pf c 2 1 → pf c 2 1 ≤ 32 →
        let es := (s2.flt.hist.drop (pf c 1 1)).take (pf c 2 1)
        exec (.faultRead x) s = .next (replied 0x0060 x c .ok es.length (es.flatMap histBytes) s2)))


/-- R184 to R218, R266, R286 to R288: sessions, keys, counters and the debug lock.
Where the specification leaves a point open, the model's choice of logs 11, 14 and 46 stands. -/
def Obligations.SessionsKeysAndCounters : Prop :=
  ∀ (s s2 : State) (x : CmdIn) (c : Ctx) (st : Stream),
    let key := bytesAt c.plain 8 64
    (Admitted 0x0010 x c s s2 → c.pkt.ses = 0 → pf c 0 1 ≤ 1 → pf c 1 1 ≤ 3 → (pf c 0 1 = 1 → pf c 1 1 = 0) →
      s2.vtf.sessions.length < 16 → s2.vtf.drbgOk = true → s2.vtf.entFail = false →
      let th := ascii "ZZ-OPEN-V1" ++ leB 1 (pf c 0 1) ++ leB 1 (pf c 1 1) ++ Config.devId.toList ++ bytesAt c.plain 8 64 ++ bytesAt c.plain 72 16
      ∃ t, exec (.sessionOpen x) s = .next t
        ∧ (Config.onCurve key = false → t = replied 0x0010 x c .badParam 0 [] s2)
        ∧ (Config.onCurve key = true → roleKey s2 (pf c 0 1) (pf c 1 1) = none → t = replied 0x0010 x c .noCap 0 [] s2)
        ∧ (∀ k, Config.onCurve key = true → roleKey s2 (pf c 0 1) (pf c 1 1) = some k →
          (Config.ecdsaVerify k th (bytesAt c.plain 88 64) = false → t = replied 0x0010 x c .auth 0 [] (countAuth s2))
          ∧ (Config.ecdsaVerify k th (bytesAt c.plain 88 64) = true → ∃ data y u, t = replied 0x0010 x c .ok 0 data u
            ∧ u.vtf.sessions = s2.vtf.sessions ++ [y] ∧ 1 ≤ y.ses ∧ y.ses ≤ 65535 ∧ y.hi = 0 ∧ y.seen = [] ∧ y.keys.length = 72
            ∧ (y.role = .owner ↔ pf c 0 1 = 1) ∧ data.length = 152)))
    ∧ (Admitted 0x0011 x c s s2 → let n := if pf c 0 2 = 0 then c.pkt.ses.toNat else pf c 0 2
      (n ≠ c.pkt.ses.toNat → c.role ≠ some .owner → exec (.sessionClose x) s = .next (replied 0x0011 x c .noCap 0 [] s2))
      ∧ (n = c.pkt.ses.toNat ∨ c.role = some .owner → (∃ y ∈ s2.vtf.sessions, y.ses = n) →
        exec (.sessionClose x) s = .next (replied 0x0011 x c .ok 0 [] { s2 with
          vtf.sessions := s2.vtf.sessions.filter fun y => y.ses != n })))
    ∧ (Admitted 0x0082 x c s s2 → let i := pf c 0 1
      (i < 16 ∨ 31 < i → exec (.counterBump x) s = .next (replied 0x0082 x c .badParam 0 [] s2))
      ∧ (16 ≤ i → i ≤ 31 → 2 ^ 32 ≤ vAt s2.vtf.bumps i → exec (.counterBump x) s = .next (replied 0x0082 x c .quota 0 [] s2))
      ∧ (16 ≤ i → i ≤ 31 → vAt s2.vtf.bumps i < 2 ^ 32 → exec (.counterBump x) s = .next (replied 0x0082 x c .ok 0
          (leB 8 (vAt s2.vtf.counters i + 1)) { s2 with
            vtf.counters := vSet s2.vtf.counters i (vAt s2.vtf.counters i + 1), vtf.bumps := vSet s2.vtf.bumps i (vAt s2.vtf.bumps i + 1) })))
    ∧ (Admitted 0x0081 x c s s2 →
      (pf c 0 1 = 4 → exec (.keyRotate x) s = .next (replied 0x0081 x c .ok 0 [] { s2 with vtf.pol := BitVec.ofNat 32 (pf c 4 4) }))
      ∧ (pf c 0 1 = 3 → pf c 2 1 ≤ 3 → (pf c 1 1).testBit 1 = true → exec (.keyRotate x) s = .next (replied 0x0081 x c .ok 0 [] { s2 with
          vtf.sessions := s2.vtf.sessions.filter fun y => !(decide (y.role = .host) && y.kid == pf c 2 1)
          vtf.hosts := vSet s2.vtf.hosts (pf c 2 1) none }))
      ∧ (pf c 0 1 = 1 → liveStream s2 (pf c 4 4) = some st → st.keys.length < 4 → s2.vtf.drbgOk = true → s2.vtf.entFail = false →
        ∃ t v, exec (.keyRotate x) s = .next (leftQueue 0x0081 x c t) ∧ streamOf t (pf c 4 4) = some v
          ∧ t.vtf.nextKey = s2.vtf.nextKey + 1 ∧ (s2.vtf.nextKey ∉ st.keys → v.keys.head? = some s2.vtf.nextKey)))
    ∧ (AdmittedAlone 0x0081 x c s s2 → pf c 0 1 = 2 →
      let msg := ascii "ZZ-XFER-V1" ++ Config.devId.toList ++ leB 8 (vAt s2.vtf.counters 4) ++ key
      let sig := Config.ecdsaVerify key msg (bytesAt c.plain 72 64)
      ∃ t, exec (.keyRotate x) s = .next t
        ∧ (Config.onCurve key = false → t = repliedAlone 0x0081 x c .badParam 0 [] s2)
        ∧ (Config.onCurve key = true → sig = false → t = repliedAlone 0x0081 x c .auth 0 [] (countAuth s2))
        ∧ (Config.onCurve key = true → sig = true → ∃ u, t = repliedAlone 0x0081 x c .ok 0 [] u ∧ u.vtf.owner = some key
          ∧ u.vtf.sessions = [] ∧ vAt u.vtf.counters 4 = vAt s2.vtf.counters 4 + 1
          ∧ ((pf c 1 1).testBit 0 = true → ∀ k : Nat, vAt u.vtf.hosts k = none) ∧ OnlyIn [.vtf] s2 u))
    ∧ (Admitted 0x00F0 x c s s2 →
      (3 ≤ s2.vtf.dbgFails → exec (.debugUnlock x) s = .next (replied 0x00F0 x c .noCap 0 [] s2))
      ∧ (s2.vtf.dbgFails < 3 → pf c 0 1 = 0 → pf c 1 1 = 0 →
        exec (.debugUnlock x) s = .next (replied 0x00F0 x c .ok 0 [] { s2 with vtf.debug := 0 }))
      ∧ (s2.vtf.dbgFails < 3 → pf c 0 1 = 0 → pf c 1 1 = 1 ∨ pf c 1 1 = 2 → s2.vtf.drbgOk = true → s2.vtf.entFail = false →
        ∃ b u, exec (.debugUnlock x) s = .next (replied 0x00F0 x c .ok 0 b u) ∧ b.length = 32
          ∧ u.vtf.chals = otherChals (pf c 1 1) s2 ++ [{ level := pf c 1 1, bytes := b, due := s2.tick + 60000000 }] ∧ u.vtf.debug = s2.vtf.debug)
      ∧ (∀ h, s2.vtf.dbgFails < 3 → pf c 0 1 = 1 → pf c 1 1 = 1 → (s2.vtf.chals.find? fun v => v.level == 1) = some h → s2.tick < h.due →
        let ok := Config.ecdsaVerify (s2.vtf.owner.getD []) (ascii "ZZ-DBG-V1" ++ leB 1 1 ++ Config.devId.toList ++ h.bytes) key
        ∃ t, exec (.debugUnlock x) s = .next t
          ∧ (ok = false → t = replied 0x00F0 x c .auth 0 [] (countAuth { s2 with vtf.chals := otherChals 1 s2, vtf.dbgFails := s2.vtf.dbgFails + 1 }))
          ∧ (ok = true → ∃ u, t = replied 0x00F0 x c .ok 0 [] u ∧ u.vtf.debug = 1 ∧ u.vtf.chals = otherChals 1 s2
            ∧ vAt u.vtf.counters 6 = vAt s2.vtf.counters 6 + 1)))

/-- R188, R189, R212, R285, R287: PROVISION, which an UNOWNED device in RECOVERY takes with a valid owner signature and after which it is
OWNED, mounted and in SERVICE; and SANITIZE, which leaves it UNOWNED, with no key, stream, session or segment, every slot that was in use
waiting to be overwritten.
Where the specification leaves a point open, the model's choice of log 52 stands. -/
def Obligations.ProvisionAndSanitize : Prop :=
  ∀ (s s2 : State) (x : CmdIn) (c : Ctx),
    let opub := bytesAt c.plain 0 64
    let msg := ascii "ZZ-PROV-V1" ++ Config.devId.toList ++ leB 8 (vAt s2.vtf.counters 5) ++ opub ++ leB 4 (pf c 64 4)
    let sig := Config.ecdsaVerify opub msg (bytesAt c.plain 72 64)
    (AdmittedAlone 0x0080 x c s s2 → c.pkt.ses = 0 → s2.vtf.life = .unowned → s2.vtf.debug ≠ 2 → s2.pwr.phase = .recovery →
      s2.vtf.drbgOk = true → s2.vtf.entFail = false → ∃ t, exec (.provision x) s = .next t
        ∧ (Config.onCurve opub = false → t = repliedAlone 0x0080 x c .badParam 0 [] s2)
        ∧ (Config.onCurve opub = true → sig = false → t = repliedAlone 0x0080 x c .auth 0 [] (countAuth s2))
        ∧ (Config.onCurve opub = true → sig = true → ∃ u, t = repliedAlone 0x0080 x c .ok 0 [] u ∧ u.vtf.life = .owned
          ∧ u.vtf.owner = some opub ∧ u.vtf.pol = BitVec.ofNat 32 (pf c 64 4) ∧ u.vtf.debug = 0 ∧ u.store.mounted = true
          ∧ (streamOf u 0).isSome = true ∧ (inLoss u = false → u.pwr.phase = .service)))
    ∧ (AdmittedAlone 0x0080 x c s s2 → c.pkt.ses ≠ 0 ∨ s2.vtf.life ≠ .unowned →
        exec (.provision x) s = .next (repliedAlone 0x0080 x c .noCap 0 [] s2))
    ∧ (AdmittedAlone 0x0083 x c s s2 → pf c 0 1 ≤ 1 → ∃ u, exec (.sanitize x) s = .next (repliedAlone 0x0083 x c .ok 0 [] u)
        ∧ u.vtf.life = .unowned ∧ u.vtf.keys = [] ∧ u.vtf.owner = none ∧ u.vtf.sessions = [] ∧ u.vtf.kwrap = none
        ∧ u.vtf.sanitize.isSome = true ∧ vAt u.vtf.counters 5 = vAt s2.vtf.counters 5 + 1 ∧ u.store.streams = [] ∧ u.store.staging = []
        ∧ u.store.mounted = false ∧ (∀ e ∈ u.arr.map, metaBase ≤ e.1) ∧ u.oas.outst = 0 ∧ u.oas.budget = 0 ∧ u.wadi.bundles = [] ∧ u.wadi.bindings = []
        ∧ u.ucode.user = none ∧ u.mem.ext = [] ∧ s2.arr.retired ≤ u.arr.retired
        ∧ (∀ e ∈ u.arr.slots, metaSlot e.1 = false → e.2.used = false)
        ∧ (s2.store.mounted = false → (∀ k : Nat, vAt s2.arr.moves k = none) → ∀ n, metaSlot n = false → (slotOf s2 n).used = true →
          (slotOf u n).zeroing = true))


/-- R29 to R32, R58 to R60, R268, R269, R273, R274: streams created, opened, closed, sealed, trimmed and deleted.
Where the specification leaves a point open, the model's choice of log 54 stands. -/
def Obligations.StreamCommands : Prop :=
  ∀ (s s2 s1 : State) (x : CmdIn) (c : Ctx) (st : Stream) (a : Attr),
    let sid := pf c 0 4
    let live := liveStream s2 sid = some st ∧ loadCtx sid s2 = some s1
    (Admitted 0x0020 x c s s2 → createAttr c = some a → sid = 0 ∨ streamOf s2 sid = none → s2.store.streams.length < 1048576 →
      (a.early = true → s2.store.earlyList.length < 256) → s2.arr.media ≠ .readonly → stream0Takes s2 40 = true → s2.vtf.drbgOk = true →
      s2.vtf.entFail = false → ∃ t n v, exec (.streamCreate x) s = .next (leftQueue 0x0020 x c t) ∧ n = (if sid = 0 then freeSid s2 else sid)
        ∧ n ≠ 0 ∧ streamOf t n = some v ∧ v.attr = a ∧ v.st = .closed ∧ v.first = 1 ∧ v.next = 1 ∧ v.recs = [] ∧ v.keys = [s2.vtf.nextKey]
        ∧ v.gen = (look n s2.store.gens).getD 0 + 1)
    ∧ (Admitted 0x0020 x c s s2 → createAttr c = none → exec (.streamCreate x) s = .next (replied 0x0020 x c .badParam 0 [] s2))
    ∧ (Admitted 0x0021 x c s s2 → live → pf c 4 1 ≤ 1 → st.st ≠ .sealed → st.st = .opened ∨ sid = 0 ∨ heldCtx s2 < 3072 →
      ∃ u, exec (.streamOpen x) s = .next (replied 0x0021 x c .ok 0 [] u)
        ∧ streamOf u sid = some { st with st := .opened, openArray := decide (pf c 4 1 = 1) } ∧ OnlyIn [.store, .eng, .prev] s2 u)
    ∧ (Admitted 0x0022 x c s s2 → live → ∃ u, exec (.streamClose x) s = .next (replied 0x0022 x c .ok 0 [] u)
        ∧ streamOf u sid = some { st with st := if st.st = .opened then .closed else st.st } ∧ OnlyIn [.store, .eng, .prev] s2 u)
    ∧ (Admitted 0x0025 x c s s2 → live → pf c 4 1 ≤ 1 → sid ≠ 0 → st.st ≠ .sealed → s2.arr.media ≠ .readonly →
      (pf c 4 1 = 1 → bound s2 sid = false) → ∃ t v, exec (.streamSeal x) s = .next (leftQueue 0x0025 x c t) ∧ streamOf t sid = some v
        ∧ v.st = (if pf c 4 1 = 1 then .sealed else st.st) ∧ v.first = st.first ∧ v.next = st.next)
    ∧ (Admitted 0x0026 x c s s2 → live → sid ≠ 0 → st.attr.cls ≠ .pinned →
      (min (pf c 8 6) st.next ≤ st.first → exec (.streamTrim x) s = .next (replied 0x0026 x c .ok 0 (leB 8 st.first) s1))
      ∧ (st.first < min (pf c 8 6) st.next → stream0Takes s2 24 = true → ∃ t v, exec (.streamTrim x) s = .next (leftQueue 0x0026 x c t)
        ∧ streamOf t sid = some v ∧ v.first = min (pf c 8 6) st.next ∧ v.next = st.next))
    ∧ (Admitted 0x0028 x c s s2 → live → sid ≠ 0 → st.st ≠ .opened → bound s2 sid = false → stream0Takes s2 24 = true →
      ∃ t v, exec (.streamDelete x) s = .next (leftQueue 0x0028 x c t) ∧ streamOf t sid = some v ∧ v.st = .deleting ∧ v.keys = []
        ∧ ∀ k ∈ t.vtf.keys, k.owner ≠ some sid)
    ∧ (Admitted 0x0021 x c s s2 → pf c 4 1 ≤ 1 → liveStream s2 sid = none → exec (.streamOpen x) s = .next (replied 0x0021 x c .noStream 0 [] s2))
    ∧ (Admitted 0x0026 x c s s2 → sid = 0 → exec (.streamTrim x) s = .next (replied 0x0026 x c .noCap 0 [] s2))

/-- R17, R21, R40, R43 to R46, R61 to R65, R70, R71, R84, R270: STREAM_APPEND. A record takes the next number of its stream and the device
time, its payload enters staging and its credits are charged. In HOLD mode it is answered then; in ARRAY mode a job waits for it to be
written. A first CHAIN append opens a train; an append before mount enters the half of the early log.
Where the specification leaves a point open, the model's choice of logs 17 and 44 stands. -/
def Obligations.StreamAppendStages : Prop :=
  ∀ (s s2 s1 : State) (x : CmdIn) (c : Ctx) (st : Stream) (h : Nat),
    let sid := pf c 0 4
    let pay := c.plain.drop 8
    let need := (32 + pay.length + 63) / 64
    let fields := pf c 4 2 &&& 0xE3 = pf c 4 2 ∧ pf c 6 1 ≤ 1 ∧ sid ≠ 0 ∧ ((pf c 4 2).testBit 1 = true → pay.length = 16)
    let takes := fields ∧ streamOf s2 sid = some st ∧ st.st ≠ .deleting ∧ st.st ≠ .sealed ∧ s2.arr.media ≠ .readonly ∧ trainHolding s2 sid = none
      ∧ st.heldBy = none ∧ loadCtx sid s2 = some s1 ∧ s2.store.waiting = [] ∧ s2.store.mounted = true ∧ st.next < seqMax
      ∧ spaceFor s1 sid st ((32 + pay.length + 15) / 16 * 16) = .fits
    let staged (t : State) (arr : Bool) (train : Option Nat) : Prop := ∃ v r, streamOf t sid = some v ∧ v.next = st.next + 1
      ∧ r ∈ v.recs ∧ r.seq = st.next ∧ r.payload = pay ∧ r.ts = s2.dtime ∧ r.credits = need ∧ r.written = false ∧ r.place = none
      ∧ r.train = train ∧ r.array = arr ∧ (sid, st.next) ∈ t.store.staging
    (Admitted 0x0023 x c s s2 → takes → fChain c.pkt = false → slotsFree s1 sid (pf c 4 2) = true → need ≤ max s2.oas.win 4096 - s2.oas.outst →
      (modeArray s1 st (pf c 6 1) = false → ∃ u, exec (.streamAppend x) s = .next (replied 0x0023 x c .ok 0 (leB 8 st.next ++ leB 8 s2.dtime) u)
        ∧ staged u false none ∧ u.oas.outst = s2.oas.outst + need)
      ∧ (modeArray s1 st (pf c 6 1) = true → ∃ t, exec (.streamAppend x) s = .next (leftQueue 0x0023 x c t) ∧ staged t true none
        ∧ t.oas.outst = s2.oas.outst + need ∧ t.link.replies = s2.link.replies
        ∧ ∃ j ∈ t.eng.jobs, j.waits = 1 ∧ j.replies = [ctxReply c .okArray 0 (leB 8 st.next ++ leB 8 s2.dtime)]))
    ∧ (Admitted 0x0023 x c s s2 → takes → fChain c.pkt = true → fLast c.pkt = false → look x.qid.toNat s2.eng.aborts = none →
      (s2.eng.trains.filter fun t => decide (t.st = .opened)).length < 4 → pay.length ≤ 8388608 →
      slotsFree s1 sid (pf c 4 2 ||| 4) = true → need ≤ max s2.oas.win 4096 - s2.oas.outst → need + 2 ≤ max s2.oas.win 4096 →
      ∃ t v, exec (.streamAppend x) s = .next (leftQueue 0x0023 x c t) ∧ staged t false (some s2.eng.nextId)
        ∧ trainOfQueue t x.qid.toNat = some v ∧ v.tid = s2.eng.nextId ∧ v.members.length = 1 ∧ v.total = pay.length ∧ v.st = .opened)
    ∧ (Admitted 0x0023 x c s s2 → fChain c.pkt = false → s2.store.mounted = false → fields → look sid s2.store.earlyList = some false →
      streamOf s2 sid = some st → s2.store.curHalf = some h → h < 2 → s2.vtf.life = .owned → s2.pwr.phase = .recovery →
      earlyFull (vAt s2.store.halves h) sid ((32 + pay.length + 15) / 16 * 16) = false → s2.store.waiting = [] →
      need ≤ max s2.oas.win 4096 - s2.oas.outst → modeArray s2 st (pf c 6 1) = false →
      ∃ u e, exec (.streamAppend x) s = .next (replied 0x0023 x c .ok 0
          (leB 8 (2 ^ 47 + (vAt s2.store.halves h).count + 1) ++ leB 8 s2.dtime) u)
        ∧ (vAt u.store.halves h).recs = (vAt s2.store.halves h).recs ++ [e] ∧ e.sid = sid ∧ e.payload = pay ∧ e.ts = s2.dtime
        ∧ e.index = (vAt s2.store.halves h).count + 1 ∧ u.oas.outst = s2.oas.outst + need)
    ∧ (Admitted 0x0023 x c s s2 → s2.store.mounted = true → fChain c.pkt = false → fields →
      (streamOf s2 sid = none → exec (.streamAppend x) s = .next (replied 0x0023 x c .noStream 0 [] s2))
      ∧ (streamOf s2 sid = some st → st.st = .sealed → exec (.streamAppend x) s = .next (replied 0x0023 x c .readOnly 0 [] s2)))


/-- R219 to R227, R276: the boot commands.
Where the specification leaves a point open, the model's choice of log 56 stands. -/
def Obligations.BootCommands : Prop :=
  ∀ (s s2 : State) (x : CmdIn) (c : Ctx) (k : Nat),
    let off := pf c 0 4
    let data := c.plain.drop 8
    let m := 1 - s2.boot.active
    let mf := c.plain.take 128
    let floor := vAt s2.vtf.counters 3
    let restart := (pf c 4 1).testBit 0
    let raise := (pf c 1 1).testBit 0
    let good := (bslot s2 m).st = .valid ∧ floor ≤ mfVersion (bslot s2 m).manifest
    (Admitted 0x0030 x c s s2 → off % 4096 = 0 → off < 67108864 → off + data.length ≤ 67108864 → servingSlot s2 m = false →
      restart = true ∨ (bslot s2 m).st = .staging → exec (.bootStage x) s = .next (replied 0x0030 x c .ok 0 [] (updBslot s2 m fun b =>
        let base : BSlot := if restart then { BSlot.reset with st := .staging } else b
        { base with image := memPutBytes 0xFF base.image off data })))
    ∧ (Admitted 0x0030 x c s s2 → off % 4096 ≠ 0 ∨ 67108864 < off + data.length ∨ servingSlot s2 m = true →
      exec (.bootStage x) s = .next (replied 0x0030 x c .badParam 0 [] s2))
    ∧ (Admitted 0x0031 x c s s2 →
      (s2.vtf.debug = 2 → exec (.bootCommit x) s = .next (replied 0x0031 x c .halted 0 [] s2))
      ∧ (s2.vtf.debug ≠ 2 → (bslot s2 m).st ≠ .staging ∨ servingSlot s2 m = true →
        exec (.bootCommit x) s = .next (replied 0x0031 x c .badParam 1 [] s2))
      ∧ (s2.vtf.debug ≠ 2 → (bslot s2 m).st = .staging → servingSlot s2 m = false → manifestOk mf = false →
        exec (.bootCommit x) s = .next (replied 0x0031 x c .badParam 2 [] s2))
      ∧ (s2.vtf.debug ≠ 2 → (bslot s2 m).st = .staging → servingSlot s2 m = false → manifestOk mf = true →
        let sig := Config.ecdsaVerify (s2.vtf.owner.getD []) (ascii "ZZ-BOOT-V1" ++ mf.take 64) (mf.drop 64)
        let root := merkleRoot (bslot s2 m).image (fieldAt mf 8 4)
        ∃ t, exec (.bootCommit x) s = .next t
          ∧ (sig = false → t = replied 0x0031 x c .auth 3 [] (countAuth s2))
          ∧ (sig = true → fieldAt mf 12 4 < floor → t = replied 0x0031 x c .badParam 4 [] s2)
          ∧ (sig = true → floor ≤ fieldAt mf 12 4 → root ≠ bytesAt mf 32 32 → t = replied 0x0031 x c .badParam 5 [] s2)
          ∧ (sig = true → floor ≤ fieldAt mf 12 4 → root = bytesAt mf 32 32 → t = replied 0x0031 x c .ok 0 []
            (updBslot s2 m fun b => { b with
                st := .valid, manifest := mf, dsig := (Config.dikSign mf).toList
                nodes := merkleTree 15 (bootLeaves b.image (fieldAt mf 8 4)) }))))
    ∧ (Admitted 0x0032 x c s s2 →
      (pf c 0 1 = 0 → good → raise = false →
        exec (.bootActivate x) s = .next (replied 0x0032 x c .ok 0 (leB 8 floor) { s2 with boot.active := m }))
      ∧ (pf c 0 1 = 0 → good → raise = true → ∃ u, exec (.bootActivate x) s = .next (replied 0x0032 x c .ok 0
          (leB 8 (mfVersion (bslot s2 m).manifest)) u) ∧ u.boot.active = m
          ∧ vAt u.vtf.counters 3 = mfVersion (bslot s2 m).manifest ∧ OnlyIn [.boot, .vtf] s2 u)
      ∧ (pf c 0 1 = 1 → good → raise = false →
        exec (.bootActivate x) s = .next (replied 0x0032 x c .ok 0 (leB 8 floor) { s2 with boot.trialPend := true }))
      ∧ (pf c 0 1 = 2 → s2.boot.served = some k → s2.boot.trial = true → floor ≤ mfVersion (bslot s2 k).manifest → raise = false →
        exec (.bootActivate x) s = .next (replied 0x0032 x c .ok 0 (leB 8 floor) { s2 with boot.active := k }))
      ∧ (pf c 0 1 ≤ 1 → (bslot s2 m).st ≠ .valid → exec (.bootActivate x) s = .next (replied 0x0032 x c .badParam 0 [] s2)))

/-- R163 to R170, R277 to R280, R372 to R375, R484 to R486: rule bundles, extension programs and user microcode, loaded, bound and let go.
Where the specification leaves a point open, the model's choice of logs 18 and 57 stands. -/
def Obligations.RulesAndLoads : Prop :=
  ∀ (s s2 : State) (x : CmdIn) (c : Ctx) (p : ExtPartial) (b : Bundle) (u : UFile) (j : Nat),
    let f := c.plain.drop 8
    let owner := s.vtf.owner.getD []
    let sig (g : List Byte) : Bool := Config.ecdsaVerify owner (g.take (g.length - 64)) (g.drop (g.length - 64))
    let n := fieldAt f 6 2
    let is := insnsOf f n
    let hs := [pf c 4 4, pf c 8 4, pf c 12 4, pf c 16 4]
    let used := hs.take (b.nhandle + 1)
    let sum := committed s2 + b.eu * pf c 2 1
    (Admitted 0x0040 x c s s2 →
      let head := fieldAt f 0 4 = 0x42575A5A ∧ fieldAt f 4 1 = 1 ∧ fieldAt f 5 1 = 1 ∧ 1 ≤ n ∧ n ≤ 4096 ∧ f.length = 128 + 16 * n
        ∧ fieldAt f 24 1 ≤ 3 ∧ fieldAt f 25 1 ≤ 7 ∧ fieldAt f 26 2 = 0 ∧ allZero (bytesAt f 52 12) = true ∧ 1 ≤ fieldAt f 12 4
        ∧ fieldAt f 12 4 ≤ 16000
      let code := crcBytes (bytesAt f 64 (16 * n)) = bytesAt f 48 4
      let shape := shapeOk is = true ∧ is.all (handlesOk (fieldAt f 24 1) (fieldAt f 25 1)) = true
      ∃ t, exec (.ruleLoad x) s = .next t
        ∧ (sig f = false → t = replied 0x0040 x c .auth 0 [] (countAuth s2))
        ∧ (sig f = true → ¬head → t = replied 0x0040 x c .badParam 1 [] s2)
        ∧ (sig f = true → head → ¬code → t = replied 0x0040 x c .badParam 2 [] s2)
        ∧ (sig f = true → head → code → is.all insnOk = false → t = replied 0x0040 x c .badParam 3 [] s2)
        ∧ (sig f = true → head → code → is.all insnOk = true → ¬shape → t = replied 0x0040 x c .badParam 4 [] s2)
        ∧ (∀ w : Cost, sig f = true → head → code → is.all insnOk = true → shape → bundleCost is = [(65536, w)] →
          (fieldAt f 8 4 < w.steps ∨ fieldAt f 12 4 * 1000 < w.eu ∨ fieldAt f 16 4 < w.bytes ∨ fieldAt f 20 4 < w.recs →
            t = replied 0x0040 x c .budget 5 [] s2)
          ∧ (w.steps ≤ fieldAt f 8 4 → w.eu ≤ fieldAt f 12 4 * 1000 → w.bytes ≤ fieldAt f 16 4 → w.recs ≤ fieldAt f 20 4 →
            s2.wadi.bundles.length < 32 → bundleBytes s2 + f.length ≤ 262144 →
            ∃ v num y, t = replied 0x0040 x c .ok num [] v ∧ look num v.wadi.bundles = some y ∧ y.insns = is ∧ y.eu = fieldAt f 12 4
              ∧ y.file = f ∧ y.breached = false ∧ 1 ≤ num ∧ OnlyIn [.wadi] s2 v)))
    ∧ (Admitted 0x0041 x c s s2 → look (pf c 0 1) s2.wadi.bundles = some b → b.breached = false → pf c 2 1 ≠ 0 →
      (∀ h ∈ hs.drop (b.nhandle + 1), h = noSubj) → (∀ h ∈ used, h ≠ noSubj ∧ h ≠ 0 ∧
        ∃ st, liveStream s2 h = some st ∧ st.st ≠ .sealed) → used.Nodup → s2.wadi.bindings.length < 64 →
      (sum ≤ s2.oas.budget → ∃ v num y, exec (.ruleBind x) s = .next (replied 0x0041 x c .ok num [] v) ∧ look num v.wadi.bindings = some y
        ∧ y.bundle = pf c 0 1 ∧ y.depth = pf c 2 1 ∧ vAt y.h 0 = some (pf c 4 4) ∧ y.closing = none ∧ OnlyIn [.wadi] s2 v)
      ∧ (s2.oas.budget < sum → (pf c 3 1).testBit 0 = false → exec (.ruleBind x) s = .next (replied 0x0041 x c .budget 0 [] s2))
      ∧ (s2.oas.budget < sum → (pf c 3 1).testBit 0 = true → sum ≤ 16000 →
        ∃ v num, exec (.ruleBind x) s = .next (replied 0x0041 x c .ok num [] v) ∧ v.oas.budget = sum ∧ (look num v.wadi.bindings).isSome = true))
    ∧ (Admitted 0x0042 x c s s2 → pf c 0 1 ≤ 1 → pf c 1 1 ≠ 0 →
      (if pf c 0 1 = 1 then (look (pf c 1 1) s2.wadi.bundles).isSome = true else (look (pf c 1 1) s2.wadi.bindings).isSome = true) →
      (∀ y ∈ unloadSet s2 (pf c 1 1) (decide (pf c 0 1 = 1)), pendCount s2 y = 0) →
      ∃ t, exec (.ruleUnload x) s = .next (leftQueue 0x0042 x c t)
        ∧ ∀ y ∈ t.wadi.bindings, if pf c 0 1 = 1 then y.2.bundle ≠ pf c 1 1 else y.1 ≠ pf c 1 1)
    ∧ (Admitted 0x0050 x c s s2 →
      let total := pf c 8 4
      let got := p.bytes ++ c.plain.drop 16
      let e := { s2 with eng.extFile := none }
      (if (pf c 4 1).testBit 0 then p = { total := total, bytes := [] } else s2.eng.extFile = some p) → 129 ≤ total → total ≤ 1048832 →
      total = p.total → pf c 0 4 = p.bytes.length →
      ((pf c 4 1).testBit 1 = false → got.length ≤ total →
        exec (.extLoad x) s = .next (replied 0x0050 x c .ok 0 [] { s2 with eng.extFile := some { total := total, bytes := got } }))
      ∧ ((pf c 4 1).testBit 1 = true → got.length = total → ∃ t, exec (.extLoad x) s = .next t
        ∧ (sig got = false → t = replied 0x0050 x c .auth 0 [] (countAuth e))
        ∧ (sig got = true → extHeaderOk got = false → t = replied 0x0050 x c .badParam 1 [] e)
        ∧ (∀ k, sig got = true → extHeaderOk got = true → crcBytes (bytesAt got 64 (8 * fieldAt got 7 1 + fieldAt got 8 4)) = bytesAt got 40 4 →
          (∀ i, i < fieldAt got 7 1 → capOk (grantAt got i) = true ∧ grantOk (some k) (fieldAt got 6 1) (grantAt got i) = true) →
          extSlot e (bytesAt got 24 16) = some k → (∀ y ∈ s2.mem.ext, y.2.progId ≠ bytesAt got 24 16 → y.2.dom ≠ fieldAt got 6 1) →
          s2.store.mounted = true → ∃ v y i, t = replied 0x0050 x c .ok k [] v ∧ look k v.mem.ext = some y ∧ y.file = got ∧ y.core = some i
            ∧ (coreOf v i).running = true ∧ (coreOf v i).ia = BitVec.ofNat 32 (0x01000000 + 0x100000 * (k - 1) + fieldAt got 12 4))))
    ∧ (Admitted 0x0051 x c s s2 → s2.ucode.commit = none →
      let ws := uWords f n
      let es := (List.range 16).map fun k => fieldAt f (8 + 2 * k) 2
      let lo := fieldAt f 40 2
      let hi := fieldAt f 42 2
      let head := fieldAt f 0 4 = 0x43555A5A ∧ fieldAt f 4 1 = 1 ∧ fieldAt f 5 1 = 0 ∧ 1 ≤ n ∧ n ≤ 512 ∧ f.length = 128 + 4 * n
      let checks := crcBytes (bytesAt f 64 (4 * n)) = bytesAt f 44 4 ∧ es.all (uEntryOk n) = true ∧ ws.all uWordOk = true
        ∧ uTargetsOk ws = true
        ∧ uPaths ws (8 * n + 64) [] ((es.filter fun v => v.testBit 15).map fun v => (bits v 0 9, false)) = true
      ∃ t, exec (.uopLoad x) s = .next t
        ∧ (sig f = false → t = replied 0x0051 x c .auth 0 [] (countAuth s2))
        ∧ (sig f = true → ¬head → t = replied 0x0051 x c .badParam 1 [] s2)
        ∧ (sig f = true → head → checks → lo ≤ hi → hi ≤ 0x43FF → portsMeet lo hi 0x1800 0x1FFF = true ∨ portsMeet lo hi 0x3800 0x3BFF = true
            ∨ portsMeet lo hi 0x4000 0x43FF = true → t = replied 0x0051 x c .noCap 6 [] s2)
        ∧ (sig f = true → head → checks → hi < lo → ∃ v w k, t = leftQueue 0x0051 x c v ∧ v.ucode.commit = some (w, k) ∧ w.raw = f
            ∧ w.words = ws.map (BitVec.ofNat 24) ∧ w.decode = es.map uEntry ∧ v.link.replies = s2.link.replies))
    ∧ (s.ucode.commit = some (u, j) → ∃ t, exec .userMicrocodeCommit s = .next t ∧ t.ucode.user = some u ∧ t.ucode.stored = some u
      ∧ t.ucode.commit = none ∧ (∀ c k : Nat, (vAt (coreOf t c).lv k).micro = none) ∧ ∀ q ∈ t.eng.jobs, q.id ≠ j)


/-- R102, R282, R283, R498, R501, R510, R533 to R537: FAULT_CLEAR, FAULT_INJECT, POWER_STATE and HOLDUP_TEST.
Where the specification leaves a point open, the model's choice of logs 42 and 50 stands. -/
def Obligations.FaultAndPowerCommands : Prop :=
  ∀ (s s2 : State) (x : CmdIn) (c : Ctx),
    let src := pf c 0 1
    (Admitted 0x0062 x c s s2 →
      (src = 0 ∨ 95 < src → exec (.faultInject x) s = .next (replied 0x0062 x c .badParam 0 [] s2))
      ∧ (1 ≤ src → src ≤ 95 → s2.flt.latch.getLsbD src = true → exec (.faultInject x) s = .next (replied 0x0062 x c .ok 0 [] { s2 with
          flt.dup := satInc s2.flt.dup }))
      ∧ (1 ≤ src → src ≤ 95 → s2.flt.latch.getLsbD src = false → ∃ u, exec (.faultInject x) s = .next (replied 0x0062 x c .ok 0 [] u)
        ∧ (∀ n, u.flt.latch.getLsbD n = (decide (n = src) || s2.flt.latch.getLsbD n))
        ∧ (s2.flt.hist.length < 32 → u.flt.hist = s2.flt.hist ++ [{ ets := s2.dtime, src := src, cls := srcClass src, det := BitVec.ofNat 32 (pf c 4 4) }])
        ∧ (vAt s2.flt.pol src = 2 → u.pwr.seq = .manifest ∧ u.pwr.fatal = true ∧ u.pwr.phase = .halt)
        ∧ (vAt s2.flt.pol src ≠ 2 → u.pwr = s2.pwr)))
    ∧ (Admitted 0x0061 x c s s2 → let mask : BitVec 96 := BitVec.ofNat 96 (pf c 0 12)
      ∃ u, exec (.faultClear x) s = .next (replied 0x0061 x c .ok 0 [] u)
        ∧ (∀ n, s2.flt.present.getLsbD n = false → s2.flt.force.getLsbD n = false →
          u.flt.latch.getLsbD n = (s2.flt.latch.getLsbD n && !mask.getLsbD n))
        ∧ (∀ n, s2.flt.present.getLsbD n = true → s2.flt.masked.getLsbD n = false → u.flt.latch.getLsbD n = s2.flt.latch.getLsbD n)
        ∧ (mask = 0 → u.flt.hist = (if (pf c 12 1).testBit 0 then [] else s2.flt.hist)
          ∧ u.flt.first = (if (pf c 12 1).testBit 1 then none else s2.flt.first)))
    ∧ (Admitted 0x0070 x c s s2 → pf c 0 1 = 0 → exec (.powerState x) s = .next (replied 0x0070 x c .ok 0 [] s2))
    ∧ (AdmittedAlone 0x0070 x c s s2 →
      (3 < pf c 0 1 → exec (.powerState x) s = .next (repliedAlone 0x0070 x c .badParam 0 [] s2))
      ∧ (pf c 0 1 = 1 → s.pwr.heldWake = none → ∃ t, exec (.powerState x) s = .next t
        ∧ ((t.pwr.pstate = .doze ∧ t.pwr.entry = none) ∨ t.pwr.entry = some (.doze, 0)))
      ∧ (pf c 0 1 = 2 ∨ pf c 0 1 = 3 → ∃ t j, exec (.powerState x) s = .next (leftQueue 0x0070 x c t)
        ∧ t.pwr.entry = some (if pf c 0 1 = 2 then .rest else .off, s2.eng.nextId + 1) ∧ t.pwr.pstate = s2.pwr.pstate
        ∧ j ∈ t.eng.jobs ∧ j.id = s2.eng.nextId ∧ j.barrier = true ∧ j.replies = [ctxReply c .ok 0 []] ∧ t.link.replies = s2.link.replies))
    ∧ (s2.oas.warn = false → s2.oas.meas.running = false → s2.oas.meas.job = none → (∀ j ∈ s2.eng.jobs, ∀ b, j.kind ≠ .holdup b) →
      (Admitted 0x0071 x c s s2 → pf c 0 1 = 0 → ∃ t, exec (.holdupTest x) s = .next (leftQueue 0x0071 x c t)
        ∧ t.oas.meas.job = some s2.eng.nextId ∧ t.oas.meas.want = some .command ∧ t.oas.meas.mode1 = false)
      ∧ (AdmittedAlone 0x0071 x c s s2 → pf c 0 1 = 1 → ∃ t, exec (.holdupTest x) s = .next t
        ∧ t.oas.meas.job = some s2.eng.nextId ∧ t.oas.meas.want = some .command ∧ t.oas.meas.mode1 = true ∧ t.oas.win = 0))
    ∧ (Admitted 0x0071 x c s s2 → 1 < pf c 0 1 → exec (.holdupTest x) s = .next (replied 0x0071 x c .badParam 0 [] s2))

/-- R244 to R248, R251, R259: how packets are taken and refused, for every opcode. A packet joins the end of its queue; one alone there is
checked: in HALT, its flags, its length, its session and its authority, in this order. A packet of fewer than 16 bytes is ST_BADLEN.
Where the specification leaves a point open, the model's choice of log 16 stands. -/
def Obligations.PacketsQueuedAndChecked : Prop :=
  ∀ s : State, engineOn s = true → s.pwr.pstate ≠ .off →
    (∀ e ∈ hostRows, ∀ (x : CmdIn) (o : OpInfo),
      let q := x.qid.toNat
      let p := (hostPkt e.2 x).pkt
      let n := x.plen.toNat
      let out (r : Reply) (t : State) : Prop := exec (e.1 x) s = .next (refusedWith e.2 x r t)
      let fits := x.body.length = n + (if x.flg.getLsbD 0 then 16 else 0) ∧ o.psize + o.lo ≤ n ∧ n ≤ o.psize + o.hi
      let c : Ctx := { pkt := p, plain := x.body.take n, keys := [], role := none, owner := [] }
      x.chan = .host → opInfo e.2.toNat = some o →
      (q < 64 → queueOf s q ≠ [] → exec (e.1 x) s = .next (setQueue (renewAbort q (hostPkt e.2 x) (noteRequest s)) q
        (queueOf s q ++ [queued e.2 x s])))
      ∧ (63 < q → s.pwr.phase ≠ .halt → exec (e.1 x) s = .next (pump (formReply (plainReply p .badParam) (noteRequest s))))
      ∧ (q < 64 → queueOf s q = [] → trainOfQueue s q = none →
        (s.pwr.phase = .halt → out (plainReply p .halted) (joined e.2 x s))
        ∧ (s.pwr.phase ≠ .halt → x.flg.getLsbD 1 = false →
          (32 ≤ x.flg.toNat ∨ x.flg.getLsbD 2 = true → out (plainReply p .badParam) (joined e.2 x s))
          ∧ (x.flg.toNat < 32 → x.flg.getLsbD 2 = false → ¬fits → out (plainReply p .badLen) (joined e.2 x s))
          ∧ (x.flg.toNat < 32 → x.flg.getLsbD 2 = false → fits → (x.flg.getLsbD 0 = true ↔ x.ses = 0) →
            out (plainReply p .auth) (countAuth (joined e.2 x s)))
          ∧ (x.flg.toNat < 32 → x.flg.getLsbD 2 = false → fits → x.flg.getLsbD 0 = false → x.ses = 0 →
            (s.vtf.life = .unowned → unownedTakes (joined e.2 x s) c = false → out (ctxReply c .noCap 0 []) (joined e.2 x s))
            ∧ (s.vtf.life = .rollback → rollbackTakes c = false → out (ctxReply c .halted 0 []) (joined e.2 x s))
            ∧ (s.vtf.life = .owned → needs (joined e.2 x s) c ≠ none → out (ctxReply c .noCap 0 []) (joined e.2 x s))
            ∧ (s.vtf.life = .owned → needs (joined e.2 x s) c = none → reservedOk c = false →
              out (ctxReply c .badParam 0 []) (joined e.2 x s))))))
    ∧ (∀ b : List Byte,
      let p : QPkt := { QPkt.reset with pkt := shortPacket .host b, short := true }
      let q := p.pkt.qid.toNat
      (b.length < 16 → queueOf s q = [] → trainOfQueue s q = none → s.pwr.phase ≠ .halt → exec (.shortCommandPacket b) s = .next
        (settleEntry (served q (fUrg p.pkt) (dropHead q p (formReply (plainReply p.pkt .badLen) (setQueue (noteRequest s) q
          [{ p with owner := s.vtf.owner.getD [] }]))))))
      ∧ (16 ≤ b.length → exec (.shortCommandPacket b) s = .next s))

/-! ## The host link and its packets -/

/-- R289, R290, R293 to R298, R314, R322, R323: the training of the host link, whose lanes run.
Where the specification leaves a point open, the model's choice of log 19 stands. -/
def Obligations.HostLinkTraining : Prop :=
  ∀ (s : State) (lanes : BitVec 4) (peer : BitVec 3) (v : BitVec 32) (w : Nat),
    let l := s.link
    linkOn s = true → s.pwr.entry = none →
    (l.ls = .detect → l.ts1 = false → s.pwr.phase ≠ .test → exec .linkDetectTs1Start s = .next (
        if l.recAt + 1000 ≤ s.tick then { s with link.ts1 := true } else s))
    ∧ (s.pwr.phase ≠ .test →
      (l.ls = .detect ∨ l.ls = .hotreset → exec .linkTs1Received s = .next { s with link := { l with ls := .config, rate := 0 } })
      ∧ (l.ls = .lowpower → s.pwr.pstate = .doze → ∃ t, exec .linkTs1Received s = .next t ∧ t.link.ls = .recovery
        ∧ t.pwr.pstate = .run ∧ t.pwr.wakeCause = 1 ∧ t.pwr.wakeFrom = false)
      ∧ (l.ls = .disabled → s.pwr.pstate = .rest → ∃ t, exec .linkTs1Received s = .next t ∧ t.link.ls = .config
        ∧ t.pwr.pstate = .run ∧ t.pwr.wakeCause = 1 ∧ t.pwr.wakeFrom = true))
    ∧ (l.ls = .config → w = 1 ∨ w = 2 ∨ w = 4 → w ≤ capWidth s → (∀ i, i < w → lanes.getLsbD i = true) →
        (∀ x, x = 2 ∨ x = 4 → w < x → x ≤ capWidth s → ∃ i, i < x ∧ lanes.getLsbD i = false) →
        ∃ t, exec (.linkConfigComplete lanes peer) s = .next t ∧ t.link.width = w ∧ t.link.narrow = decide (w < capWidth s)
          ∧ t.link.peer = peer ∧ t.link.rate = 0
          ∧ (agreedRate { l with peer := peer } = 0 → t.link.ls = .active)
          ∧ (agreedRate { l with peer := peer } ≠ 0 → t.link.ls = .rate ∧ t.link.target = agreedRate { l with peer := peer } ∧ t.link.recAt = s.tick))
    ∧ (l.ls = .rate → exec .linkRateChangeIdleEnd s = .next (
        if l.recAt + 10 ≤ s.tick then { s with link.rate := l.target } else s))
    ∧ (l.ls = .rate → l.rate = l.target → trainWidth (capWidth s) lanes = some w →
        ∃ t, exec (.linkConfigComplete lanes peer) s = .next t ∧ t.link.ls = .active ∧ t.link.rate = l.rate ∧ t.link.width = w)
    ∧ (l.ls = .active → exec .blockLockLost s = .next { s with
        link := { l with ls := .recovery, recAt := s.tick, rtCnt := satInc l.rtCnt } })
    ∧ (l.ls = .recovery → l.retrain = true → agreedRate l ≠ l.rate →
        exec .linkRecoveryComplete s = .next { s with link := { l with ls := .rate, target := agreedRate l, recAt := s.tick } })
    ∧ (l.ls = .recovery → l.retrain = false ∨ agreedRate l = l.rate →
        ∃ t, exec .linkRecoveryComplete s = .next t ∧ t.link.ls = .active ∧ t.link.rate = l.rate ∧ t.link.retrain = false)
    ∧ (l.ls = .recovery → l.recAt + 2000 ≤ s.tick → vAt s.flt.pol 4 ≠ 2 → vAt s.flt.pol 12 ≠ 2 → s.flt.masked.getLsbD 12 = false →
        ∃ t, exec .linkRecoveryTimeout s = .next t
        ∧ t.link.ls = .detect ∧ t.flt.latch.getLsbD 12 = true ∧ t.vtf.sessions = [] ∧ t.link.replay = [] ∧ t.link.asm = none)
    ∧ (l.ls = .active → v.getLsbD 7 = true → l.retrain = false → ∃ t, exec (.linkRetrain v) s = .next t
        ∧ t.link.ls = .recovery ∧ t.link.retrain = true ∧ t.link.rtCnt = satInc l.rtCnt ∧ OnlyIn [.link] s t)
    ∧ (l.ls = .active → exec .linkCounterClear s = .next { s with link := { l with rtCnt := 0, rpCnt := 0 } })

/-- R300 to R303, R306, R308, R309, R320, R322, R324, R325: link packets in ACTIVE. A data packet in turn is accepted and acted on, a duplicate is
acknowledged again, and any other is asked for once. ACK and NAK release what they name; NAK, and ten microseconds without an advance,
send the rest again; a CREDIT packet sets the limits.
Where the specification leaves a point open, the model's choice of logs 19 and 20 stands. -/
def Obligations.HostLinkPackets : Prop :=
  ∀ (s : State) (crc : Option (BitVec 32)) (lseq xtag ofs n rdl rhl msl cfl : BitVec 16) (typ lfl : Byte) (data : BitVec 32) (b : List Byte),
    let l := s.link
    let e := l.rxE
    let prev := (e + 65535) % 65536
    let back := (e + 65536 - lseq.toNat) % 65536
    let first : BitVec 8 := 1
    let sound := crc = some (linkCrc typ lfl lseq.toNat xtag.toNat b)
    let readB := leB 2 ofs.toNat ++ [0, 0]
    let again (x : TxPkt) : TxPkt := { x with sent := x.sent + 1 }
    let answered (v : Nat) (t : State) : Prop := ∃ p : TxPkt, p.typ = 3 ∧ p.xtag = xtag
      ∧ p.payload = leB 2 ofs.toNat ++ [0, 0] ++ leB 4 v ∧ ((∃ o, (o, p) ∈ t.link.cpls)
        ∨ ∃ q, q ∈ t.link.replay ∧ q.typ = p.typ ∧ q.xtag = p.xtag ∧ q.payload = p.payload)
    let taken (t : State) : Prop := t.link.rxE = (e + 1) % 65536 ∧ t.link.nakOut = false ∧ t.link.lastAck = some (false, e)
    linkFlows s = true → s.pwr.entry = none →
    (isControl typ = false → ¬sound ∨ 4096 < back → exec (.hostLinkDataPacket crc lseq xtag typ lfl b) s = .next (
        if l.nakOut then s else { s with link := { l with nakOut := true, lastAck := some (true, prev) } }))
    ∧ (isControl typ = false → sound → 0 < back → back ≤ 4096 →
        exec (.hostLinkDataPacket crc lseq xtag typ lfl b) s = .next { s with link.lastAck := some (false, prev) })
    ∧ (isControl typ = true → ¬sound ∨ lfl ≠ 0 ∨ xtag ≠ 0 → exec (.hostLinkDataPacket crc lseq xtag typ lfl b) s = .next s)
    ∧ (typ = 0x80 → lfl = 0 → xtag = 0 → b = [] → sound →
        exec (.hostLinkDataPacket crc lseq xtag typ lfl b) s = exec (.ack lseq) s)
    ∧ (typ = 0x81 → lfl = 0 → xtag = 0 → b = [] → sound →
        exec (.hostLinkDataPacket crc lseq xtag typ lfl b) s = exec (.nak lseq) s)
    ∧ (back = 0 → ofs.toNat < 4096 → ofs.toNat % 4 = 0 →
      (∃ t, exec (.hostLinkDataPacket (some (linkCrc 1 0 lseq.toNat xtag.toNat readB)) lseq xtag 1 0 readB) s = .next t ∧ taken t
        ∧ answered (hwRead ofs.toNat (noteRequest s)) t)
      ∧ ∃ t, exec (.regwr lseq xtag ofs data) s = .next t ∧ taken t ∧ answered 0 t
        ∧ (ofs = 0x008 → t.link.msgp = l.msgp &&& ~~~(data.setWidth 4))
        ∧ (ofs = 0x010 → t.oas.cwait = data.toNat / 2 ^ 20)
        ∧ (ofs = 0x024 → t.link.hirqEn = data.getLsbD 31 ∧ t.link.fthr.toNat = data.toNat / 2 ^ 29 % 4 ∧ t.link.msgEn = data.setWidth 4)
        ∧ (ofs = 0x018 → t.link.rtCnt = 0 ∧ t.link.rpCnt = 0))
    ∧ (back = 0 → 1 ≤ b.length → b.length ≤ 1024 →
      (l.asm = none → ∃ t, exec (.cmd lseq first b) s = .next t ∧ taken t ∧ t.link.asm = some
        { bytes := b, ch := 1, cd := (b.length - 192 + 63) / 64, due := s.tick + 10000 })
      ∧ (∀ a, l.asm = some a → a.cd + (b.length + 63) / 64 < 1024 → ∃ t, exec (.cmd lseq 0 b) s = .next t ∧ taken t ∧ t.link.asm = some
        { bytes := a.bytes ++ b, ch := a.ch, cd := a.cd + (b.length + 63) / 64, due := s.tick + 10000 })
      ∧ (l.asm = none → 16 ≤ b.length → fieldAt b 3 1 < 64 → queueOf s (fieldAt b 3 1) ≠ [] →
        ∃ t, exec (.cmd lseq 3 b) s = .next t ∧ taken t ∧ t.link.asm = none
          ∧ queueOf t (fieldAt b 3 1) = queueOf s (fieldAt b 3 1)
            ++ [{ QPkt.reset with
              pkt := packetOf .host b, ch := 1, cd := (b.length - 192 + 63) / 64, owner := s.vtf.owner.getD [] }])
      ∧ (l.asm = none → ∃ t, exec (.cmd lseq 0 b) s = .next t ∧ taken t
        ∧ (s.flt.masked.getLsbD 13 = false → t.flt.latch.getLsbD 13 = true)))
    ∧ (∀ a, l.asm = some a → exec .cmdAssemblyTimeout s = .next (
        if a.due ≤ s.tick then deliverBytes .host a.bytes a.ch a.cd { s with link.asm := none } else s))
    ∧ (∀ p rest, l.replay = p :: rest →
      let d := (n.toNat + 65536 - p.lseq) % 65536
      (d ≤ rest.length → (∃ t m, exec (.ack n) s = .next t ∧ t.link.replay = rest.drop d ++ m ∧ t.link.advAt = s.tick)
        ∧ (∀ q r, rest.drop d = q :: r → q.sent < 4 → ∃ t m, exec (.nak n) s = .next t
          ∧ t.link.replay = again q :: r ++ m ∧ t.link.rpCnt = satInc l.rpCnt))
      ∧ (rest.length < d → exec (.ack n) s = .next s ∧ exec (.nak n) s = .next s)
      ∧ (s.tick < l.advAt + 10 → exec .replayTimeout s = .next s)
      ∧ (l.advAt + 10 ≤ s.tick → p.sent < 4 → exec .replayTimeout s = .next { s with
          link := { l with rpCnt := satInc l.rpCnt, advAt := s.tick, replay := again p :: rest } })
      ∧ (l.advAt + 10 ≤ s.tick → 4 ≤ p.sent → ∃ t, exec .replayTimeout s = .next t
        ∧ (s.flt.masked.getLsbD 14 = false → t.flt.latch.getLsbD 14 = true)
        ∧ (vAt s.flt.pol 14 ≠ 2 → t.link.ls = .recovery)))
    ∧ (cfl.toNat < 8 → ∃ t, exec (.credit rdl rhl msl cfl) s = .next t ∧ t.link.credSeen = true ∧ t.link.rdLim = rdl.toNat
        ∧ t.link.rhLim = rhl.toNat ∧ t.link.msLim = msl.toNat ∧ t.link.rdInf = cfl.getLsbD 0 ∧ t.link.rhInf = cfl.getLsbD 1
        ∧ t.link.msInf = cfl.getLsbD 2)
    ∧ (8 ≤ cfl.toNat → exec (.credit rdl rhl msl cfl) s = .next s)
    ∧ (l.credAt + 10 ≤ s.tick → exec .creditSendTimer s = .next { s with
        link := { l with lastCred := credLimits l, credAt := s.tick } })

/-! ## The boot window, the sideband and the TAP -/

/-- R228 to R232, R235, R236: what the boot window answers: 0xFF before ready, FILL once it has closed and past LENGTH, and in between the
image's bytes in blocks that have verified and FILL in the others. A block not reached yet counts as an early read.
Where the specification leaves a point open, the model's choice of log 56 stands. -/
def Obligations.BootWindowReads : Prop :=
  ∀ (s : State) (r : BootRead) (n : Nat),
    let b := s.boot
    let rows := [Instr.read, .fastRead, .quadOutputFastRead, .quadIoFastRead]
    let a (i : Nat) : Nat := (r.addr.toNat + i) % (if b.addr4 then 2 ^ 26 else 2 ^ 24)
    let fill : Byte := if b.served.isSome then (b.manifest[5]?).getD 0xFF else 0xFF
    let early (i : Nat) : Prop := i < r.len ∧ a i < mfLength b.manifest ∧ a i / 4096 ∉ b.verified ∧ a i / 4096 ∉ b.failed
    let drives (c : Instr) (l : List Byte) : Prop := exec c s = .next { s with boot.out := some l }
    exec .unknownBootOpcode s = .next { s with boot.out := none }
    ∧ (bootAnswers s = false → ∀ row, row ∈ rows → exec (row r) s = .next { s with boot.out := none })
    ∧ (bootAnswers s = true →
      (∀ row, row ∈ rows →
        (b.ready = false → drives (row r) (List.replicate r.len 0xFF))
        ∧ (b.ready = true → b.isOpen = false ∨ b.served = none → drives (row r) (List.replicate r.len fill))
        ∧ (b.ready = true → b.isOpen = true → b.served ≠ none → r.during = 0 →
          (∀ k, k ∈ b.verified → leafKept b k = true) → ∃ t out, exec (row r) s = .next t ∧ t.boot.out = some out
          ∧ out.length = r.len ∧ OnlyIn [.boot] s t ∧ t.boot.image = b.image ∧ t.boot.verified = b.verified
          ∧ (∀ i, i < r.len → out[i]? = some (
              if a i < mfLength b.manifest ∧ a i / 4096 ∈ b.verified ∧ a i / 4096 ∉ b.failed then memGet 0xFF b.image (a i) else fill))
          ∧ ((∃ i, early i) → t.boot.early = true ∧ (b.earlyCnt ≠ 0xFFFF → b.earlyCnt.toNat < t.boot.earlyCnt.toNat))
          ∧ ((∀ i, ¬early i) → t.boot.early = b.early ∧ t.boot.earlyCnt = b.earlyCnt)))
      ∧ drives (.readStatus ⟨n, none⟩) (List.replicate n (if b.ready then 0x00 else 0x01))
      ∧ (∀ k : Nat, readyDue s = true → exec (.readStatus ⟨n, some k⟩) s = .next { s with boot := { b with
          ready := true, readyAt := s.tick, out := some (List.replicate (min k n) 0x01 ++ List.replicate (n - k) 0x00) } })
      ∧ drives (.readIdentification n) ((0x3D :: 0xC5 :: 0x1A :: List.replicate n 0xFF).take n)
      ∧ (∀ k : Fin 13, r.addr = BitVec.ofNat 32 (4 * k.val) → r.len = 4 → drives (.readSfdp r) (leB 4 (
          [0x50444653, 0xFF000100, 0x09010000, 0xFF000010, 0xFFE2FFE7, 0x1FFFFFFF, 0x6B08EB44, 0x00000000, 0xFFFFFFEE, 0x0000FFFF,
            0x0000FFFF, 0xFF00FF00, 0xFF00FF00][k.val]?.getD 0)))
      ∧ (0x34 ≤ r.addr.toNat → r.addr.toNat + r.len ≤ 2 ^ 24 → drives (.readSfdp r) (List.replicate r.len 0xFF))
      ∧ exec .enter4ByteAddressMode s = .next { s with boot := { b with addr4 := true, out := some [] } }
      ∧ exec .exit4ByteAddressMode s = .next { s with boot := { b with addr4 := false, out := some [] } }
      ∧ drives .ignoredFlashCommand []
      ∧ ∀ (opc : Byte) (q : StatusRead), opc ∈ ignoredOpcodes → drives (bootCommand opc r q) [])

/-- R233 to R238, R241: the seal, ready, the verifier in ascending order or at the block that an early read names, a block that fails, and
the closing of the window.
Where the specification leaves a point open, the model's choice of log 56 stands. -/
def Obligations.BootWindowVerifiesAndCloses : Prop :=
  ∀ (s : State) (k : Nat) (keep : Bool), alive s = true →
    let b := s.boot
    let late := b.ready = true ∧ b.readyAt + 60000000 ≤ s.tick
    (b.served ≠ none → exec .bootSealVerified s = .next { s with boot.sealOk := true })
    ∧ (b.answering = true → b.ready = false →
        b.served = none ∨ (b.sealOk = true ∧ ∀ i, 4096 * (i + 1) ≤ fieldAt b.manifest 16 4 → 4096 * i < mfLength b.manifest →
          i ∈ b.verified ∨ i ∈ b.failed) →
        exec .bootWindowReady s = .next { s with boot.ready := true, boot.readyAt := s.tick })
    ∧ (b.served ≠ none → b.sealOk = true → 4096 * k < mfLength b.manifest → k ∉ b.verified → k ∉ b.failed →
        b.jump = some k ∨ (b.jump = none ∧ b.nextBlk ≤ k ∧ ∀ i, b.nextBlk ≤ i → i < k → i ∈ b.verified ∨ i ∈ b.failed) →
        let good := (climb b.nodes b.tree (bytesAt b.manifest 32 32) 16 0 k (bootLeaf b.image (mfLength b.manifest) k)).1
        (good = true → ∃ t, exec (.bootBlockVerify true) s = .next t ∧ t.boot.verified = k :: b.verified ∧ t.boot.nextBlk = k + 1 ∧ t.boot.jump = none
          ∧ t.boot.failed = b.failed ∧ OnlyIn [.boot] s t)
        ∧ ∀ got, got = false ∨ good = false → ∃ t, exec (.bootBlockVerify got) s = .next t ∧ t.boot.verified = b.verified ∧ t.boot.failed = b.failed ++ [k]
          ∧ t.boot.failBlk = (if b.failBlk = none then some k else b.failBlk) ∧ t.boot.fallback = true ∧ t.boot.slots = b.slots
          ∧ (s.pwr.pstate ≠ .off → s.flt.masked.getLsbD 10 = false → t.flt.latch.getLsbD 10 = true))
    ∧ (∃ t, exec .bootWindowClose s = .next t ∧ t.boot.isOpen = false ∧ t.boot.served = b.served ∧ t.boot.manifest = b.manifest)
    ∧ (late → b.keep = false → ∃ t, exec .bootWindowAutoClose s = .next t ∧ t.boot.isOpen = false)
    ∧ (¬late ∨ b.keep = true → exec .bootWindowAutoClose s = .next s)
    ∧ (∃ t, exec (.bootKeepWrite keep) s = .next t ∧ t.boot.keep = keep ∧ (late → keep = false → t.boot.isOpen = false)
        ∧ (¬late ∨ keep = true → t.boot.isOpen = b.isOpen))

/-- R315 to R317, R213, R341, R365, R527, R544: sideband transfers, and the TAP. A transfer to another address, or while a reply is outstanding, is not
acknowledged; a write that fails its checks is rejected; one that passes queues its packet in queue 0. A vendor instruction that the
debug level does not open is BYPASS, and a public code is none.
Where the specification leaves a point open, the model's choice of logs 21 and 41 stands. -/
def Obligations.SidebandAndTap : Prop :=
  ∀ (s : State) (addr : BitVec 7) (p rep : List Byte) (len : Nat) (cells pins : BitVec 17) (ir : BitVec 5) (a : Vendor) (core : Fin 16)
      (dom : BitVec 8) (da : BitVec 32) (port v : BitVec 16),
    let x := s.side
    let crc (l : List Byte) : List Byte := l ++ crcBytes l
    let answers (f : List Byte) (y : Side) : Prop := exec (.sidebandRead addr len) s = .next { s with
      side := { y with out := f.take len ++ List.replicate (len - f.length) 0xFF, ack := true, rejected := false } }
    let rejects (c : Instr) : Prop := exec c s = .next { s with side := { x with rejected := true, rejCnt := satInc x.rejCnt, ack := true } }
    let vendor (act : Vendor) (t : State) : Prop := exec (.jtagVendorInstruction ir act) s = .next t
    let on := { s with jtag.ir := ir }
    (sideOn s = true →
      (addr.toNat ≠ sideAddr s → exec (.sidebandWrite addr p) s = .next { s with side.ack := false }
        ∧ exec (.sidebandRead addr len) s = .next { s with side.ack := false })
      ∧ (addr.toNat = sideAddr s → x.busy = true → exec (.sidebandWrite addr p) s = .next { s with side.ack := false })
      ∧ (addr.toNat = sideAddr s → x.busy = false →
        (p.length < 16 ∨ 59 < p.length → rejects (.sidebandWrite addr (crc (1 :: p))))
        ∧ (∀ l, l ≠ crcBytes (1 :: p) → l.length = 4 → rejects (.sidebandWrite addr (1 :: p ++ l)))
        ∧ (16 ≤ p.length → p.length ≤ 59 → queueOf s 0 ≠ [] → ∃ t, exec (.sidebandWrite addr (crc (1 :: p))) s = .next t
          ∧ queueOf t 0 = queueOf s 0 ++ [{ QPkt.reset with pkt := packetOf .sideband p, owner := s.vtf.owner.getD [] }]
          ∧ t.side = { x with busy := true, rejected := false, ack := true }
          ∧ (s.pwr.pstate = .rest → s.pwr.entry = none → t.pwr.pstate = .run ∧ t.pwr.wakeCause = 2 ∧ t.pwr.wakeFrom = true)))
      ∧ (addr.toNat = sideAddr s →
        (x.rejected = true → answers (crc [2, 0, 0]) x)
        ∧ (x.rejected = false → x.reply = none → answers (crc [0, 0, 0]) x)
        ∧ (x.rejected = false → x.reply = some rep → answers (crc (1 :: leB 2 rep.length ++ rep))
            (if rep.length + 7 ≤ len then { x with reply := none, busy := false } else x)))
      ∧ (x.busy = false → rejects (.sidebandBusTimeout true))
      ∧ exec (.sidebandBusTimeout false) s = .next s)
    ∧ (x.reply ≠ none → exec .sidebandReplyDiscard s = .next (
        if x.readyAt + 1000000 ≤ s.tick then { s with side := { x with reply := none, busy := false } } else s))
    ∧ exec .jtagTapReset s = .next { s with jtag.ir := 1 }
    ∧ (ir = 0 ∨ ir = 1 ∨ ir = 2 ∨ ir = 0x1F → exec (.jtagVendorInstruction ir a) s = .refused (.illFormed "JTAG_VENDOR_INSTRUCTION"))
    ∧ (tapOn s = true →
      exec (.jtagExtest cells) s = .next { s with jtag := { s.jtag with ir := 0, bsr := cells } }
      ∧ exec .jtagIdcode s = .next { s with jtag := { s.jtag with ir := 1, dr := 0xB5120A6B } }
      ∧ exec .jtagBypass s = .next { s with jtag := { s.jtag with ir := 0x1F, dr := 0 } }
      ∧ exec (.jtagSamplePreload pins cells) s = .next { s with jtag := { s.jtag with ir := 2, dr := pins.zeroExtend 32, bsr := cells } }
      ∧ (s.pwr.released = true → 3 ≤ ir.toNat → ir.toNat ≤ 30 →
        (s.vtf.debug = 0 → vendor a { s with jtag := { s.jtag with ir := ir, dr := 0 } })
        ∧ (s.vtf.debug = 1 → (0x1800 ≤ port.toNat ∧ port.toNat ≤ 0x1FFF → vendor (.readX core port) { s with jtag := { s.jtag with ir := ir, dr := 0 } })
          ∧ vendor .testMode { s with jtag := { s.jtag with ir := ir, dr := 0 } })
        ∧ (1 ≤ s.vtf.debug → s.vtf.debug ≤ 2 →
          vendor (.haltCore core) (updCore on core.val fun y => { y with halted := true, stepOne := false })
          ∧ vendor (.resumeCore core) (updCore on core.val fun y => { y with halted := false, stepOne := false })
          ∧ vendor (.stepCore core) (updCore on core.val fun y => { y with stepOne := y.halted })
          ∧ vendor (.writeD dom da 8 v) on)
        ∧ (s.vtf.debug = 2 → vendor (.writeX core port v) (portEffect core.val (domOf on core.val) port.toNat v on)
          ∧ ∃ t, vendor .testMode t ∧ t.pwr.phase = .test ∧ t.jtag.test = true)))

/-! ## Fault events -/

/-- R187, R496, R498 to R507: what the collector takes from its rails: a latch with its history entry, a wire that breaks and recovers, the
timers that run out, and the entropy source.
Where the specification leaves a point open, the model's choice of log 49 stands. -/
def Obligations.FaultLatchesAndTimers : Prop :=
  ∀ (s : State) (src : Nat) (det : BitVec 32) (on : Bool),
    let f := s.flt
    collectorOn s = true →
    (1 ≤ src → src < 80 → f.masked.getLsbD src = false →
      (f.latch.getLsbD src = true → exec (.faultLatch src det false) s = .next { s with flt.dup := satInc f.dup })
      ∧ (f.latch.getLsbD src = false → ∃ t, exec (.faultLatch src det on) s = .next t
        ∧ (∀ n, t.flt.latch.getLsbD n = (decide (n = src) || f.latch.getLsbD n))
        ∧ t.flt.ack.getLsbD src = false ∧ t.flt.dup = f.dup
        ∧ (∀ n, t.flt.present.getLsbD n = (f.present.getLsbD n || (on && decide (n = src))))
        ∧ (f.hist.length < 32 → t.flt.hist = f.hist ++ [{ ets := s.dtime, src := src, cls := srcClass src, det := det }] ∧ t.flt.hovf = f.hovf)
        ∧ (32 ≤ f.hist.length → srcClass src ≠ .fa → t.flt.hist = f.hist ∧ t.flt.hovf = true)
        ∧ t.flt.first = (if f.first = none then some { ets := s.dtime, src := src, cls := srcClass src, det := det } else f.first)
        ∧ (vAt f.pol src = 0 → t.pwr = s.pwr ∧ t.flt.tmrUc = f.tmrUc ∧ t.flt.tmrCe = f.tmrCe ∧ t.flt.tmrFa = f.tmrFa)
        ∧ (vAt f.pol src = 1 → srcClass src = .uc → f.tmrUc = none →
            t.pwr = s.pwr ∧ t.flt.tmrUc = some { due := s.tick + 10 * 2 ^ f.kuc.toNat, src := src })
        ∧ (vAt f.pol src = 2 → s.pwr.seq = .none → t.pwr.seq = .manifest ∧ t.pwr.fatal = true ∧ t.pwr.phase = .halt ∧ t.flt.legacy = true)))
    ∧ (1 ≤ src → src < 80 → f.masked.getLsbD src = true → exec (.faultLatch src det false) s = .next s)
    ∧ (1 ≤ src → src < 96 → f.masked.getLsbD src = false → f.masked.getLsbD 0 = false → f.latch.getLsbD 0 = false →
        ∃ t, exec (.brokenWire src on) s = .next t
        ∧ (∀ n, t.flt.masked.getLsbD n = (decide (n = src) || f.masked.getLsbD n)) ∧ t.flt.latch.getLsbD 0 = true
        ∧ (f.hist.length < 32 → t.flt.hist.getLast? = some
          { ets := s.dtime, src := 0, cls := .uc, det := BitVec.ofNat 32 (src + if on then 0x300 else 0) }))
    ∧ (src < 96 → f.masked.getLsbD src = true →
      (f.present.getLsbD src = false → f.force.getLsbD src = false → ∃ t, exec (.brokenWireRecovered src) s = .next t
        ∧ (∀ n, t.flt.masked.getLsbD n = (f.masked.getLsbD n && decide (n ≠ src))) ∧ t.flt.latch = f.latch ∧ OnlyIn [.flt] s t)
      ∧ (f.present.getLsbD src = true → ∃ t, exec (.brokenWireRecovered src) s = .next t ∧ t.flt.latch.getLsbD src = true))
    ∧ (∀ e, f.tmrFa = some e →
      (s.tick < e.due → exec (.escalationTimerExpiry 2) s = .next s)
      ∧ (e.due ≤ s.tick → s.pwr.seq = .none → ∃ t, exec (.escalationTimerExpiry 2) s = .next t ∧ t.flt.esc = true ∧ t.flt.escSrc = e.src
        ∧ t.flt.tmrFa = none ∧ t.pwr.seq = .manifest ∧ t.pwr.fatal = true ∧ t.pwr.phase = .halt ∧ t.flt.latch = f.latch))
    ∧ (∀ e n rest, f.tmrUc = some e → e.due ≤ s.tick → timedOpen f .uc = n :: rest → s.pwr.seq = .none →
        ∃ t, exec (.escalationTimerExpiry 1) s = .next t ∧ t.flt.esc = true ∧ t.flt.escSrc = n ∧ t.flt.tmrUc = none ∧ t.pwr.fatal = true)
    ∧ (∀ e n rest, f.tmrCe = some e → e.due ≤ s.tick → timedOpen f .ce = n :: rest → s.pwr.seq = .none →
        ∃ t, exec (.escalationTimerExpiry 0) s = .next t ∧ t.flt.esc = true ∧ t.flt.escSrc = n ∧ t.flt.tmrCe = none ∧ t.pwr.fatal = true)
    ∧ (∀ d, f.tmrTherm = some d →
      (s.tick < d → exec .thermHaltTimerExpiry s = .next s)
      ∧ (d ≤ s.tick → s.pwr.seq = .none → ∃ t, exec .thermHaltTimerExpiry s = .next t ∧ t.flt.esc = true ∧ t.flt.escSrc = 7
        ∧ t.flt.tmrTherm = none ∧ t.pwr.fatal = true ∧ t.pwr.phase = .halt))
    ∧ (∃ t, exec (.entropyHealthFail on) s = .next t ∧ t.vtf.drbgOk = false ∧ t.vtf.entFail = true
        ∧ (f.masked.getLsbD 8 = false → t.flt.latch.getLsbD 8 = true))

/-- R501, R504, R507, R511, R517, R518, R521, R522: the fault ports that act: an acknowledgement, a clearing of latches, a capture of the history, and a
forced source. -/
def Obligations.FaultPortsAct : Prop :=
  ∀ (s : State) (k : Fin 6) (v : BitVec 16),
    let f := s.flt
    let n := v.toNat % 128
    let sel := v.toNat % 64
    let bit (i : Nat) : Bool := decide (i / 16 = k.val) && v.getLsbD (i % 16)
    collectorOn s = true →
    (n < 96 → f.latch.getLsbD n = true → ∃ t, exec (.fltAckWrite v) s = .next t
        ∧ (∀ i, t.flt.ack.getLsbD i = (decide (i = n) || f.ack.getLsbD i)) ∧ t.flt.latch = f.latch ∧ t.flt.hist = f.hist
        ∧ (timedOpen t.flt .uc = [] → t.flt.tmrUc = none) ∧ (timedOpen t.flt .uc ≠ [] → t.flt.tmrUc = f.tmrUc)
        ∧ t.flt.tmrFa = f.tmrFa ∧ OnlyIn [.flt] s t)
    ∧ (96 ≤ n ∨ f.latch.getLsbD n = false → exec (.fltAckWrite v) s = .next s)
    ∧ (∃ t, exec (.faultLatchClear k v) s = .next t ∧ ∀ i, i < 96 →
        (f.present.getLsbD i = false → f.force.getLsbD i = false → t.flt.latch.getLsbD i = (f.latch.getLsbD i && !bit i))
        ∧ (f.present.getLsbD i = true → f.masked.getLsbD i = false → t.flt.latch.getLsbD i = f.latch.getLsbD i))
    ∧ exec (.fltHselWrite v) s = .next { s with flt := { f with
        hsel := BitVec.ofNat 6 sel
        hdata := if sel < 32 then f.hist[sel]? else if sel = 32 then f.first else none
        hist := if v.getLsbD 14 then [] else f.hist
        hovf := f.hovf && !v.getLsbD 14
        first := if v.getLsbD 15 then none else f.first } }
    ∧ (∃ t, exec (.fltForceWrite k v) s = .next t
        ∧ (∀ i, i < 96 → t.flt.force.getLsbD i = (decide (i ≠ 0) && (if i / 16 = k.val then v.getLsbD (i % 16) else f.force.getLsbD i)))
        ∧ ∀ i, i < 96 → t.flt.latch.getLsbD i =
          (f.latch.getLsbD i || (bit i && decide (1 ≤ i) && decide (i < 80) && !f.force.getLsbD i && !f.masked.getLsbD i)))

/-! ## Power states, timers and register ports -/

/-- R213, R255, R283, R314, R533 to R538, R550: IDLE, the drained entries into REST and OFF, and the wakes. A wake in RUN does nothing, and one that comes
while an entry is under way after its reply is held.
Where the specification leaves a point open, the model's choice of log 42 stands. -/
def Obligations.PowerStatesEntered : Prop :=
  ∀ (s : State) (j : Nat) (cause : BitVec 4),
    let p := s.pwr
    let quietLink := s.link.ls ≠ .active ∧ s.link.ls ≠ .recovery ∧ s.link.ls ≠ .rate
    exec .debugChallengeExpiry s = .next { s with vtf.chals := s.vtf.chals.filter fun x => decide (s.tick < x.due) }
    ∧ (alive s = true → drained s = true → (∀ k : Nat, vAt s.arr.moves k = none) →
      (p.entry = some (.rest, j + 1) → ∃ t, exec .restEntryDrained s = .next t ∧ (∀ x, x ∈ t.eng.jobs → x.id ≠ j)
        ∧ (t.pwr.entry = some (.rest, 0) ∨ t.pwr.entry = none)
        ∧ (quietLink → p.heldWake = none → t.pwr.pstate = .rest ∧ t.pwr.entry = none ∧ t.link.ls = .disabled
          ∧ ∀ k : Fin 4, (tileOf t k.val).powered = 0))
      ∧ (p.entry = some (.off, j + 1) → ∃ t, exec .offEntryDrained s = .next t ∧ (∀ x, x ∈ t.eng.jobs → x.id ≠ j)
        ∧ t.pwr.phase = .halt ∧ t.oas.charging = false
        ∧ (s.store.mounted = true → t.prev.clean = true ∧ t.prev.power = false
          ∧ (s.vtf.life = .owned → t.prev.ckpt = some (vAt s.vtf.counters 7 + 1) ∧ vAt t.vtf.counters 7 = vAt s.vtf.counters 7 + 1))
        ∧ (quietLink → t.pwr.pstate = .off ∧ t.pwr.entry = none ∧ t.link.ls = .disabled)))
    ∧ (drained s = false → exec .restEntryDrained s = .next s ∧ exec .offEntryDrained s = .next s)
    ∧ (p.entry = none →
      (p.pstate = .doze ∨ p.pstate = .rest →
        cause = 1 ∨ (cause = 2 ∧ s.side.busy = true) ∨ (cause = 3 ∧ faultIrq s = true) ∨ (cause = 4 ∧ slotFailing s = true ∧ p.pstate = .rest) →
        ∃ t, exec (.wakeEvent cause) s = .next t ∧ t.pwr.pstate = .run ∧ t.pwr.wakeCause = cause
          ∧ t.pwr.wakeFrom = decide (p.pstate = .rest) ∧ OnlyIn [.pwr, .cache, .link] s t
          ∧ ∀ k : Fin 4, (tileOf t k.val).powered = (if p.pstate = .rest then (tileOf s k.val).en else (tileOf s k.val).preDoze))
      ∧ (p.pstate = .run → exec (.wakeEvent cause) s = .next s))
    ∧ (∀ x, p.entry = some (x, 0) → p.heldWake = none → exec (.wakeEvent 1) s = .next { s with pwr.heldWake := some 1 })
    ∧ (alive s = true → p.pstate = .run → p.entry = none → p.idleSince + 100 ≤ s.tick →
        exec .idleEntry s = .next (if quiet s then { s with pwr.pstate := .idle } else s))
    ∧ (p.pstate = .idle → exec .idleExit s = .next { s with pwr := { p with pstate := .run, idleSince := s.tick } })

/-- R11, R216, R217, R483, R492, R539, R548, R550, R552, R560: writes and reads of single registers; the watchdog, the timebase, the counter
window, the mirror of the host window and the patches. And the tick that an empty queue stands for (log 2, the model's choice). -/
def Obligations.TimersAndPorts : Prop :=
  ∀ (s : State) (core : Fin 16) (k : BitVec 4) (v : BitVec 16) (w : BitVec 32) (m : Fin 128),
    let p := s.pwr
    let due := some (s.tick + 1000 * 2 ^ k.toNat)
    let u := s.ucode
    let port (a : BitVec 16) (t : State) : Prop := exec (.registerWrite false core a w) s = .next t
    (s.pending = [] → ∃ t, step s = .next t ∧ t.tick = s.tick + 1 ∧ t.pending = []
      ∧ t.dtime = (if (p.vmainHigh = true ∨ p.seq ≠ .none) ∧ p.seq ≠ .off ∧ p.pstate ≠ .off then s.dtime + 1 else s.dtime)
      ∧ t.store = s.store ∧ t.eng = s.eng ∧ t.vtf = s.vtf ∧ t.link = s.link ∧ t.oas = s.oas ∧ t.flt = s.flt)
    ∧ (p.released = true →
      exec (.watchdogArm core k) s = .next (if p.wdEn then { s with pwr.wdK := k }
        else { s with pwr := { p with wdK := k, wdEn := true, wdCore := core.val, wdDue := due } })
      ∧ exec (.watchdogKick core k) s = .next (if p.wdEn then { s with pwr := { p with wdK := k, wdDue := due } } else { s with pwr.wdK := k })
      ∧ exec .timeCapture s = .next { s with tbx.tcap := BitVec.ofNat 64 s.dtime }
      ∧ exec (.counterSelect v) s = .next { s with
          vtf := { s.vtf with csel := v.setWidth 5, cval := BitVec.ofNat 64 (vAt s.vtf.counters (v.toNat % 32)) } }
      ∧ (s.tbx.hung.getLsbD 0 = false → exec (.hostLinkMirrorCapture core m) s = .next (updCore s core.val fun x => { x with
          mirror := BitVec.ofNat 32 (hwRead (4 * m.val) s) }))
      ∧ (s.tbx.hung.getLsbD 0 = true → exec (.hostLinkMirrorCapture core m) s = .next s)
      ∧ exec .wakeCauseRead s = .next { s with pwr := { p with wakeCause := 0, wakeFrom := false } }
      ∧ exec (.patchWordWrite v) s = .next (if u.lock then s else { s with
          ucode := { u with paddr := u.paddr + 1, patch := put u.paddr.toNat (withParity (u.pdatah ++ v)) u.patch } })
      ∧ (p.seq = .none →
        (u.lock = false → ∃ t, exec (.patchLock false) s = .next t ∧ t.ucode = { u with lock := true } ∧ OnlyIn [.ucode, .vtf] s t)
        ∧ (u.lock = true → exec (.patchLock false) s = .next s)
        ∧ (p.phase = .startup → ∃ t, exec (.patchLock true) s = .next t ∧ t.ucode.lock = true ∧ t.ucode.patch = u.patch
          ∧ t.pwr = { p with phase := .recovery })
        ∧ (p.phase ≠ .startup → exec (.patchLock true) s = .next s))
      ∧ exec (.registerWrite true core 0x010 w) s = .next { s with oas.cwait := w.toNat / 2 ^ 20 }
      ∧ exec (.registerWrite true core 0x02C w) s = .next s
      ∧ port 0x0008 (updCore s core.val fun x => { x with ien := w.setWidth 8 &&& 0x7E })
      ∧ port 0x1402 { s with wadi.brCnt := 0 }
      ∧ port 0x280C { s with flt.dup := 0 }
      ∧ (s.tbx.hung.getLsbD 2 = false → port 0x3401 { s with side.rejCnt := 0 })
      ∧ port 0x4000 s
      ∧ port 0x4001 { s with pwr.dozeMask := w.setWidth 8 }
      ∧ port 0x5000 { s with tbx.unimp := satInc s.tbx.unimp })

/-! ## Caches, translation buffers and the seal engine -/

/-- R364, R442 to R444, R455, R473: maintenance by address takes the line of a word in every tile: a clean leaves it without dirty words, an invalidate
discards it; a page that cannot be translated is skipped, a reserved mode starts nothing, a set/way operation leaves an unpowered way alone, and GO is
ignored while BUSY is 1. Ways leave allocation at once, are swept, and come back empty. An invalidation takes what it names out of every core's TLB,
under a DOMAIN capability with TABLES for the domain, or for domain 0; without authority it raises Capability Fault.
Where the specification leaves a point open, the model's choice of log 25 stands. -/
def Obligations.CachesAndTranslationBuffers : Prop :=
  (∀ (s t1 : State) (m : MopArgs) (tile : Fin 4) (ways : BitVec 8) (tr : Trans) (la : LAddr) (off : Nat),
     let c := m.core.val
     let s0 := { s with cache.busy := true }
     let a := s.cache.maddr.toNat
     let rows := [Instr.cacheClean, .cacheInvalidate, .cacheCleanInvalidate]
     let x := tileOf s tile.val
     exec .cacheMaintenanceComplete s = .next { s with cache.busy := false }
     ∧ (s.pwr.released = true →
       (s.cache.busy = true → ∀ row, row ∈ rows → exec (row m) s = .next s)
       ∧ (s.cache.busy = false → m.mode = 3 → ∀ row, row ∈ rows → ∃ t, exec (row m) s = .next t ∧ t.cache.err = true ∧ t.cache.busy = false
         ∧ t.cache.tiles = s.cache.tiles ∧ OnlyIn [.cache] s t)
       ∧ (s.cache.busy = false → m.mode = 0 → translate c (domOf s c) a false s0 = .ok (tr, t1) → tr.se = false →
         physLine tr.phys = some (la, off) →
         (∃ t, exec (.cacheClean m) s = .next t ∧ t.cache.busy = true
           ∧ ∀ (k : Fin 4) l, findLine (tileOf t k.val) la = some l → l.dirty = false)
         ∧ (∃ t, exec (.cacheInvalidate m) s = .next t ∧ t.cache.busy = true ∧ t.mem = t1.mem ∧ t.arr = t1.arr
           ∧ (∀ k : Fin 4, findLine (tileOf t k.val) la = none)
           ∧ ∀ (k : Fin 4) lb, lb ≠ la → findLine (tileOf t k.val) lb = findLine (tileOf t1 k.val) lb)
         ∧ ∃ t, exec (.cacheCleanInvalidate m) s = .next t ∧ t.cache.busy = true ∧ ∀ k : Fin 4, findLine (tileOf t k.val) la = none)
       ∧ (∀ e, s.cache.busy = false → m.mode = 0 → translate c (domOf s c) a false s0 = .error e → isMapErr e.det = false → ∀ row, row ∈ rows →
         ∃ t, exec (row m) s = .next t ∧ t.cache.skip = true ∧ t.cache.busy = true ∧ t.cache.tiles = s.cache.tiles ∧ OnlyIn [.cache] s t)
       ∧ (s.cache.busy = false → m.mode = 2 → (tileOf s m.tile.toNat).powered.getLsbD (a / 65536 % 8) = false → ∀ row, row ∈ rows →
         ∃ t, exec (row m) s = .next t ∧ t.cache.busy = true ∧ t.cache.tiles = s.cache.tiles ∧ OnlyIn [.cache] s t)
       ∧ exec (.cacheWayPowerDown tile ways) s = .next (updTile s tile.val fun y => { y with
           en := y.en &&& ~~~ways, sweep := y.sweep ||| (y.en &&& ways &&& y.powered), upAfter := y.upAfter &&& ~~~(y.en &&& ways) })
       ∧ exec (.cacheWayPowerUp tile ways) s = .next (updTile s tile.val fun y => { y with
           en := y.en ||| ways, powered := y.powered ||| (ways &&& ~~~y.en &&& ~~~y.sweep)
           upAfter := y.upAfter ||| (ways &&& ~~~y.en &&& y.sweep) }))
     ∧ (x.sweep = 0 → exec (.cacheWaySweepComplete tile) s = .next s)
     ∧ (x.sweep ≠ 0 → s.pwr.entry = none → ∃ t, exec (.cacheWaySweepComplete tile) s = .next t ∧ (tileOf t tile.val).sweep = 0
         ∧ (tileOf t tile.val).powered = (x.powered &&& ~~~x.sweep) ||| (x.upAfter &&& x.sweep)
         ∧ ∀ l, l ∈ (tileOf t tile.val).lines → x.sweep.getLsbD l.way = false))
  ∧ (∀ (s : State) (core : Fin 16) (dom : BitVec 8),
     let c := core.val
     let x := coreOf s c
     let may (d : Nat) : Prop := holdsCap x (capPort 1 0xC08) = true ∧ holdsCap x (capDomain 1 d) = true
     let a := s.mmu.iaddr.toNat
     let takes (i : Instr) (d : Nat) (p : TlbEntry → Bool) : Prop :=
       (may d → s.mmu.busy = true → exec i s = .next s)
       ∧ (may d → s.mmu.busy = false → ∃ t, exec i s = .next t ∧ t.mmu.busy = true ∧ OnlyIn [.mmu, .cores] s t
         ∧ ∀ k : Fin 16, coreOf t k.val = { coreOf s k.val with tlb := (coreOf s k.val).tlb.filter fun e => !p e })
       ∧ (holdsCap x (capPort 1 0xC08) = false → exec i s = .next (trapAt c x.ia.toNat 0x29 (capFault 0xC08 1) s))
       ∧ (holdsCap x (capPort 1 0xC08) = true → holdsCap x (capDomain 1 d) = false →
           exec i s = .next (trapAt c x.ia.toNat 0x29 (capFault 0xC08 6) s))
     exec .tlbInvalidationComplete s = .next { s with mmu.busy := false }
     ∧ (able c s = true →
       takes (.tlbInvalidateDomain core dom) dom.toNat (fun e => decide (e.dom = dom))
       ∧ takes (.tlbInvalidateAddress core dom) dom.toNat (fun e => tlbCovers dom.toNat a e)
       ∧ takes (.tlbInvalidateAll core) 0 (fun _ => true)
       ∧ takes (.tlbInvalidateSegno core) 0 (fun e => maps (a % 2 ^ 22) e)))

/-- R563 to R567: the seal engine reads its operands at GO, and starts only under a PORT capability and a KEY capability with the operation's
right; it ends with an operand error, an access error, or the result: bytes written, or whether the signature verified.
Where the specification leaves a point open, the model's choice of log 26 stands. -/
def Obligations.SealEngineOperations : Prop :=
  ∀ (s t u : State) (core : Fin 16) (e : Nat) (key bs sig : List Byte),
    let c := core.val
    let x := coreOf s c
    let r := x.sealR
    let rows : List ((Fin 16 → Instr) × Nat) := [(.sealXtsEncrypt, 1), (.sealXtsDecrypt, 2), (.sealChainExtend, 3), (.sealVerify, 4)]
    let ends (ok : Bool) (err : Nat) (v : State) : Prop := exec (.sealOperationComplete core) s = .next (updSeal v c fun y => { y with
      busy := false, ok := ok, err := BitVec.ofNat 4 err, runOp := 0 })
    let d := r.runDom.toNat
    let n := runLen r
    (able c s = true → ∀ row, row ∈ rows →
      (sealMay s c row.2 = false → exec (row.1 core) s = .next (trapAt c x.ia.toNat 0x29 (capFault 0x1800 5) s))
      ∧ (sealMay s c row.2 = true → exec (row.1 core) s = .next (updSeal s c fun y => if r.busy then { y with op := BitVec.ofNat 3 row.2 }
        else { y with busy := true, ok := false, err := 0, runOp := row.2, runArgs := y.args, runDom := (curLevel x).dom
                      op := BitVec.ofNat 3 row.2 })))
    ∧ (r.busy = false → exec (.sealOperationComplete core) s = .next s)
    ∧ (r.busy = true → 1 ≤ r.runOp → r.runOp ≤ 4 →
      (n = 0 ∨ 32768 < n ∨ (r.runOp ≤ 2 ∧ n % 8 ≠ 0) ∨ (r.runOp ≤ 3 ∧ 16 ≤ runArg r 0) → ends false 2 s)
      ∧ (sealArgsOk r = true →
        (r.runOp ≤ 2 →
          (sealKey s r = none → ends false 5 s)
          ∧ (sealKey s r = some key →
            (sealRead c d (runSrc r) n s = .err e t → ends false e t)
            ∧ (sealRead c d (runSrc r) n s = .ok bs t →
              sealWrite c d (runDst r) (padTo (2 * n) ((if r.runOp = 1 then Config.xtsEnc else Config.xtsDec) key (runTweak r) bs)) t = .ok () u →
              ends false 0 u)))
        ∧ (r.runOp = 3 → sealRead c d (runDst r) 16 s = .ok key t → ∀ v, sealRead c d (runSrc r) n t = .ok bs v →
            sealWrite c d (runDst r) (Config.sha256 (key ++ bs)).toList v = .ok () u → ends false 0 u)
        ∧ (r.runOp = 4 → sealRead c d (runSrc r) n s = .ok bs t → sealRead c d (runDst r) 32 t = .ok sig u → u.vtf.owner = some key →
            ends (Config.ecdsaVerify key bs sig) 0 u)))

/-! ## Reset, and what every step keeps -/

/-- R30, R107, R108, R112, R146 to R151, R188, R205, R240, R322, R325, R359, R366 to R369, R433, R435, R463 to R467, R497, R515, R516, R523, R524, R527,
R547, R548: the state right after a power-on reset, where the specification gives its values. -/
def Obligations.ResetState : Prop :=
  let s := State.reset
  let o := s.oas
  let f := s.flt
  (s.pending = [] ∧ (∀ q : Fin 64, queueOf s q.val = []) ∧ s.eng.jobs = [] ∧ s.eng.trains = [])
  ∧ (s.pwr.phase = .startup ∧ s.pwr.kind = .por ∧ s.pwr.pstate = .run ∧ s.pwr.dozeMask = 0xFE ∧ s.pwr.wdEn = false ∧ s.pwr.wdK = 0
    ∧ s.pwr.wakeCause = 0 ∧ s.pwr.released = false)
  ∧ (s.vtf.life = .unowned ∧ s.vtf.sessions = [] ∧ s.vtf.debug = 0 ∧ s.vtf.authCnt = 0 ∧ CountersAtLeast (fun _ => 0) s)
  ∧ (s.store.streams = [] ∧ s.store.staging = [] ∧ s.store.mounted = false ∧ s.arr.map = [] ∧ s.arr.segs = [] ∧ s.arr.media = .normal
    ∧ s.arr.wlThr = 0x40 ∧ s.arr.pause = false)
  ∧ (∀ d : Fin 8, let x := dieOf s d.val
    x.auto = true ∧ x.period = 0x07 ∧ x.recalThr = 0x0C ∧ x.scrubThr = 0x14 ∧ x.margMin = 0x3F ∧ x.ceCnt = 0 ∧ x.ucCnt = 0
      ∧ ∀ k : Fin 8, vAt x.hist k.val = 0)
  ∧ (o.chgEn = true ∧ o.pwr = 1 ∧ o.mper = 6 ∧ o.warnArray = false ∧ o.budget = 0 ∧ o.outst = 0 ∧ o.cwait = 0)
  ∧ (f.latch = 0 ∧ f.hist = [] ∧ f.first = none ∧ f.force = 0 ∧ f.dup = 0 ∧ f.fthr = 1 ∧ f.ithr = 0 ∧ f.icore = 0
    ∧ f.kfa = 0 ∧ f.kuc = 0x0A ∧ f.kce = 0x11 ∧ (∀ n : Fin 96, vAt f.pol n.val =
      if n.val = 0 ∨ n.val = 1 ∨ n.val = 6 ∨ n.val = 7 ∨ n.val = 19 ∨ (24 ≤ n.val ∧ n.val ≤ 43) then 1 else 0))
  ∧ (s.link.rateCap = 2 ∧ s.link.hirqEn = false ∧ s.link.fthr = 1 ∧ s.link.msgEn = 0xF ∧ s.link.msgp = 0 ∧ s.link.replay = [])
  ∧ (s.boot.isOpen = true ∧ s.boot.ready = false ∧ s.boot.addr4 = false ∧ s.boot.earlyCnt = 0 ∧ s.boot.keep = false)
  ∧ (∀ c : Fin 16, let x := coreOf s c.val
    x.st = 0xE000 ∧ x.vbase = 0x0003E000 ∧ x.ien = 0 ∧ x.sync = [] ∧ (vAt x.lv 7).caps = rootCaps
      ∧ ∀ m : Fin 7, (vAt x.lv m.val).caps = Vector.replicate 16 Cap.reset)
  ∧ (∀ t : Fin 4, let x := tileOf s t.val
    x.lines = [] ∧ x.lock = 0 ∧ x.en = 0xFF ∧ ∀ k : Fin 7, vAt x.wmask k.val = 0xFF)
  ∧ (s.mmu.dsel = 0 ∧ s.mmu.busy = false ∧ (∀ d : Fin 256, (descOf s d.val).v = false) ∧ s.cache.busy = false)
  ∧ (s.ucode.lock = false ∧ s.ucode.user = none ∧ s.wadi.bindings = [] ∧ s.jtag.ir = 1)
  ∧ Memory.wf (0 : Byte) s.mem.ispace = true ∧ Memory.wf sramUnlisted s.mem.sram = true

/-- R205: no command, event or reset lowers a monotonic counter, SANITIZE included: a bound that every counter meets is met after every step. -/
def Obligations.NoStepLowersACounter : Prop :=
  ∀ (v : Nat → Nat) (s t : State), CountersAtLeast v s → step s = .next t → CountersAtLeast v t
end

