-- ==== Sys2Proof/Laws/Core.lean ====
section
/-! SUPPORT. Lemmas about one core's state and about what an instruction does once its body has answered. -/
namespace Sys2Proof.Machine
open Sys2Proof

theorem vAt_vSet_same {α : Type} [Inhabited α] {n : Nat} (v : Vector α n) (i : Nat) (a : α) (h : i < n) :
    vAt (vSet v i a) i = a := by
  simp [vAt, vSet, h]

theorem vAt_vSet_other {α : Type} [Inhabited α] {n : Nat} (v : Vector α n) (i j : Nat) (a : α) (h : i ≠ j) :
    vAt (vSet v i a) j = vAt v j := by
  simp [vAt, vSet, h]

theorem vSet_vSet {α : Type} {n : Nat} (v : Vector α n) (i : Nat) (a b : α) : vSet (vSet v i a) i b = vSet v i b := by
  simp [vSet]

theorem vSet_vAt {α : Type} [Inhabited α] {n : Nat} (v : Vector α n) (i : Nat) : vSet v i (vAt v i) = v := by
  ext j hj
  simp only [vSet, vAt, Vector.getElem_setIfInBounds]
  split
  · subst_vars; simp [hj]
  · rfl

theorem vAt_vUpd_same {α : Type} [Inhabited α] {n : Nat} (v : Vector α n) (i : Nat) (f : α → α) (h : i < n) :
    vAt (vUpd v i f) i = f (vAt v i) := vAt_vSet_same v i _ h

theorem vAt_vUpd_other {α : Type} [Inhabited α] {n : Nat} (v : Vector α n) (i j : Nat) (f : α → α) (h : i ≠ j) :
    vAt (vUpd v i f) j = vAt v j := vAt_vSet_other v i j _ h

theorem vUpd_vUpd {α : Type} [Inhabited α] {n : Nat} (v : Vector α n) (i : Nat) (f g : α → α) (h : i < n) :
    vUpd (vUpd v i f) i g = vUpd v i (fun a => g (f a)) := by
  simp [vUpd, vSet_vSet, vAt_vSet_same, h]

theorem vUpd_id {α : Type} [Inhabited α] {n : Nat} (v : Vector α n) (i : Nat) (f : α → α) (h : f (vAt v i) = vAt v i) :
    vUpd v i f = v := by
  simp [vUpd, h, vSet_vAt]

theorem coreOf_updCore (s : State) (c : Nat) (f : Core → Core) (h : c < 16) : coreOf (updCore s c f) c = f (coreOf s c) :=
  vAt_vUpd_same _ _ _ h

theorem coreOf_updCore_other (s : State) (c d : Nat) (f : Core → Core) (h : c ≠ d) : coreOf (updCore s c f) d = coreOf s d :=
  vAt_vUpd_other _ _ _ _ h

theorem updCore_updCore (s : State) (c : Nat) (f g : Core → Core) (h : c < 16) :
    updCore (updCore s c f) c g = updCore s c (fun x => g (f x)) := by
  simp [updCore, vUpd_vUpd, h]

theorem updCore_id (s : State) (c : Nat) (f : Core → Core) (h : f (coreOf s c) = coreOf s c) : updCore s c f = s := by
  have : vUpd s.cores c f = s.cores := vUpd_id _ _ _ h
  simp [updCore, this]

theorem lvlOf_lt (x : Core) : lvlOf x < 8 := by
  simp only [lvlOf, bits]
  omega

theorem curLevel_onLevel (x : Core) (g : LevelSt → LevelSt) : curLevel (onLevel g x) = g (curLevel x) :=
  vAt_vUpd_same _ _ _ (lvlOf_lt x)

theorem updLevel_eq (s : State) (c : Nat) (g : LevelSt → LevelSt) : updLevel s c g = updCore s c (onLevel g) := rfl

/-- What an instruction answers whose body answers. -/
theorem insn_next (e : Enc) (mn : String) (f : Fetch) (body : Ins → State → Res Flow) (s t : State) (fl : Flow)
    (h : Ready e f s) (hb : body (insOf e f s) s = .ok fl t) :
    insn e mn f body s =
      .next (retire (insOf e f s) (curLevel (coreOf s f.core.val)).bank (curLevel (coreOf s f.core.val)).ssp fl t) := by
  obtain ⟨⟨h1, h2, h3, h4, h6⟩, h7⟩ := h
  have hid : updCore s f.core.val (fun x => { x with running := true }) = s := updCore_id _ _ _ (by rw [← h3])
  have h6' : decodeExc e f.pre (f.imm.toNat % 256 ^ immLen e f.pre) (coreOf s f.core.val) = none := h6
  have hg : (guardOf f.pre (curLevel (coreOf s f.core.val)).preds
      || decide ((curLevel (coreOf s f.core.val)).resume = some (coreOf s f.core.val).ia)) = true := by simpa using h7
  simp only [insn, h1, h2, h4, whenDue, runInsn, hid, h6', hg]
  simp only [insOf, immOf, nextIa] at hb
  simp [hb, insOf, immOf, nextIa]

/-- An instruction whose body answers goes on in sequence. -/
theorem insn_seq (e : Enc) (mn : String) (f : Fetch) (body : Ins → State → Res Flow) (s t : State)
    (h : Ready e f s) (hb : body (insOf e f s) s = .ok .seq t) :
    insn e mn f body s = .next (seqFrom e f s t) := by
  rw [insn_next e mn f body s t .seq h hb]
  simp only [retire, insOf, seqFrom, updLevel_eq, updCore_updCore _ _ _ _ f.core.isLt]
  cases (coreOf t f.core.val).slot <;> rfl

/-- A branch whose body answers leaves its delay slot to be executed. -/
theorem insn_branch (e : Enc) (mn : String) (f : Fetch) (body : Ins → State → Res Flow) (s t : State) (a : Nat)
    (h : Ready e f s) (hb : body (insOf e f s) s = .ok (.branch a) t) (hs : (coreOf t f.core.val).slot = none) :
    insn e mn f body s = .next (branchFrom e f s t a) := by
  rw [insn_next e mn f body s t (.branch a) h hb]
  simp only [retire, insOf, hs, branchFrom, updLevel_eq, updCore_updCore _ _ _ _ f.core.isLt]
  rfl

/-- An instruction whose body sends execution elsewhere. -/
theorem insn_goto (e : Enc) (mn : String) (f : Fetch) (body : Ins → State → Res Flow) (s t : State) (a : Nat)
    (h : Ready e f s) (hb : body (insOf e f s) s = .ok (.goto a) t) (hs : (coreOf t f.core.val).slot = none) :
    insn e mn f body s = .next (gotoFrom f t a) := by
  rw [insn_next e mn f body s t (.goto a) h hb]
  simp only [retire, insOf, hs, gotoFrom, updLevel_eq, updCore_updCore _ _ _ _ f.core.isLt]
  rfl

/-- An instruction whose body has itself set level and address. -/
theorem insn_moved (e : Enc) (mn : String) (f : Fetch) (body : Ins → State → Res Flow) (s t : State)
    (h : Ready e f s) (hb : body (insOf e f s) s = .ok .moved t) : insn e mn f body s = .next (movedFrom f t) := by
  rw [insn_next e mn f body s t .moved h hb]
  simp only [retire, insOf, movedFrom]

/-- The inputs of an instruction are there. -/
theorem need_ok (c n : Nat) (s : State) (h : n ≤ (bankOf s c).length) : need c n s = .ok ((bankOf s c).take n) s := by
  simp [need, h]

/-- There is room for the results of an instruction. -/
theorem replaceTop_ok (c n : Nat) (news : List Word) (s : State) (h : (bankOf s c).length - n + news.length ≤ 16) :
    replaceTop c n news s = .ok () (setTop c n news s) := by
  simp [replaceTop, room, h, Res.andThen]

theorem slot_setTop (c d n : Nat) (news : List Word) (s : State) (h : c < 16) :
    (coreOf (setTop c n news s) d).slot = (coreOf s d).slot := by
  by_cases hd : c = d
  · subst hd; simp [setTop, updLevel_eq, coreOf_updCore _ _ _ h, onLevel]
  · simp [setTop, updLevel_eq, coreOf_updCore_other _ _ _ _ hd]

theorem slot_setFlags (c d : Nat) (f : Flags) (s : State) (h : c < 16) : (coreOf (setFlags c f s) d).slot = (coreOf s d).slot := by
  by_cases hd : c = d
  · subst hd; simp [setFlags, coreOf_updCore _ _ _ h]
  · simp [setFlags, coreOf_updCore_other _ _ _ _ hd]

end Sys2Proof.Machine
end

