-- ==== Sys2Proof/Laws/Frames.lean ====
section
/-! SUPPORT. What each shared operation of the device can change: every part of the state but the listed ones is the same after it. -/
namespace Sys2Proof.Machine
open Sys2Proof

theorem OnlyIn.refl (l : List Region) (s : State) : OnlyIn l s s := by
  intro r _; cases r <;> rfl

theorem OnlyIn.trans {l m n : List Region} {s t u : State} (h : OnlyIn l s t) (h' : OnlyIn m t u)
    (hl : ∀ r ∈ l, r ∈ n) (hm : ∀ r ∈ m, r ∈ n) : OnlyIn n s u := by
  intro r hr
  have a := h r (fun x => hr (hl r x))
  have b := h' r (fun x => hr (hm r x))
  cases r <;> simp only [sameIn] at a b ⊢ <;> rw [b, a]

theorem OnlyIn.mono {l n : List Region} {s t : State} (h : OnlyIn l s t) (hl : ∀ r ∈ l, r ∈ n) : OnlyIn n s t :=
  fun r hr => h r (fun x => hr (hl r x))

/-- The trust block is the same, or at least as many of each counter: what a frame without the trust block says of the counters. -/
theorem OnlyIn.counters {l : List Region} {s t : State} (h : OnlyIn l s t) (hv : Region.vtf ∉ l) (v : Nat → Nat) (hc : CountersAtLeast v s) :
    CountersAtLeast v t := by
  have e : t.vtf = s.vtf := h .vtf hv
  intro i
  rw [e]
  exact hc i

theorem pump_only (s : State) : OnlyIn [.link] s (pump s) := by
  intro r hr; cases r <;> first | rfl | (simp at hr)

theorem formMsg_only (typ : Nat) (body : List Byte) (s : State) : OnlyIn [.link] s (formMsg typ body s) := by
  simp only [formMsg]
  split
  · intro r hr; cases r <;> first | rfl | (simp at hr)
  · exact OnlyIn.refl _ _

theorem windowMsg_only (s : State) : OnlyIn [.link, .oas] s (windowMsg s) := by
  have h : OnlyIn [.oas] s { s with oas.winMsg := s.oas.win } := by intro r hr; cases r <;> first | rfl | (simp at hr)
  exact h.trans (formMsg_only _ _ _) (by simp) (by simp)

theorem lossBegin_only (fatal : Bool) (s : State) : OnlyIn [.pwr, .link, .oas, .cores, .prev] s (lossBegin fatal s) := by
  simp only [lossBegin]
  split
  · exact OnlyIn.refl _ _
  · intro r hr; cases r <;> first | rfl | (simp at hr)

theorem escalate_only (src : Nat) (s : State) : OnlyIn [.flt, .pwr, .link, .oas, .cores, .prev] s (escalate src s) := by
  have h : OnlyIn [.flt] s { s with flt := { s.flt with esc := true, escSrc := src } } := by
    intro r hr; cases r <;> first | rfl | (simp at hr)
  exact h.trans (lossBegin_only true _) (by simp) (by simp)

theorem latchFault_only (src : Nat) (det : BitVec 32) (s : State) :
    OnlyIn [.flt, .pwr, .link, .oas, .cores, .prev] s (latchFault src det s) := by
  simp only [latchFault]
  split
  · exact OnlyIn.refl _ _
  · split
    · intro r hr; cases r <;> first | rfl | (simp at hr)
    · have h1 : OnlyIn [.flt] s { s with flt := latchRegs s.flt src det s.dtime s.tick } := by
        intro r hr; cases r <;> first | rfl | (simp at hr)
      have h2 : OnlyIn [.flt, .link] s
          (if atOrAbove (srcClass src) s.link.fthr = true then
            formMsg 3 ([BitVec.ofNat 8 src, BitVec.ofNat 8 (clsNum (srcClass src)), 0, 0] ++ leB 4 det.toNat)
              { s with flt := latchRegs s.flt src det s.dtime s.tick }
          else { s with flt := latchRegs s.flt src det s.dtime s.tick }) := by
        split
        · exact h1.trans (formMsg_only _ _ _) (by simp) (by simp)
        · exact h1.mono (by simp)
      split
      · exact h2.trans (lossBegin_only true _) (by simp) (by simp)
      · exact h2.mono (by simp)

theorem raiseFault_only (src : Nat) (det : BitVec 32) (s : State) :
    OnlyIn [.flt, .pwr, .link, .oas, .cores, .prev] s (raiseFault src det s) := by
  simp only [raiseFault]
  split
  · exact OnlyIn.refl _ _
  · exact latchFault_only src det s

theorem checkOver_only (s : State) : OnlyIn [.flt, .pwr, .link, .oas, .cores, .prev] s (checkOver s) := by
  simp only [checkOver]
  split
  · exact OnlyIn.refl _ _
  · next isOver =>
    have h1 : OnlyIn [.oas] s { s with oas.overV := decide (accountSize s.oas < s.oas.outst) } := by
      intro r hr; cases r <;> first | rfl | (simp at hr)
    have h2 := h1.trans (windowMsg_only _) (n := [.link, .oas]) (by simp) (by simp)
    split
    · exact h2.trans (raiseFault_only _ _ _) (by simp) (by simp)
    · exact h2.mono (by simp)

theorem returnCredits_only (n : Nat) (s : State) : OnlyIn [.eng, .flt, .pwr, .link, .oas, .cores, .prev] s (returnCredits n s) := by
  simp only [returnCredits]
  split
  · exact OnlyIn.refl _ _
  · have h : OnlyIn [.oas, .eng] s { s with oas.outst := s.oas.outst - n, eng.credRet := s.eng.credRet + n } := by
      intro r hr; cases r <;> first | rfl | (simp at hr)
    exact h.trans (checkOver_only _) (by simp) (by simp)

theorem recomputeW_only (s : State) : OnlyIn [.flt, .pwr, .link, .oas, .cores, .prev] s (recomputeW s) := by
  simp only [recomputeW]
  have h : OnlyIn [.oas] s
      { s with oas := { s.oas with winBytes := winBytesNow s.oas, win := winBytesNow s.oas / 64, winKnown := true } } := by
    intro r hr; cases r <;> first | rfl | (simp at hr)
  split
  · exact (h.trans (windowMsg_only _) (n := [.link, .oas]) (by simp) (by simp)).trans (checkOver_only _) (by simp) (by simp)
  · exact h.trans (checkOver_only _) (by simp) (by simp)

theorem formReply_only (x : Reply) (s : State) : OnlyIn [.side, .link, .eng] s (formReply x s) := by
  simp only [formReply]
  split
  · exact OnlyIn.refl _ _
  · split
    · intro r hr; cases r <;> first | rfl | (simp at hr)
    · split
      · exact OnlyIn.refl _ _
      · intro r hr; cases r <;> first | rfl | (simp at hr)

theorem wakeNow_only (cause : Nat) (s : State) : OnlyIn [.pwr, .link, .cache] s (wakeNow cause s) := by
  simp only [wakeNow]
  split
  · intro r hr; cases r <;> first | rfl | (simp at hr)
  · intro r hr; cases r <;> first | rfl | (simp at hr)
  · exact OnlyIn.refl _ _

theorem entered_only (p : PState) (s : State) : OnlyIn [.pwr, .link, .cache] s (entered p s) := by
  have h : OnlyIn [.pwr] s { s with pwr := { s.pwr with pstate := p, entry := none } } := by
    intro r hr; cases r <;> first | rfl | (simp at hr)
  simp only [entered]
  split
  · split
    · exact h.mono (by simp)
    · exact h.trans (wakeNow_only _ _) (by simp) (by simp)
  · exact h.mono (by simp)

theorem noteRequest_only (s : State) : OnlyIn [.pwr] s (noteRequest s) := by
  intro r hr; cases r <;> first | rfl | (simp at hr)

theorem setQueue_only (s : State) (q : Nat) (l : List QPkt) : OnlyIn [.eng] s (setQueue s q l) := by
  intro r hr; cases r <;> first | rfl | (simp at hr)

theorem updCore_only (s : State) (c : Nat) (f : Core → Core) : OnlyIn [.cores] s (updCore s c f) := by
  intro r hr; cases r <;> first | rfl | (simp at hr)

theorem updDie_only (s : State) (d : Nat) (f : Die → Die) : OnlyIn [.arr] s (updDie s d f) := by
  intro r hr; cases r <;> first | rfl | (simp at hr)

theorem updStream_only (s : State) (sid : Nat) (f : Stream → Stream) : OnlyIn [.store] s (updStream s sid f) := by
  simp only [updStream]
  split
  · exact OnlyIn.refl _ _
  · intro r hr; cases r <;> first | rfl | (simp at hr)

theorem updSeg_only (s : State) (g : Nat) (f : SegSt → SegSt) : OnlyIn [.arr] s (updSeg s g f) := by
  simp only [updSeg]
  split
  · exact OnlyIn.refl _ _
  · intro r hr; cases r <;> first | rfl | (simp at hr)

theorem updSlot_only (s : State) (n : Nat) (f : SlotInfo → SlotInfo) : OnlyIn [.arr] s (updSlot s n f) := by
  intro r hr; cases r <;> first | rfl | (simp at hr)

theorem bumpCounter_only (i : Nat) (s : State) : OnlyIn [.vtf] s (bumpCounter i s) := by
  intro r hr; cases r <;> first | rfl | (simp at hr)

/-- A counter increased by one is no counter lowered (R205). -/
theorem bumpCounter_counters (v : Nat → Nat) (i : Nat) (s : State) (h : CountersAtLeast v s) : CountersAtLeast v (bumpCounter i s) := by
  intro j
  simp only [bumpCounter]
  by_cases hj : i = j.val
  · subst hj; rw [vAt_vUpd_same _ _ _ j.isLt]; exact Nat.le_succ_of_le (h j)
  · rw [vAt_vUpd_other _ _ _ _ hj]; exact h j

/-- The next value of the seal counter, issued, lowers no counter (R206). -/
theorem issueSeal_counters (v : Nat → Nat) (s : State) (h : CountersAtLeast v s) : CountersAtLeast v (issueSeal s).2 := by
  intro j
  simp only [issueSeal]
  split
  · exact h j
  · by_cases hj : 0 = j.val
    · have h0 := h j
      rw [← hj] at h0 ⊢
      simp only [vAt_vSet_same _ _ _ (by decide : 0 < 32)]
      omega
    · simp only [vAt_vSet_other _ _ _ _ hj]; exact h j

/-- The rollback floor raised lowers no counter (R225, R226). -/
theorem raiseFloor_counters (v : Nat → Nat) (n : Nat) (s : State) (h : CountersAtLeast v s) : CountersAtLeast v (raiseFloor n s) := by
  intro j
  simp only [raiseFloor]
  split
  · next hlt =>
    by_cases hj : 3 = j.val
    · have h0 := h j
      rw [← hj] at h0 ⊢
      simp only [vAt_vSet_same _ _ _ (by decide : 3 < 32)]
      omega
    · simp only [vAt_vSet_other _ _ _ _ hj]; exact h j
  · exact h j

end Sys2Proof.Machine
end

