-- ==== Sys2Proof/Laws/Memory.lean ====
section
/-! SUPPORT. The keyed stores and memories: what a read gives after a write, and that every operation keeps the canonical form. -/
namespace Sys2Proof.Machine
open Sys2Proof

theorem look_put_same {α : Type} (k : Nat) (a : α) (m : List (Nat × α)) : look k (put k a m) = some a := by
  induction m with
  | nil => simp [put, look]
  | cons e m ih =>
    obtain ⟨j, b⟩ := e
    simp only [put]
    split
    · simp [look]
    · split
      · simp [look]
      · simp [look, *]

theorem look_put_other {α : Type} (k i : Nat) (a : α) (m : List (Nat × α)) (h : i ≠ k) : look i (put k a m) = look i m := by
  induction m with
  | nil => simp [put, look, Ne.symm h]
  | cons e m ih =>
    obtain ⟨j, b⟩ := e
    simp only [put]
    split
    · simp [look, Ne.symm h]
    · split
      · subst_vars; simp [look, Ne.symm h]
      · simp [look, ih]

/-- No key at or below a bound is in a store. -/
def KeysAbove {α : Type} (n : Nat) (m : List (Nat × α)) : Prop := ∀ e, e ∈ m → n < e.1

theorem keysRise_cons {α : Type} (j : Nat) (a : α) (m : List (Nat × α)) :
    keysRise ((j, a) :: m) = true ↔ KeysAbove j m ∧ keysRise m = true := by
  induction m generalizing j a with
  | nil => simp [keysRise, KeysAbove]
  | cons e m ih =>
    obtain ⟨k, b⟩ := e
    simp only [keysRise, Bool.and_eq_true, decide_eq_true_eq]
    constructor
    · rintro ⟨h, hk⟩
      refine ⟨fun e he => ?_, hk⟩
      rcases List.mem_cons.1 he with rfl | he
      · exact h
      · exact Nat.lt_trans h (((ih k b).1 hk).1 e he)
    · rintro ⟨h, hk⟩
      exact ⟨h (k, b) (by simp), hk⟩

theorem look_above {α : Type} (k n : Nat) (m : List (Nat × α)) (h : KeysAbove n m) (hk : k ≤ n) : look k m = none := by
  induction m with
  | nil => rfl
  | cons e m ih =>
    obtain ⟨j, b⟩ := e
    have hj : n < j := h (j, b) (by simp)
    have : j ≠ k := by omega
    simp [look, this, ih (fun e he => h e (by simp [he]))]

theorem mem_put {α : Type} (k : Nat) (a : α) (m : List (Nat × α)) (e : Nat × α) (h : e ∈ put k a m) : e = (k, a) ∨ e ∈ m := by
  induction m with
  | nil => simpa [put] using h
  | cons x m ih =>
    obtain ⟨j, b⟩ := x
    simp only [put] at h
    split at h
    · simpa using h
    · split at h
      · rcases List.mem_cons.1 h with h | h
        · exact .inl h
        · exact .inr (by simp [h])
      · rcases List.mem_cons.1 h with h | h
        · exact .inr (by simp [h])
        · rcases ih h with h | h
          · exact .inl h
          · exact .inr (by simp [h])

theorem mem_del {α : Type} (k : Nat) (m : List (Nat × α)) (e : Nat × α) (h : e ∈ del k m) : e ∈ m := by
  induction m with
  | nil => simp [del] at h
  | cons x m ih =>
    obtain ⟨j, b⟩ := x
    simp only [del] at h
    split at h
    · simp [h]
    · rcases List.mem_cons.1 h with h | h
      · simp [h]
      · simp [ih h]

theorem keysRise_put {α : Type} (k : Nat) (a : α) (m : List (Nat × α)) (h : keysRise m = true) : keysRise (put k a m) = true := by
  induction m with
  | nil => simp [put, keysRise]
  | cons e m ih =>
    obtain ⟨j, b⟩ := e
    have hr := (keysRise_cons j b m).1 h
    simp only [put]
    split
    · next hk => exact (keysRise_cons _ _ _).2 ⟨fun e he => by
        rcases List.mem_cons.1 he with rfl | he
        · exact hk
        · exact Nat.lt_trans hk (hr.1 e he), h⟩
    · split
      · subst_vars; exact (keysRise_cons _ _ _).2 hr
      · next h1 h2 => exact (keysRise_cons _ _ _).2 ⟨fun e he => by
          rcases mem_put k a m e he with rfl | he
          · show j < k; omega
          · exact hr.1 e he, ih hr.2⟩

theorem keysRise_del {α : Type} (k : Nat) (m : List (Nat × α)) (h : keysRise m = true) : keysRise (del k m) = true := by
  induction m with
  | nil => exact h
  | cons e m ih =>
    obtain ⟨j, b⟩ := e
    have hr := (keysRise_cons j b m).1 h
    simp only [del]
    split
    · exact hr.2
    · exact (keysRise_cons _ _ _).2 ⟨fun e he => hr.1 e (mem_del k m e he), ih hr.2⟩

theorem look_del_same {α : Type} (k : Nat) (m : List (Nat × α)) (h : keysRise m = true) : look k (del k m) = none := by
  induction m with
  | nil => rfl
  | cons e m ih =>
    obtain ⟨j, b⟩ := e
    have hr := (keysRise_cons j b m).1 h
    simp only [del]
    split
    · next hj => exact look_above k j m hr.1 (by omega)
    · next hj => simp [look, hj, ih hr.2]

theorem look_del_other {α : Type} (k i : Nat) (m : List (Nat × α)) (h : i ≠ k) : look i (del k m) = look i m := by
  induction m with
  | nil => rfl
  | cons e m ih =>
    obtain ⟨j, b⟩ := e
    simp only [del]
    split
    · subst_vars; simp [look, Ne.symm h]
    · simp [look, ih]

/-- A memory write keeps the canonical form. -/
theorem memSet_wf {α : Type} [DecidableEq α] (d : α) (m : List (Nat × α)) (k : Nat) (a : α) (h : Memory.wf d m = true) :
    Memory.wf d (memSet d m k a) = true := by
  simp only [Memory.wf, Bool.and_eq_true, List.all_eq_true, decide_eq_true_eq] at h ⊢
  simp only [memSet]
  split
  · exact ⟨keysRise_del k m h.1, fun e he => h.2 e (mem_del k m e he)⟩
  · next ha => exact ⟨keysRise_put k a m h.1, fun e he => by
      rcases mem_put k a m e he with rfl | he
      · exact ha
      · exact h.2 e he⟩

/-- A read after a write to the same address gives the value written. -/
theorem memGet_memSet_same {α : Type} [DecidableEq α] (d : α) (m : List (Nat × α)) (k : Nat) (a : α) (h : Memory.wf d m = true) :
    memGet d (memSet d m k a) k = a := by
  simp only [Memory.wf, Bool.and_eq_true] at h
  simp only [memGet, memSet]
  split
  · simp [look_del_same k m h.1, *]
  · simp [look_put_same]

/-- A write leaves what every other address reads as. -/
theorem memGet_memSet_other {α : Type} [DecidableEq α] (d : α) (m : List (Nat × α)) (k i : Nat) (a : α) (h : i ≠ k) :
    memGet d (memSet d m k a) i = memGet d m i := by
  simp only [memGet, memSet]
  split
  · rw [look_del_other k i m h]
  · rw [look_put_other k i a m h]

/-- A write of bytes keeps the canonical form. -/
theorem memPutBytes_wf (d : Byte) (m : List Host.Cell) (k : Nat) (l : List Byte) (h : Memory.wf d m = true) :
    Memory.wf d (memPutBytes d m k l) = true := by
  induction l generalizing m k with
  | nil => exact h
  | cons b l ih => exact ih _ _ (memSet_wf d m k b h)

/-- A write of bytes leaves every byte outside them. -/
theorem memGet_memPutBytes_outside (d : Byte) (m : List Host.Cell) (k i : Nat) (l : List Byte) (h : i < k ∨ k + l.length ≤ i) :
    memGet d (memPutBytes d m k l) i = memGet d m i := by
  induction l generalizing m k with
  | nil => rfl
  | cons b l ih =>
    simp only [List.length_cons] at h
    rw [memPutBytes, ih (memSet d m k b) (k + 1) (by omega), memGet_memSet_other d m k i b (by omega)]

end Sys2Proof.Machine
end

