-- ==== Sys2Proof/Laws/Packets.lean ====
section
/-! SUPPORT. The checks a command packet passes, with and without a session, and what they leave. -/
namespace Sys2Proof.Machine
open Sys2Proof

theorem gcmXor_length (k n l : List Byte) : (gcmXor k n l).length = l.length := by
  simp [gcmXor]

/-- The key stream enciphers and deciphers alike. -/
theorem gcmXor_gcmXor (k n l : List Byte) : gcmXor k n (gcmXor k n l) = l := by
  have h : (gcmXor k n l).length = l.length := gcmXor_length k n l
  unfold gcmXor at h ⊢
  rw [h]
  apply List.ext_getElem
  · simp
  · intro i h1 h2
    simp

/-- The last checks let a command pass that its lifecycle state takes, whose session has the authority, and whose reserved fields are 0. -/
theorem checkLate_passes (c : Ctx) (s : State) (h1 : s.vtf.life = .unowned → unownedTakes s c = true)
    (h2 : s.vtf.life = .rollback → rollbackTakes c = true) (h3 : satisfies c.role (needs s c) = true) (h4 : reservedOk c = true) :
    checkLate c s = .passed c s := by
  unfold checkLate
  rw [if_neg (by intro h; simp [h1 h.1] at h), if_neg (by intro h; simp [h2 h.1] at h), if_neg (by simp [h3]), if_neg (by simp [h4])]

/-- The first checks of a host packet: outside HALT, its queue, opcode, flags and length are right. -/
theorem checkPacket_session (p : Packet) (o : OpInfo) (s : State) (h1 : s.pwr.phase ≠ .halt) (h2 : p.qid.toNat ≤ 63) (h3 : p.chan = .host)
    (h4 : opInfo p.opc.toNat = some o) (h5 : p.flg.toNat < 32) (h6 : fChain p = true → p.opc = 0x0023) (h7 : fLast p = true → fChain p = true)
    (h8 : p.body.length = p.plen.toNat + (if fAuth p then 16 else 0)) (h9 : o.psize + o.lo ≤ p.plen.toNat) (h10 : p.plen.toNat ≤ o.psize + o.hi) :
    checkPacket p false s = checkSession p s := by
  unfold checkPacket
  rw [if_neg h1, if_neg (by simp [h3]; omega), h4]
  simp only [h3]
  rw [if_neg (by simp), if_neg, if_neg (by omega)]
  rintro (h | ⟨-, h | h⟩)
  · omega
  · exact h.2 (h6 h.1)
  · rw [h7 h.1] at h; simp at h

/-- A packet outside a session passes with its body as the plaintext. -/
theorem checkSession_plain (p : Packet) (s : State) (c : Ctx) (h1 : p.chan = .host) (h2 : p.ses = 0) (h3 : fAuth p = false)
    (hc : c = { pkt := p, plain := p.body.take p.plen.toNat, keys := [], role := none, owner := [] }) (h4 : checkLate c s = .passed c s) :
    checkSession p s = .passed c s := by
  unfold checkSession
  simp [h1, h2, h3, ← hc, h4]

/-- A packet in a session, its tag right and its SEQ fresh, passes with its body deciphered, and its SEQ is taken. -/
theorem checkSession_sealed (p : Packet) (s t : State) (c : Ctx) (x : Session) (ct : List Byte) (h1 : p.chan = .host) (h2 : p.ses ≠ 0)
    (h3 : fAuth p = true) (h4 : sessionOf s p.ses = some x) (h5 : p.body.take p.plen.toNat = ct)
    (h6 : p.body.drop p.plen.toNat = (Config.gcmTag (bytesAt x.keys 0 32) (gcmNonce (bytesAt x.keys 64 4) p.seq) (packetHeader p) ct).toList)
    (h7 : seqFresh x p.seq.toNat = true)
    (hc : c = { pkt := p, plain := gcmXor (bytesAt x.keys 0 32) (gcmNonce (bytesAt x.keys 64 4) p.seq) ct, keys := x.keys,
                role := some x.role, owner := [] })
    (ht : t = { s with vtf.sessions := s.vtf.sessions.map fun y => if y.ses = x.ses then seqTaken y p.seq.toNat else y })
    (h8 : checkLate c t = .passed c t) : checkSession p s = .passed c t := by
  unfold checkSession
  rw [if_neg (by simp [h1]), if_neg h2, if_neg (by simp [h3]), h4]
  simp only [h5, h6, ne_eq, not_true_eq_false, if_false, h7, Bool.not_true, Bool.false_eq_true]
  rw [← hc, ← ht, h8]

end Sys2Proof.Machine
end

