-- ==== Sys2Proof/Laws/Stack.lean ====
section
/-! SUPPORT. What the shared operations over the operand stack leave, for the statements about single instructions. -/
namespace Sys2Proof.Machine
open Sys2Proof

/-- The inputs of an instruction, read from the operand stack. -/
theorem need_of_bank {c : Nat} {s : State} {n : Nat} (l : List Word) (hb : bankOf s c = l) (h : n ≤ l.length) :
    need c n s = .ok (l.take n) s := by rw [← hb] at h ⊢; exact need_ok c n s h

/-- The results of an instruction, put on the operand stack. -/
theorem replaceTop_of_bank {c : Nat} {s : State} {n : Nat} (l news : List Word) (hb : bankOf s c = l)
    (h : (news ++ l.drop n).length ≤ 16) (hn : n ≤ l.length) :
    replaceTop c n news s = .ok () (withBank c (news ++ l.drop n) s) := by
  have h1 : (bankOf s c).length - n + news.length ≤ 16 := by
    rw [hb]; simp at h; omega
  rw [replaceTop_ok c n news s h1]
  have : setTop c n news s = withBank c (news ++ l.drop n) s := by
    subst hb
    simp only [setTop, withBank, updLevel, updCore, vUpd, bankOf, curLevel, coreOf]
  rw [this]

theorem slot_withBank (c d : Nat) (l : List Word) (s : State) (h : c < 16) : (coreOf (withBank c l s) d).slot = (coreOf s d).slot := by
  by_cases hd : c = d
  · subst hd; simp [withBank, updLevel_eq, coreOf_updCore _ _ _ h, onLevel]
  · simp [withBank, updLevel_eq, coreOf_updCore_other _ _ _ _ hd]

theorem slot_setFlags_withBank (c d : Nat) (l : List Word) (fl : Flags) (s : State) (h : c < 16) :
    (coreOf (setFlags c fl (withBank c l s)) d).slot = (coreOf s d).slot := by
  rw [slot_setFlags _ _ _ _ h, slot_withBank _ _ _ _ h]

/-- An instruction that rearranges whole entries. -/
theorem stackStep_perm (e : Enc) (mn : String) (f : Fetch) (n : Nat) (g : List Word → List Word) (s : State)
    (l l' : List Word) (row : Fetch → Instr) (hr : exec (row f) s = insn e mn f (permOp n g) s)
    (h : n ≤ l.length) (hl : g (l.take n) ++ l.drop n = l') : StackStep e row f l l' s := by
  intro hR hb hlen
  rw [hr]
  refine insn_seq e mn f _ s _ hR ?_
  subst hl
  simp [permOp, insOf, need_of_bank l hb h, Res.andThen, replaceTop_of_bank l (g (l.take n)) hb hlen h]

/-- An instruction whose results depend on its inputs alone. -/
theorem stackStep_pure (e : Enc) (mn : String) (f : Fetch) (n : Nat) (tags : List Word → Bool)
    (g : Ins → List Word → List Word) (s : State) (l l' : List Word) (row : Fetch → Instr)
    (hr : exec (row f) s = insn e mn f (fun i t => pureOp n tags (g i) i t) s)
    (h : n ≤ l.length) (hbad : anyBad (l.take n) = false) (ht : tags (l.take n) = true)
    (hl : g (insOf e f s) (l.take n) ++ l.drop n = l') : StackStep e row f l l' s := by
  intro hR hb hlen
  rw [hr]
  refine insn_seq e mn f _ s _ hR ?_
  subst hl
  simp [pureOp, inputs, insOf, need_of_bank l hb h, Res.andThen, hbad, ht]
  have := replaceTop_of_bank l (g (insOf e f s) (l.take n)) hb hlen h
  simp [insOf] at this
  simp [this]

/-- A one-byte immediate, sign-extended. -/
theorem immS_byte (e : Enc) (f : Fetch) (s : State) (hl : immLen e f.pre = 1) :
    BitVec.ofNat 16 (immS (insOf e f s)) = (f.imm.setWidth 8).signExtend 16 := by
  simp [immS, insOf, hl, immOf]
  apply BitVec.eq_of_toNat_eq
  simp [BitVec.toNat_signExtend, BitVec.msb_eq_decide, Nat.testBit_eq_decide_div_mod_eq]
  split <;> split <;> omega

end Sys2Proof.Machine
end

