-- ==== Sys2Proof/Laws/State.lean ====
section
/-! SUPPORT. One lemma for every field and every update of the top-level state record: what a field reads after an update. -/
namespace Sys2Proof.Machine

@[simp] theorem State.set_variant_variant (s : State) (v : Variant) : (State.setVariant s v).variant = v := rfl
@[simp] theorem State.set_variant_dtime (s : State) (v : Variant) : (State.setVariant s v).dtime = s.dtime := rfl
@[simp] theorem State.set_variant_tick (s : State) (v : Variant) : (State.setVariant s v).tick = s.tick := rfl
@[simp] theorem State.set_variant_fresh (s : State) (v : Variant) : (State.setVariant s v).fresh = s.fresh := rfl
@[simp] theorem State.set_variant_store (s : State) (v : Variant) : (State.setVariant s v).store = s.store := rfl
@[simp] theorem State.set_variant_arr (s : State) (v : Variant) : (State.setVariant s v).arr = s.arr := rfl
@[simp] theorem State.set_variant_eng (s : State) (v : Variant) : (State.setVariant s v).eng = s.eng := rfl
@[simp] theorem State.set_variant_oas (s : State) (v : Variant) : (State.setVariant s v).oas = s.oas := rfl
@[simp] theorem State.set_variant_flt (s : State) (v : Variant) : (State.setVariant s v).flt = s.flt := rfl
@[simp] theorem State.set_variant_vtf (s : State) (v : Variant) : (State.setVariant s v).vtf = s.vtf := rfl
@[simp] theorem State.set_variant_link (s : State) (v : Variant) : (State.setVariant s v).link = s.link := rfl
@[simp] theorem State.set_variant_side (s : State) (v : Variant) : (State.setVariant s v).side = s.side := rfl
@[simp] theorem State.set_variant_boot (s : State) (v : Variant) : (State.setVariant s v).boot = s.boot := rfl
@[simp] theorem State.set_variant_wadi (s : State) (v : Variant) : (State.setVariant s v).wadi = s.wadi := rfl
@[simp] theorem State.set_variant_cores (s : State) (v : Variant) : (State.setVariant s v).cores = s.cores := rfl
@[simp] theorem State.set_variant_mmu (s : State) (v : Variant) : (State.setVariant s v).mmu = s.mmu := rfl
@[simp] theorem State.set_variant_cache (s : State) (v : Variant) : (State.setVariant s v).cache = s.cache := rfl
@[simp] theorem State.set_variant_ucode (s : State) (v : Variant) : (State.setVariant s v).ucode = s.ucode := rfl
@[simp] theorem State.set_variant_mem (s : State) (v : Variant) : (State.setVariant s v).mem = s.mem := rfl
@[simp] theorem State.set_variant_pwr (s : State) (v : Variant) : (State.setVariant s v).pwr = s.pwr := rfl
@[simp] theorem State.set_variant_tbx (s : State) (v : Variant) : (State.setVariant s v).tbx = s.tbx := rfl
@[simp] theorem State.set_variant_prev (s : State) (v : Variant) : (State.setVariant s v).prev = s.prev := rfl
@[simp] theorem State.set_variant_jtag (s : State) (v : Variant) : (State.setVariant s v).jtag = s.jtag := rfl
@[simp] theorem State.set_variant_pending (s : State) (v : Variant) : (State.setVariant s v).pending = s.pending := rfl

@[simp] theorem State.set_dtime_variant (s : State) (v : Nat) : (State.setDtime s v).variant = s.variant := rfl
@[simp] theorem State.set_dtime_dtime (s : State) (v : Nat) : (State.setDtime s v).dtime = v := rfl
@[simp] theorem State.set_dtime_tick (s : State) (v : Nat) : (State.setDtime s v).tick = s.tick := rfl
@[simp] theorem State.set_dtime_fresh (s : State) (v : Nat) : (State.setDtime s v).fresh = s.fresh := rfl
@[simp] theorem State.set_dtime_store (s : State) (v : Nat) : (State.setDtime s v).store = s.store := rfl
@[simp] theorem State.set_dtime_arr (s : State) (v : Nat) : (State.setDtime s v).arr = s.arr := rfl
@[simp] theorem State.set_dtime_eng (s : State) (v : Nat) : (State.setDtime s v).eng = s.eng := rfl
@[simp] theorem State.set_dtime_oas (s : State) (v : Nat) : (State.setDtime s v).oas = s.oas := rfl
@[simp] theorem State.set_dtime_flt (s : State) (v : Nat) : (State.setDtime s v).flt = s.flt := rfl
@[simp] theorem State.set_dtime_vtf (s : State) (v : Nat) : (State.setDtime s v).vtf = s.vtf := rfl
@[simp] theorem State.set_dtime_link (s : State) (v : Nat) : (State.setDtime s v).link = s.link := rfl
@[simp] theorem State.set_dtime_side (s : State) (v : Nat) : (State.setDtime s v).side = s.side := rfl
@[simp] theorem State.set_dtime_boot (s : State) (v : Nat) : (State.setDtime s v).boot = s.boot := rfl
@[simp] theorem State.set_dtime_wadi (s : State) (v : Nat) : (State.setDtime s v).wadi = s.wadi := rfl
@[simp] theorem State.set_dtime_cores (s : State) (v : Nat) : (State.setDtime s v).cores = s.cores := rfl
@[simp] theorem State.set_dtime_mmu (s : State) (v : Nat) : (State.setDtime s v).mmu = s.mmu := rfl
@[simp] theorem State.set_dtime_cache (s : State) (v : Nat) : (State.setDtime s v).cache = s.cache := rfl
@[simp] theorem State.set_dtime_ucode (s : State) (v : Nat) : (State.setDtime s v).ucode = s.ucode := rfl
@[simp] theorem State.set_dtime_mem (s : State) (v : Nat) : (State.setDtime s v).mem = s.mem := rfl
@[simp] theorem State.set_dtime_pwr (s : State) (v : Nat) : (State.setDtime s v).pwr = s.pwr := rfl
@[simp] theorem State.set_dtime_tbx (s : State) (v : Nat) : (State.setDtime s v).tbx = s.tbx := rfl
@[simp] theorem State.set_dtime_prev (s : State) (v : Nat) : (State.setDtime s v).prev = s.prev := rfl
@[simp] theorem State.set_dtime_jtag (s : State) (v : Nat) : (State.setDtime s v).jtag = s.jtag := rfl
@[simp] theorem State.set_dtime_pending (s : State) (v : Nat) : (State.setDtime s v).pending = s.pending := rfl

@[simp] theorem State.set_tick_variant (s : State) (v : Nat) : (State.setTick s v).variant = s.variant := rfl
@[simp] theorem State.set_tick_dtime (s : State) (v : Nat) : (State.setTick s v).dtime = s.dtime := rfl
@[simp] theorem State.set_tick_tick (s : State) (v : Nat) : (State.setTick s v).tick = v := rfl
@[simp] theorem State.set_tick_fresh (s : State) (v : Nat) : (State.setTick s v).fresh = s.fresh := rfl
@[simp] theorem State.set_tick_store (s : State) (v : Nat) : (State.setTick s v).store = s.store := rfl
@[simp] theorem State.set_tick_arr (s : State) (v : Nat) : (State.setTick s v).arr = s.arr := rfl
@[simp] theorem State.set_tick_eng (s : State) (v : Nat) : (State.setTick s v).eng = s.eng := rfl
@[simp] theorem State.set_tick_oas (s : State) (v : Nat) : (State.setTick s v).oas = s.oas := rfl
@[simp] theorem State.set_tick_flt (s : State) (v : Nat) : (State.setTick s v).flt = s.flt := rfl
@[simp] theorem State.set_tick_vtf (s : State) (v : Nat) : (State.setTick s v).vtf = s.vtf := rfl
@[simp] theorem State.set_tick_link (s : State) (v : Nat) : (State.setTick s v).link = s.link := rfl
@[simp] theorem State.set_tick_side (s : State) (v : Nat) : (State.setTick s v).side = s.side := rfl
@[simp] theorem State.set_tick_boot (s : State) (v : Nat) : (State.setTick s v).boot = s.boot := rfl
@[simp] theorem State.set_tick_wadi (s : State) (v : Nat) : (State.setTick s v).wadi = s.wadi := rfl
@[simp] theorem State.set_tick_cores (s : State) (v : Nat) : (State.setTick s v).cores = s.cores := rfl
@[simp] theorem State.set_tick_mmu (s : State) (v : Nat) : (State.setTick s v).mmu = s.mmu := rfl
@[simp] theorem State.set_tick_cache (s : State) (v : Nat) : (State.setTick s v).cache = s.cache := rfl
@[simp] theorem State.set_tick_ucode (s : State) (v : Nat) : (State.setTick s v).ucode = s.ucode := rfl
@[simp] theorem State.set_tick_mem (s : State) (v : Nat) : (State.setTick s v).mem = s.mem := rfl
@[simp] theorem State.set_tick_pwr (s : State) (v : Nat) : (State.setTick s v).pwr = s.pwr := rfl
@[simp] theorem State.set_tick_tbx (s : State) (v : Nat) : (State.setTick s v).tbx = s.tbx := rfl
@[simp] theorem State.set_tick_prev (s : State) (v : Nat) : (State.setTick s v).prev = s.prev := rfl
@[simp] theorem State.set_tick_jtag (s : State) (v : Nat) : (State.setTick s v).jtag = s.jtag := rfl
@[simp] theorem State.set_tick_pending (s : State) (v : Nat) : (State.setTick s v).pending = s.pending := rfl

@[simp] theorem State.set_fresh_variant (s : State) (v : Nat) : (State.setFresh s v).variant = s.variant := rfl
@[simp] theorem State.set_fresh_dtime (s : State) (v : Nat) : (State.setFresh s v).dtime = s.dtime := rfl
@[simp] theorem State.set_fresh_tick (s : State) (v : Nat) : (State.setFresh s v).tick = s.tick := rfl
@[simp] theorem State.set_fresh_fresh (s : State) (v : Nat) : (State.setFresh s v).fresh = v := rfl
@[simp] theorem State.set_fresh_store (s : State) (v : Nat) : (State.setFresh s v).store = s.store := rfl
@[simp] theorem State.set_fresh_arr (s : State) (v : Nat) : (State.setFresh s v).arr = s.arr := rfl
@[simp] theorem State.set_fresh_eng (s : State) (v : Nat) : (State.setFresh s v).eng = s.eng := rfl
@[simp] theorem State.set_fresh_oas (s : State) (v : Nat) : (State.setFresh s v).oas = s.oas := rfl
@[simp] theorem State.set_fresh_flt (s : State) (v : Nat) : (State.setFresh s v).flt = s.flt := rfl
@[simp] theorem State.set_fresh_vtf (s : State) (v : Nat) : (State.setFresh s v).vtf = s.vtf := rfl
@[simp] theorem State.set_fresh_link (s : State) (v : Nat) : (State.setFresh s v).link = s.link := rfl
@[simp] theorem State.set_fresh_side (s : State) (v : Nat) : (State.setFresh s v).side = s.side := rfl
@[simp] theorem State.set_fresh_boot (s : State) (v : Nat) : (State.setFresh s v).boot = s.boot := rfl
@[simp] theorem State.set_fresh_wadi (s : State) (v : Nat) : (State.setFresh s v).wadi = s.wadi := rfl
@[simp] theorem State.set_fresh_cores (s : State) (v : Nat) : (State.setFresh s v).cores = s.cores := rfl
@[simp] theorem State.set_fresh_mmu (s : State) (v : Nat) : (State.setFresh s v).mmu = s.mmu := rfl
@[simp] theorem State.set_fresh_cache (s : State) (v : Nat) : (State.setFresh s v).cache = s.cache := rfl
@[simp] theorem State.set_fresh_ucode (s : State) (v : Nat) : (State.setFresh s v).ucode = s.ucode := rfl
@[simp] theorem State.set_fresh_mem (s : State) (v : Nat) : (State.setFresh s v).mem = s.mem := rfl
@[simp] theorem State.set_fresh_pwr (s : State) (v : Nat) : (State.setFresh s v).pwr = s.pwr := rfl
@[simp] theorem State.set_fresh_tbx (s : State) (v : Nat) : (State.setFresh s v).tbx = s.tbx := rfl
@[simp] theorem State.set_fresh_prev (s : State) (v : Nat) : (State.setFresh s v).prev = s.prev := rfl
@[simp] theorem State.set_fresh_jtag (s : State) (v : Nat) : (State.setFresh s v).jtag = s.jtag := rfl
@[simp] theorem State.set_fresh_pending (s : State) (v : Nat) : (State.setFresh s v).pending = s.pending := rfl

@[simp] theorem State.set_store_variant (s : State) (v : StoreSt) : (State.setStore s v).variant = s.variant := rfl
@[simp] theorem State.set_store_dtime (s : State) (v : StoreSt) : (State.setStore s v).dtime = s.dtime := rfl
@[simp] theorem State.set_store_tick (s : State) (v : StoreSt) : (State.setStore s v).tick = s.tick := rfl
@[simp] theorem State.set_store_fresh (s : State) (v : StoreSt) : (State.setStore s v).fresh = s.fresh := rfl
@[simp] theorem State.set_store_store (s : State) (v : StoreSt) : (State.setStore s v).store = v := rfl
@[simp] theorem State.set_store_arr (s : State) (v : StoreSt) : (State.setStore s v).arr = s.arr := rfl
@[simp] theorem State.set_store_eng (s : State) (v : StoreSt) : (State.setStore s v).eng = s.eng := rfl
@[simp] theorem State.set_store_oas (s : State) (v : StoreSt) : (State.setStore s v).oas = s.oas := rfl
@[simp] theorem State.set_store_flt (s : State) (v : StoreSt) : (State.setStore s v).flt = s.flt := rfl
@[simp] theorem State.set_store_vtf (s : State) (v : StoreSt) : (State.setStore s v).vtf = s.vtf := rfl
@[simp] theorem State.set_store_link (s : State) (v : StoreSt) : (State.setStore s v).link = s.link := rfl
@[simp] theorem State.set_store_side (s : State) (v : StoreSt) : (State.setStore s v).side = s.side := rfl
@[simp] theorem State.set_store_boot (s : State) (v : StoreSt) : (State.setStore s v).boot = s.boot := rfl
@[simp] theorem State.set_store_wadi (s : State) (v : StoreSt) : (State.setStore s v).wadi = s.wadi := rfl
@[simp] theorem State.set_store_cores (s : State) (v : StoreSt) : (State.setStore s v).cores = s.cores := rfl
@[simp] theorem State.set_store_mmu (s : State) (v : StoreSt) : (State.setStore s v).mmu = s.mmu := rfl
@[simp] theorem State.set_store_cache (s : State) (v : StoreSt) : (State.setStore s v).cache = s.cache := rfl
@[simp] theorem State.set_store_ucode (s : State) (v : StoreSt) : (State.setStore s v).ucode = s.ucode := rfl
@[simp] theorem State.set_store_mem (s : State) (v : StoreSt) : (State.setStore s v).mem = s.mem := rfl
@[simp] theorem State.set_store_pwr (s : State) (v : StoreSt) : (State.setStore s v).pwr = s.pwr := rfl
@[simp] theorem State.set_store_tbx (s : State) (v : StoreSt) : (State.setStore s v).tbx = s.tbx := rfl
@[simp] theorem State.set_store_prev (s : State) (v : StoreSt) : (State.setStore s v).prev = s.prev := rfl
@[simp] theorem State.set_store_jtag (s : State) (v : StoreSt) : (State.setStore s v).jtag = s.jtag := rfl
@[simp] theorem State.set_store_pending (s : State) (v : StoreSt) : (State.setStore s v).pending = s.pending := rfl

@[simp] theorem State.set_arr_variant (s : State) (v : ArraySt) : (State.setArr s v).variant = s.variant := rfl
@[simp] theorem State.set_arr_dtime (s : State) (v : ArraySt) : (State.setArr s v).dtime = s.dtime := rfl
@[simp] theorem State.set_arr_tick (s : State) (v : ArraySt) : (State.setArr s v).tick = s.tick := rfl
@[simp] theorem State.set_arr_fresh (s : State) (v : ArraySt) : (State.setArr s v).fresh = s.fresh := rfl
@[simp] theorem State.set_arr_store (s : State) (v : ArraySt) : (State.setArr s v).store = s.store := rfl
@[simp] theorem State.set_arr_arr (s : State) (v : ArraySt) : (State.setArr s v).arr = v := rfl
@[simp] theorem State.set_arr_eng (s : State) (v : ArraySt) : (State.setArr s v).eng = s.eng := rfl
@[simp] theorem State.set_arr_oas (s : State) (v : ArraySt) : (State.setArr s v).oas = s.oas := rfl
@[simp] theorem State.set_arr_flt (s : State) (v : ArraySt) : (State.setArr s v).flt = s.flt := rfl
@[simp] theorem State.set_arr_vtf (s : State) (v : ArraySt) : (State.setArr s v).vtf = s.vtf := rfl
@[simp] theorem State.set_arr_link (s : State) (v : ArraySt) : (State.setArr s v).link = s.link := rfl
@[simp] theorem State.set_arr_side (s : State) (v : ArraySt) : (State.setArr s v).side = s.side := rfl
@[simp] theorem State.set_arr_boot (s : State) (v : ArraySt) : (State.setArr s v).boot = s.boot := rfl
@[simp] theorem State.set_arr_wadi (s : State) (v : ArraySt) : (State.setArr s v).wadi = s.wadi := rfl
@[simp] theorem State.set_arr_cores (s : State) (v : ArraySt) : (State.setArr s v).cores = s.cores := rfl
@[simp] theorem State.set_arr_mmu (s : State) (v : ArraySt) : (State.setArr s v).mmu = s.mmu := rfl
@[simp] theorem State.set_arr_cache (s : State) (v : ArraySt) : (State.setArr s v).cache = s.cache := rfl
@[simp] theorem State.set_arr_ucode (s : State) (v : ArraySt) : (State.setArr s v).ucode = s.ucode := rfl
@[simp] theorem State.set_arr_mem (s : State) (v : ArraySt) : (State.setArr s v).mem = s.mem := rfl
@[simp] theorem State.set_arr_pwr (s : State) (v : ArraySt) : (State.setArr s v).pwr = s.pwr := rfl
@[simp] theorem State.set_arr_tbx (s : State) (v : ArraySt) : (State.setArr s v).tbx = s.tbx := rfl
@[simp] theorem State.set_arr_prev (s : State) (v : ArraySt) : (State.setArr s v).prev = s.prev := rfl
@[simp] theorem State.set_arr_jtag (s : State) (v : ArraySt) : (State.setArr s v).jtag = s.jtag := rfl
@[simp] theorem State.set_arr_pending (s : State) (v : ArraySt) : (State.setArr s v).pending = s.pending := rfl

@[simp] theorem State.set_eng_variant (s : State) (v : Engine) : (State.setEng s v).variant = s.variant := rfl
@[simp] theorem State.set_eng_dtime (s : State) (v : Engine) : (State.setEng s v).dtime = s.dtime := rfl
@[simp] theorem State.set_eng_tick (s : State) (v : Engine) : (State.setEng s v).tick = s.tick := rfl
@[simp] theorem State.set_eng_fresh (s : State) (v : Engine) : (State.setEng s v).fresh = s.fresh := rfl
@[simp] theorem State.set_eng_store (s : State) (v : Engine) : (State.setEng s v).store = s.store := rfl
@[simp] theorem State.set_eng_arr (s : State) (v : Engine) : (State.setEng s v).arr = s.arr := rfl
@[simp] theorem State.set_eng_eng (s : State) (v : Engine) : (State.setEng s v).eng = v := rfl
@[simp] theorem State.set_eng_oas (s : State) (v : Engine) : (State.setEng s v).oas = s.oas := rfl
@[simp] theorem State.set_eng_flt (s : State) (v : Engine) : (State.setEng s v).flt = s.flt := rfl
@[simp] theorem State.set_eng_vtf (s : State) (v : Engine) : (State.setEng s v).vtf = s.vtf := rfl
@[simp] theorem State.set_eng_link (s : State) (v : Engine) : (State.setEng s v).link = s.link := rfl
@[simp] theorem State.set_eng_side (s : State) (v : Engine) : (State.setEng s v).side = s.side := rfl
@[simp] theorem State.set_eng_boot (s : State) (v : Engine) : (State.setEng s v).boot = s.boot := rfl
@[simp] theorem State.set_eng_wadi (s : State) (v : Engine) : (State.setEng s v).wadi = s.wadi := rfl
@[simp] theorem State.set_eng_cores (s : State) (v : Engine) : (State.setEng s v).cores = s.cores := rfl
@[simp] theorem State.set_eng_mmu (s : State) (v : Engine) : (State.setEng s v).mmu = s.mmu := rfl
@[simp] theorem State.set_eng_cache (s : State) (v : Engine) : (State.setEng s v).cache = s.cache := rfl
@[simp] theorem State.set_eng_ucode (s : State) (v : Engine) : (State.setEng s v).ucode = s.ucode := rfl
@[simp] theorem State.set_eng_mem (s : State) (v : Engine) : (State.setEng s v).mem = s.mem := rfl
@[simp] theorem State.set_eng_pwr (s : State) (v : Engine) : (State.setEng s v).pwr = s.pwr := rfl
@[simp] theorem State.set_eng_tbx (s : State) (v : Engine) : (State.setEng s v).tbx = s.tbx := rfl
@[simp] theorem State.set_eng_prev (s : State) (v : Engine) : (State.setEng s v).prev = s.prev := rfl
@[simp] theorem State.set_eng_jtag (s : State) (v : Engine) : (State.setEng s v).jtag = s.jtag := rfl
@[simp] theorem State.set_eng_pending (s : State) (v : Engine) : (State.setEng s v).pending = s.pending := rfl

@[simp] theorem State.set_oas_variant (s : State) (v : Oasis) : (State.setOas s v).variant = s.variant := rfl
@[simp] theorem State.set_oas_dtime (s : State) (v : Oasis) : (State.setOas s v).dtime = s.dtime := rfl
@[simp] theorem State.set_oas_tick (s : State) (v : Oasis) : (State.setOas s v).tick = s.tick := rfl
@[simp] theorem State.set_oas_fresh (s : State) (v : Oasis) : (State.setOas s v).fresh = s.fresh := rfl
@[simp] theorem State.set_oas_store (s : State) (v : Oasis) : (State.setOas s v).store = s.store := rfl
@[simp] theorem State.set_oas_arr (s : State) (v : Oasis) : (State.setOas s v).arr = s.arr := rfl
@[simp] theorem State.set_oas_eng (s : State) (v : Oasis) : (State.setOas s v).eng = s.eng := rfl
@[simp] theorem State.set_oas_oas (s : State) (v : Oasis) : (State.setOas s v).oas = v := rfl
@[simp] theorem State.set_oas_flt (s : State) (v : Oasis) : (State.setOas s v).flt = s.flt := rfl
@[simp] theorem State.set_oas_vtf (s : State) (v : Oasis) : (State.setOas s v).vtf = s.vtf := rfl
@[simp] theorem State.set_oas_link (s : State) (v : Oasis) : (State.setOas s v).link = s.link := rfl
@[simp] theorem State.set_oas_side (s : State) (v : Oasis) : (State.setOas s v).side = s.side := rfl
@[simp] theorem State.set_oas_boot (s : State) (v : Oasis) : (State.setOas s v).boot = s.boot := rfl
@[simp] theorem State.set_oas_wadi (s : State) (v : Oasis) : (State.setOas s v).wadi = s.wadi := rfl
@[simp] theorem State.set_oas_cores (s : State) (v : Oasis) : (State.setOas s v).cores = s.cores := rfl
@[simp] theorem State.set_oas_mmu (s : State) (v : Oasis) : (State.setOas s v).mmu = s.mmu := rfl
@[simp] theorem State.set_oas_cache (s : State) (v : Oasis) : (State.setOas s v).cache = s.cache := rfl
@[simp] theorem State.set_oas_ucode (s : State) (v : Oasis) : (State.setOas s v).ucode = s.ucode := rfl
@[simp] theorem State.set_oas_mem (s : State) (v : Oasis) : (State.setOas s v).mem = s.mem := rfl
@[simp] theorem State.set_oas_pwr (s : State) (v : Oasis) : (State.setOas s v).pwr = s.pwr := rfl
@[simp] theorem State.set_oas_tbx (s : State) (v : Oasis) : (State.setOas s v).tbx = s.tbx := rfl
@[simp] theorem State.set_oas_prev (s : State) (v : Oasis) : (State.setOas s v).prev = s.prev := rfl
@[simp] theorem State.set_oas_jtag (s : State) (v : Oasis) : (State.setOas s v).jtag = s.jtag := rfl
@[simp] theorem State.set_oas_pending (s : State) (v : Oasis) : (State.setOas s v).pending = s.pending := rfl

@[simp] theorem State.set_flt_variant (s : State) (v : Faults) : (State.setFlt s v).variant = s.variant := rfl
@[simp] theorem State.set_flt_dtime (s : State) (v : Faults) : (State.setFlt s v).dtime = s.dtime := rfl
@[simp] theorem State.set_flt_tick (s : State) (v : Faults) : (State.setFlt s v).tick = s.tick := rfl
@[simp] theorem State.set_flt_fresh (s : State) (v : Faults) : (State.setFlt s v).fresh = s.fresh := rfl
@[simp] theorem State.set_flt_store (s : State) (v : Faults) : (State.setFlt s v).store = s.store := rfl
@[simp] theorem State.set_flt_arr (s : State) (v : Faults) : (State.setFlt s v).arr = s.arr := rfl
@[simp] theorem State.set_flt_eng (s : State) (v : Faults) : (State.setFlt s v).eng = s.eng := rfl
@[simp] theorem State.set_flt_oas (s : State) (v : Faults) : (State.setFlt s v).oas = s.oas := rfl
@[simp] theorem State.set_flt_flt (s : State) (v : Faults) : (State.setFlt s v).flt = v := rfl
@[simp] theorem State.set_flt_vtf (s : State) (v : Faults) : (State.setFlt s v).vtf = s.vtf := rfl
@[simp] theorem State.set_flt_link (s : State) (v : Faults) : (State.setFlt s v).link = s.link := rfl
@[simp] theorem State.set_flt_side (s : State) (v : Faults) : (State.setFlt s v).side = s.side := rfl
@[simp] theorem State.set_flt_boot (s : State) (v : Faults) : (State.setFlt s v).boot = s.boot := rfl
@[simp] theorem State.set_flt_wadi (s : State) (v : Faults) : (State.setFlt s v).wadi = s.wadi := rfl
@[simp] theorem State.set_flt_cores (s : State) (v : Faults) : (State.setFlt s v).cores = s.cores := rfl
@[simp] theorem State.set_flt_mmu (s : State) (v : Faults) : (State.setFlt s v).mmu = s.mmu := rfl
@[simp] theorem State.set_flt_cache (s : State) (v : Faults) : (State.setFlt s v).cache = s.cache := rfl
@[simp] theorem State.set_flt_ucode (s : State) (v : Faults) : (State.setFlt s v).ucode = s.ucode := rfl
@[simp] theorem State.set_flt_mem (s : State) (v : Faults) : (State.setFlt s v).mem = s.mem := rfl
@[simp] theorem State.set_flt_pwr (s : State) (v : Faults) : (State.setFlt s v).pwr = s.pwr := rfl
@[simp] theorem State.set_flt_tbx (s : State) (v : Faults) : (State.setFlt s v).tbx = s.tbx := rfl
@[simp] theorem State.set_flt_prev (s : State) (v : Faults) : (State.setFlt s v).prev = s.prev := rfl
@[simp] theorem State.set_flt_jtag (s : State) (v : Faults) : (State.setFlt s v).jtag = s.jtag := rfl
@[simp] theorem State.set_flt_pending (s : State) (v : Faults) : (State.setFlt s v).pending = s.pending := rfl

@[simp] theorem State.set_vtf_variant (s : State) (v : Trust) : (State.setVtf s v).variant = s.variant := rfl
@[simp] theorem State.set_vtf_dtime (s : State) (v : Trust) : (State.setVtf s v).dtime = s.dtime := rfl
@[simp] theorem State.set_vtf_tick (s : State) (v : Trust) : (State.setVtf s v).tick = s.tick := rfl
@[simp] theorem State.set_vtf_fresh (s : State) (v : Trust) : (State.setVtf s v).fresh = s.fresh := rfl
@[simp] theorem State.set_vtf_store (s : State) (v : Trust) : (State.setVtf s v).store = s.store := rfl
@[simp] theorem State.set_vtf_arr (s : State) (v : Trust) : (State.setVtf s v).arr = s.arr := rfl
@[simp] theorem State.set_vtf_eng (s : State) (v : Trust) : (State.setVtf s v).eng = s.eng := rfl
@[simp] theorem State.set_vtf_oas (s : State) (v : Trust) : (State.setVtf s v).oas = s.oas := rfl
@[simp] theorem State.set_vtf_flt (s : State) (v : Trust) : (State.setVtf s v).flt = s.flt := rfl
@[simp] theorem State.set_vtf_vtf (s : State) (v : Trust) : (State.setVtf s v).vtf = v := rfl
@[simp] theorem State.set_vtf_link (s : State) (v : Trust) : (State.setVtf s v).link = s.link := rfl
@[simp] theorem State.set_vtf_side (s : State) (v : Trust) : (State.setVtf s v).side = s.side := rfl
@[simp] theorem State.set_vtf_boot (s : State) (v : Trust) : (State.setVtf s v).boot = s.boot := rfl
@[simp] theorem State.set_vtf_wadi (s : State) (v : Trust) : (State.setVtf s v).wadi = s.wadi := rfl
@[simp] theorem State.set_vtf_cores (s : State) (v : Trust) : (State.setVtf s v).cores = s.cores := rfl
@[simp] theorem State.set_vtf_mmu (s : State) (v : Trust) : (State.setVtf s v).mmu = s.mmu := rfl
@[simp] theorem State.set_vtf_cache (s : State) (v : Trust) : (State.setVtf s v).cache = s.cache := rfl
@[simp] theorem State.set_vtf_ucode (s : State) (v : Trust) : (State.setVtf s v).ucode = s.ucode := rfl
@[simp] theorem State.set_vtf_mem (s : State) (v : Trust) : (State.setVtf s v).mem = s.mem := rfl
@[simp] theorem State.set_vtf_pwr (s : State) (v : Trust) : (State.setVtf s v).pwr = s.pwr := rfl
@[simp] theorem State.set_vtf_tbx (s : State) (v : Trust) : (State.setVtf s v).tbx = s.tbx := rfl
@[simp] theorem State.set_vtf_prev (s : State) (v : Trust) : (State.setVtf s v).prev = s.prev := rfl
@[simp] theorem State.set_vtf_jtag (s : State) (v : Trust) : (State.setVtf s v).jtag = s.jtag := rfl
@[simp] theorem State.set_vtf_pending (s : State) (v : Trust) : (State.setVtf s v).pending = s.pending := rfl

@[simp] theorem State.set_link_variant (s : State) (v : Link) : (State.setLink s v).variant = s.variant := rfl
@[simp] theorem State.set_link_dtime (s : State) (v : Link) : (State.setLink s v).dtime = s.dtime := rfl
@[simp] theorem State.set_link_tick (s : State) (v : Link) : (State.setLink s v).tick = s.tick := rfl
@[simp] theorem State.set_link_fresh (s : State) (v : Link) : (State.setLink s v).fresh = s.fresh := rfl
@[simp] theorem State.set_link_store (s : State) (v : Link) : (State.setLink s v).store = s.store := rfl
@[simp] theorem State.set_link_arr (s : State) (v : Link) : (State.setLink s v).arr = s.arr := rfl
@[simp] theorem State.set_link_eng (s : State) (v : Link) : (State.setLink s v).eng = s.eng := rfl
@[simp] theorem State.set_link_oas (s : State) (v : Link) : (State.setLink s v).oas = s.oas := rfl
@[simp] theorem State.set_link_flt (s : State) (v : Link) : (State.setLink s v).flt = s.flt := rfl
@[simp] theorem State.set_link_vtf (s : State) (v : Link) : (State.setLink s v).vtf = s.vtf := rfl
@[simp] theorem State.set_link_link (s : State) (v : Link) : (State.setLink s v).link = v := rfl
@[simp] theorem State.set_link_side (s : State) (v : Link) : (State.setLink s v).side = s.side := rfl
@[simp] theorem State.set_link_boot (s : State) (v : Link) : (State.setLink s v).boot = s.boot := rfl
@[simp] theorem State.set_link_wadi (s : State) (v : Link) : (State.setLink s v).wadi = s.wadi := rfl
@[simp] theorem State.set_link_cores (s : State) (v : Link) : (State.setLink s v).cores = s.cores := rfl
@[simp] theorem State.set_link_mmu (s : State) (v : Link) : (State.setLink s v).mmu = s.mmu := rfl
@[simp] theorem State.set_link_cache (s : State) (v : Link) : (State.setLink s v).cache = s.cache := rfl
@[simp] theorem State.set_link_ucode (s : State) (v : Link) : (State.setLink s v).ucode = s.ucode := rfl
@[simp] theorem State.set_link_mem (s : State) (v : Link) : (State.setLink s v).mem = s.mem := rfl
@[simp] theorem State.set_link_pwr (s : State) (v : Link) : (State.setLink s v).pwr = s.pwr := rfl
@[simp] theorem State.set_link_tbx (s : State) (v : Link) : (State.setLink s v).tbx = s.tbx := rfl
@[simp] theorem State.set_link_prev (s : State) (v : Link) : (State.setLink s v).prev = s.prev := rfl
@[simp] theorem State.set_link_jtag (s : State) (v : Link) : (State.setLink s v).jtag = s.jtag := rfl
@[simp] theorem State.set_link_pending (s : State) (v : Link) : (State.setLink s v).pending = s.pending := rfl

@[simp] theorem State.set_side_variant (s : State) (v : Side) : (State.setSide s v).variant = s.variant := rfl
@[simp] theorem State.set_side_dtime (s : State) (v : Side) : (State.setSide s v).dtime = s.dtime := rfl
@[simp] theorem State.set_side_tick (s : State) (v : Side) : (State.setSide s v).tick = s.tick := rfl
@[simp] theorem State.set_side_fresh (s : State) (v : Side) : (State.setSide s v).fresh = s.fresh := rfl
@[simp] theorem State.set_side_store (s : State) (v : Side) : (State.setSide s v).store = s.store := rfl
@[simp] theorem State.set_side_arr (s : State) (v : Side) : (State.setSide s v).arr = s.arr := rfl
@[simp] theorem State.set_side_eng (s : State) (v : Side) : (State.setSide s v).eng = s.eng := rfl
@[simp] theorem State.set_side_oas (s : State) (v : Side) : (State.setSide s v).oas = s.oas := rfl
@[simp] theorem State.set_side_flt (s : State) (v : Side) : (State.setSide s v).flt = s.flt := rfl
@[simp] theorem State.set_side_vtf (s : State) (v : Side) : (State.setSide s v).vtf = s.vtf := rfl
@[simp] theorem State.set_side_link (s : State) (v : Side) : (State.setSide s v).link = s.link := rfl
@[simp] theorem State.set_side_side (s : State) (v : Side) : (State.setSide s v).side = v := rfl
@[simp] theorem State.set_side_boot (s : State) (v : Side) : (State.setSide s v).boot = s.boot := rfl
@[simp] theorem State.set_side_wadi (s : State) (v : Side) : (State.setSide s v).wadi = s.wadi := rfl
@[simp] theorem State.set_side_cores (s : State) (v : Side) : (State.setSide s v).cores = s.cores := rfl
@[simp] theorem State.set_side_mmu (s : State) (v : Side) : (State.setSide s v).mmu = s.mmu := rfl
@[simp] theorem State.set_side_cache (s : State) (v : Side) : (State.setSide s v).cache = s.cache := rfl
@[simp] theorem State.set_side_ucode (s : State) (v : Side) : (State.setSide s v).ucode = s.ucode := rfl
@[simp] theorem State.set_side_mem (s : State) (v : Side) : (State.setSide s v).mem = s.mem := rfl
@[simp] theorem State.set_side_pwr (s : State) (v : Side) : (State.setSide s v).pwr = s.pwr := rfl
@[simp] theorem State.set_side_tbx (s : State) (v : Side) : (State.setSide s v).tbx = s.tbx := rfl
@[simp] theorem State.set_side_prev (s : State) (v : Side) : (State.setSide s v).prev = s.prev := rfl
@[simp] theorem State.set_side_jtag (s : State) (v : Side) : (State.setSide s v).jtag = s.jtag := rfl
@[simp] theorem State.set_side_pending (s : State) (v : Side) : (State.setSide s v).pending = s.pending := rfl

@[simp] theorem State.set_boot_variant (s : State) (v : Boot) : (State.setBoot s v).variant = s.variant := rfl
@[simp] theorem State.set_boot_dtime (s : State) (v : Boot) : (State.setBoot s v).dtime = s.dtime := rfl
@[simp] theorem State.set_boot_tick (s : State) (v : Boot) : (State.setBoot s v).tick = s.tick := rfl
@[simp] theorem State.set_boot_fresh (s : State) (v : Boot) : (State.setBoot s v).fresh = s.fresh := rfl
@[simp] theorem State.set_boot_store (s : State) (v : Boot) : (State.setBoot s v).store = s.store := rfl
@[simp] theorem State.set_boot_arr (s : State) (v : Boot) : (State.setBoot s v).arr = s.arr := rfl
@[simp] theorem State.set_boot_eng (s : State) (v : Boot) : (State.setBoot s v).eng = s.eng := rfl
@[simp] theorem State.set_boot_oas (s : State) (v : Boot) : (State.setBoot s v).oas = s.oas := rfl
@[simp] theorem State.set_boot_flt (s : State) (v : Boot) : (State.setBoot s v).flt = s.flt := rfl
@[simp] theorem State.set_boot_vtf (s : State) (v : Boot) : (State.setBoot s v).vtf = s.vtf := rfl
@[simp] theorem State.set_boot_link (s : State) (v : Boot) : (State.setBoot s v).link = s.link := rfl
@[simp] theorem State.set_boot_side (s : State) (v : Boot) : (State.setBoot s v).side = s.side := rfl
@[simp] theorem State.set_boot_boot (s : State) (v : Boot) : (State.setBoot s v).boot = v := rfl
@[simp] theorem State.set_boot_wadi (s : State) (v : Boot) : (State.setBoot s v).wadi = s.wadi := rfl
@[simp] theorem State.set_boot_cores (s : State) (v : Boot) : (State.setBoot s v).cores = s.cores := rfl
@[simp] theorem State.set_boot_mmu (s : State) (v : Boot) : (State.setBoot s v).mmu = s.mmu := rfl
@[simp] theorem State.set_boot_cache (s : State) (v : Boot) : (State.setBoot s v).cache = s.cache := rfl
@[simp] theorem State.set_boot_ucode (s : State) (v : Boot) : (State.setBoot s v).ucode = s.ucode := rfl
@[simp] theorem State.set_boot_mem (s : State) (v : Boot) : (State.setBoot s v).mem = s.mem := rfl
@[simp] theorem State.set_boot_pwr (s : State) (v : Boot) : (State.setBoot s v).pwr = s.pwr := rfl
@[simp] theorem State.set_boot_tbx (s : State) (v : Boot) : (State.setBoot s v).tbx = s.tbx := rfl
@[simp] theorem State.set_boot_prev (s : State) (v : Boot) : (State.setBoot s v).prev = s.prev := rfl
@[simp] theorem State.set_boot_jtag (s : State) (v : Boot) : (State.setBoot s v).jtag = s.jtag := rfl
@[simp] theorem State.set_boot_pending (s : State) (v : Boot) : (State.setBoot s v).pending = s.pending := rfl

@[simp] theorem State.set_wadi_variant (s : State) (v : Wadi) : (State.setWadi s v).variant = s.variant := rfl
@[simp] theorem State.set_wadi_dtime (s : State) (v : Wadi) : (State.setWadi s v).dtime = s.dtime := rfl
@[simp] theorem State.set_wadi_tick (s : State) (v : Wadi) : (State.setWadi s v).tick = s.tick := rfl
@[simp] theorem State.set_wadi_fresh (s : State) (v : Wadi) : (State.setWadi s v).fresh = s.fresh := rfl
@[simp] theorem State.set_wadi_store (s : State) (v : Wadi) : (State.setWadi s v).store = s.store := rfl
@[simp] theorem State.set_wadi_arr (s : State) (v : Wadi) : (State.setWadi s v).arr = s.arr := rfl
@[simp] theorem State.set_wadi_eng (s : State) (v : Wadi) : (State.setWadi s v).eng = s.eng := rfl
@[simp] theorem State.set_wadi_oas (s : State) (v : Wadi) : (State.setWadi s v).oas = s.oas := rfl
@[simp] theorem State.set_wadi_flt (s : State) (v : Wadi) : (State.setWadi s v).flt = s.flt := rfl
@[simp] theorem State.set_wadi_vtf (s : State) (v : Wadi) : (State.setWadi s v).vtf = s.vtf := rfl
@[simp] theorem State.set_wadi_link (s : State) (v : Wadi) : (State.setWadi s v).link = s.link := rfl
@[simp] theorem State.set_wadi_side (s : State) (v : Wadi) : (State.setWadi s v).side = s.side := rfl
@[simp] theorem State.set_wadi_boot (s : State) (v : Wadi) : (State.setWadi s v).boot = s.boot := rfl
@[simp] theorem State.set_wadi_wadi (s : State) (v : Wadi) : (State.setWadi s v).wadi = v := rfl
@[simp] theorem State.set_wadi_cores (s : State) (v : Wadi) : (State.setWadi s v).cores = s.cores := rfl
@[simp] theorem State.set_wadi_mmu (s : State) (v : Wadi) : (State.setWadi s v).mmu = s.mmu := rfl
@[simp] theorem State.set_wadi_cache (s : State) (v : Wadi) : (State.setWadi s v).cache = s.cache := rfl
@[simp] theorem State.set_wadi_ucode (s : State) (v : Wadi) : (State.setWadi s v).ucode = s.ucode := rfl
@[simp] theorem State.set_wadi_mem (s : State) (v : Wadi) : (State.setWadi s v).mem = s.mem := rfl
@[simp] theorem State.set_wadi_pwr (s : State) (v : Wadi) : (State.setWadi s v).pwr = s.pwr := rfl
@[simp] theorem State.set_wadi_tbx (s : State) (v : Wadi) : (State.setWadi s v).tbx = s.tbx := rfl
@[simp] theorem State.set_wadi_prev (s : State) (v : Wadi) : (State.setWadi s v).prev = s.prev := rfl
@[simp] theorem State.set_wadi_jtag (s : State) (v : Wadi) : (State.setWadi s v).jtag = s.jtag := rfl
@[simp] theorem State.set_wadi_pending (s : State) (v : Wadi) : (State.setWadi s v).pending = s.pending := rfl

@[simp] theorem State.set_cores_variant (s : State) (v : Vector Core 16) : (State.setCores s v).variant = s.variant := rfl
@[simp] theorem State.set_cores_dtime (s : State) (v : Vector Core 16) : (State.setCores s v).dtime = s.dtime := rfl
@[simp] theorem State.set_cores_tick (s : State) (v : Vector Core 16) : (State.setCores s v).tick = s.tick := rfl
@[simp] theorem State.set_cores_fresh (s : State) (v : Vector Core 16) : (State.setCores s v).fresh = s.fresh := rfl
@[simp] theorem State.set_cores_store (s : State) (v : Vector Core 16) : (State.setCores s v).store = s.store := rfl
@[simp] theorem State.set_cores_arr (s : State) (v : Vector Core 16) : (State.setCores s v).arr = s.arr := rfl
@[simp] theorem State.set_cores_eng (s : State) (v : Vector Core 16) : (State.setCores s v).eng = s.eng := rfl
@[simp] theorem State.set_cores_oas (s : State) (v : Vector Core 16) : (State.setCores s v).oas = s.oas := rfl
@[simp] theorem State.set_cores_flt (s : State) (v : Vector Core 16) : (State.setCores s v).flt = s.flt := rfl
@[simp] theorem State.set_cores_vtf (s : State) (v : Vector Core 16) : (State.setCores s v).vtf = s.vtf := rfl
@[simp] theorem State.set_cores_link (s : State) (v : Vector Core 16) : (State.setCores s v).link = s.link := rfl
@[simp] theorem State.set_cores_side (s : State) (v : Vector Core 16) : (State.setCores s v).side = s.side := rfl
@[simp] theorem State.set_cores_boot (s : State) (v : Vector Core 16) : (State.setCores s v).boot = s.boot := rfl
@[simp] theorem State.set_cores_wadi (s : State) (v : Vector Core 16) : (State.setCores s v).wadi = s.wadi := rfl
@[simp] theorem State.set_cores_cores (s : State) (v : Vector Core 16) : (State.setCores s v).cores = v := rfl
@[simp] theorem State.set_cores_mmu (s : State) (v : Vector Core 16) : (State.setCores s v).mmu = s.mmu := rfl
@[simp] theorem State.set_cores_cache (s : State) (v : Vector Core 16) : (State.setCores s v).cache = s.cache := rfl
@[simp] theorem State.set_cores_ucode (s : State) (v : Vector Core 16) : (State.setCores s v).ucode = s.ucode := rfl
@[simp] theorem State.set_cores_mem (s : State) (v : Vector Core 16) : (State.setCores s v).mem = s.mem := rfl
@[simp] theorem State.set_cores_pwr (s : State) (v : Vector Core 16) : (State.setCores s v).pwr = s.pwr := rfl
@[simp] theorem State.set_cores_tbx (s : State) (v : Vector Core 16) : (State.setCores s v).tbx = s.tbx := rfl
@[simp] theorem State.set_cores_prev (s : State) (v : Vector Core 16) : (State.setCores s v).prev = s.prev := rfl
@[simp] theorem State.set_cores_jtag (s : State) (v : Vector Core 16) : (State.setCores s v).jtag = s.jtag := rfl
@[simp] theorem State.set_cores_pending (s : State) (v : Vector Core 16) : (State.setCores s v).pending = s.pending := rfl

@[simp] theorem State.set_mmu_variant (s : State) (v : Mmu) : (State.setMmu s v).variant = s.variant := rfl
@[simp] theorem State.set_mmu_dtime (s : State) (v : Mmu) : (State.setMmu s v).dtime = s.dtime := rfl
@[simp] theorem State.set_mmu_tick (s : State) (v : Mmu) : (State.setMmu s v).tick = s.tick := rfl
@[simp] theorem State.set_mmu_fresh (s : State) (v : Mmu) : (State.setMmu s v).fresh = s.fresh := rfl
@[simp] theorem State.set_mmu_store (s : State) (v : Mmu) : (State.setMmu s v).store = s.store := rfl
@[simp] theorem State.set_mmu_arr (s : State) (v : Mmu) : (State.setMmu s v).arr = s.arr := rfl
@[simp] theorem State.set_mmu_eng (s : State) (v : Mmu) : (State.setMmu s v).eng = s.eng := rfl
@[simp] theorem State.set_mmu_oas (s : State) (v : Mmu) : (State.setMmu s v).oas = s.oas := rfl
@[simp] theorem State.set_mmu_flt (s : State) (v : Mmu) : (State.setMmu s v).flt = s.flt := rfl
@[simp] theorem State.set_mmu_vtf (s : State) (v : Mmu) : (State.setMmu s v).vtf = s.vtf := rfl
@[simp] theorem State.set_mmu_link (s : State) (v : Mmu) : (State.setMmu s v).link = s.link := rfl
@[simp] theorem State.set_mmu_side (s : State) (v : Mmu) : (State.setMmu s v).side = s.side := rfl
@[simp] theorem State.set_mmu_boot (s : State) (v : Mmu) : (State.setMmu s v).boot = s.boot := rfl
@[simp] theorem State.set_mmu_wadi (s : State) (v : Mmu) : (State.setMmu s v).wadi = s.wadi := rfl
@[simp] theorem State.set_mmu_cores (s : State) (v : Mmu) : (State.setMmu s v).cores = s.cores := rfl
@[simp] theorem State.set_mmu_mmu (s : State) (v : Mmu) : (State.setMmu s v).mmu = v := rfl
@[simp] theorem State.set_mmu_cache (s : State) (v : Mmu) : (State.setMmu s v).cache = s.cache := rfl
@[simp] theorem State.set_mmu_ucode (s : State) (v : Mmu) : (State.setMmu s v).ucode = s.ucode := rfl
@[simp] theorem State.set_mmu_mem (s : State) (v : Mmu) : (State.setMmu s v).mem = s.mem := rfl
@[simp] theorem State.set_mmu_pwr (s : State) (v : Mmu) : (State.setMmu s v).pwr = s.pwr := rfl
@[simp] theorem State.set_mmu_tbx (s : State) (v : Mmu) : (State.setMmu s v).tbx = s.tbx := rfl
@[simp] theorem State.set_mmu_prev (s : State) (v : Mmu) : (State.setMmu s v).prev = s.prev := rfl
@[simp] theorem State.set_mmu_jtag (s : State) (v : Mmu) : (State.setMmu s v).jtag = s.jtag := rfl
@[simp] theorem State.set_mmu_pending (s : State) (v : Mmu) : (State.setMmu s v).pending = s.pending := rfl

@[simp] theorem State.set_cache_variant (s : State) (v : Cache) : (State.setCache s v).variant = s.variant := rfl
@[simp] theorem State.set_cache_dtime (s : State) (v : Cache) : (State.setCache s v).dtime = s.dtime := rfl
@[simp] theorem State.set_cache_tick (s : State) (v : Cache) : (State.setCache s v).tick = s.tick := rfl
@[simp] theorem State.set_cache_fresh (s : State) (v : Cache) : (State.setCache s v).fresh = s.fresh := rfl
@[simp] theorem State.set_cache_store (s : State) (v : Cache) : (State.setCache s v).store = s.store := rfl
@[simp] theorem State.set_cache_arr (s : State) (v : Cache) : (State.setCache s v).arr = s.arr := rfl
@[simp] theorem State.set_cache_eng (s : State) (v : Cache) : (State.setCache s v).eng = s.eng := rfl
@[simp] theorem State.set_cache_oas (s : State) (v : Cache) : (State.setCache s v).oas = s.oas := rfl
@[simp] theorem State.set_cache_flt (s : State) (v : Cache) : (State.setCache s v).flt = s.flt := rfl
@[simp] theorem State.set_cache_vtf (s : State) (v : Cache) : (State.setCache s v).vtf = s.vtf := rfl
@[simp] theorem State.set_cache_link (s : State) (v : Cache) : (State.setCache s v).link = s.link := rfl
@[simp] theorem State.set_cache_side (s : State) (v : Cache) : (State.setCache s v).side = s.side := rfl
@[simp] theorem State.set_cache_boot (s : State) (v : Cache) : (State.setCache s v).boot = s.boot := rfl
@[simp] theorem State.set_cache_wadi (s : State) (v : Cache) : (State.setCache s v).wadi = s.wadi := rfl
@[simp] theorem State.set_cache_cores (s : State) (v : Cache) : (State.setCache s v).cores = s.cores := rfl
@[simp] theorem State.set_cache_mmu (s : State) (v : Cache) : (State.setCache s v).mmu = s.mmu := rfl
@[simp] theorem State.set_cache_cache (s : State) (v : Cache) : (State.setCache s v).cache = v := rfl
@[simp] theorem State.set_cache_ucode (s : State) (v : Cache) : (State.setCache s v).ucode = s.ucode := rfl
@[simp] theorem State.set_cache_mem (s : State) (v : Cache) : (State.setCache s v).mem = s.mem := rfl
@[simp] theorem State.set_cache_pwr (s : State) (v : Cache) : (State.setCache s v).pwr = s.pwr := rfl
@[simp] theorem State.set_cache_tbx (s : State) (v : Cache) : (State.setCache s v).tbx = s.tbx := rfl
@[simp] theorem State.set_cache_prev (s : State) (v : Cache) : (State.setCache s v).prev = s.prev := rfl
@[simp] theorem State.set_cache_jtag (s : State) (v : Cache) : (State.setCache s v).jtag = s.jtag := rfl
@[simp] theorem State.set_cache_pending (s : State) (v : Cache) : (State.setCache s v).pending = s.pending := rfl

@[simp] theorem State.set_ucode_variant (s : State) (v : Ucode) : (State.setUcode s v).variant = s.variant := rfl
@[simp] theorem State.set_ucode_dtime (s : State) (v : Ucode) : (State.setUcode s v).dtime = s.dtime := rfl
@[simp] theorem State.set_ucode_tick (s : State) (v : Ucode) : (State.setUcode s v).tick = s.tick := rfl
@[simp] theorem State.set_ucode_fresh (s : State) (v : Ucode) : (State.setUcode s v).fresh = s.fresh := rfl
@[simp] theorem State.set_ucode_store (s : State) (v : Ucode) : (State.setUcode s v).store = s.store := rfl
@[simp] theorem State.set_ucode_arr (s : State) (v : Ucode) : (State.setUcode s v).arr = s.arr := rfl
@[simp] theorem State.set_ucode_eng (s : State) (v : Ucode) : (State.setUcode s v).eng = s.eng := rfl
@[simp] theorem State.set_ucode_oas (s : State) (v : Ucode) : (State.setUcode s v).oas = s.oas := rfl
@[simp] theorem State.set_ucode_flt (s : State) (v : Ucode) : (State.setUcode s v).flt = s.flt := rfl
@[simp] theorem State.set_ucode_vtf (s : State) (v : Ucode) : (State.setUcode s v).vtf = s.vtf := rfl
@[simp] theorem State.set_ucode_link (s : State) (v : Ucode) : (State.setUcode s v).link = s.link := rfl
@[simp] theorem State.set_ucode_side (s : State) (v : Ucode) : (State.setUcode s v).side = s.side := rfl
@[simp] theorem State.set_ucode_boot (s : State) (v : Ucode) : (State.setUcode s v).boot = s.boot := rfl
@[simp] theorem State.set_ucode_wadi (s : State) (v : Ucode) : (State.setUcode s v).wadi = s.wadi := rfl
@[simp] theorem State.set_ucode_cores (s : State) (v : Ucode) : (State.setUcode s v).cores = s.cores := rfl
@[simp] theorem State.set_ucode_mmu (s : State) (v : Ucode) : (State.setUcode s v).mmu = s.mmu := rfl
@[simp] theorem State.set_ucode_cache (s : State) (v : Ucode) : (State.setUcode s v).cache = s.cache := rfl
@[simp] theorem State.set_ucode_ucode (s : State) (v : Ucode) : (State.setUcode s v).ucode = v := rfl
@[simp] theorem State.set_ucode_mem (s : State) (v : Ucode) : (State.setUcode s v).mem = s.mem := rfl
@[simp] theorem State.set_ucode_pwr (s : State) (v : Ucode) : (State.setUcode s v).pwr = s.pwr := rfl
@[simp] theorem State.set_ucode_tbx (s : State) (v : Ucode) : (State.setUcode s v).tbx = s.tbx := rfl
@[simp] theorem State.set_ucode_prev (s : State) (v : Ucode) : (State.setUcode s v).prev = s.prev := rfl
@[simp] theorem State.set_ucode_jtag (s : State) (v : Ucode) : (State.setUcode s v).jtag = s.jtag := rfl
@[simp] theorem State.set_ucode_pending (s : State) (v : Ucode) : (State.setUcode s v).pending = s.pending := rfl

@[simp] theorem State.set_mem_variant (s : State) (v : MemSt) : (State.setMem s v).variant = s.variant := rfl
@[simp] theorem State.set_mem_dtime (s : State) (v : MemSt) : (State.setMem s v).dtime = s.dtime := rfl
@[simp] theorem State.set_mem_tick (s : State) (v : MemSt) : (State.setMem s v).tick = s.tick := rfl
@[simp] theorem State.set_mem_fresh (s : State) (v : MemSt) : (State.setMem s v).fresh = s.fresh := rfl
@[simp] theorem State.set_mem_store (s : State) (v : MemSt) : (State.setMem s v).store = s.store := rfl
@[simp] theorem State.set_mem_arr (s : State) (v : MemSt) : (State.setMem s v).arr = s.arr := rfl
@[simp] theorem State.set_mem_eng (s : State) (v : MemSt) : (State.setMem s v).eng = s.eng := rfl
@[simp] theorem State.set_mem_oas (s : State) (v : MemSt) : (State.setMem s v).oas = s.oas := rfl
@[simp] theorem State.set_mem_flt (s : State) (v : MemSt) : (State.setMem s v).flt = s.flt := rfl
@[simp] theorem State.set_mem_vtf (s : State) (v : MemSt) : (State.setMem s v).vtf = s.vtf := rfl
@[simp] theorem State.set_mem_link (s : State) (v : MemSt) : (State.setMem s v).link = s.link := rfl
@[simp] theorem State.set_mem_side (s : State) (v : MemSt) : (State.setMem s v).side = s.side := rfl
@[simp] theorem State.set_mem_boot (s : State) (v : MemSt) : (State.setMem s v).boot = s.boot := rfl
@[simp] theorem State.set_mem_wadi (s : State) (v : MemSt) : (State.setMem s v).wadi = s.wadi := rfl
@[simp] theorem State.set_mem_cores (s : State) (v : MemSt) : (State.setMem s v).cores = s.cores := rfl
@[simp] theorem State.set_mem_mmu (s : State) (v : MemSt) : (State.setMem s v).mmu = s.mmu := rfl
@[simp] theorem State.set_mem_cache (s : State) (v : MemSt) : (State.setMem s v).cache = s.cache := rfl
@[simp] theorem State.set_mem_ucode (s : State) (v : MemSt) : (State.setMem s v).ucode = s.ucode := rfl
@[simp] theorem State.set_mem_mem (s : State) (v : MemSt) : (State.setMem s v).mem = v := rfl
@[simp] theorem State.set_mem_pwr (s : State) (v : MemSt) : (State.setMem s v).pwr = s.pwr := rfl
@[simp] theorem State.set_mem_tbx (s : State) (v : MemSt) : (State.setMem s v).tbx = s.tbx := rfl
@[simp] theorem State.set_mem_prev (s : State) (v : MemSt) : (State.setMem s v).prev = s.prev := rfl
@[simp] theorem State.set_mem_jtag (s : State) (v : MemSt) : (State.setMem s v).jtag = s.jtag := rfl
@[simp] theorem State.set_mem_pending (s : State) (v : MemSt) : (State.setMem s v).pending = s.pending := rfl

@[simp] theorem State.set_pwr_variant (s : State) (v : Pwr) : (State.setPwr s v).variant = s.variant := rfl
@[simp] theorem State.set_pwr_dtime (s : State) (v : Pwr) : (State.setPwr s v).dtime = s.dtime := rfl
@[simp] theorem State.set_pwr_tick (s : State) (v : Pwr) : (State.setPwr s v).tick = s.tick := rfl
@[simp] theorem State.set_pwr_fresh (s : State) (v : Pwr) : (State.setPwr s v).fresh = s.fresh := rfl
@[simp] theorem State.set_pwr_store (s : State) (v : Pwr) : (State.setPwr s v).store = s.store := rfl
@[simp] theorem State.set_pwr_arr (s : State) (v : Pwr) : (State.setPwr s v).arr = s.arr := rfl
@[simp] theorem State.set_pwr_eng (s : State) (v : Pwr) : (State.setPwr s v).eng = s.eng := rfl
@[simp] theorem State.set_pwr_oas (s : State) (v : Pwr) : (State.setPwr s v).oas = s.oas := rfl
@[simp] theorem State.set_pwr_flt (s : State) (v : Pwr) : (State.setPwr s v).flt = s.flt := rfl
@[simp] theorem State.set_pwr_vtf (s : State) (v : Pwr) : (State.setPwr s v).vtf = s.vtf := rfl
@[simp] theorem State.set_pwr_link (s : State) (v : Pwr) : (State.setPwr s v).link = s.link := rfl
@[simp] theorem State.set_pwr_side (s : State) (v : Pwr) : (State.setPwr s v).side = s.side := rfl
@[simp] theorem State.set_pwr_boot (s : State) (v : Pwr) : (State.setPwr s v).boot = s.boot := rfl
@[simp] theorem State.set_pwr_wadi (s : State) (v : Pwr) : (State.setPwr s v).wadi = s.wadi := rfl
@[simp] theorem State.set_pwr_cores (s : State) (v : Pwr) : (State.setPwr s v).cores = s.cores := rfl
@[simp] theorem State.set_pwr_mmu (s : State) (v : Pwr) : (State.setPwr s v).mmu = s.mmu := rfl
@[simp] theorem State.set_pwr_cache (s : State) (v : Pwr) : (State.setPwr s v).cache = s.cache := rfl
@[simp] theorem State.set_pwr_ucode (s : State) (v : Pwr) : (State.setPwr s v).ucode = s.ucode := rfl
@[simp] theorem State.set_pwr_mem (s : State) (v : Pwr) : (State.setPwr s v).mem = s.mem := rfl
@[simp] theorem State.set_pwr_pwr (s : State) (v : Pwr) : (State.setPwr s v).pwr = v := rfl
@[simp] theorem State.set_pwr_tbx (s : State) (v : Pwr) : (State.setPwr s v).tbx = s.tbx := rfl
@[simp] theorem State.set_pwr_prev (s : State) (v : Pwr) : (State.setPwr s v).prev = s.prev := rfl
@[simp] theorem State.set_pwr_jtag (s : State) (v : Pwr) : (State.setPwr s v).jtag = s.jtag := rfl
@[simp] theorem State.set_pwr_pending (s : State) (v : Pwr) : (State.setPwr s v).pending = s.pending := rfl

@[simp] theorem State.set_tbx_variant (s : State) (v : Tbx) : (State.setTbx s v).variant = s.variant := rfl
@[simp] theorem State.set_tbx_dtime (s : State) (v : Tbx) : (State.setTbx s v).dtime = s.dtime := rfl
@[simp] theorem State.set_tbx_tick (s : State) (v : Tbx) : (State.setTbx s v).tick = s.tick := rfl
@[simp] theorem State.set_tbx_fresh (s : State) (v : Tbx) : (State.setTbx s v).fresh = s.fresh := rfl
@[simp] theorem State.set_tbx_store (s : State) (v : Tbx) : (State.setTbx s v).store = s.store := rfl
@[simp] theorem State.set_tbx_arr (s : State) (v : Tbx) : (State.setTbx s v).arr = s.arr := rfl
@[simp] theorem State.set_tbx_eng (s : State) (v : Tbx) : (State.setTbx s v).eng = s.eng := rfl
@[simp] theorem State.set_tbx_oas (s : State) (v : Tbx) : (State.setTbx s v).oas = s.oas := rfl
@[simp] theorem State.set_tbx_flt (s : State) (v : Tbx) : (State.setTbx s v).flt = s.flt := rfl
@[simp] theorem State.set_tbx_vtf (s : State) (v : Tbx) : (State.setTbx s v).vtf = s.vtf := rfl
@[simp] theorem State.set_tbx_link (s : State) (v : Tbx) : (State.setTbx s v).link = s.link := rfl
@[simp] theorem State.set_tbx_side (s : State) (v : Tbx) : (State.setTbx s v).side = s.side := rfl
@[simp] theorem State.set_tbx_boot (s : State) (v : Tbx) : (State.setTbx s v).boot = s.boot := rfl
@[simp] theorem State.set_tbx_wadi (s : State) (v : Tbx) : (State.setTbx s v).wadi = s.wadi := rfl
@[simp] theorem State.set_tbx_cores (s : State) (v : Tbx) : (State.setTbx s v).cores = s.cores := rfl
@[simp] theorem State.set_tbx_mmu (s : State) (v : Tbx) : (State.setTbx s v).mmu = s.mmu := rfl
@[simp] theorem State.set_tbx_cache (s : State) (v : Tbx) : (State.setTbx s v).cache = s.cache := rfl
@[simp] theorem State.set_tbx_ucode (s : State) (v : Tbx) : (State.setTbx s v).ucode = s.ucode := rfl
@[simp] theorem State.set_tbx_mem (s : State) (v : Tbx) : (State.setTbx s v).mem = s.mem := rfl
@[simp] theorem State.set_tbx_pwr (s : State) (v : Tbx) : (State.setTbx s v).pwr = s.pwr := rfl
@[simp] theorem State.set_tbx_tbx (s : State) (v : Tbx) : (State.setTbx s v).tbx = v := rfl
@[simp] theorem State.set_tbx_prev (s : State) (v : Tbx) : (State.setTbx s v).prev = s.prev := rfl
@[simp] theorem State.set_tbx_jtag (s : State) (v : Tbx) : (State.setTbx s v).jtag = s.jtag := rfl
@[simp] theorem State.set_tbx_pending (s : State) (v : Tbx) : (State.setTbx s v).pending = s.pending := rfl

@[simp] theorem State.set_prev_variant (s : State) (v : EndState) : (State.setPrev s v).variant = s.variant := rfl
@[simp] theorem State.set_prev_dtime (s : State) (v : EndState) : (State.setPrev s v).dtime = s.dtime := rfl
@[simp] theorem State.set_prev_tick (s : State) (v : EndState) : (State.setPrev s v).tick = s.tick := rfl
@[simp] theorem State.set_prev_fresh (s : State) (v : EndState) : (State.setPrev s v).fresh = s.fresh := rfl
@[simp] theorem State.set_prev_store (s : State) (v : EndState) : (State.setPrev s v).store = s.store := rfl
@[simp] theorem State.set_prev_arr (s : State) (v : EndState) : (State.setPrev s v).arr = s.arr := rfl
@[simp] theorem State.set_prev_eng (s : State) (v : EndState) : (State.setPrev s v).eng = s.eng := rfl
@[simp] theorem State.set_prev_oas (s : State) (v : EndState) : (State.setPrev s v).oas = s.oas := rfl
@[simp] theorem State.set_prev_flt (s : State) (v : EndState) : (State.setPrev s v).flt = s.flt := rfl
@[simp] theorem State.set_prev_vtf (s : State) (v : EndState) : (State.setPrev s v).vtf = s.vtf := rfl
@[simp] theorem State.set_prev_link (s : State) (v : EndState) : (State.setPrev s v).link = s.link := rfl
@[simp] theorem State.set_prev_side (s : State) (v : EndState) : (State.setPrev s v).side = s.side := rfl
@[simp] theorem State.set_prev_boot (s : State) (v : EndState) : (State.setPrev s v).boot = s.boot := rfl
@[simp] theorem State.set_prev_wadi (s : State) (v : EndState) : (State.setPrev s v).wadi = s.wadi := rfl
@[simp] theorem State.set_prev_cores (s : State) (v : EndState) : (State.setPrev s v).cores = s.cores := rfl
@[simp] theorem State.set_prev_mmu (s : State) (v : EndState) : (State.setPrev s v).mmu = s.mmu := rfl
@[simp] theorem State.set_prev_cache (s : State) (v : EndState) : (State.setPrev s v).cache = s.cache := rfl
@[simp] theorem State.set_prev_ucode (s : State) (v : EndState) : (State.setPrev s v).ucode = s.ucode := rfl
@[simp] theorem State.set_prev_mem (s : State) (v : EndState) : (State.setPrev s v).mem = s.mem := rfl
@[simp] theorem State.set_prev_pwr (s : State) (v : EndState) : (State.setPrev s v).pwr = s.pwr := rfl
@[simp] theorem State.set_prev_tbx (s : State) (v : EndState) : (State.setPrev s v).tbx = s.tbx := rfl
@[simp] theorem State.set_prev_prev (s : State) (v : EndState) : (State.setPrev s v).prev = v := rfl
@[simp] theorem State.set_prev_jtag (s : State) (v : EndState) : (State.setPrev s v).jtag = s.jtag := rfl
@[simp] theorem State.set_prev_pending (s : State) (v : EndState) : (State.setPrev s v).pending = s.pending := rfl

@[simp] theorem State.set_jtag_variant (s : State) (v : Jtag) : (State.setJtag s v).variant = s.variant := rfl
@[simp] theorem State.set_jtag_dtime (s : State) (v : Jtag) : (State.setJtag s v).dtime = s.dtime := rfl
@[simp] theorem State.set_jtag_tick (s : State) (v : Jtag) : (State.setJtag s v).tick = s.tick := rfl
@[simp] theorem State.set_jtag_fresh (s : State) (v : Jtag) : (State.setJtag s v).fresh = s.fresh := rfl
@[simp] theorem State.set_jtag_store (s : State) (v : Jtag) : (State.setJtag s v).store = s.store := rfl
@[simp] theorem State.set_jtag_arr (s : State) (v : Jtag) : (State.setJtag s v).arr = s.arr := rfl
@[simp] theorem State.set_jtag_eng (s : State) (v : Jtag) : (State.setJtag s v).eng = s.eng := rfl
@[simp] theorem State.set_jtag_oas (s : State) (v : Jtag) : (State.setJtag s v).oas = s.oas := rfl
@[simp] theorem State.set_jtag_flt (s : State) (v : Jtag) : (State.setJtag s v).flt = s.flt := rfl
@[simp] theorem State.set_jtag_vtf (s : State) (v : Jtag) : (State.setJtag s v).vtf = s.vtf := rfl
@[simp] theorem State.set_jtag_link (s : State) (v : Jtag) : (State.setJtag s v).link = s.link := rfl
@[simp] theorem State.set_jtag_side (s : State) (v : Jtag) : (State.setJtag s v).side = s.side := rfl
@[simp] theorem State.set_jtag_boot (s : State) (v : Jtag) : (State.setJtag s v).boot = s.boot := rfl
@[simp] theorem State.set_jtag_wadi (s : State) (v : Jtag) : (State.setJtag s v).wadi = s.wadi := rfl
@[simp] theorem State.set_jtag_cores (s : State) (v : Jtag) : (State.setJtag s v).cores = s.cores := rfl
@[simp] theorem State.set_jtag_mmu (s : State) (v : Jtag) : (State.setJtag s v).mmu = s.mmu := rfl
@[simp] theorem State.set_jtag_cache (s : State) (v : Jtag) : (State.setJtag s v).cache = s.cache := rfl
@[simp] theorem State.set_jtag_ucode (s : State) (v : Jtag) : (State.setJtag s v).ucode = s.ucode := rfl
@[simp] theorem State.set_jtag_mem (s : State) (v : Jtag) : (State.setJtag s v).mem = s.mem := rfl
@[simp] theorem State.set_jtag_pwr (s : State) (v : Jtag) : (State.setJtag s v).pwr = s.pwr := rfl
@[simp] theorem State.set_jtag_tbx (s : State) (v : Jtag) : (State.setJtag s v).tbx = s.tbx := rfl
@[simp] theorem State.set_jtag_prev (s : State) (v : Jtag) : (State.setJtag s v).prev = s.prev := rfl
@[simp] theorem State.set_jtag_jtag (s : State) (v : Jtag) : (State.setJtag s v).jtag = v := rfl
@[simp] theorem State.set_jtag_pending (s : State) (v : Jtag) : (State.setJtag s v).pending = s.pending := rfl

@[simp] theorem State.set_pending_variant (s : State) (v : List Instr) : (State.setPending s v).variant = s.variant := rfl
@[simp] theorem State.set_pending_dtime (s : State) (v : List Instr) : (State.setPending s v).dtime = s.dtime := rfl
@[simp] theorem State.set_pending_tick (s : State) (v : List Instr) : (State.setPending s v).tick = s.tick := rfl
@[simp] theorem State.set_pending_fresh (s : State) (v : List Instr) : (State.setPending s v).fresh = s.fresh := rfl
@[simp] theorem State.set_pending_store (s : State) (v : List Instr) : (State.setPending s v).store = s.store := rfl
@[simp] theorem State.set_pending_arr (s : State) (v : List Instr) : (State.setPending s v).arr = s.arr := rfl
@[simp] theorem State.set_pending_eng (s : State) (v : List Instr) : (State.setPending s v).eng = s.eng := rfl
@[simp] theorem State.set_pending_oas (s : State) (v : List Instr) : (State.setPending s v).oas = s.oas := rfl
@[simp] theorem State.set_pending_flt (s : State) (v : List Instr) : (State.setPending s v).flt = s.flt := rfl
@[simp] theorem State.set_pending_vtf (s : State) (v : List Instr) : (State.setPending s v).vtf = s.vtf := rfl
@[simp] theorem State.set_pending_link (s : State) (v : List Instr) : (State.setPending s v).link = s.link := rfl
@[simp] theorem State.set_pending_side (s : State) (v : List Instr) : (State.setPending s v).side = s.side := rfl
@[simp] theorem State.set_pending_boot (s : State) (v : List Instr) : (State.setPending s v).boot = s.boot := rfl
@[simp] theorem State.set_pending_wadi (s : State) (v : List Instr) : (State.setPending s v).wadi = s.wadi := rfl
@[simp] theorem State.set_pending_cores (s : State) (v : List Instr) : (State.setPending s v).cores = s.cores := rfl
@[simp] theorem State.set_pending_mmu (s : State) (v : List Instr) : (State.setPending s v).mmu = s.mmu := rfl
@[simp] theorem State.set_pending_cache (s : State) (v : List Instr) : (State.setPending s v).cache = s.cache := rfl
@[simp] theorem State.set_pending_ucode (s : State) (v : List Instr) : (State.setPending s v).ucode = s.ucode := rfl
@[simp] theorem State.set_pending_mem (s : State) (v : List Instr) : (State.setPending s v).mem = s.mem := rfl
@[simp] theorem State.set_pending_pwr (s : State) (v : List Instr) : (State.setPending s v).pwr = s.pwr := rfl
@[simp] theorem State.set_pending_tbx (s : State) (v : List Instr) : (State.setPending s v).tbx = s.tbx := rfl
@[simp] theorem State.set_pending_prev (s : State) (v : List Instr) : (State.setPending s v).prev = s.prev := rfl
@[simp] theorem State.set_pending_jtag (s : State) (v : List Instr) : (State.setPending s v).jtag = s.jtag := rfl
@[simp] theorem State.set_pending_pending (s : State) (v : List Instr) : (State.setPending s v).pending = v := rfl

end Sys2Proof.Machine
end

