-- ==== Sys2Proof/Tests/Slice0.lean ====
section
/-! SUPPORT. The author's own tests: well-formedness, states that meet the statements' hypotheses, and single steps. -/

set_option Elab.async false

namespace Sys2Proof.Tests
open Sys2Proof Sys2Proof.Machine

/-! ## Helpers -/

/-- A released device whose core 0 runs, at L7 with the root capabilities. -/
def up : State := { State.reset with pwr.released := true, cores := vUpd State.reset.cores 0 fun c => { c with running := true } }

/-- The same with words on the operand stack of core 0, the top first. -/
def stk (l : List Word) : State := withBank 0 l up

/-- An instruction of core 0 without prefixes. -/
def at0 (imm : Nat) : Fetch := { core := 0, pre := [], imm := BitVec.ofNat 32 imm, lim := none }

/-- A core changed. -/
def core0 (f : Core → Core) (s : State) : State := updCore s 0 f

/-- What a command leaves, or the state before it where it stops. -/
def after (c : Instr) (s : State) : State := match exec c s with | .next t => t | _ => s

/-! ## Hypotheses of the statements: one state and operands that meet them -/

theorem wit_StackPermutations :
    (∀ p, p ∈ [0x01, 0x02, 0x03, 0x04, 0x05, 0x06, 0x08, 0x09, 0x0A, 0x0B] → Ready (encN p) (at0 0) (stk [tw 0 1, tw 1 2, tw 0xF 3, tw 3 4]))
    ∧ bankOf (stk [tw 0 1, tw 1 2, tw 0xF 3, tw 3 4]) 0 = [tw 0 1, tw 1 2, tw 0xF 3, tw 3 4]
    ∧ Ready (encB 0x07 fun v => decide (13 < v)) (at0 13) (stk (List.replicate 14 (tw 0 1)))
    ∧ Ready (encB 0x07 fun v => decide (13 < v)) (at0 0) (stk [tw 0 1]) := by and_intros <;> decide +kernel

theorem wit_LiteralsTagsAndReferences :
    Ready (encB 0x10 noBad) (at0 0xFF) (stk []) ∧ Ready (encW 0x11) (at0 0xFFFF) (stk []) ∧ Ready (encW 0x12) (at0 0) (stk [])
    ∧ Ready (encW 0x13) (at0 0) (stk []) ∧ Ready (encL 0x14) (at0 0xFFFFFFFF) (stk []) ∧ Ready (encL 0x15) (at0 0) (stk [])
    ∧ Ready (encB 0x0C fun v => !settable v) (at0 1) (stk [tw 0 7]) ∧ (tw 0 7).tag ≠ 0xF
    ∧ Ready (encN 0x16) (at0 0) (stk [tw 0 1, tw 1 2]) ∧ fixRaw (tw 0 1).tag = true ∧ fixRaw (tw 1 2).tag = true
    ∧ Ready (encN 0x17) (at0 0) (stk [tw 0 0xFFFF, tw 5 0, tw 4 1]) ∧ Ready (encN 0x18) (at0 0) (stk [tw 9 1, tw 9 2]) := by and_intros <;> decide +kernel

theorem wit_GenericArithmetic :
    (∀ p, p ∈ [0x30, 0x31, 0x32, 0x33, 0x34, 0x35] → Ready (encN p) (at0 0) (stk [tw 0 2, tw 0 7]))
    ∧ (∀ p, p ∈ [0x30, 0x31, 0x32, 0x34, 0x35] → Ready (encN p) (at0 0) (stk [tw 4 0, tw 0 0]))
    ∧ Ready (encN 0x33) (at0 0) (stk [tw 4 0]) ∧ (tw 4 0).tag ≠ 0xF ∧ (tw 0 0).tag ≠ 0xF ∧ (tw 4 0).tag ≠ 0
    ∧ (0x7FFF : BitVec 16).toInt = (0x7FFE : BitVec 16).toInt + (1 : BitVec 16).toInt
    ∧ (0x8000 : BitVec 16).toInt = (0x8001 : BitVec 16).toInt - (1 : BitVec 16).toInt
    ∧ (0x8000 : BitVec 16).toInt = (0x4000 : BitVec 16).toInt * (0xFFFE : BitVec 16).toInt
    ∧ (0x8001 : BitVec 16).toInt = - (0x7FFF : BitVec 16).toInt
    ∧ (2 : BitVec 16) ≠ 0 ∧ (0xFFFD : BitVec 16).toInt = (0xFFF9 : BitVec 16).toInt.tdiv (2 : BitVec 16).toInt
    ∧ (0xFFFF : BitVec 16).toInt = (0xFFF9 : BitVec 16).toInt.tmod (2 : BitVec 16).toInt := by and_intros <;> decide +kernel

/-- No 16-bit word is one above the largest or below the smallest. -/
theorem wit_GenericArithmetic_overflow :
    (∀ w : BitVec 16, w.toInt ≠ (0x7FFF : BitVec 16).toInt + (1 : BitVec 16).toInt)
    ∧ (∀ w : BitVec 16, w.toInt ≠ (0x8000 : BitVec 16).toInt - (1 : BitVec 16).toInt)
    ∧ (∀ w : BitVec 16, w.toInt ≠ (0x8000 : BitVec 16).toInt * (0xFFFF : BitVec 16).toInt) := by
  refine ⟨fun w => ?_, fun w => ?_, fun w => ?_⟩
  · have h : (0x7FFF : BitVec 16).toInt + (1 : BitVec 16).toInt = 32768 := by and_intros <;> decide +kernel
    rw [h]; have := @BitVec.toInt_lt 16 w; omega
  · have h : (0x8000 : BitVec 16).toInt - (1 : BitVec 16).toInt = -32769 := by and_intros <;> decide +kernel
    rw [h]; have := @BitVec.le_toInt 16 w; omega
  · have h : (0x8000 : BitVec 16).toInt * (0xFFFF : BitVec 16).toInt = 32768 := by and_intros <;> decide +kernel
    rw [h]; have := @BitVec.toInt_lt 16 w; omega

theorem wit_WordAndLongArithmetic :
    rawTag (tw 1 0x8000).tag = true ∧ rawTag (tw 0 0xFFFF).tag = true ∧ rawTag (tw 0xC 0).tag = true ∧ (tw 0 0xFFFF).data ≠ 0 ∧ (tw 1 0).data = 0
    ∧ (∀ p, p ∈ [0x38, 0x39, 0x3A, 0x3B, 0x3C, 0x3D, 0x3E, 0x3F, 0x41, 0x42, 0x43, 0x44] → Ready (encN p) (at0 0) (stk [tw 0 0xFFFF, tw 1 0x8000]))
    ∧ Ready (encN 0x40) (at0 0) (stk [tw 1 3, tw 1 2, tw 1 1])
    ∧ (∀ p, p ∈ [0x4A, 0x4B] → Ready (encN p) (at0 0) (stk [tw 0xC 1, tw 0xC 0, tw 0xC 0xFFFF, tw 0xC 0xFFFF])) := by and_intros <;> decide +kernel

theorem wit_ShiftsRotatesAndCrcs :
    (∀ k, k ∈ [0, 1, 15, 16, 17, 0xFFFF] → ∀ p, p ∈ [0x45, 0x46, 0x47, 0x48, 0x49] →
      Ready (encN p) (at0 0) (stk [tw 0 (BitVec.ofNat 16 k), tw 1 0x8001]))
    ∧ rawTag (tw 1 0x8001).tag = true ∧ fixRaw (tw 0 0).tag = true ∧ (tw 2 0x41).tag ≠ 0xF
    ∧ (∀ i, i ∈ [0, 1] → (at0 i).imm.setWidth 8 = (if (at0 i).imm.getLsbD 0 then (1 : BitVec 8) else 0)
      ∧ Ready (encB 0x75 crcBad) (at0 i) (stk [tw 2 0x41, tw 0 0, tw 0 0]) ∧ Ready (encB 0x76 crcBad) (at0 i) (stk [tw 2 0x41, tw 0 0, tw 0 0]))
    ∧ Ready (encN 0x77) (at0 0) (stk [tw 1 7]) ∧ Ready (encN 0x78) (at0 0) (stk [tw 1 7]) := by and_intros <;> decide +kernel

theorem wit_ComparesWritePredicates :
    (∀ p, p ∈ [0x50, 0x51, 0x52, 0x53, 0x54, 0x55] → Ready (encB p tfBad) (at0 0x11) (stk [tw 0 5, tw 0 5]))
    ∧ (tw 0 5).tag ≠ 0xF ∧ (tw 0 5).tag = 0 ∧ rawTag (tw 0 5).tag = true
    ∧ Ready { encW 0x56 with illAt := tfBadW fun _ => false } (at0 0x0511) (stk [tw 5 0])
    ∧ (∀ k, k ∈ [0, 11] → Ready { encW 0x57 with illAt := tfBadW fun k => decide (11 < k) } (at0 (256 * k + 0x11)) (stk [])) := by and_intros <;> decide +kernel

theorem wit_BranchesCallsAndJumps :
    Ready (encBr 0x60) (at0 0xFFFE) (stk []) ∧ Ready (encBr 0x61) (at0 0x10) (stk [])
    ∧ (∀ p, p ∈ [0x62, 0x63, 0x64] → Ready (encJmp p) (at0 0) (stk [tw 9 0x2000, tw 9 0x010E])) := by and_intros <;> decide +kernel

theorem wit_LoopSetsItsState :
    (∀ n, n ∈ [0, 1, 0xFFFF] → Ready { encW 0x65 with wide := true, xfer := 1 } (at0 4) (stk [tw 0 (BitVec.ofNat 16 n)])
      ∧ fixRaw (tw 0 (BitVec.ofNat 16 n)).tag = true) := by decide +kernel

/-- Domain 0 of core 0 with two pages of 16,384 words: working SRAM at D-space 0, and segment 1, a heap segment, at 0x4000; its heap window is
segment 1. -/
def mapped0 (l : List Word) : State :=
  { stk l with
    mmu.desc := [(0, { Desc.reset with v := true, start := 2, root := 256, hwseg := 1, hwn := 0, hwbase := 0 })]
    mem.sram := [(256, rawW 0xC4C0), (258, rawW 64), (260, rawW 0xD4C0), (262, rawW 512)]
    arr.map := [(1, { mig := false, kind := 1, gen := 0, slot := 5 })] }

/-- Whether an access answers. -/
def okay {α : Type} (x : Res α) : Bool := match x with | .ok _ _ => true | _ => false

/-- What an access answers, if it does. -/
def got {α : Type} (x : Res α) : Option α := match x with | .ok a _ => some a | _ => none

/-- The state an access leaves, if it answers. -/
def left {α : Type} (x : Res α) (s : State) : State := match x with | .ok _ t => t | _ => s

/-- The level that core 0 runs at changed. -/
def lev0 (g : LevelSt → LevelSt) (s : State) : State := core0 (onLevel g) s

theorem wit_LoadsEndAsTheirAccess :
    Ready { encB 0x20 noBad with wide := true } (at0 0xFF) (mapped0 [tw 5 1, tw 4 0])
    ∧ Ready { encW 0x24 with wide := true, space := true } (at0 0) (mapped0 [tw 5 0, tw 4 0]) ∧ hasPre (at0 0).pre 0xDC = false
    ∧ Ready { encW 0x24 with wide := true, space := true } { at0 0xFFFF with pre := [0xDC] } (stk [tw 9 0x0001, tw 9 0x0100])
    ∧ hasPre [0xDC] 0xDC = true ∧ mapped ((0x01000001 : BitVec 32) + dispOf { at0 0xFFFF with pre := [0xDC] }).toNat = true
    ∧ mapped ((0x01000001 : BitVec 32) + dispOf { at0 0xFFFF with pre := [0xDC] } + 1).toNat = true
    ∧ Ready { encB 0x22 noBad with wide := true } (at0 0) (mapped0 [tw 5 0, tw 4 0])
    ∧ got (barrierBase 0 0 (mapped0 [tw 5 0, tw 4 0])) = some 0
    ∧ okay (readBarred 0 false 0 (mapped0 [])) = true ∧ okay (readBarred 0 false 1 (left (readBarred 0 false 0 (mapped0 [])) up)) = true := by
  and_intros <;> decide +kernel

theorem wit_StoresEndAsTheirAccess :
    Ready { encB 0x21 noBad with wide := true } (at0 0) (mapped0 [tw 5 0, tw 4 0, tw 0 7]) ∧ (tw 0 7).tag ≠ 0xF
    ∧ Ready { encB 0x23 noBad with wide := true } (at0 0) (mapped0 [tw 5 0, tw 4 0, tw 5 7, tw 4 7]) ∧ (tw 4 7).tag = 4 ∧ (tw 5 7).tag = 5
    ∧ Ready (encN 0x25) (at0 0) (stk [tw 9 0, tw 9 0x0100, tw 1 0x1234])
    ∧ holdsCap (coreOf up 0) (capIwrite 0x01000000 0x01000001) = true ∧ 0x100000 ≤ 0x01000000
    ∧ holdsCap (coreOf (lev0 (fun k => { k with caps := Vector.replicate 16 Cap.reset }) up) 0) (capIwrite 0x01000000 0x01000001) = false
    ∧ Ready (encN 0x25) (at0 0) (lev0 (fun k => { k with caps := Vector.replicate 16 Cap.reset }) (stk [tw 9 0, tw 9 0x0100, tw 1 7])) := by
  and_intros <;> decide +kernel

/-- A stack with a reference to D-space 0 and a block of `n` entries, and a mask. -/
def block (n : Nat) (m : BitVec 16) : State := lev0 (fun k => { k with msk := m }) (mapped0 (tw 5 0 :: tw 4 0 :: List.replicate n (tw 0 7)))

theorem wit_BlockTransfers :
    (∀ n, n ∈ [1, 14] → (at0 n).imm.setWidth 8 = BitVec.ofNat 8 n ∧
      ∀ m, m ∈ [0, 1, 2 ^ (n - 1), 2 ^ n] → ∀ p, p ∈ [0x26, 0x27] →
        Ready (encB p fun v => decide (v = 0) || decide (14 < v)) (at0 n) (block n (BitVec.ofNat 16 m)))
    ∧ (∀ k, k ∈ [0, 13] → okay (loadThrough 0 0 k (block 14 (BitVec.ofNat 16 (2 ^ k)))) = true)
    ∧ (∀ k, k ∈ [0, 13] → got (barrierBase 0 0 (block 14 (BitVec.ofNat 16 (2 ^ k)))) = some 0
      ∧ okay (storeAt 0 false k (tw 0 7) (tagTrap 4 5) (left (barrierBase 0 0 (block 14 (BitVec.ofNat 16 (2 ^ k)))) up)) = true)
    ∧ (coreOf (block 14 1) 0).slot = none ∧ (at0 14).lim = none
    ∧ Ready (encB 0x26 fun v => decide (v = 0) || decide (14 < v)) { at0 14 with lim := some 0 } (block 14 1) := by
  and_intros <;> decide +kernel

/-- Where an address of domain 0 leads. -/
def leadsTo (dom da : Nat) (s : State) : Option Phys := match translate 0 dom da false s with | .ok (t, _) => some t.phys | .error _ => none

theorem wit_AnchorsTranslateBothWays :
    Ready (encN 0x19) (at0 0) (mapped0 [tw 5 0x4003, tw 4 0]) ∧ leadsTo 0 0x4003 (mapped0 [tw 5 0x4003, tw 4 0]) = some (.seg (131072 + 3))
    ∧ leadsTo 0 0xFFFFFFFF (mapped0 [tw 5 0xFFFF, tw 4 0xFFFF]) = none
    ∧ Ready (encN 0x1A) (at0 0) (mapped0 [tw 0xB 3, tw 0xB 1024, tw 0xB 0])
    ∧ (descOf (mapped0 []) 0).v = true ∧ (descOf (mapped0 []) 0).hwseg.toNat ≤ 0 * 64 + 1024 / 1024
    ∧ 0 * 64 + 1024 / 1024 < (descOf (mapped0 []) 0).hwseg.toNat + 2 ^ (descOf (mapped0 []) 0).hwn.toNat := by
  and_intros <;> decide +kernel

theorem wit_PortInstructionsNeedAuthority :
    Ready (encW 0x28) (at0 0x4000) up ∧ Ready (encN 0x2A) (at0 0) (stk [tw 1 0x4000])
    ∧ Ready (encW 0x29) (at0 0x3C00) (stk [tw 1 0x8000]) ∧ outPasses 0 0x3C00 (tw 1 0x8000) (stk [tw 1 0x8000])
    ∧ Ready (encN 0x2B) (at0 0) (stk [tw 1 0x3C00, tw 0 1]) ∧ outPasses 0 0x3C00 (tw 0 1) (stk [tw 1 0x3C00, tw 0 1])
    ∧ Ready (encW 0x29) (at0 0x1800) (lev0 (fun k => { k with caps := Vector.replicate 16 Cap.reset }) (stk [tw 1 0x9000]))
    ∧ reservedWrite 0x1800 0x9000 = false
    ∧ holdsCap (coreOf (lev0 (fun k => { k with caps := Vector.replicate 16 Cap.reset }) up) 0) (capPort 1 0x1800) = false
    ∧ Ready (encW 0x29) (at0 0x3C00) (stk [tw 4 0]) ∧ rawTag 4 = false := by
  and_intros <;> decide +kernel

/-- Strings at D-space 0 and 0x100 with `n` elements left. -/
def strings (n : Nat) (l : List Word) : State := lev0 (fun k => { k with src := 0, dst := 0x100, cnt := BitVec.ofNat 16 n }) (mapped0 l)

theorem wit_StringElements :
    (∀ n, n ∈ [0, 1] → Ready { encN 0x70 with rep := 1 } (at0 0) (strings n []) ∧ Ready { encB 0x71 tfBad with rep := 2 } (at0 0x11) (strings n [])
      ∧ Ready { encN 0x72 with rep := 1 } (at0 0) (strings n [tw 0 0]) ∧ Ready { encB 0x73 tfBad with rep := 2 } (at0 0x11) (strings n [tw 0 0])
      ∧ Ready { encB 0x74 crcBad with rep := 1 } (at0 0) (strings n [tw 0 0, tw 0 0]))
    ∧ hasPre (at0 0).pre 0xD8 = false ∧ hasPre (at0 0).pre 0xD9 = false ∧ hasPre (at0 0).pre 0xDA = false
    ∧ got (readBarred 0 true 0 (strings 1 [])) = some (tw 0 0)
    ∧ got (readBarred 0 true 0x100 (left (readBarred 0 true 0 (strings 1 [])) up)) = some (tw 0 0)
    ∧ got (readBarred 0 true 0x100 (strings 1 [])) = some (tw 0 0)
    ∧ (tw 0 0).tag ≠ 0xF ∧ (tw 0 0).tag ≠ 8 ∧ (tw 0 0).tag ≠ 0xA := by
  and_intros <;> decide +kernel

theorem wit_ControlStateInstructions :
    (∀ n, n ∈ [1, 192] → Ready (encB 0x82 fun v => decide (v = 0) || decide (192 < v)) (at0 n) up)
    ∧ Ready (encB 0x83 noBad) (at0 0xFF) up
    ∧ (∀ n, n ∈ [0, 1, 2, 3, 4, 5, 6, 7, 8] → Ready (encB 0x84 fun v => decide (8 < v)) (at0 n) (stk [])
      ∧ Ready (encB 0x85 fun v => decide (8 < v)) (at0 n) (stk [tw 9 1, tw 9 2]))
    ∧ fixRaw (tw 1 1).tag = true ∧ Ready (encN 0x86) (at0 0) up ∧ Ready (encN 0x87) (at0 0) (stk [tw 1 0xF]) ∧ Ready (encN 0x88) (at0 0) up
    ∧ Ready { encN 0x89 with xfer := 1 } (at0 0) (stk [tw 9 0, tw 9 0x100]) ∧ Ready { encN 0x8A with xfer := 1 } (at0 0) up := by
  and_intros <;> decide +kernel

/-- Core 0 at a level without capabilities of its own, its LNK_ST naming level 1. -/
def atLevel (n : Nat) : State :=
  core0 (fun x => { x with st := BitVec.ofNat 16 (n * 8192), lv := vUpd x.lv n fun k => { k with lnkSt := 0x2000 } }) up

theorem wit_LevelSwitches :
    Ready { (encB 0x80 fun v => decide (7 < v)) with xfer := 1 } (at0 7) up ∧ lvlOf (coreOf up 0) = 7
    ∧ Ready { (encB 0x80 fun v => decide (7 < v)) with xfer := 1 } (at0 0) up
    ∧ Ready { (encB 0x80 fun v => decide (7 < v)) with xfer := 1 } (at0 7) (atLevel 6) ∧ lvlOf (coreOf (atLevel 6) 0) = 6
    ∧ holdsCap (coreOf (atLevel 6) 0) (capLevel 7) = false
    ∧ holdsCap (coreOf (core0 (fun x => { x with lv := vUpd x.lv 6 fun k => { k with caps := rootCaps } }) (atLevel 6)) 0) (capLevel 7) = true
    ∧ (coreOf (atLevel 6) 0).sync = [] ∧ (vAt (coreOf (atLevel 6) 0).lv 7).nest = false
    ∧ Ready { encN 0x81 with xfer := 1 } (at0 0) (atLevel 0) ∧ lvlOf (coreOf (atLevel 0) 0) < ((curLevel (coreOf (atLevel 0) 0)).lnkSt >>> 13).toNat
    ∧ Ready { encN 0x81 with xfer := 1 } (at0 0) (atLevel 1) ∧ ((curLevel (coreOf (atLevel 1) 0)).lnkSt >>> 13).toNat ≤ lvlOf (coreOf (atLevel 1) 0) := by
  and_intros <;> decide +kernel

theorem wit_CapabilityInstructions :
    Ready (encB 0x90 noBad) (at0 0x1F) (stk [tw 0 0, tw 0 0x4000, tw 0 0x4000, tw 0 0x1300]) ∧ fixRaw (tw 0 0x1300).tag = true
    ∧ capOk { w0 := 0x1300, w1 := 0x4000, w2 := 0x4000, w3 := 0 } = true
    ∧ capInside { w0 := 0x1300, w1 := 0x4000, w2 := 0x4000, w3 := 0 } (capSlot up 0 7 0) = true
    ∧ Ready (encB 0x91 slotBad) (at0 0xF) up
    ∧ Ready { encW 0x92 with illAt := fun v => if bits v 11 5 ≠ 0 then some 1 else none } (at0 0x000) up
    ∧ Ready { encW 0x92 with illAt := fun v => if bits v 11 5 ≠ 0 then some 1 else none } (at0 0x700) up := by
  and_intros <;> decide +kernel

/-- A stack with a reference to D-space 0x200, where four words of an empty capability stand. -/
def capMem : State := (fun s => { s with mem.sram := s.mem.sram ++ [(16896, tw 8 0), (16897, tw 8 0), (16898, tw 8 0), (16899, tw 8 0)] })
  (mapped0 [tw 5 0x200, tw 4 0])

/-- A state after the first `n` checked words of a CSTORE at D-space 0x200. -/
def csAfter : Nat → State
  | 0 => left (barrierBase 0 0x200 capMem) up
  | n + 1 => left (storeCheck 0 false (0x200 + n) (tw 8 0) (tagTrap 4 5) (csAfter n)) up

/-- A state after the first `n` words of a CLOAD at D-space 0x200. -/
def clAfter : Nat → State
  | 0 => left (barrierBase 0 0x200 capMem) up
  | n + 1 => left (readBarred 0 false (0x200 + n) (clAfter n)) up

theorem wit_CapabilityStoreAndLoad :
    bankOf capMem 0 = [tw 5 0x200, tw 4 0] ∧ Ready (encB 0x93 slotBad) (at0 0xF) capMem ∧ Ready (encB 0x94 slotBad) (at0 0xF) capMem
    ∧ got (barrierBase 0 0x200 capMem) = some 0x200
    ∧ (∀ k, k ∈ [0, 1, 2, 3] → okay (storeCheck 0 false (0x200 + k) (tw 8 0) (tagTrap 4 5) (csAfter k)) = true
      ∧ got (readBarred 0 false (0x200 + k) (clAfter k)) = some (tw 8 0)) := by
  and_intros <;> decide +kernel

/-- An instruction of core 0 with prefixes. -/
def pre0 (p : List Byte) (imm : Nat) : Fetch := { at0 imm with pre := p }

theorem wit_DecodeComesBeforeTheGuard :
    cpuOf (.iAdd (pre0 [0x01] 0)) = some (encN 0x30, pre0 [0x01] 0) ∧ prefixesOnly (pre0 [0x01] 0).pre = false
    ∧ prefixesOnly (pre0 [0xDD] 0).pre = true ∧ able 0 up = true ∧ (coreOf up 0).running = true ∧ (curLevel (coreOf up 0)).micro = none
    ∧ decodeExc (encN 0x30) [0xDD] (immOf (encN 0x30) (pre0 [0xDD] 0)) (coreOf up 0) = some illegalOp
    ∧ decodeExc (encN 0x30) [0xE1] (immOf (encN 0x30) (pre0 [0xE1] 0)) (coreOf up 0) = none
    ∧ guardOf [0xE1] (curLevel (coreOf up 0)).preds = false ∧ (curLevel (coreOf up 0)).resume ≠ some (coreOf up 0).ia
    ∧ decodeExc (encBr 0x60) [0xE8] (immOf (encBr 0x60) (pre0 [0xE8] 4)) (coreOf up 0) = none
    ∧ guardOf [0xE8] (curLevel (coreOf up 0)).preds = false := by
  refine ⟨rfl, ?_⟩
  and_intros <;> decide +kernel

/-- Core 0 in the delay slot of a taken branch. -/
def inSlot (n : Nat) : State :=
  core0 (fun x => { x with slot := some { br := 0x100, taken := true, target := 0x200, saved := List.replicate n (tw 0 1), ssp := 0 } }) up

theorem wit_SynchronousTrapEntry :
    (coreOf up 0).sync = [] ∧ (curLevel (coreOf up 0)).nest = false ∧ (coreOf up 0).slot = none
    ∧ (curLevel (coreOf (stk (List.replicate 12 (tw 0 1))) 0)).bank.length ≤ 12
    ∧ (coreOf (inSlot 12) 0).sync = [] ∧ (curLevel (coreOf (inSlot 12) 0)).nest = false ∧ (coreOf (inSlot 12) 0).slot.isSome = true
    ∧ ((coreOf (inSlot 12) 0).slot.getD default).saved.length ≤ 12 := by
  and_intros <;> decide +kernel

theorem wit_OperandTraps :
    (∀ p, p ∈ [0x30, 0x31, 0x32, 0x34, 0x35, 0x38, 0x39, 0x3A, 0x3B, 0x3C, 0x3D, 0x3F, 0x41, 0x42, 0x43, 0x45, 0x46, 0x47, 0x48, 0x49] →
      Ready (encN p) (at0 0) (stk [tw 0xF 0, tw 0 0]) ∧ Ready (encN p) (at0 0) (stk [tw 0 0]) ∧ Ready (encN p) (at0 0) (stk [])
      ∧ Ready (encN p) (at0 0) (stk [tw 4 0, tw 0 0]))
    ∧ (curLevel (coreOf (stk []) 0)).ssp = (curLevel (coreOf (stk []) 0)).ssb
    ∧ (tw 4 0).tag ≠ 0xF ∧ (tw 4 0).tag ≠ 0 ∧ rawTag (tw 4 0).tag = false ∧ Ready (encN 0x33) (at0 0) (stk [tw 4 0]) := by
  and_intros <;> decide +kernel

/-- Core 0 at level 6, inside handlers of level 6 and, if told so, of level 7. -/
def nested (seven : Bool) : State :=
  core0 (fun x => { x with st := 0xC000, lv := vUpd (vUpd x.lv 6 fun l => { l with nest := true }) 7 fun l => { l with nest := seven } }) up

theorem wit_DoubleFaultsAndStops :
    ∀ b : Bool, (coreOf (nested b) 0).sync = [] ∧ (coreOf (nested b) 0).slot = none ∧ (curLevel (coreOf (nested b) 0)).bank.length ≤ 12
      ∧ (curLevel (coreOf (nested b) 0)).nest = true ∧ (vAt (coreOf (nested b) 0).lv 7).nest = b := by decide +kernel

/-- Core 0 at level 0 with the interrupt levels 1 to 6 enabled. -/
def irqs : State := core0 (fun x => { x with st := 0, ien := 0x7E }) up

/-- The same with one level requested. -/
def asked (r : BitVec 8) : State := core0 (fun x => { x with ireq := r &&& 0x7E }) irqs

/-- The levels above 6 do not count. -/
theorem mayInterrupt_of_fin (c m : Nat) (s : State)
    (h : coreUp c s = true ∧ (coreOf s c).slot = none ∧ ((coreOf s c).pfPend && !(coreOf s c).pfRun) = false ∧ (coreOf s c).mcPend = false
      ∧ (coreOf s c).ni = 0 ∧ lvlOf (coreOf s c) < m ∧ m < 7 ∧ (coreOf s c).ien.getLsbD m = true ∧ (pendBits c s).testBit m = true)
    (hj : ∀ j : Fin 7, m < j.val → (coreOf s c).ien.getLsbD j.val = false ∨ (pendBits c s).testBit j.val = false) : mayInterrupt c m s := by
  obtain ⟨h1, h2, h3, h4, h5, h6, h7, h8, h9⟩ := h
  exact ⟨h1, h2, h3, h4, h5, h6, h7, h8, h9, fun j a b => hj ⟨j, b⟩ a⟩

theorem wit_ArbiterEntries_interrupts :
    mayInterrupt 0 1 (asked 2) ∧ mayInterrupt 0 6 (asked 0x40) ∧ mayInterrupt 0 6 (core0 (fun x => { x with dsePend := [0x40] }) irqs) :=
  ⟨mayInterrupt_of_fin _ _ _ (by decide +kernel) (by decide +kernel), mayInterrupt_of_fin _ _ _ (by decide +kernel) (by decide +kernel),
    mayInterrupt_of_fin _ _ _ (by decide +kernel) (by decide +kernel)⟩

theorem wit_ArbiterEntries :
    (coreOf irqs 0).dsePend = [] ∧ (coreOf irqs 0).sync = []
    ∧ (∀ m, m ∈ [1, 6] → (vAt (coreOf irqs 0).lv m).nest = false) ∧ (∀ m, m ∈ [0, 1, 2, 3, 4, 5, 6, 7] → entryDue 0 (asked 0) ≠ some (.irq m))
    ∧ coreUp 0 irqs = true ∧ (coreOf irqs 0).slot = none
    ∧ (coreOf (core0 (fun x => { x with pfPend := true }) irqs) 0).pfPend = true ∧ (coreOf irqs 0).pfRun = false
    ∧ coreUp 0 (core0 (fun x => { x with pfPend := true }) irqs) = true
    ∧ entryDue 0 irqs ≠ some .powerFail
    ∧ ((coreOf irqs 0).pfPend && !(coreOf irqs 0).pfRun) = false ∧ (coreOf (core0 (fun x => { x with mcPend := true }) irqs) 0).mcPend = true
    ∧ (vAt (coreOf irqs 0).lv 7).nest = false
    ∧ (coreOf (core0 (fun x => { x with mcPend := true }) (nested true)) 0).mcPend = true ∧ (vAt (coreOf (nested true) 0).lv 7).nest = true
    ∧ (coreOf (core0 (fun x => { x with sbuf := [(131072, 64, tw 0 1)] }) up) 0).sbuf = [(131072, 64, tw 0 1)]
    ∧ (match entryDue 0 (core0 (fun x => { x with sbuf := [], dsePend := [0x40] }) up) with | some (.store _) => false | _ => true) = true
    ∧ (coreOf up 0).mrkWait = none
    ∧ (coreOf (core0 (fun x => { x with mrkWait := some 0x40 }) (mapped0 [])) 0).mrkWait = some 0x40
    ∧ okay (readWord 0 false 0x40 (core0 (fun x => { x with mrkWait := some 0x40 }) (mapped0 []))) = true := by
  and_intros <;> decide +kernel

/-- A spill area of 16 words of working SRAM, `m` of them filled, and `n` entries in the bank. -/
def area (n m : Nat) : State :=
  lev0 (fun k => { k with ssl := 0x40, ssb := 0x50, ssp := BitVec.ofNat 32 (0x50 - m) }) (mapped0 (List.replicate n (tw 0 1)))

theorem wit_SpillAndRefill :
    (∀ n, n ∈ [0, 3, 4, 8, 12, 13, 16] → coreUp 0 (area n 2) = true ∧ (coreOf (area n 2) 0).slot = none ∧ spillOrder (curLevel (coreOf (area n 2) 0)) = true
      ∧ (curLevel (coreOf (area n 2) 0)).bank.length = n)
    ∧ okay (spillRun 0 (area 13 0)) = true ∧ okay (spillRun 0 (area 16 13)) = true ∧ okay (refillRun 0 (area 3 1)) = true ∧ okay (refillRun 0 (area 0 16)) = true
    ∧ (∀ n, n ∈ [8, 16] → Ready (encN 0x0E) (at0 0) (area n 8) ∧ okay (spillDown 0 (n - 8) 8 (area n 8)) = true
      ∧ (curLevel (coreOf (area n 8) 0)).ssp.toNat - (curLevel (coreOf (area n 8) 0)).ssl.toNat = 8)
    ∧ (curLevel (coreOf (area 8 9) 0)).ssp.toNat - (curLevel (coreOf (area 8 9) 0)).ssl.toNat = 7 ∧ Ready (encN 0x0E) (at0 0) (area 8 9)
    ∧ Ready (encN 0x0D) (at0 0) (area 16 16) ∧ (curLevel (coreOf (area 16 16) 0)).ssp = (curLevel (coreOf (area 16 16) 0)).ssl
    ∧ Ready (encN 0x0D) (at0 0) (area 16 15) ∧ (bankOf (left (spillRun 0 (area 16 15)) up) 0).length = 15
    ∧ (match spillRun 0 (lev0 (fun k => { k with ssl := 0x10000, ssb := 0x10010, ssp := 0x10010 }) (mapped0 (List.replicate 16 (tw 0 1)))) with
        | .check d _ => d | _ => 0) = 3 := by
  and_intros <;> decide +kernel

/-- The byte-swap routine of R487 as the stored user microcode, for opcode 0xF0. -/
def swapFile : UFile :=
  { words := [0x080000, 0x120008, 0x208008, 0x680011], decode := [{ v := true, fmt := 0, x := false, start := 0 }]
    outLo := 0xFFFF, outHi := 0, raw := [] }

/-- A device that runs it. -/
def swapper : State := { stk [tw 1 0x1234] with ucode.user := some swapFile }

theorem wit_UserInstructionsRunTheirRoutine :
    (0xEF : Byte).toNat < 0xF0 ∧ 0xF0 ≤ (0xF0 : Byte).toNat ∧ swapper.ucode.user = some swapFile
    ∧ swapFile.decode[(0xF0 : Byte).toNat - 0xF0]? = some { v := true, fmt := 0, x := false, start := 0 }
    ∧ (∀ k : Fin 4, swapFile.words[k.val]? = [(0x080000 : BitVec 24), 0x120008, 0x208008, 0x680011][k.val]?)
    ∧ swapper.ucode.commit = none ∧ rawTag (tw 1 0x1234).tag = true ∧ Ready (encN 0xF0) (at0 0) swapper ∧ (at0 0).lim = none
    ∧ bankOf swapper 0 = [tw 1 0x1234] ∧ up.ucode.user = none ∧ up.ucode.commit = none ∧ mapped (coreOf up 0).ia.toNat = true := by
  and_intros <;> decide +kernel

/-- `up` with its power block changed. -/
def powered (g : Pwr → Pwr) : State := { up with pwr := g up.pwr }

/-- A device in SERVICE with its store mounted, owned, the link active. -/
def serving : State :=
  { up with
    pwr := { up.pwr with phase := .service, vmainOk := true, vioOk := true, vmainHigh := true }
    store.mounted := true, vtf.life := .owned, vtf.drbgOk := true, link.ls := .active, eng.nextId := 0 }

/-- No sequencer of the device runs. -/
theorem serving_idle (d : Nat) : vAt serving.wadi.seqs d = none := by
  rcases Nat.lt_or_ge d 8 with h | h
  · have : ∀ d : Fin 8, vAt serving.wadi.seqs d.val = none := by decide +kernel
    exact this ⟨d, h⟩
  · simp [vAt, Vector.getElem?_eq_none h]; rfl

theorem wit_SupplyAndPowerLoss_supplies :
    serving.pwr.released = true ∧ serving.pwr.seq = .none ∧ serving.pwr.pstate ≠ .off ∧ (powered fun p => { p with seq := .flush }).pwr.seq ≠ .none
    ∧ serving.flt.masked.getLsbD 5 = false ∧ serving.flt.latch.getLsbD 5 = false ∧ serving.pwr.vmainHigh = true ∧ serving.oas.warn = false
    ∧ (powered fun p => { p with vioAt := 0 }).pwr.vioAt + 10000 ≤ ({ serving with tick := 10000 } : State).tick
    ∧ ({ serving with tick := 9999 } : State).tick < (powered fun p => { p with vioAt := 0 }).pwr.vioAt + 10000
    ∧ (powered fun p => { p with vmainAt := 0 }).pwr.vmainAt + 10000 ≤ ({ serving with tick := 10000 } : State).tick
    ∧ serving.pwr.seq ≠ .off ∧ ({ serving with oas.warn := true } : State).oas.warn = true
    ∧ serving.pwr.pfailUntil + 1000 ≤ ({ serving with tick := 1000 } : State).tick
    ∧ ∀ j, j ∈ serving.eng.jobs → ∀ b, j.kind ≠ .holdup b := by
  and_intros <;> first | decide +kernel | (intro j h; exact absurd h (by decide +kernel))

/-- A power-loss sequence at a stage, at a hold-up voltage. -/
def losing (st : PlStage) (v : Nat) : State := { serving with pwr.seq := st, oas.vhold := v, prev.clive := 100000, pwr.cliveNext := 0 }

theorem wit_SupplyAndPowerLoss_sequence :
    (losing .manifest 9000).pwr.seq = .manifest ∧ (losing .flush 9000).pwr.cliveNext ≤ (losing .flush 9000).tick
    ∧ (losing .flush 4500).vtf.life = .owned ∧ ({ losing .flush 4500 with vtf.life := .unowned } : State).vtf.life ≠ .owned
    ∧ flushDone { losing .flush 4500 with vtf.life := .unowned } = true
    ∧ atVres (losing .flush 4500).oas (losing .flush 4500).prev.clive (losing .flush 4500).oas.vhold = true ∧ (losing .flush 4500).wadi.pend = []
    ∧ flushDone (losing .flush 9000) = true ∧ (losing .marked 9000).pwr.vmainHigh = true ∧ (losing .marked 9000).pwr.fatal = false
    ∧ ({ losing .marked 9000 with pwr.vmainHigh := false } : State).pwr.vmainHigh = false
    ∧ ({ losing .marked 9000 with pwr.fatal := true } : State).pwr.fatal = true := by and_intros <;> decide +kernel

theorem wit_ResetsRestartTheDevice :
    ({ State.reset with pwr.vmainHigh := false } : State).pwr.vmainHigh = false ∧ State.reset.pwr.seq = .none ∧ (losing .off 0).pwr.seq = .off
    ∧ (losing .off 0).pwr.fatal = false ∧ ({ losing .off 0 with pwr.fatal := true } : State).pwr.fatal = true
    ∧ resetTakes .pin serving = true ∧ serving.pwr.vmainHigh = true ∧ serving.link.cpls = [] ∧ serving.pwr.phase ≠ .halt
    ∧ resetTakes .soft { serving with link.softReq := true } = true
    ∧ resetTakes .wdog { serving with pwr.wdDue := some 0, pwr.wdEn := true } = true ∧ 0 ≤ serving.tick ∧ vAt serving.flt.pol 77 ≠ 2
    ∧ (losing .manifest 0).pwr.seq ≠ .none := by and_intros <;> decide +kernel

/-- A device whose supplies are good and whose internal reset is still on. -/
def waitingStart : State := { State.reset with pwr.vmainOk := true, pwr.vioOk := true, pwr.vmainHigh := true }

/-- A device in RECOVERY that may mount: owned, with a signed checkpoint of value `n`. -/
def recovering (n : Nat) : State :=
  { serving with
    pwr.phase := .recovery, store.mounted := false
    prev := { serving.prev with ckpt := some n, ckptBody := [], ckptSig := (Config.dikSign []).toList } }

/-- A well-signed checkpoint is refused where its value is not counter 7's. -/
theorem recovering_refused (n : Nat) : ckptRefused (recovering n) = decide (n ≠ vAt (recovering n).vtf.counters 7) := by
  simp [ckptRefused, recovering]

theorem wit_ReleaseMountAndCrossings :
    waitingStart.pwr.vmainOk = true ∧ waitingStart.pwr.vioOk = true ∧ waitingStart.pwr.released = false ∧ waitingStart.pwr.seq = .none
    ∧ waitingStart.pwr.resetUntil ≤ waitingStart.tick ∧ vAt waitingStart.flt.pol 11 ≠ 2
    ∧ waitingStart.tick < ({ waitingStart with pwr.resetUntil := 1 } : State).pwr.resetUntil
    ∧ waitingStart.pwr.phase = .startup ∧ waitingStart.flt.present = 0 ∧ (0 : Fin 13).val ≠ 3 ∧ (12 : Fin 13).val ≠ 3
    ∧ serving.pwr.phase = .service ∧ serving.link.ls = .active ∧ ({ serving with link.ls := .recovery } : State).link.ls = .recovery
    ∧ serving.eng.trains = [] ∧ serving.eng.jobs = [] ∧ serving.store.waiting = []
    ∧ (recovering 0).pwr.phase = .recovery ∧ (recovering 0).vtf.life = .owned ∧ (recovering 0).store.mounted = false
    ∧ (recovering 0).wadi.pend = [] ∧ ckptRefused (recovering 0) = false ∧ ckptRefused (recovering 5) = true
    ∧ (recovering 5).flt.masked.getLsbD 9 = false ∧ (recovering 5).flt.latch.getLsbD 9 = false ∧ vAt (recovering 5).flt.pol 9 ≠ 2
    ∧ (recovering 5).pwr.pstate ≠ .off := by
  and_intros <;> first | decide +kernel | (rw [recovering_refused]; decide +kernel)

/-- `serving` with its hold-up circuit changed. -/
def oasis (g : Oasis → Oasis) : State := { serving with oas := g serving.oas }

theorem wit_ChargerMeasurementsAndWindow :
    serving.pwr.seq = .none ∧ serving.pwr.pstate ≠ .off
    ∧ serving.oas.chgEn = true ∧ serving.oas.meas.running = false ∧ (oasis fun o => { o with charging := false }).oas.charging = false
    ∧ (oasis fun o => { o with charging := true }).oas.charging = true ∧ (oasis fun o => { o with measured := false }).oas.measured = false
    ∧ 0 + 2000000 ≤ ({ oasis (fun o => { o with charging := true, chgStart := some 0 }) with tick := 2000000 } : State).tick
    ∧ serving.oas.chgTimedOut = false ∧ serving.flt.latch.getLsbD 2 = false ∧ serving.flt.masked.getLsbD 2 = false ∧ 16000 < 16001
    ∧ serving.flt.masked.getLsbD 1 = false
    ∧ serving.flt.latch.getLsbD 1 = false ∧ serving.oas.meas.mode1 = false
    ∧ (oasis fun o => { o with meas := { o.meas with want := some .first }, charging := false, vhold := 15000 }).oas.meas.want.isSome = true
    ∧ (oasis fun o => { o with vhold := 15000 }).oas.outst ≤ winBytesAt (oasis fun o => { o with vhold := 15000 }).oas 14000 / 64
    ∧ serving.oas.mper ≠ 0 ∧ serving.oas.measNext ≤ ({ serving with tick := 100000000000 } : State).tick
    ∧ 15 ≤ ((oasis fun o => { o with measured := true, temp := 40, measTemp := 25 }).oas.temp - 25).natAbs
    ∧ (oasis fun o => { o with meas := { o.meas with loadOn := true } }).oas.meas.loadOn = true
    ∧ (oasis fun o => { o with meas := { o.meas with loadOn := true, discharging := true } }).oas.meas.discharging = true
    ∧ serving.oas.meas.discharging = false ∧ serving.oas.meas.wantAt + 1000000 ≤ ({ serving with tick := 100000000000 } : State).tick
    ∧ (∀ w, w ∈ [MeasWhy.periodic, .temperature] → (oasis fun o => { o with measured := true, meas := { o.meas with want := some w } }).oas.meas.want = some w)
    ∧ serving.oas.ederate = none ∧ (oasis fun o => { o with measured := true, esr := some 500 }).oas.esr = some 500 ∧ 15000 ≤ 15000 := by
  and_intros <;> decide +kernel


/-! ## Streams, array and rules -/

/-- Stream 1 with one staged record, its open owned segment 7 in slot 5, and a second record placed there that waits for codeword 0. -/
def logging : State :=
  { serving with
    store.streams := [(1, { Stream.reset with
      first := 1, next := 3, segs := [7], openSeg := some 7, keys := [20],
      recs := [{ Rec.reset with seq := 1, payload := [1], place := some { segno := 7, off := 64 }, cws := [0] },
        { Rec.reset with seq := 2, payload := [2] }] })]
    store.staging := [(1, 1), (1, 2)]
    arr.map := [(7, { mig := false, kind := 0, gen := 0, slot := 5 })]
    arr.slots := [(5, { SlotInfo.reset with used := true, seg := some 7 })]
    arr.segs := [(7, { SegSt.reset with owner := 1, fill := 112, sids := [1] })] }

/-- The same with a write in flight. -/
def logWrite (tail : Bool) : State :=
  { logging with arr.writes := [{ die := 0, segno := 7, gen := 0, cw := 0, tail := tail, covers := [(1, 1)], job := none }] }

theorem wit_ArrayWrites :
    dieHung logging 0 = false ∧ drainOn logging = true ∧ inLoss logging = false ∧ (dieOf logging 0).tailLive.length < 30720
    ∧ ruleTurn logging 0 = false ∧ bankRoom logging 0 none = true
    ∧ earlyWrite { logging with store.halves := vUpd logging.store.halves 0 fun h =>
        { h with recs := [{ EarlyRec.reset with sid := 1, index := 8 }], count := 1 } } 0
      = some { CwWrite.reset with die := 0, segno := earlySeg 0, cw := 8, covers := [(earlySid 0, 8)] }
    ∧ earlyWrite logging 0 = none
    ∧ (drainPick logging 0).map (fun p => (p.1, p.2.1.seq, p.2.2)) = some (1, 2, some 7) ∧ (segOf logging 7).isSome = true
    ∧ (drainPick logging 0).map (fun p => bankRoom logging 0 (drainBank logging p.1 0 p.2.1 p.2.2)) = some true
    ∧ (∀ b : Bool, dieWrite (logWrite b) 0 = some { die := 0, segno := 7, gen := 0, cw := 0, tail := b, covers := [(1, 1)], job := none }) ∧ 7 < earlySeg 0
    ∧ segGen logging 7 = 0 ∧ keysRise logging.arr.segs = true ∧ slotDie (segSlot logging 7) = 0 ∧ metaSlot (segSlot logging 7) = false
    ∧ logging.flt.masked.getLsbD 44 = false ∧ logging.prev.lost = false
    ∧ serving.pwr.seq ≠ .marked ∧ serving.pwr.seq ≠ .off ∧ logging.pwr.pstate ≠ .off ∧ 0 < vAt (dieOf logging 0).bankRows (slotBank 5)
    ∧ vAt (dieOf (updDie logging 0 fun y => { y with bankRows := Vector.replicate 16 0 }) 0).bankRows (slotBank 5) = 0
    ∧ agedCw { logging with tick := 2000 } 0 = some (7, 0) := by and_intros <;> decide +kernel

theorem wit_ArrayReadsAndScrub :
    shellOn logging 0 = true ∧ look 7 logging.arr.map = some { mig := false, kind := 0, gen := 0, slot := 5 } ∧ slotDie 5 = 0
    ∧ (dieOf logging 0).scrubThr ≤ 20 ∧ (dieOf logging 0).recalThr ≤ 12 ∧ (19 : BitVec 6) < (dieOf logging 0).scrubThr
    ∧ (11 : BitVec 6) < (dieOf logging 0).recalThr ∧ patrolMay { logging with store.staging := [] } 5 = true ∧ metaSlot 5 = false
    ∧ prioOk (dieOf logging 0) 5 = true
    ∧ (dieOf (updDie logging 0 fun y => { y with patrol := true }) 0).patrol = true ∧ (dieOf logging 0).patrol = false
    ∧ logging.oas.warn = false ∧ logging.oas.overV = false
    ∧ (dieOf (updDie logging 0 fun y => { y with refresh := [(7, 63)] }) 0).refresh = [(7, 63)]
    ∧ (dieOf logging 0).tailLive = [] ∧ atHome logging 7 63 = false ∧ slotDie (segSlot logging 7) = 0
    ∧ atHome { logging with arr.segs := [(7, { SegSt.reset with home := [63] })] } 7 63 = true
    ∧ (dieOf logging 0).auto = true ∧ (dieOf logging 0).cal = false
    ∧ 10 ≤ (({ logging with oas.temp := 15 } : State).oas.temp - (dieOf logging 0).calTemp).natAbs
    ∧ (∀ n, n ∈ [1, 1040] → 0 < (dieOf (updDie logging 0 fun y => { y with calLeft := n }) 0).calLeft) ∧ (dieOf logging 0).calLeft = 0
    ∧ (dieOf (updDie logging 0 fun y => { y with recal := [(15, 64)] }) 0).recal = [(15, 64)] := by and_intros <;> decide +kernel

/-- A die of which the patrol has read every codeword of some segments. -/
def readAll (s : State) (d : Nat) (l : List Nat) : State :=
  updDie s d fun y => { y with patrol := true, patDone := l.map fun g => (g, BitVec.allOnes 64) }

theorem look_allOnes (l : List Nat) (g : Nat) (h : g ∈ l) : look g (l.map fun k => (k, BitVec.allOnes 64)) = some (BitVec.allOnes 64) := by
  induction l with
  | nil => simp at h
  | cons k l ih =>
    by_cases e : k = g
    · simp [look, e]
    · have := ih (by simpa [Ne.symm e] using h)
      simpa [look, e] using this

theorem patrolRead_readAll (s : State) (d g cw : Nat) (m : BitVec 6) (l : List Nat) (hd : d < 8) (hg : g ∈ l) :
    patrolRead (dieOf (patrolNote d g cw m (readAll s d l)) d) l = true := by
  have hp : vAt (readAll s d l).arr.dies d = { dieOf s d with patrol := true, patDone := l.map fun g => (g, BitVec.allOnes 64) } :=
    vAt_vUpd_same _ _ _ hd
  have hn : (dieOf (patrolNote d g cw m (readAll s d l)) d).patDone = put g (BitVec.allOnes 64) (l.map fun k => (k, BitVec.allOnes 64)) := by
    show (vAt (vUpd (readAll s d l).arr.dies d _) d).patDone = _
    rw [vAt_vUpd_same _ _ _ hd, hp]
    simp only [look_allOnes l g hg, Option.getD_some, BitVec.allOnes_or]
  simp only [patrolRead, List.all_eq_true, decide_eq_true_eq]
  intro h hh
  rw [hn]
  by_cases e : h = g
  · rw [e, look_put_same]
  · rw [look_put_other _ _ _ _ e, look_allOnes l h hh]

theorem wit_ArrayReadsAndScrub_last (cw : Fin 64) (m : BitVec 6) :
    let s := readAll logging 0 (patrolled logging 0)
    patrolRead (dieOf (patrolNote 0 7 cw.val m s) 0) (patrolled s 0) = true := by
  have h : 7 ∈ patrolled logging 0 := by
    refine List.mem_filter.mpr ⟨List.mem_append_left _ ?_, ?_⟩ <;> decide +kernel
  exact patrolRead_readAll logging 0 7 cw.val m _ (by decide) h

/-- Segment 9, an unlisted kind of segment, in a worn slot 5. -/
def worn : State :=
  { serving with
    arr.map := [(9, { mig := false, kind := 1, gen := 4095, slot := 5 })]
    arr.slots := [(5, { SlotInfo.reset with prog := 70000, used := true, seg := some 9 })] }

/-- A move of segment 9 in engine 0. -/
def moving (m : MoveSt) : State :=
  { worn with arr.moves := vSet worn.arr.moves 0 (some { m with segno := 9, src := 5, dst := 6 }), arr.slots := put 6 { SlotInfo.reset with used := true } worn.arr.slots }

/-- A sealed shared segment 9 of a deleted stream and of stream 1. -/
def shared9 : State :=
  { worn with
    arr.segs := [(9, { SegSt.reset with kind := .shared, sealed := some SealInfo.reset, sids := [1, 2], dead := [2] })]
    store.streams := [(1, { Stream.reset with next := 2, segs := [9], recs :=
      [{ Rec.reset with seq := 1, payload := [1], place := some { segno := 9, off := 64 }, written := true }] })] }

theorem wit_SegmentMoves :
    look 9 worn.arr.map = some { mig := false, kind := 1, gen := 4095, slot := 5 } ∧ freeEngine worn = some 0 ∧ worn.store.mounted = true
    ∧ worn.pwr.pstate ≠ .off ∧ evacReady worn 5 = true ∧ slotSeg worn 5 = some 9 ∧ slotSeg worn 6 = none ∧ worn.flt.masked.getLsbD 68 = false
    ∧ inLoss worn = false ∧ worn.pwr.phase ≠ .halt ∧ dieHung worn 0 = false ∧ barchanSusp worn = false ∧ (wearPick worn 0).isSome = true
    ∧ (wearPick worn 0).map (fun p => (p.1, p.2.1)) = some (9, 5) ∧ worn.oas.warn = false
    ∧ (∀ n, n ∈ [5, 6] → ({ worn with arr.evacPending := [n] } : State).arr.evacPending = [n]) ∧ (evacSpare worn (slotDie 5) (slotBank 5)).isSome = true
    ∧ slotDie 6 < 8 ∧ (segOf shared9 9).isSome = true
    ∧ (segOf shared9 9).map (compactable shared9 9) = some true ∧ moveable shared9 9 = true ∧ (chooseDie shared9 .floor).isSome = true
    ∧ ((chooseDie shared9 .floor).bind fun d => allocOnDie shared9 d .floor).isSome = true
    ∧ (∀ c : Bool, ∀ dirty, dirty ∈ [[], [3]] → (vAt (moving { MoveSt.reset with dirty := dirty, compact := c }).arr.moves 0).map (·.dirty) = some dirty)
    ∧ barchanBank (moving MoveSt.reset) 5 = true ∧ barchanBank (moving MoveSt.reset) 6 = true
    ∧ (∀ m, m ∈ [MoveSt.reset, { MoveSt.reset with sealed := true, evac := true }] → moveMay (moving m) { m with segno := 9, src := 5, dst := 6 } = true)
    ∧ keysRise (moving MoveSt.reset).arr.slots = true
    ∧ (vAt (moving { MoveSt.reset with sealed := true, evac := true }).arr.moves 0).map (·.sealed) = some true := by
  and_intros <;> decide +kernel

/-- Heap segments 3 and 4 mapped; in 3 an object of `n` words with a header of a tag. -/
def heap (t : BitVec 4) (n : Nat) : State :=
  { serving with
    arr.map := [(3, { mig := false, kind := 1, gen := 0, slot := 5 }), (4, { mig := false, kind := 1, gen := 0, slot := 6 })]
    mem.seg := [(393216, { tag := t, data := BitVec.ofNat 16 (n - 1) })] }

/-- The same with the segments of a list compacted, both segments' cards remembered, and the first card of segment 4 marked, which refers nowhere. -/
def scanned (l : List Nat) : State :=
  { heap 6 3 with arr.remembered := [3, 4], arr.heapDone := l, arr.cards := [(4096, true)] }

theorem wit_HeapCompactionAndSirocco :
    (∀ p, p ∈ [(6, 3), (13, 3), (13, 4096)] →
      let u := drainCores (heap (BitVec.ofNat 4 p.1) p.2)
      u.pwr.released = true ∧ inLoss u = false ∧ inHeap 393216 u = true ∧ (heapRead 393216 u).tag = BitVec.ofNat 4 p.1
        ∧ (heapRead 393216 u).data.toNat % 4096 + 1 = p.2 ∧ 393216 % 131072 + p.2 ≤ 65536 ∧ barchanSusp u = false ∧ vAt u.arr.moves 0 = none
        ∧ inHeap 524288 u = true ∧ 524288 % 131072 + p.2 ≤ 65536)
    ∧ 3 ∈ heapSegs (drainCores (heap 6 3)) ∧ 3 ∉ (drainCores (heap 6 3)).arr.remembered
    ∧ (∀ l, l ∈ [[3], []] → let u := drainCores (scanned l)
      3 ∈ heapSegs u ∧ 3 ∈ u.arr.remembered ∧ u.arr.heapDone = l ∧ barchanSusp u = false ∧ (u.arr.cards.map (·.1)).any (fun k => cardInto 3 k u) = false)
    ∧ serving.flt.present.getLsbD 7 = false ∧ serving.flt.masked.getLsbD 7 = false ∧ inLoss serving = false := by and_intros <;> decide +kernel

/-- The operands of a slot: the largest registers, buffers and immediate that the table takes there. -/
def wide0 : SlotArgs := { a := 0, b := 7, imm := 7 }

/-- A bundle of one instruction with the same word in its three slots, `c` in its control slot, bound to streams 1 and 2, and its execution on
sequencer 0, its slots done or not, with loops, steps used, and an index register. -/
def ruled (op c : Nat) (done : Bool) (loops : List (Nat × Nat × Nat)) (x0 : BitVec 48) (steps : Nat) : State :=
  { logging with
    wadi.bundles := [(0, { Bundle.reset with
      insns := [{ arr := slotWord op wide0, sea := slotWord op wide0, mov := slotWord op wide0, ctl := slotWord c wide0 }]
      steps := 4, eu := 100, maxRec := 4, arrayBytes := 65536 })]
    wadi.bindings := [(0, { Binding.reset with bundle := 0, h := (Vector.replicate 4 (some 1)), depth := 1 })]
    wadi.seqs := vSet logging.wadi.seqs 0 (some { Run.reset with
      pend := { Pend.reset with binding := 0, sid := 1, seq := 1, snaps := Vector.replicate 4 2 }
      doneA := done, doneS := done, doneM := done, loops := loops, mSteps := steps
      base := { WCtx.reset with buf := Vector.replicate 8 { WBuf.reset with bytes := [5, 6] } }
      cur := { WCtx.reset with x := Vector.replicate 8 x0 } }) }

/-- The execution of sequencer 0. -/
def run0 (s : State) : Run := (runOf s 0).getD default

/-- A slot is ready where its word is the one read. -/
theorem slotReady_of (p : Part) (d : Nat) (w : BitVec 32) (s : State) (r : Run)
    (h : runOf s d = some r ∧ (insnAt s r).map (partWord p) = some w ∧ partDone p r = false ∧ seqMay s d = true) : slotReady p d w s r := by
  obtain ⟨h1, h2, h3, h4⟩ := h
  exact ⟨h1, by simpa [Option.map_eq_some_iff] using h2, h3, h4⟩

/-- The control slot is ready where its word is the one read. -/
theorem ctlReady_of (d : Nat) (w : BitVec 32) (s : State) (r : Run) (b : Binding) (cost : Nat)
    (h : runOf s d = some r ∧ look r.pend.binding s.wadi.bindings = some b ∧ (insnAt s r).map (·.ctl) = some w ∧ r.doneA = true ∧ r.doneS = true
      ∧ r.doneM = true ∧ seqMay s d = true ∧ r.mSteps + 1 ≤ (bundleOf s b.bundle).steps ∧ r.mEu + cost ≤ (bundleOf s b.bundle).eu * 1000
      ∧ r.mBytes ≤ (bundleOf s b.bundle).arrayBytes ∧ r.mRecs ≤ (bundleOf s b.bundle).maxRec) : ctlReady d w s r b cost := by
  obtain ⟨h1, h2, h3, h4⟩ := h
  exact ⟨h1, h2, by simpa [Option.map_eq_some_iff] using h3, h4⟩

theorem wit_RuleSlotOperations (op : Fin 5) :
    (∀ p, p ∈ [Part.arr, .sea, .mov] → slotReady p 0 (slotWord op.val wide0) (ruled op.val 0 false [] 0 0) (run0 (ruled op.val 0 false [] 0 0)))
    ∧ (∃ st, streamOf (ruled op.val 0 false [] 0 0) 1 = some st ∧ st.st ≠ .sealed ∧ spaceFor (ruled op.val 0 false [] 0 0) 1 st 48 = .fits
      ∧ st.heldBy = none
      ∧ st.next ≤ seqMax) ∧ (handleOf (ruled op.val 0 false [] 0 0) (run0 (ruled op.val 0 false [] 0 0)) 0).getD 0 = 1
    ∧ (vAt (run0 (ruled op.val 0 false [] 0 0)).base.buf 7).bytes ≠ [] ∧ trainHolding (ruled op.val 0 false [] 0 0) 1 = none
    ∧ (recAt (ruled op.val 0 false [] 0 0) 1 1).isSome = true
    ∧ (streamOf (updStream (ruled op.val 0 false [] 0 0) 1 fun x => { x with heldBy := some 7 }) 1).map (·.heldBy) = some (some 7) := by
  refine ⟨fun p _ => slotReady_of _ _ _ _ _ ?_, ⟨_, rfl, ?_⟩, ?_⟩
  · revert op; cases p <;> decide +kernel
  · revert op; decide +kernel
  · revert op; decide +kernel

theorem wit_RuleControlOperations (op : Fin 5) (l : List (Nat × Nat × Nat)) (h : l ∈ [[], [(0, 1, 2)], [(0, 0, 2), (0, 0, 1)], [(0, 0, 1)]]) :
    ctlReady 0 (slotWord op.val wide0) (ruled 0 op.val true l 0 0) (run0 (ruled 0 op.val true l 0 0))
      { Binding.reset with bundle := 0, h := (Vector.replicate 4 (some 1)), depth := 1 } (if op.val = 0 then 0 else 1) := by
  apply ctlReady_of
  simp only [List.mem_cons, List.not_mem_nil, or_false] at h
  obtain rfl | rfl | rfl | rfl := h <;> fin_cases op <;> exact ⟨rfl, by decide +kernel⟩

theorem wit_RuleControlOperations_cases :
    vAt (run0 (ruled 0 3 true [] 0 0)).cur.x 0 = 0 ∧ vAt (run0 (ruled 0 3 true [] 1 0)).cur.x 0 ≠ 0
    ∧ aappsDone (ruled 0 1 true [] 0 0) (run0 (ruled 0 1 true [] 0 0)) = true
    ∧ aappsDone (ruled 0 1 true [] 0 0) { run0 (ruled 0 1 true [] 0 0) with aapps := [(1, 2)] } = false
    ∧ (bundleOf (ruled 0 0 true [] 0 4) 0).steps ≤ (run0 (ruled 0 0 true [] 0 4)).mSteps ∧ seqMay (ruled 0 0 true [] 0 4) 0 = true
    ∧ (ruled 0 0 true [] 0 4).pwr.pstate ≠ .off ∧ (ruled 0 0 true [] 0 4).flt.masked.getLsbD 15 = false
    ∧ (insnAt (ruled 0 0 true [] 0 4) (run0 (ruled 0 0 true [] 0 4))).map (·.ctl) = some (slotWord 0 wide0)
    ∧ (let s := { ruled 0 0 true [] 0 0 with wadi.seqs := Vector.replicate 8 none, wadi.pend := [{ Pend.reset with sid := 1, seq := 1, issued := some 0 }] }
       runOf s 0 = none ∧ nextPend (markIssued s) 0 = some { Pend.reset with sid := 1, seq := 1, issued := some 0 }
       ∧ seqMay (markIssued s) 0 = true) := by
  refine ⟨by decide +kernel, by decide +kernel, by decide +kernel, by decide +kernel, by decide +kernel, by decide +kernel, by decide +kernel,
    by decide +kernel, by decide +kernel, ?_⟩
  exact ⟨rfl, by decide +kernel, by decide +kernel⟩

theorem wit_RuleBudgetTakesEffectAtOnce :
    alive (ruled 0 0 false [] 0 0) = true ∧ committed (ruled 0 0 false [] 0 0) = 100
    ∧ ((99 : BitVec 16).setWidth 14).toNat < 100 ∧ 100 ≤ ((100 : BitVec 16).setWidth 14).toNat ∧ ((100 : BitVec 16).setWidth 14).toNat ≤ 16000
    ∧ 100 ≤ ((16000 : BitVec 16).setWidth 14).toNat ∧ ((16000 : BitVec 16).setWidth 14).toNat ≤ 16000
    ∧ 16000 < ((16001 : BitVec 16).setWidth 14).toNat
    ∧ portHung 0x2405 (ruled 0 0 false [] 0 0) = false ∧ (ruled 0 0 false [] 0 0).oas.budget ≤ 16000 := by and_intros <;> decide +kernel

/-- An account of 470 µF and 500 mOhm, charged to 15.0 V. -/
def charged470 : Oasis := { State.reset.oas with cUse := 470000, esr := some 500, ederate := none, vhold := 15000 }

/-- R112: the two ends of the budgets that keep the whole window, and the first that does not. -/
theorem wit_RuleBudgetTakesEffectAtOnce_window :
    charged470.meas.running = false ∧ charged470.meas.mode1 = false
    ∧ winBytesNow { charged470 with budget := 0 } = 33554432 ∧ winBytesNow { charged470 with budget := 2590 } = 33554432
    ∧ winBytesNow { charged470 with budget := 2600 } < 33554432 := by and_intros <;> decide +kernel

/-- A STREAM_APPEND that waits for credit since tick 0. -/
def waiter : QPkt := { QPkt.reset with pkt := { Packet.empty with opc := 0x0023 }, waitFrom := some 0, cause := 1, passed := true }

/-- It stands in the last queue. -/
def waiting : State :=
  { serving with
    tick := 1000
    oas := { serving.oas with cwait := 1 }
    eng := { serving.eng with queues := vSet serving.eng.queues 63 [waiter] } }

/-- Queue 3 urgent before queue 2. -/
def twoQueues : State :=
  let u := { QPkt.reset with pkt := { Packet.empty with flg := 8 } }
  { serving with eng := { serving.eng with queues := vSet (vSet serving.eng.queues 2 [QPkt.reset]) 3 [u] } }

theorem wit_WaitsExpiriesAndReclaims_queues :
    queueOf waiting 63 = [waiter]
    ∧ (∀ k : Fin 63, queueOf waiting k.val = []) ∧ 0 + waiting.oas.cwait * 1000 ≤ waiting.tick ∧ alive waiting = true ∧ waiting.oas.cwait ≠ 0 ∧ waiting.pwr.pstate ≠ .off
    ∧ engineOn twoQueues = true ∧ arbOrder twoQueues = [3, 2] ∧ (admitHead 3 twoQueues).1 = true := by and_intros <;> decide +kernel

/-- Segment 9 of a TIMED stream, its one record written at device time 0 with a period of one tick; the stream's first retained number. -/
def timed (first : Nat) : State :=
  { worn with
    dtime := 100
    arr.segs := [(9, { SegSt.reset with kind := .owned, owner := 1, sealed := some SealInfo.reset, sids := [1] })]
    store.streams := [(1, { Stream.reset with attr := { Attr.reset with cls := .timed, period := 1 }, first := first, next := 2, segs := [9], recs :=
      [{ Rec.reset with seq := 1, payload := [1], place := some { segno := 9, off := 64 }, written := true }] })] }

/-- A held early half with a record of a stream that is gone. -/
def heldHalf : State :=
  { serving with store.halves := vUpd serving.store.halves 1 fun h => { h with held := true, recs := [{ EarlyRec.reset with sid := 1, index := 1, written := true }] } }

/-- An open train of queue 63 whose last member came at tick 0. -/
def oldTrain : State :=
  { serving with tick := 50001, eng.trains := [{ Train.reset with qid := 63, members := [{ TrainMember.reset with sid := 1, seq := 1 }] }] }

theorem wit_WaitsExpiriesAndReclaims_ends :
    (expiredPick (timed 1)).map (fun p => (p.1, p.2.sids)) = some (9, [1]) ∧ (timed 1).arr.segs.all (fun e => !e.2.expiring) = true
    ∧ (streamOf (timed 1) 1).isSome = true
    ∧ ({ timed 2 with arr.segs := [(9, { SegSt.reset with expiring := true, sids := [1] })] } : State).arr.segs.all (fun e => e.2.expiring) = true
    ∧ trimPending (timed 2) [1] = false ∧ (timed 1).store.mounted = true
    ∧ (vAt heldHalf.store.halves 1).held = true ∧ (vAt heldHalf.store.halves 0).held = false ∧ (vAt heldHalf.store.halves 1).recs ≠ []
    ∧ (∀ e ∈ (vAt heldHalf.store.halves 1).recs, streamOf heldHalf e.sid = none ∧ e.merging = none) ∧ 0 < dieAvail heldHalf 0 .playa
    ∧ oldTrain.eng.trains.map (fun v => (decide (v.st = .opened), trainPaused oldTrain v, decide (v.lastAt + 50000 < oldTrain.tick))) = [(true, false, true)]
    ∧ ({ serving with store.streams := [(1, { Stream.reset with st := .deleting })] } : State).store.streams.map (·.1) = [1]
    ∧ serving.eng.jobs = [] ∧ serving.store.staging = []
    ∧ ({ serving with vtf.sanitize := some 0 } : State).vtf.sanitize.isSome = true := by and_intros <;> decide +kernel

/-! ## Host commands -/

/-- A command packet outside a session, in queue 0. -/
def bare (flg : BitVec 8) (l : List Byte) : CmdIn :=
  { chan := .host, flg := flg, qid := 0, tag := 0, ses := 0, plen := BitVec.ofNat 32 l.length, seq := 0, body := l }

/-- The same as checked. -/
def bareCtx (opc : BitVec 16) (flg : BitVec 8) (l : List Byte) : Ctx := { pkt := (hostPkt opc (bare flg l)).pkt, plain := l, keys := [], role := none, owner := [] }

/-- The state its command acts on. -/
def bareAt (opc : BitVec 16) (flg : BitVec 8) (l : List Byte) (s : State) : State :=
  setHead 0 { passedPkt opc (bare flg l) (bareCtx opc flg l) with owner := s.vtf.owner.getD [] } (joined opc (bare flg l) s)

/-- What a queue asks before a packet in it may be taken up at once. -/
abbrev free0 (opc : BitVec 16) (s : State) : Prop :=
  engineOn s = true ∧ s.pwr.pstate ≠ .off ∧ queueOf s 0 = [] ∧ (trainOfQueue s 0).isNone = true
    ∧ (s.store.mounted = true ∨ premount opc.toNat = true ∨ opc = 0x0023) ∧ s.link.replies.length < 512 ∧ s.eng.jobs.all (fun j => !j.barrier) = true
    ∧ s.eng.barQ = none ∧ s.pwr.entry = none

/-- What the header of a packet with `n` bytes of parameters and payload asks. -/
abbrev header0 (opc : BitVec 16) (flg : BitVec 8) (n : Nat) (s : State) : Prop :=
  s.pwr.phase ≠ .halt ∧ (opInfo opc.toNat).isSome = true ∧ flg.toNat < 32 ∧ (flg.getLsbD 1 = true → opc = 0x0023)
    ∧ (flg.getLsbD 2 = true → flg.getLsbD 1 = true) ∧ n < 2 ^ 32
    ∧ ((opInfo opc.toNat).getD default).psize + ((opInfo opc.toNat).getD default).lo ≤ n
    ∧ n ≤ ((opInfo opc.toNat).getD default).psize + ((opInfo opc.toNat).getD default).hi

/-- What a command's last checks ask. -/
abbrev late0 (c : Ctx) (s : State) : Prop :=
  (s.vtf.life = .unowned → unownedTakes s c = true) ∧ (s.vtf.life = .rollback → rollbackTakes c = true) ∧ satisfies c.role (needs s c) = true
    ∧ reservedOk c = true

/-- Queue 0 goes first, and no barrier of another queue holds it. -/
abbrev turn0 (s : State) : Prop := (arbOrder s).head? = some 0 ∧ (barrierAt s).all (· == 0) = true

theorem turn0_barrier (s : State) (h : turn0 s) (b : Nat) (hb : barrierAt s = some b) : b = 0 := by
  have := h.2
  rw [hb] at this
  simpa using this

theorem admitted_of_bare (opc : BitVec 16) (flg : BitVec 8) (l : List Byte) (s : State) (h1 : free0 opc s) (h2 : header0 opc flg l.length (joined opc (bare flg l) s))
    (h3 : flg.getLsbD 0 = false) (h4 : late0 (bareCtx opc flg l) (joined opc (bare flg l) s)) (h5 : turn0 (bareAt opc flg l s)) :
    Admitted opc (bare flg l) (bareCtx opc flg l) s (bareAt opc flg l s) := by
  obtain ⟨a1, a2, a3, a4, a5, a6, a7, a8, a9⟩ := h1
  obtain ⟨b1, b2, b3, b4, b5, b6, b7, b8⟩ := h2
  obtain ⟨o, ho⟩ := Option.isSome_iff_exists.mp b2
  rw [ho] at b7 b8
  have hl : ((bare flg l).plen).toNat = l.length := by simp [bare]; omega
  refine ⟨rfl, by simp [bare], a1, a2, a3, Option.isNone_iff_eq_none.mp a4, a5, a6, ?_, a8, a9, ⟨joined opc (bare flg l) s, ?_, rfl⟩, h5.1, turn0_barrier _ h5⟩
  · intro j hj
    have := List.all_eq_true.mp a7 j hj
    simpa using this
  · show checkPacket (hostPkt opc (bare flg l)).pkt false (joined opc (bare flg l) s) = _
    rw [checkPacket_session (hostPkt opc (bare flg l)).pkt o _ b1 (by simp [hostPkt, bare]) rfl ho b3 b4 b5]
    · refine checkSession_plain _ _ _ rfl rfl h3 ?_ (checkLate_passes _ _ h4.1 h4.2.1 h4.2.2.1 h4.2.2.2)
      have : (hostPkt opc (bare flg l)).pkt.body.take (hostPkt opc (bare flg l)).pkt.plen.toNat = l := by
        show l.take ((bare flg l).plen).toNat = l
        rw [hl, List.take_length]
      rw [this, bareCtx]
    · show l.length = ((bare flg l).plen).toNat + _
      rw [hl, show fAuth (hostPkt opc (bare flg l)).pkt = false from h3]; rfl
    · show _ ≤ ((bare flg l).plen).toNat
      rw [hl]; exact b7
    · show ((bare flg l).plen).toNat ≤ _
      rw [hl]; exact b8

/-- Session 1, with keys of zeros. -/
def sess (r : Role) : Session := { Session.reset with ses := 1, role := r, keys := List.replicate 72 0 }

/-- The header of a packet in session 1, SEQ 1. -/
def sealedHead (flg : BitVec 8) (n : Nat) : CmdIn :=
  { chan := .host, flg := flg ||| 1, qid := 0, tag := 0, ses := 1, plen := BitVec.ofNat 32 n, seq := 1, body := [] }

/-- Key and nonce of that packet. -/
def wireKey : List Byte := bytesAt (List.replicate 72 0) 0 32
def wireNonce : List Byte := gcmNonce (bytesAt (List.replicate 72 0) 64 4) 1

/-- The packet, enciphered and with its tag. -/
def closed (opc : BitVec 16) (flg : BitVec 8) (l : List Byte) : CmdIn :=
  { sealedHead flg l.length with body := gcmXor wireKey wireNonce l
      ++ (Config.gcmTag wireKey wireNonce (packetHeader (hostPkt opc (sealedHead flg l.length)).pkt) (gcmXor wireKey wireNonce l)).toList }

/-- The same as checked. -/
def closedCtx (opc : BitVec 16) (flg : BitVec 8) (r : Role) (l : List Byte) : Ctx :=
  { pkt := (hostPkt opc (closed opc flg l)).pkt, plain := l, keys := List.replicate 72 0, role := some r, owner := [] }

/-- The state with its packet in its queue and its SEQ taken. -/
def closedIn (opc : BitVec 16) (flg : BitVec 8) (r : Role) (l : List Byte) (s : State) : State :=
  { joined opc (closed opc flg l) s with vtf.sessions := [seqTaken (sess r) 1] }

/-- The state its command acts on. -/
def closedAt (opc : BitVec 16) (flg : BitVec 8) (r : Role) (l : List Byte) (s : State) : State :=
  setHead 0 { passedPkt opc (closed opc flg l) (closedCtx opc flg r l) with owner := s.vtf.owner.getD [] } (closedIn opc flg r l s)

theorem joined_vtf (opc : BitVec 16) (x : CmdIn) (s : State) : (joined opc x s).vtf = s.vtf := by
  unfold joined renewAbort
  split <;> rfl

theorem admitted_of_closed (opc : BitVec 16) (flg : BitVec 8) (r : Role) (l : List Byte) (s : State) (h1 : free0 opc s)
    (h2 : header0 opc (flg ||| 1) l.length (joined opc (closed opc flg l) s)) (h3 : s.vtf.sessions = [sess r])
    (h4 : late0 (closedCtx opc flg r l) (closedIn opc flg r l s)) (h5 : turn0 (closedAt opc flg r l s)) :
    Admitted opc (closed opc flg l) (closedCtx opc flg r l) s (closedAt opc flg r l s) := by
  obtain ⟨a1, a2, a3, a4, a5, a6, a7, a8, a9⟩ := h1
  obtain ⟨b1, b2, b3, b4, b5, b6, b7, b8⟩ := h2
  obtain ⟨o, ho⟩ := Option.isSome_iff_exists.mp b2
  rw [ho] at b7 b8
  have hl : ((closed opc flg l).plen).toNat = l.length := by simp [closed, sealedHead]; omega
  have hf : fAuth (hostPkt opc (closed opc flg l)).pkt = true := by
    show (flg ||| 1).getLsbD 0 = true
    simp
  have hb : (closed opc flg l).body.length = l.length + 16 := by simp [closed, gcmXor_length]
  refine ⟨rfl, by simp [closed, sealedHead], a1, a2, a3, Option.isNone_iff_eq_none.mp a4, a5, a6, ?_, a8, a9, ⟨closedIn opc flg r l s, ?_, rfl⟩, h5.1, turn0_barrier _ h5⟩
  · intro j hj
    have := List.all_eq_true.mp a7 j hj
    simpa using this
  · show checkPacket (hostPkt opc (closed opc flg l)).pkt false (joined opc (closed opc flg l) s) = _
    rw [checkPacket_session (hostPkt opc (closed opc flg l)).pkt o _ b1 (by simp [hostPkt, closed, sealedHead]) rfl ho b3 b4 b5]
    · refine checkSession_sealed _ _ (closedIn opc flg r l s) _ (sess r) (gcmXor wireKey wireNonce l) rfl
        (by simp [hostPkt, closed, sealedHead]) hf ?_ ?_ ?_ (by rfl) ?_ ?_ (checkLate_passes _ _ h4.1 h4.2.1 h4.2.2.1 h4.2.2.2)
      · show (joined opc (closed opc flg l) s).vtf.sessions.find? _ = _
        have : (joined opc (closed opc flg l) s).vtf.sessions = [sess r] := (joined_vtf _ _ _).symm ▸ h3
        rw [this]; rfl
      · show (closed opc flg l).body.take ((closed opc flg l).plen).toNat = _
        rw [hl]; exact List.take_left' (gcmXor_length _ _ _)
      · show (closed opc flg l).body.drop ((closed opc flg l).plen).toNat = _
        rw [hl]; exact List.drop_left' (gcmXor_length _ _ _)
      · show closedCtx opc flg r l = { pkt := _, plain := gcmXor wireKey wireNonce (gcmXor wireKey wireNonce l), keys := _, role := _, owner := [] }
        rw [gcmXor_gcmXor]; rfl
      · have : (joined opc (closed opc flg l) s).vtf.sessions = [sess r] := (joined_vtf _ _ _).symm ▸ h3
        rw [this]; rfl
    · show (closed opc flg l).body.length = ((closed opc flg l).plen).toNat + _
      rw [hl, hb, hf]; rfl
    · show _ ≤ ((closed opc flg l).plen).toNat
      rw [hl]; exact b7
    · show ((closed opc flg l).plen).toNat ≤ _
      rw [hl]; exact b8

theorem admittedAlone_of (opc : BitVec 16) (x : CmdIn) (c : Ctx) (s t : State) (h : Admitted opc x c s t) (h1 : s.eng.jobs = [])
    (h2 : s.eng.trains = []) : AdmittedAlone opc x c s { t with eng.barQ := some x.qid.toNat } :=
  ⟨⟨t, h, rfl⟩, by simp [h1], by simp [h2]⟩

/-- What `admitted_of_bare` asks, at once. -/
abbrev passB (opc : BitVec 16) (l : List Byte) (s : State) : Prop :=
  free0 opc s ∧ header0 opc 0 l.length (joined opc (bare 0 l) s) ∧ late0 (bareCtx opc 0 l) (joined opc (bare 0 l) s) ∧ turn0 (bareAt opc 0 l s)

/-- What `admitted_of_closed` asks, at once. -/
abbrev passC (opc : BitVec 16) (r : Role) (l : List Byte) (s : State) : Prop :=
  free0 opc s ∧ header0 opc 1 l.length (joined opc (closed opc 0 l) s) ∧ s.vtf.sessions = [sess r]
    ∧ late0 (closedCtx opc 0 r l) (closedIn opc 0 r l s) ∧ turn0 (closedAt opc 0 r l s)

theorem allB_of {opc : BitVec 16} {s : State} {L : List (List Byte)} (h : ∀ l ∈ L, passB opc l s) :
    ∀ l ∈ L, Admitted opc (bare 0 l) (bareCtx opc 0 l) s (bareAt opc 0 l s) :=
  fun l hl => admitted_of_bare _ _ _ _ (h l hl).1 (h l hl).2.1 rfl (h l hl).2.2.1 (h l hl).2.2.2

theorem allC_of {opc : BitVec 16} {r : Role} {s : State} {L : List (List Byte)} (h : ∀ l ∈ L, passC opc r l s) :
    ∀ l ∈ L, Admitted opc (closed opc 0 l) (closedCtx opc 0 r l) s (closedAt opc 0 r l s) :=
  fun l hl => admitted_of_closed _ _ _ _ _ (h l hl).1 (h l hl).2.1 (h l hl).2.2.1 (h l hl).2.2.2.1 (h l hl).2.2.2.2

/-- A device with the streams of `logging` that takes stream commands outside a session. -/
def anyone : State := { logging with vtf.pol := 3, oas.win := 65536, oas.cUse := 100000 }

/-- The same with a session of a role. -/
def with1 (r : Role) : State := { logging with vtf.sessions := [sess r] }

/-- Parameters: bytes, filled with zeros to a length. -/
def par (n : Nat) (l : List Byte) : List Byte := padTo n l

theorem wit_QueriesAnswer_packets :
    (∀ l ∈ [[]], Admitted 0x0001 (bare 0 l) (bareCtx 0x0001 0 l) anyone (bareAt 0x0001 0 l anyone))
    ∧ (∀ l ∈ [par 8 [0], par 8 [1], par 8 [2], par 8 [3]], Admitted 0x0002 (bare 0 l) (bareCtx 0x0002 0 l) anyone (bareAt 0x0002 0 l anyone))
    ∧ (∀ l ∈ [par 40 [], par 40 (zeros 32 ++ [1]), par 40 (zeros 32 ++ [2]), par 40 (zeros 32 ++ [3])],
        Admitted 0x0012 (bare 0 l) (bareCtx 0x0012 0 l) anyone (bareAt 0x0012 0 l anyone))
    ∧ (∀ l ∈ [par 8 [1], par 8 [2]], Admitted 0x0027 (bare 0 l) (bareCtx 0x0027 0 l) anyone (bareAt 0x0027 0 l anyone))
    ∧ (∀ l ∈ [par 8 [0], par 8 [1, 0, 1], par 8 [1, 31, 32]], Admitted 0x0060 (bare 0 l) (bareCtx 0x0060 0 l) anyone (bareAt 0x0060 0 l anyone)) := by
  and_intros <;> exact allB_of (by decide +kernel)

/-- STREAM_READ of stream 1 from its first record for 48 bytes, and of segment 7 whole. -/
def readArgs (seg : Bool) : List Byte :=
  leB 4 1 ++ [if seg then 2 else 0, 0, 0, 0] ++ leB 8 (if seg then 7 else 1) ++ zeros 4 ++ leB 4 (if seg then 262144 else 48)

theorem wit_QueriesAnswer_reads :
    (∀ l ∈ [readArgs false, readArgs true], Admitted 0x0024 (bare 0 l) (bareCtx 0x0024 0 l) anyone (bareAt 0x0024 0 l anyone))
    ∧ (∀ b : Bool, 48 ≤ pf (bareCtx 0x0024 0 (readArgs b)) 20 4 ∧ pf (bareCtx 0x0024 0 (readArgs b)) 20 4 ≤ 1048576
      ∧ (liveStream (bareAt 0x0024 0 (readArgs b) anyone) 1).isSome = true ∧ (loadCtx 1 (bareAt 0x0024 0 (readArgs b) anyone)).isSome = true)
    ∧ (match loadCtx 1 (bareAt 0x0024 0 (readArgs true) anyone) with
      | some s1 => (match segOf s1 7, streamOf s1 1 with
        | some g, some st => decide (7 ∈ st.segs) && !(recsIn st 7).isEmpty && g.dead.isEmpty && g.uncorr.isEmpty
        | _, _ => false)
      | none => false) = true
    ∧ streamOf (bareAt 0x0027 0 (par 8 [2]) anyone) 2 = none ∧ (loadCtx 1 (bareAt 0x0027 0 (par 8 [1]) anyone)).isSome = true := by
  refine ⟨allB_of (by decide +kernel), by decide +kernel, by decide +kernel, by decide +kernel, by decide +kernel⟩

theorem wit_SessionsKeysAndCounters_packets :
    (∀ l ∈ [par 152 [0, 3], par 152 [1, 0]], Admitted 0x0010 (bare 0 l) (bareCtx 0x0010 0 l) anyone (bareAt 0x0010 0 l anyone))
    ∧ (∀ l ∈ [par 8 [0], par 8 [1], par 8 [2]], Admitted 0x0011 (closed 0x0011 0 l) (closedCtx 0x0011 0 .host l) (with1 .host) (closedAt 0x0011 0 .host l (with1 .host)))
    ∧ (∀ l ∈ [par 8 [15], par 8 [16], par 8 [31], par 8 [32]],
        Admitted 0x0082 (closed 0x0082 0 l) (closedCtx 0x0082 0 .host l) (with1 .host) (closedAt 0x0082 0 .host l (with1 .host)))
    ∧ (∀ l ∈ [par 136 [4], par 136 [3, 2, 3], par 136 [1, 0, 0, 0, 1], par 136 [2, 1]],
        Admitted 0x0081 (closed 0x0081 0 l) (closedCtx 0x0081 0 .owner l) (with1 .owner) (closedAt 0x0081 0 .owner l (with1 .owner)))
    ∧ (∀ l ∈ [par 72 [0, 0], par 72 [0, 1], par 72 [0, 2], par 72 [1, 1]],
        Admitted 0x00F0 (closed 0x00F0 0 l) (closedCtx 0x00F0 0 .owner l) (with1 .owner) (closedAt 0x00F0 0 .owner l (with1 .owner))) := by
  and_intros
  · exact allB_of (by decide +kernel)
  all_goals exact allC_of (by decide +kernel)

theorem wit_SessionsKeysAndCounters_states :
    (bareAt 0x0010 0 (par 152 []) anyone).vtf.sessions.length < 16 ∧ (bareAt 0x0010 0 (par 152 []) anyone).vtf.drbgOk = true
    ∧ (bareAt 0x0010 0 (par 152 []) anyone).vtf.entFail = false
    ∧ (∃ y ∈ (closedAt 0x0011 0 .host (par 8 [1]) (with1 .host)).vtf.sessions, y.ses = 1)
    ∧ (closedCtx 0x0011 0 .host (par 8 [2])).role ≠ some .owner
    ∧ vAt (closedAt 0x0082 0 .host (par 8 [16]) (with1 .host)).vtf.bumps 16 < 2 ^ 32
    ∧ 2 ^ 32 ≤ vAt (closedAt 0x0082 0 .host (par 8 [16]) { with1 .host with vtf.bumps := Vector.replicate 32 (2 ^ 32) }).vtf.bumps 16
    ∧ (liveStream (closedAt 0x0081 0 .owner (par 136 [1, 0, 0, 0, 1]) (with1 .owner)) 1).map (fun st => decide (st.keys.length < 4)) = some true
    ∧ (closedAt 0x00F0 0 .owner (par 72 [0, 0]) (with1 .owner)).vtf.dbgFails < 3
    ∧ 3 ≤ (closedAt 0x00F0 0 .owner (par 72 [0, 0]) { with1 .owner with vtf.dbgFails := 3 }).vtf.dbgFails
    ∧ ((closedAt 0x00F0 0 .owner (par 72 [1, 1]) { with1 .owner with vtf.chals := [{ level := 1, bytes := [], due := 1 }] }).vtf.chals.find?
      fun v => v.level == 1) = some { level := 1, bytes := [], due := 1 } ∧ (with1 .owner).tick < 1 := by
  and_intros <;> first | decide +kernel | exact ⟨_, List.mem_singleton.mpr rfl, rfl⟩

theorem wit_SessionsKeysAndCounters_alone :
    AdmittedAlone 0x0081 (closed 0x0081 0 (par 136 [2, 1])) (closedCtx 0x0081 0 .owner (par 136 [2, 1])) (with1 .owner)
      { closedAt 0x0081 0 .owner (par 136 [2, 1]) (with1 .owner) with eng.barQ := some 0 } :=
  admittedAlone_of _ _ _ _ _ (allC_of (L := [par 136 [2, 1]]) (by decide +kernel) _ (List.mem_singleton.mpr rfl)) rfl rfl

/-- An UNOWNED device in RECOVERY. -/
def unowned : State := { up with pwr.phase := .recovery, vtf.life := .unowned, vtf.drbgOk := true }

theorem wit_ProvisionAndSanitize :
    (∀ s ∈ [unowned, { unowned with vtf.life := .owned }], AdmittedAlone 0x0080 (bare 0 (par 136 [])) (bareCtx 0x0080 0 (par 136 [])) s
      { bareAt 0x0080 0 (par 136 []) s with eng.barQ := some 0 })
    ∧ (∀ l ∈ [par 8 [0], par 8 [1]], AdmittedAlone 0x0083 (closed 0x0083 0 l) (closedCtx 0x0083 0 .owner l) (with1 .owner)
      { closedAt 0x0083 0 .owner l (with1 .owner) with eng.barQ := some 0 })
    ∧ (bareAt 0x0080 0 (par 136 []) unowned).vtf.life = .unowned ∧ (bareAt 0x0080 0 (par 136 []) unowned).vtf.debug ≠ 2
    ∧ (bareAt 0x0080 0 (par 136 []) unowned).pwr.phase = .recovery ∧ (bareAt 0x0080 0 (par 136 []) unowned).vtf.drbgOk = true
    ∧ (bareAt 0x0080 0 (par 136 []) unowned).vtf.entFail = false ∧ (slotOf (closedAt 0x0083 0 .owner (par 8 [0]) (with1 .owner)) 5).used = true := by
  refine ⟨?_, ?_, by decide +kernel, by decide +kernel, by decide +kernel, by decide +kernel, by decide +kernel, by decide +kernel⟩
  · intro s h
    simp only [List.mem_cons, List.not_mem_nil, or_false] at h
    obtain rfl | rfl := h
    · exact admittedAlone_of _ _ _ _ _ (allB_of (L := [par 136 []]) (by decide +kernel) _ (List.mem_singleton.mpr rfl)) rfl rfl
    · exact admittedAlone_of _ _ _ _ _ (allB_of (L := [par 136 []]) (by decide +kernel) _ (List.mem_singleton.mpr rfl)) rfl rfl
  · exact fun l h => admittedAlone_of _ _ _ _ _ (allC_of (L := [par 8 [0], par 8 [1]]) (by decide +kernel) l h) rfl rfl

/-- The parameters of STREAM_CREATE: stream, class, attribute bits, quota and period. -/
def create (sid cls afl quota period : Nat) : List Byte := leB 4 sid ++ leB 1 cls ++ leB 1 afl ++ zeros 2 ++ leB 4 quota ++ zeros 4 ++ leB 6 period ++ zeros 2

/-- The stream of `logging` with a retention class and a state. -/
def strm (cls : SClass) (st : SState) : State :=
  { with1 .host with store.streams := (with1 .host).store.streams.map fun e => (e.1, { e.2 with attr := { e.2.attr with cls := cls }, st := st }) }

theorem wit_StreamCommands_packets :
    (∀ l ∈ [create 0 0 0 0 0, create 0xFFFFF 1 2 2 0, create 0 2 4 2097152 1000000, create 0 2 1 1 1000000, create 0 3 0 0 0, create 0 1 0 1 0],
        Admitted 0x0020 (closed 0x0020 0 l) (closedCtx 0x0020 0 .host l) (with1 .host) (closedAt 0x0020 0 .host l (with1 .host)))
    ∧ (∀ l ∈ [par 8 [1, 0, 0, 0, 1], par 8 [1], par 8 [2]], Admitted 0x0021 (bare 0 l) (bareCtx 0x0021 0 l) anyone (bareAt 0x0021 0 l anyone))
    ∧ (∀ l ∈ [par 8 [1]], Admitted 0x0022 (bare 0 l) (bareCtx 0x0022 0 l) anyone (bareAt 0x0022 0 l anyone))
    ∧ (∀ l ∈ [par 8 [1], par 8 [1, 0, 0, 0, 1]],
        Admitted 0x0025 (closed 0x0025 0 l) (closedCtx 0x0025 0 .host l) (with1 .host) (closedAt 0x0025 0 .host l (with1 .host)))
    ∧ (∀ l ∈ [par 16 [1, 0, 0, 0, 0, 0, 0, 0, 1], par 16 [1, 0, 0, 0, 0, 0, 0, 0, 2], par 16 [0]],
        Admitted 0x0026 (closed 0x0026 0 l) (closedCtx 0x0026 0 .host l) (strm .ring .closed) (closedAt 0x0026 0 .host l (strm .ring .closed)))
    ∧ (∀ l ∈ [par 8 [1]],
        Admitted 0x0028 (closed 0x0028 0 l) (closedCtx 0x0028 0 .host l) (strm .ring .closed) (closedAt 0x0028 0 .host l (strm .ring .closed))) := by
  and_intros <;> first | exact allC_of (by decide +kernel) | exact allB_of (by decide +kernel)

theorem wit_StreamCommands_states :
    (∀ l ∈ [create 0 0 0 0 0, create 0xFFFFF 1 2 2 0, create 0 2 4 2097152 1000000, create 0 2 1 1 1000000],
      (createAttr (closedCtx 0x0020 0 .host l)).isSome = true)
    ∧ (∀ l ∈ [create 0 3 0 0 0, create 0 1 0 1 0], createAttr (closedCtx 0x0020 0 .host l) = none)
    ∧ streamOf (closedAt 0x0020 0 .host (create 0xFFFFF 1 2 2 0) (with1 .host)) 0xFFFFF = none
    ∧ (closedAt 0x0020 0 .host (create 0 0 0 0 0) (with1 .host)).store.streams.length < 1048576
    ∧ (closedAt 0x0020 0 .host (create 0 2 4 2097152 1000000) (with1 .host)).store.earlyList.length < 256
    ∧ stream0Takes (closedAt 0x0020 0 .host (create 0 0 0 0 0) (with1 .host)) 40 = true
    ∧ heldCtx (bareAt 0x0021 0 (par 8 [1]) anyone) < 3072 ∧ liveStream (bareAt 0x0021 0 (par 8 [2]) anyone) 2 = none
    ∧ (liveStream (bareAt 0x0021 0 (par 8 [1]) anyone) 1).map (·.st) = some .closed ∧ (loadCtx 1 (bareAt 0x0021 0 (par 8 [1]) anyone)).isSome = true
    ∧ bound (closedAt 0x0025 0 .host (par 8 [1, 0, 0, 0, 1]) (with1 .host)) 1 = false
    ∧ (liveStream (closedAt 0x0026 0 .host (par 16 [1]) (strm .ring .closed)) 1).map (fun st => (st.attr.cls, st.first, st.next, st.st)) = some (.ring, 1, 3, .closed)
    ∧ stream0Takes (closedAt 0x0026 0 .host (par 16 [1]) (strm .ring .closed)) 24 = true := by
  and_intros <;> decide +kernel

/-- STREAM_APPEND of two bytes to stream 1 in a mode. -/
def append (mode : Nat) : List Byte := leB 4 1 ++ leB 2 0 ++ leB 1 mode ++ [0] ++ [7, 8]

/-- A packet with CHAIN, outside a session. -/
theorem wit_StreamAppendStages_chain :
    Admitted 0x0023 (bare 2 (append 0)) (bareCtx 0x0023 2 (append 0)) anyone (bareAt 0x0023 2 (append 0) anyone)
    ∧ fChain (bareCtx 0x0023 2 (append 0)).pkt = true ∧ fLast (bareCtx 0x0023 2 (append 0)).pkt = false
    ∧ look 0 (bareAt 0x0023 2 (append 0) anyone).eng.aborts = none
    ∧ ((bareAt 0x0023 2 (append 0) anyone).eng.trains.filter fun t => decide (t.st = .opened)).length < 4
    ∧ 1 + 2 ≤ max (bareAt 0x0023 2 (append 0) anyone).oas.win 4096 :=
  ⟨admitted_of_bare _ _ _ _ (by decide +kernel) (by decide +kernel) rfl (by decide +kernel) (by decide +kernel), by decide +kernel, by decide +kernel, by decide +kernel,
    by decide +kernel, by decide +kernel⟩

/-- A device before its mount, filling a half of the early log, stream 1 listed. -/
def early : State :=
  { anyone with pwr.phase := .recovery, store.mounted := false, store.earlyList := [(1, false)], store.curHalf := some 0 }

theorem wit_StreamAppendStages :
    (∀ l ∈ [append 0, append 1], Admitted 0x0023 (bare 0 l) (bareCtx 0x0023 0 l) anyone (bareAt 0x0023 0 l anyone))
    ∧ (∀ l ∈ [append 0], Admitted 0x0023 (bare 0 l) (bareCtx 0x0023 0 l) early (bareAt 0x0023 0 l early))
    ∧ pf (bareCtx 0x0023 0 (append 1)) 4 2 &&& 0xE3 = pf (bareCtx 0x0023 0 (append 1)) 4 2 ∧ pf (bareCtx 0x0023 0 (append 1)) 6 1 ≤ 1
    ∧ (∀ m ∈ [0, 1], match loadCtx 1 (bareAt 0x0023 0 (append m) anyone), streamOf (bareAt 0x0023 0 (append m) anyone) 1 with
        | some s1, some st => slotsFree s1 1 0 = true ∧ modeArray s1 st m = decide (m = 1) ∧ spaceFor s1 1 st 48 = .fits ∧ st.heldBy = none ∧ st.st = .closed
          ∧ slotsFree s1 1 4 = true ∧ st.next < seqMax
        | _, _ => False)
    ∧ trainHolding (bareAt 0x0023 0 (append 0) anyone) 1 = none ∧ (bareAt 0x0023 0 (append 0) anyone).store.waiting = []
    ∧ 1 ≤ max (bareAt 0x0023 0 (append 0) anyone).oas.win 4096 - (bareAt 0x0023 0 (append 0) anyone).oas.outst
    ∧ look 1 (bareAt 0x0023 0 (append 0) early).store.earlyList = some false ∧ (bareAt 0x0023 0 (append 0) early).store.curHalf = some 0
    ∧ (bareAt 0x0023 0 (append 0) early).vtf.life = .owned ∧ (vAt (bareAt 0x0023 0 (append 0) early).store.halves 0).used + 48 ≤ 67108864
    ∧ (streamOf (bareAt 0x0023 0 (append 0) early) 1).map (modeArray (bareAt 0x0023 0 (append 0) early) · 0) = some false
    ∧ streamOf { anyone with store.streams := [] } 1 = none ∧ (streamOf (strm .ring .sealed) 1).map (·.st) = some .sealed := by
  refine ⟨allB_of (by decide +kernel), allB_of (by decide +kernel), by decide +kernel, by decide +kernel, ?_, ?_⟩
  · intro m h
    simp only [List.mem_cons, List.not_mem_nil, or_false] at h
    obtain rfl | rfl := h <;> exact ⟨by decide +kernel, by decide +kernel, by decide +kernel, by decide +kernel, by decide +kernel, by decide +kernel, by decide +kernel⟩
  · and_intros <;> decide +kernel

/-- A boot manifest of one block, version 1. -/
def manifest1 : List Byte := par 128 (leB 4 0x4D425A5A ++ [1, 0xFF, 0, 0] ++ leB 4 1 ++ leB 4 1)

/-- A device with a session, its slot 1, the slot with the role MIRAGE, in a state. -/
def booting (st : BSt) : State :=
  { with1 .host with boot.slots := vUpd (with1 .host).boot.slots 1 fun b => { b with st := st, manifest := manifest1 } }

theorem wit_BootCommands_packets :
    (∀ l ∈ [par 9 [0, 0, 0, 0, 1], par 9 [0, 0xF0, 0xFF, 3], par 9 [1], par 4105 [0, 0xF0, 0xFF, 3]],
        Admitted 0x0030 (closed 0x0030 0 l) (closedCtx 0x0030 0 .host l) (booting .staging) (closedAt 0x0030 0 .host l (booting .staging)))
    ∧ (∀ l ∈ [manifest1, par 128 []],
        Admitted 0x0031 (closed 0x0031 0 l) (closedCtx 0x0031 0 .owner l) { booting .staging with vtf.sessions := [sess .owner] }
          (closedAt 0x0031 0 .owner l { booting .staging with vtf.sessions := [sess .owner] }))
    ∧ (∀ l ∈ [par 8 [0], par 8 [0, 1], par 8 [1], par 8 [2]],
        Admitted 0x0032 (closed 0x0032 0 l) (closedCtx 0x0032 0 .owner l) { booting .valid with vtf.sessions := [sess .owner] }
          (closedAt 0x0032 0 .owner l { booting .valid with vtf.sessions := [sess .owner] })) := by
  and_intros <;> exact allC_of (by decide +kernel)

theorem wit_BootCommands_states :
    (booting .staging).boot.active = 0 ∧ servingSlot (booting .staging) 1 = false ∧ (bslot (booting .staging) 1).st = .staging
    ∧ manifestOk manifest1 = true ∧ manifestOk (par 128 []) = false ∧ (booting .staging).vtf.debug ≠ 2
    ∧ (bslot (booting .valid) 1).st = .valid ∧ vAt (booting .valid).vtf.counters 3 ≤ mfVersion (bslot (booting .valid) 1).manifest
    ∧ ({ booting .valid with boot.served := some 1, boot.trial := true } : State).boot.trial = true
    ∧ servingSlot { booting .valid with boot.isOpen := true, boot.served := some 1 } 1 = true
    ∧ 0x03FFF000 % 4096 = 0 ∧ 0x03FFF000 + 4096 ≤ 67108864 ∧ 67108864 < 0x03FFF000 + 4097 := by and_intros <;> decide +kernel

/-- The words of a bundle of one instruction that ends the execution. -/
def endOnly : List Byte := leB 4 0 ++ leB 4 0 ++ leB 4 0 ++ leB 4 0x01000000

/-- Its file, with declared costs, and any signature. -/
def bundleFile (steps eu : Nat) : List Byte :=
  leB 4 0x42575A5A ++ [1, 1] ++ leB 2 1 ++ leB 4 steps ++ leB 4 eu ++ leB 4 0 ++ leB 4 0 ++ [0, 0, 0, 0] ++ zeros 20 ++ crcBytes endOnly
    ++ zeros 12 ++ endOnly ++ zeros 64

theorem wit_RulesAndLoads_bundles :
    (∀ l ∈ [zeros 8 ++ bundleFile 1 1, zeros 8 ++ bundleFile 0 1],
        Admitted 0x0040 (closed 0x0040 0 l) (closedCtx 0x0040 0 .owner l) (with1 .owner) (closedAt 0x0040 0 .owner l (with1 .owner)))
    ∧ (bundleFile 1 1).length = 128 + 16 * 1 ∧ fieldAt (bundleFile 1 1) 12 4 = 1 ∧ crcBytes (bytesAt (bundleFile 1 1) 64 16) = bytesAt (bundleFile 1 1) 48 4
    ∧ (insnsOf (bundleFile 1 1) 1).all insnOk = true ∧ shapeOk (insnsOf (bundleFile 1 1) 1) = true ∧ (insnsOf (bundleFile 1 1) 1).all (handlesOk 0 0) = true
    ∧ (bundleCost (insnsOf (bundleFile 1 1) 1)).map (fun p => (p.1, p.2.steps, p.2.eu, p.2.bytes, p.2.recs)) = [(65536, 1, 1, 0, 0)]
    ∧ (with1 .owner).wadi.bundles.length < 32 := by
  refine ⟨allC_of (by decide +kernel), ?_⟩
  and_intros <;> decide +kernel

/-- A device with an owner session and a loaded bundle of 100 EU, not bound, and a budget. -/
def loaded (budget : Nat) : State :=
  { with1 .owner with wadi.bundles := [(1, { Bundle.reset with steps := 4, eu := 100, nhandle := 0 })], oas.budget := budget }

/-- RULE_BIND of bundle 1 to stream 1, depth 1, with its RAISE bit. -/
def bindArgs (raise : Nat) : List Byte := [1, 0, 1, BitVec.ofNat 8 raise] ++ leB 4 1 ++ leB 4 0xFFFFFFFF ++ leB 4 0xFFFFFFFF ++ leB 4 0xFFFFFFFF ++ zeros 4

theorem wit_RulesAndLoads_binds :
    (∀ l ∈ [bindArgs 0, bindArgs 1], ∀ n ∈ [0, 100],
        Admitted 0x0041 (closed 0x0041 0 l) (closedCtx 0x0041 0 .owner l) (loaded n) (closedAt 0x0041 0 .owner l (loaded n)))
    ∧ (∀ l ∈ [par 8 [0, 1], par 8 [1, 1]],
        Admitted 0x0042 (closed 0x0042 0 l) (closedCtx 0x0042 0 .owner l)
          { loaded 100 with wadi.bindings := [(1, { Binding.reset with bundle := 1, depth := 1 })] }
          (closedAt 0x0042 0 .owner l { loaded 100 with wadi.bindings := [(1, { Binding.reset with bundle := 1, depth := 1 })] }))
    ∧ committed (loaded 100) + 100 * 1 = 100 ∧ (look 1 (loaded 100).wadi.bundles).map (fun b => (b.breached, b.nhandle)) = some (false, 0)
    ∧ (liveStream (loaded 100) 1).map (·.st) = some .closed ∧ (noSubj : Nat) = 0xFFFFFFFF
    ∧ pendCount { loaded 100 with wadi.bindings := [(1, { Binding.reset with bundle := 1, depth := 1 })] } 1 = 0 := by
  refine ⟨fun l hl n hn => ?_, allC_of (by decide +kernel), by decide +kernel, by decide +kernel, by decide +kernel, by decide +kernel, by decide +kernel⟩
  simp only [List.mem_cons, List.not_mem_nil, or_false] at hn
  obtain rfl | rfl := hn <;> exact allC_of (L := [bindArgs 0, bindArgs 1]) (by decide +kernel) l hl

/-- An extension program of one byte, without grants, for domain 1. -/
def extFile1 : List Byte :=
  leB 4 0x50585A5A ++ [1, 0, 1, 0] ++ leB 4 1 ++ leB 4 0 ++ leB 4 0 ++ leB 4 256 ++ zeros 16 ++ crcBytes [0x81] ++ zeros 20 ++ [0x81] ++ zeros 64

/-- EXT_LOAD of it from an offset, with the flags of the chunk. -/
def extChunk (off flags : Nat) (l : List Byte) : List Byte := leB 4 off ++ leB 1 flags ++ zeros 3 ++ leB 4 129 ++ zeros 4 ++ l

theorem wit_RulesAndLoads_extensions :
    (∀ l ∈ [extChunk 0 1 (extFile1.take 128), extChunk 0 3 extFile1],
        Admitted 0x0050 (closed 0x0050 0 l) (closedCtx 0x0050 0 .owner l) (with1 .owner) (closedAt 0x0050 0 .owner l (with1 .owner)))
    ∧ (∀ l ∈ [extChunk 128 2 (extFile1.drop 128)],
        Admitted 0x0050 (closed 0x0050 0 l) (closedCtx 0x0050 0 .owner l) { with1 .owner with eng.extFile := some { total := 129, bytes := extFile1.take 128 } }
          (closedAt 0x0050 0 .owner l { with1 .owner with eng.extFile := some { total := 129, bytes := extFile1.take 128 } }))
    ∧ extFile1.length = 129 ∧ extHeaderOk extFile1 = true ∧ crcBytes (bytesAt extFile1 64 1) = bytesAt extFile1 40 4
    ∧ extSlot (with1 .owner) (bytesAt extFile1 24 16) = some 1 ∧ (with1 .owner).mem.ext = [] := by
  refine ⟨allC_of (by decide +kernel), allC_of (by decide +kernel), ?_⟩
  and_intros <;> decide +kernel

/-- The words of the byte-swap routine. -/
def swapWords : List Byte := leB 4 0x080000 ++ leB 4 0x120008 ++ leB 4 0x208008 ++ leB 4 0x680011

/-- Its file, which declares the ports `lo` to `hi`. -/
def swapBytes (lo hi : Nat) : List Byte :=
  leB 4 0x43555A5A ++ [1, 0] ++ leB 2 4 ++ leB 2 0x8000 ++ zeros 30 ++ leB 2 lo ++ leB 2 hi ++ crcBytes swapWords ++ zeros 16 ++ swapWords ++ zeros 64

theorem wit_RulesAndLoads_microcode :
    (∀ l ∈ [zeros 8 ++ swapBytes 1 0, zeros 8 ++ swapBytes 0x1800 0x1800, zeros 8 ++ swapBytes 0x1FFF 0x37FF, zeros 8 ++ swapBytes 0x3800 0x3BFF],
        Admitted 0x0051 (closed 0x0051 0 l) (closedCtx 0x0051 0 .owner l) (with1 .owner) (closedAt 0x0051 0 .owner l (with1 .owner)))
    ∧ (swapBytes 1 0).length = 128 + 4 * 4 ∧ crcBytes (bytesAt (swapBytes 1 0) 64 16) = bytesAt (swapBytes 1 0) 44 4
    ∧ ((List.range 16).map fun k => fieldAt (swapBytes 1 0) (8 + 2 * k) 2).all (uEntryOk 4) = true ∧ (uWords (swapBytes 1 0) 4).all uWordOk = true
    ∧ uTargetsOk (uWords (swapBytes 1 0) 4) = true ∧ uPaths (uWords (swapBytes 1 0) 4) (8 * 4 + 64) [] [(0, false)] = true
    ∧ portsMeet 0x1800 0x1800 0x1800 0x1FFF = true ∧ portsMeet 0x3800 0x3BFF 0x3800 0x3BFF = true ∧ (with1 .owner).ucode.commit = none
    ∧ ({ swapper with ucode.commit := some (swapFile, 0) } : State).ucode.commit = some (swapFile, 0) := by
  refine ⟨allC_of (by decide +kernel), ?_⟩
  and_intros <;> decide +kernel

theorem wit_FaultAndPowerCommands_packets :
    (∀ l ∈ [par 8 [0], par 8 [1], par 8 [95], par 8 [96]],
        Admitted 0x0062 (closed 0x0062 0 l) (closedCtx 0x0062 0 .owner l) (with1 .owner) (closedAt 0x0062 0 .owner l (with1 .owner)))
    ∧ (∀ l ∈ [par 16 [], par 16 (List.replicate 12 0xFF ++ [3])],
        Admitted 0x0061 (closed 0x0061 0 l) (closedCtx 0x0061 0 .owner l) (with1 .owner) (closedAt 0x0061 0 .owner l (with1 .owner)))
    ∧ (∀ l ∈ [par 8 [0]], Admitted 0x0070 (bare 0 l) (bareCtx 0x0070 0 l) anyone (bareAt 0x0070 0 l anyone))
    ∧ (∀ l ∈ [par 8 [1], par 8 [2], par 8 [3], par 8 [4]], AdmittedAlone 0x0070 (bare 0 l) (bareCtx 0x0070 0 l) anyone
        { bareAt 0x0070 0 l anyone with eng.barQ := some 0 })
    ∧ (∀ l ∈ [par 8 [0], par 8 [2]], Admitted 0x0071 (bare 0 l) (bareCtx 0x0071 0 l) anyone (bareAt 0x0071 0 l anyone))
    ∧ (∀ l ∈ [par 8 [1]], AdmittedAlone 0x0071 (closed 0x0071 0 l) (closedCtx 0x0071 0 .owner l) (with1 .owner)
        { closedAt 0x0071 0 .owner l (with1 .owner) with eng.barQ := some 0 }) := by
  refine ⟨allC_of (by decide +kernel), allC_of (by decide +kernel), allB_of (by decide +kernel), fun l h => ?_, allB_of (by decide +kernel), fun l h => ?_⟩
  · exact admittedAlone_of _ _ _ _ _ (allB_of (L := [par 8 [1], par 8 [2], par 8 [3], par 8 [4]]) (by decide +kernel) l h) rfl rfl
  · exact admittedAlone_of _ _ _ _ _ (allC_of (L := [par 8 [1]]) (by decide +kernel) l h) rfl rfl

theorem wit_FaultAndPowerCommands_states :
    (closedAt 0x0062 0 .owner (par 8 [1]) (with1 .owner)).flt.latch.getLsbD 1 = false
    ∧ (closedAt 0x0062 0 .owner (par 8 [95]) { with1 .owner with flt.latch := 1 <<< 95 }).flt.latch.getLsbD 95 = true
    ∧ (closedAt 0x0062 0 .owner (par 8 [1]) (with1 .owner)).flt.hist.length < 32 ∧ vAt (with1 .owner).flt.pol 1 ≠ 2
    ∧ (with1 .owner).flt.present.getLsbD 1 = false ∧ (with1 .owner).flt.force.getLsbD 1 = false
    ∧ ({ with1 .owner with flt.present := 2 } : State).flt.present.getLsbD 1 = true ∧ (with1 .owner).flt.masked.getLsbD 1 = false
    ∧ anyone.pwr.heldWake = none ∧ anyone.oas.warn = false ∧ anyone.oas.meas.running = false ∧ anyone.oas.meas.job = none ∧ anyone.eng.jobs = [] := by
  and_intros <;> decide +kernel

theorem wit_PacketsQueuedAndChecked :
    engineOn anyone = true ∧ anyone.pwr.pstate ≠ .off ∧ queueOf anyone 63 = [] ∧ trainOfQueue anyone 63 = none
    ∧ queueOf waiting 63 ≠ [] ∧ (∀ e ∈ hostRows, (opInfo e.2.toNat).isSome = true)
    ∧ ({ anyone with pwr.phase := .halt } : State).pwr.phase = .halt ∧ 32 ≤ (32 : BitVec 8).toNat ∧ (4 : BitVec 8).getLsbD 2 = true
    ∧ unownedTakes (joined 0x0027 (bare 0 (par 8 [])) unowned) (bareCtx 0x0027 0 (par 8 [])) = false
    ∧ rollbackTakes (bareCtx 0x0070 0 (par 8 [])) = false
    ∧ needs (joined 0x0082 (bare 0 (par 8 [])) anyone) (bareCtx 0x0082 0 (par 8 [])) ≠ none
    ∧ needs (joined 0x0002 (bare 0 (par 8 [0, 1])) anyone) (bareCtx 0x0002 0 (par 8 [0, 1])) = none ∧ reservedOk (bareCtx 0x0002 0 (par 8 [0, 1])) = false
    ∧ (zeros 15).length < 16 ∧ queueOf anyone 0 = [] ∧ 16 ≤ (zeros 16).length := by and_intros <;> decide +kernel

/-! ## Link, boot window, sideband, faults, power and ports -/

/-- `anyone` with its link changed. -/
def linked (g : Link → Link) : State := { anyone with link := g anyone.link, pwr.straps := 8, tick := 5000 }

/-- The link in a state of its own. -/
def lstate (x : LState) : State := linked fun l => { l with ls := x }

theorem wit_HostLinkTraining :
    (∀ x ∈ [LState.detect, .config, .rate, .active, .recovery, .lowpower, .disabled], linkOn (lstate x) = true ∧ (lstate x).link.ls = x)
    ∧ anyone.pwr.entry = none ∧ anyone.pwr.phase ≠ .test ∧ linkOn (lstate .hotreset) = true
    ∧ (lstate .rate).link.recAt + 10 ≤ (lstate .rate).tick ∧ anyone.flt.masked.getLsbD 12 = false ∧ (lstate .detect).link.recAt + 1000 ≤ (lstate .detect).tick
    ∧ (lstate .detect).link.ts1 = false
    ∧ ({ lstate .lowpower with pwr.pstate := .doze } : State).pwr.pstate = .doze ∧ linkOn { lstate .lowpower with pwr.pstate := .doze } = true
    ∧ linkOn { lstate .disabled with pwr.pstate := .rest } = true ∧ capWidth (lstate .config) = 4
    ∧ (∀ i : Fin 4, (0xF : BitVec 4).getLsbD i.val = true) ∧ (7 : BitVec 4).getLsbD 3 = false ∧ (∀ i : Fin 2, (7 : BitVec 4).getLsbD i.val = true)
    ∧ (1 : BitVec 4).getLsbD 1 = false ∧ (∀ p : BitVec 3, agreedRate { (lstate .config).link with peer := p } = 0 ∨ agreedRate { (lstate .config).link with peer := p } ≠ 0)
    ∧ agreedRate { (lstate .config).link with peer := 1 } = 0 ∧ agreedRate { (lstate .config).link with peer := 4 } ≠ 0
    ∧ (linked fun l => { l with rate := 1, target := 1 }).link.rate = (linked fun l => { l with rate := 1, target := 1 }).link.target
    ∧ trainWidth 4 0xF = some 4 ∧ agreedRate (linked fun l => { l with retrain := true, peer := 4, rate := 0 }).link ≠ 0
    ∧ (lstate .recovery).link.recAt + 2000 ≤ (lstate .recovery).tick ∧ vAt anyone.flt.pol 4 ≠ 2 ∧ vAt anyone.flt.pol 12 ≠ 2
    ∧ (0x80 : BitVec 32).getLsbD 7 = true ∧ (lstate .active).link.retrain = false := by and_intros <;> decide +kernel

/-- A packet of the replay buffer. -/
def txp (n sent : Nat) : TxPkt := { lseq := n, typ := 4, lfl := 0, xtag := 0, payload := [], crc := linkCrc 4 0 n 0 [], sent := sent }

theorem wit_HostLinkPackets :
    linkFlows (lstate .active) = true ∧ (lstate .active).pwr.entry = none ∧ ((lstate .active).link.rxE + 65536 - (0 : BitVec 16).toNat) % 65536 = 0
    ∧ ((lstate .active).link.rxE + 65536 - (0xFFFF : BitVec 16).toNat) % 65536 = 1
    ∧ ((lstate .active).link.rxE + 65536 - (0xF000 : BitVec 16).toNat) % 65536 = 4096
    ∧ 4096 < ((lstate .active).link.rxE + 65536 - (0xEFFF : BitVec 16).toNat) % 65536
    ∧ isControl 0x7F = false ∧ isControl 0x80 = true ∧ anyone.flt.masked.getLsbD 13 = false ∧ anyone.flt.masked.getLsbD 14 = false
    ∧ (0xFFC : BitVec 16).toNat < 4096 ∧ (0xFFC : BitVec 16).toNat % 4 = 0 ∧ (zeros 1024).length ≤ 1024 ∧ (lstate .active).link.asm = none
    ∧ (∀ n ∈ [0, 1022], (linked fun l => { l with asm := some { bytes := [1], ch := 1, cd := n, due := 0 } }).link.asm
        = some { bytes := [1], ch := 1, cd := n, due := 0 } ∧ n + (64 + 63) / 64 < 1024)
    ∧ fieldAt (zeros 3 ++ [63] ++ zeros 12) 3 1 < 64 ∧ queueOf waiting 63 ≠ [] ∧ linkFlows waiting = true
    ∧ (linked fun l => { l with replay := [txp 5 0, txp 6 0] }).link.replay = [txp 5 0, txp 6 0]
    ∧ ((5 : BitVec 16).toNat + 65536 - 5) % 65536 = 0 ∧ ((6 : BitVec 16).toNat + 65536 - 5) % 65536 = 1 ∧ 1 < ((7 : BitVec 16).toNat + 65536 - 5) % 65536
    ∧ (linked fun l => { l with advAt := 4990 }).link.advAt + 10 ≤ 5000 ∧ 5000 < (linked fun l => { l with advAt := 4991 }).link.advAt + 10
    ∧ (txp 5 3).sent < 4 ∧ 4 ≤ (txp 5 4).sent ∧ vAt anyone.flt.pol 14 ≠ 2 ∧ (7 : BitVec 16).toNat < 8 ∧ 8 ≤ (8 : BitVec 16).toNat
    ∧ (lstate .active).link.credAt + 10 ≤ (lstate .active).tick := by and_intros <;> decide +kernel

/-- A device that serves an image of two blocks with fill 0x55, a prefix of one block to verify before it is ready; ready, and block 0 verified. -/
def served : State :=
  { anyone with
    boot := { anyone.boot with
      served := some 0, answering := true, ready := true, isOpen := true, verified := [0], nextBlk := 1, sealOk := true
      manifest := leB 4 0x4D425A5A ++ [1, 0x55, 0, 0] ++ leB 4 8192 ++ leB 4 1 ++ leB 4 4096 ++ zeros 108 } }

theorem wit_BootWindowReads :
    bootAnswers served = true ∧ bootAnswers anyone = false ∧ ({ served with boot.ready := false } : State).boot.ready = false
    ∧ bootAnswers { served with boot.ready := false } = true ∧ ({ served with boot.isOpen := false } : State).boot.isOpen = false
    ∧ served.boot.isOpen = true ∧ served.boot.served ≠ none ∧ mfLength served.boot.manifest = 8192 ∧ served.boot.verified = [0]
    ∧ served.boot.failed = [] ∧ served.boot.earlyCnt ≠ 0xFFFF ∧ (∀ k, k ∈ served.boot.verified → leafKept served.boot k = true)
    ∧ readyDue { served with boot.ready := false } = true ∧ (0x06 : Byte) ∈ ignoredOpcodes
    ∧ (4096 + 0) % 2 ^ 24 / 4096 ∉ served.boot.verified
    ∧ (BitVec.ofNat 24 (4 * 12)) = BitVec.ofNat 24 0x30 ∧ 0x34 ≤ (0x34 : BitVec 32).toNat ∧ (0xFFFFFF : BitVec 32).toNat + 1 ≤ 2 ^ 24 := by
  and_intros <;> decide +kernel

theorem wit_BootWindowVerifiesAndCloses :
    alive served = true ∧ served.boot.served ≠ none ∧ served.boot.answering = true ∧ ({ served with boot.ready := false } : State).boot.ready = false
    ∧ served.boot.sealOk = true ∧ fieldAt served.boot.manifest 16 4 = 4096 ∧ 0 ∈ served.boot.verified ∧ 4096 < mfLength served.boot.manifest
    ∧ 1 ∉ served.boot.verified ∧ 1 ∉ served.boot.failed ∧ served.boot.jump = none ∧ served.boot.nextBlk ≤ 1
    ∧ ({ served with boot.jump := some 1 } : State).boot.jump = some 1 ∧ served.pwr.pstate ≠ .off
    ∧ ({ served with tick := 60000000 } : State).boot.readyAt + 60000000 ≤ ({ served with tick := 60000000 } : State).tick
    ∧ ¬ (({ served with tick := 59999999 } : State).boot.readyAt + 60000000 ≤ ({ served with tick := 59999999 } : State).tick)
    ∧ served.boot.keep = false ∧ ({ served with boot.keep := true } : State).boot.keep = true := by
  and_intros <;> decide +kernel

/-- The root over two leaves, and block 1 of a two-block image, which verifies against it. -/
def root2 (a b : List Byte) : List Byte := (Config.sha256 ([0x01] ++ a ++ b)).toList

/-- The first 32 bytes of the manifest of an image of two blocks. -/
def head2 : List Byte := leB 4 0x4D425A5A ++ [1, 0x55, 0, 0] ++ leB 4 8192 ++ leB 4 1 ++ leB 4 4096 ++ zeros 12

theorem wit_BootWindowVerifiesAndCloses_good (img : List Host.Cell) :
    let a := bootLeaf img 8192 0
    let b := bootLeaf img 8192 1
    let m := head2 ++ (root2 a b ++ zeros 64)
    mfLength m = 8192 ∧ (climb [[a, b], [root2 a b]] [] (bytesAt m 32 32) 16 0 1 (bootLeaf img (mfLength m) 1)).1 = true := by
  intro a b m
  have l : head2.length = 32 := by decide +kernel
  have h : mfLength m = 8192 := by
    show leN ((m.drop 8).take 4) = 8192
    rw [List.drop_append_of_le_length (by omega), List.take_append_of_le_length (by rw [List.length_drop]; omega)]
    decide +kernel
  have e : bytesAt m 32 32 = root2 a b := by
    show (m.drop 32).take 32 = _
    rw [List.drop_left' l, List.take_left' (by simp [root2])]
  refine ⟨h, ?_⟩
  rw [h, e]
  simp [climb, root2, a, b]

/-- The last verified block below a bound, and the seal's condition on the prefix. -/
theorem wit_BootWindowVerifiesAndCloses_prefix :
    ∀ i, 4096 * (i + 1) ≤ fieldAt served.boot.manifest 16 4 → 4096 * i < mfLength served.boot.manifest → i ∈ served.boot.verified ∨ i ∈ served.boot.failed := by
  intro i h _
  have e : fieldAt served.boot.manifest 16 4 = 4096 := by decide +kernel
  have : i = 0 := by omega
  subst this
  exact .inl (by decide +kernel)

theorem wit_SidebandAndTap :
    sideOn anyone = true ∧ sideAddr anyone = 0x3A ∧ (0x3A : BitVec 7).toNat = sideAddr anyone ∧ (0x3B : BitVec 7).toNat ≠ sideAddr anyone
    ∧ anyone.side.busy = false ∧ ({ anyone with side.busy := true } : State).side.busy = true ∧ (zeros 15).length < 16 ∧ 59 < (zeros 60).length
    ∧ zeros 4 ≠ crcBytes (1 :: zeros 16) ∧ (zeros 4).length = 4 ∧ 16 ≤ (zeros 16).length ∧ (zeros 59).length ≤ 59 ∧ queueOf { anyone with eng.queues := Vector.replicate 64 [QPkt.reset] } 0 ≠ []
    ∧ sideOn { anyone with pwr.pstate := .rest } = true ∧ ({ anyone with side.rejected := true } : State).side.rejected = true
    ∧ anyone.side.rejected = false ∧ anyone.side.reply = none ∧ ({ anyone with side.reply := some (zeros 16) } : State).side.reply = some (zeros 16)
    ∧ tapOn anyone = true ∧ anyone.pwr.seq = .none ∧ anyone.pwr.released = true ∧ (∀ n ∈ [3, 30], 3 ≤ (BitVec.ofNat 5 n).toNat ∧ (BitVec.ofNat 5 n).toNat ≤ 30)
    ∧ anyone.vtf.debug = 0 ∧ ({ anyone with vtf.debug := 1 } : State).vtf.debug = 1 ∧ ({ anyone with vtf.debug := 2 } : State).vtf.debug = 2
    ∧ 0x1800 ≤ (0x1800 : BitVec 16).toNat ∧ (0x1FFF : BitVec 16).toNat ≤ 0x1FFF := by and_intros <;> decide +kernel

/-- `anyone` with its fault registers changed. -/
def faulty (g : Faults → Faults) : State := { anyone with flt := g anyone.flt, tick := 5000 }

/-- Thirty-two entries of history. -/
def fullHist : List HistEntry := List.replicate 32 { ets := 0, src := 1, cls := .uc, det := 0 }

theorem wit_FaultLatchesAndTimers :
    collectorOn anyone = true ∧ (∀ n ∈ [1, 79], anyone.flt.masked.getLsbD n = false ∧ anyone.flt.latch.getLsbD n = false)
    ∧ (faulty fun f => { f with latch := 2 }).flt.latch.getLsbD 1 = true ∧ anyone.flt.hist.length < 32
    ∧ 32 ≤ (faulty fun f => { f with hist := fullHist }).flt.hist.length ∧ srcClass 12 ≠ .fa ∧ vAt anyone.flt.pol 12 = 0
    ∧ vAt anyone.flt.pol 1 = 1 ∧ (∃ n ∈ [1, 6, 7, 19, 24, 28], srcClass n = .uc ∧ vAt anyone.flt.pol n = 1) ∧ anyone.flt.tmrUc = none
    ∧ vAt (faulty fun f => { f with pol := Vector.replicate 96 2 }).flt.pol 79 = 2
    ∧ (faulty fun f => { f with masked := 2 }).flt.masked.getLsbD 1 = true ∧ (∀ n ∈ [1, 95], anyone.flt.masked.getLsbD n = false) ∧ anyone.flt.latch.getLsbD 0 = false
    ∧ anyone.flt.masked.getLsbD 0 = false ∧ anyone.flt.masked.getLsbD 8 = false
    ∧ (faulty fun f => { f with masked := 2 }).flt.present.getLsbD 1 = false ∧ (faulty fun f => { f with masked := 2 }).flt.force.getLsbD 1 = false
    ∧ (faulty fun f => { f with masked := 2, present := 2 }).flt.present.getLsbD 1 = true
    ∧ (∀ d ∈ [5000, 5001], (faulty fun f => { f with tmrFa := some { due := d, src := 7 } }).flt.tmrFa = some { due := d, src := 7 })
    ∧ (faulty fun f => { f with tmrTherm := some 5000 }).flt.tmrTherm = some 5000 := by
  and_intros <;> decide +kernel

/-- A class with one source latched under TIMED. -/
theorem wit_FaultLatchesAndTimers_classes :
    (∃ n, n < 80 ∧ timedOpen (faulty fun f => { f with latch := 1 <<< n, latchedPol := Vector.replicate 96 1 }).flt .uc = [n])
    ∧ ∃ n, n < 80 ∧ timedOpen (faulty fun f => { f with latch := 1 <<< n, latchedPol := Vector.replicate 96 1 }).flt .ce = [n] :=
  ⟨⟨12, by decide +kernel⟩, ⟨4, by decide +kernel⟩⟩

theorem wit_FaultPortsAct :
    collectorOn anyone = true ∧ (95 : BitVec 16).toNat % 128 < 96 ∧ (faulty fun f => { f with latch := 1 <<< 95 }).flt.latch.getLsbD 95 = true
    ∧ 96 ≤ (96 : BitVec 16).toNat % 128 ∧ anyone.flt.present.getLsbD 1 = false ∧ anyone.flt.force.getLsbD 1 = false
    ∧ (faulty fun f => { f with present := 2 }).flt.masked.getLsbD 1 = false := by and_intros <;> decide +kernel

/-- A drained device on its way into a state, the link quiet. -/
def entering (x : PState) (j : Nat) : State :=
  { serving with link.ls := .detect, pwr.entry := some (x, j) }

theorem wit_PowerStatesEntered :
    alive (entering .rest 4) = true ∧ drained (entering .rest 4) = true ∧ (∀ k : Fin 4, vAt (entering .rest 4).arr.moves k.val = none)
    ∧ (entering .rest 4).pwr.entry = some (.rest, 4) ∧ (entering .off 4).pwr.entry = some (.off, 4) ∧ (entering .rest 4).link.ls ≠ .active
    ∧ (entering .rest 4).link.ls ≠ .recovery ∧ (entering .rest 4).link.ls ≠ .rate ∧ (entering .off 4).vtf.life = .owned ∧ (entering .rest 4).pwr.heldWake = none ∧ (entering .off 4).store.mounted = true
    ∧ drained logging = false ∧ serving.pwr.entry = none ∧ ({ serving with pwr.pstate := .doze } : State).pwr.pstate = .doze
    ∧ ({ serving with side.busy := true } : State).side.busy = true ∧ faultIrq { serving with flt.latch := 2 } = true
    ∧ slotFailing { worn with arr.slots := [(5, { SlotInfo.reset with failing := true })] } = true ∧ serving.pwr.pstate = .run
    ∧ (entering .rest 0).pwr.entry = some (.rest, 0) ∧ ({ serving with tick := 100 } : State).pwr.idleSince + 100 ≤ 100
    ∧ ({ serving with pwr.pstate := .idle } : State).pwr.pstate = .idle := by and_intros <;> decide +kernel

theorem wit_TimersAndPorts :
    serving.pending = [] ∧ serving.pwr.released = true ∧ serving.tbx.hung.getLsbD 0 = false ∧ ({ serving with tbx.hung := 1 } : State).tbx.hung.getLsbD 0 = true
    ∧ serving.pwr.seq = .none ∧ serving.ucode.lock = false ∧ ({ serving with ucode.lock := true } : State).ucode.lock = true
    ∧ up.pwr.phase = .startup ∧ serving.pwr.phase ≠ .startup ∧ serving.tbx.hung.getLsbD 2 = false := by and_intros <;> decide +kernel

/-- A device whose cache maintenance names D-space address 0, in a mapped page. -/
def mop : State := { mapped0 [] with cache.maddr := 0 }

/-- A state whose core 0 holds no capability but the root PORT capability. -/
def portOnly (s : State) : State := lev0 (fun k => { k with caps := vSet (Vector.replicate 16 Cap.reset) 0 (vAt rootCaps 0) }) s

theorem wit_CachesAndTranslationBuffers :
    mop.pwr.released = true ∧ mop.cache.busy = false ∧ ({ mop with cache.busy := true } : State).cache.busy = true
    ∧ (match translate 0 (domOf mop 0) 0 false { mop with cache.busy := true } with
        | .ok (t, _) => decide (t.se = false) && (physLine t.phys).isSome
        | .error _ => false) = true
    ∧ (match translate 0 (domOf mop 0) 0xFFFFFFFF false { mop with cache.busy := true } with | .ok _ => false | .error e => !isMapErr e.det) = true
    ∧ (tileOf { mop with cache.tiles := vUpd mop.cache.tiles 3 fun x => { x with powered := 0x7F } } 3).powered.getLsbD (0x70000 / 65536 % 8) = false
    ∧ (tileOf mop 0).sweep = 0 ∧ (tileOf (updTile mop 0 fun x => { x with sweep := 0x80 }) 0).sweep ≠ 0 ∧ mop.pwr.entry = none
    ∧ able 0 mop = true ∧ holdsCap (coreOf mop 0) (capPort 1 0xC08) = true
    ∧ (∀ d ∈ [0, 255], holdsCap (coreOf mop 0) (capDomain 1 d) = true) ∧ mop.mmu.busy = false ∧ ({ mop with mmu.busy := true } : State).mmu.busy = true
    ∧ holdsCap (coreOf (lev0 (fun k => { k with caps := Vector.replicate 16 Cap.reset }) mop) 0) (capPort 1 0xC08) = false
    ∧ able 0 (portOnly mop) = true ∧ holdsCap (coreOf (portOnly mop) 0) (capPort 1 0xC08) = true
    ∧ holdsCap (coreOf (portOnly mop) 0) (capDomain 1 0) = false := by and_intros <;> decide +kernel

/-- A core 0 that has latched an operation of the seal engine on stream 1, from D-space 0x100 to 0x200, with a length. -/
def sealing (op n : Nat) (src : Word) : State :=
  let s := { mapped0 [] with
    store.streams := [(1, { Stream.reset with keys := [20] })]
    vtf.owner := some (zeros 64)
    mem.sram := (mapped0 []).mem.sram ++ ((List.range n).map fun i => (16384 + 256 + i, src)) }
  updSeal s 0 fun r => { r with
    busy := true, runOp := op, runDom := 0, runArgs := #v[0, 1, 0, 0x100, 0, 0x200, BitVec.ofNat 16 n, 0, 0, 0, 0] }

/-- Whether a part of a seal operation is done. -/
def sealOkay {α : Type} (x : SealOut α) : Bool := match x with | .ok _ _ => true | _ => false

/-- The state it leaves. -/
def sealLeft {α : Type} (x : SealOut α) (s : State) : State := match x with | .ok _ t => t | _ => s

/-- The seal engine's registers of core 0. -/
def sealR0 (s : State) : SealRegs := (coreOf s 0).sealR

theorem wit_SealEngineOperations_start :
    able 0 mop = true ∧ (∀ op ∈ [1, 2, 3, 4], sealMay mop 0 op = true ∧ sealMay (portOnly mop) 0 op = false) ∧ (sealR0 mop).busy = false
    ∧ (∀ op ∈ [1, 4], (sealR0 (sealing op 8 (tw 1 7))).busy = true ∧ 1 ≤ (sealR0 (sealing op 8 (tw 1 7))).runOp ∧ (sealR0 (sealing op 8 (tw 1 7))).runOp ≤ 4)
    ∧ runLen (sealR0 (sealing 3 0 (tw 1 7))) = 0 ∧ runLen (sealR0 (sealing 1 7 (tw 1 7))) % 8 ≠ 0
    ∧ sealKey (updStream (sealing 1 8 (tw 1 7)) 1 fun st => { st with keys := [] }) (sealR0 (sealing 1 8 (tw 1 7))) = none
    ∧ (match sealRead 0 0 0x100 8 (sealing 1 8 (tw 4 7)) with | .err 4 _ => true | _ => false) = true := by
  and_intros <;> decide +kernel

/-- A list's bytes written out. -/
theorem padTo_of_range (n : Nat) (l : List Byte) : padTo n l = (List.range n).map fun i => (l[i]?).getD 0 := by
  apply List.ext_getElem
  · simp [padTo, zeros]; omega
  · intro i h1 h2
    simp only [List.length_map, List.length_range] at h2
    by_cases h : i < l.length
    · simp [padTo, zeros, h, h2]
    · simp [padTo, zeros, List.getElem_append, h]

/-- The 32 bytes of a digest written out. -/
theorem toList_of_ofFn {n : Nat} (v : Vector Byte n) : v.toList = List.ofFn fun i : Fin n => v[i] := by
  apply List.ext_getElem <;> simp

/-- The bytes that a read of the seal engine gets. -/
def sealGot (x : SealOut (List Byte)) : List Byte := match x with | .ok a _ => a | _ => []

/-- The read of 8 source words, on a state. -/
def srcRead (s : State) : SealOut (List Byte) := sealRead 0 0 0x100 8 s

/-- The read of `n` words at the destination. -/
def dstRead (n : Nat) (s : State) : SealOut (List Byte) := sealRead 0 0 0x200 n s

theorem wit_SealEngineOperations_xts (key : List Byte) (h : key = (sealKey (sealing 1 8 (tw 1 7)) (sealR0 (sealing 1 8 (tw 1 7)))).getD []) :
    sealArgsOk (sealR0 (sealing 1 8 (tw 1 7))) = true ∧ sealKey (sealing 1 8 (tw 1 7)) (sealR0 (sealing 1 8 (tw 1 7))) = some key
    ∧ sealOkay (srcRead (sealing 1 8 (tw 1 7))) = true
    ∧ sealOkay (sealWrite 0 0 0x200 (padTo 16 (Config.xtsEnc key (runTweak (sealR0 (sealing 1 8 (tw 1 7)))) (sealGot (srcRead (sealing 1 8 (tw 1 7))))))
        (sealLeft (srcRead (sealing 1 8 (tw 1 7))) up)) = true := by
  subst h
  refine ⟨by decide +kernel, by decide +kernel, by decide +kernel, ?_⟩
  rw [padTo_of_range]
  decide +kernel

theorem wit_SealEngineOperations_digest :
    sealArgsOk (sealR0 (sealing 3 8 (tw 1 7))) = true ∧ sealOkay (dstRead 16 (sealing 3 8 (tw 1 7))) = true
    ∧ sealOkay (srcRead (sealLeft (dstRead 16 (sealing 3 8 (tw 1 7))) up)) = true
    ∧ sealOkay (sealWrite 0 0 0x200 (Config.sha256 (sealGot (dstRead 16 (sealing 3 8 (tw 1 7)))
        ++ sealGot (srcRead (sealLeft (dstRead 16 (sealing 3 8 (tw 1 7))) up)))).toList
      (sealLeft (srcRead (sealLeft (dstRead 16 (sealing 3 8 (tw 1 7))) up)) up)) = true := by
  refine ⟨by decide +kernel, by decide +kernel, by decide +kernel, ?_⟩
  rw [toList_of_ofFn]
  decide +kernel

theorem wit_SealEngineOperations_verify :
    sealArgsOk (sealR0 (sealing 4 8 (tw 1 7))) = true ∧ sealOkay (srcRead (sealing 4 8 (tw 1 7))) = true
    ∧ sealOkay (dstRead 32 (sealLeft (srcRead (sealing 4 8 (tw 1 7))) up)) = true
    ∧ (sealLeft (dstRead 32 (sealLeft (srcRead (sealing 4 8 (tw 1 7))) up)) up).vtf.owner = some (zeros 64) := by
  and_intros <;> decide +kernel

/-! ## Reset and the invariant -/

theorem wit_NoStepLowersACounter :
    CountersAtLeast (fun i => if i = 8 then 3 else 0) { State.reset with vtf.counters := vSet State.reset.vtf.counters 8 3, pending := [.iNop (at0 0)] }
    ∧ ∃ t, step { State.reset with vtf.counters := vSet State.reset.vtf.counters 8 3, pending := [.iNop (at0 0)] } = .next t :=
  ⟨by unfold CountersAtLeast; decide +kernel, _, rfl⟩

/-! ## Well-formedness: a term that each check refuses, beside one that it takes -/

theorem wf_prefixes : (Instr.iNop (pre0 [0xE9, 0xDD, 0xD8, 0xDA, 0xDC, 0xEF] 0)).wf = true
    ∧ ∀ b ∈ [0xD7, 0xDB, 0xDE, 0xDF, 0xF0, 0x00], (Instr.iNop (pre0 [BitVec.ofNat 8 b] 0)).wf = false := by decide +kernel

theorem wf_userInstruction : (Instr.userInstruction 0xF0 (at0 0)).wf = true ∧ (Instr.userInstruction 0xEF (at0 0)).wf = false := by decide +kernel

theorem wf_shortPacket : (Instr.shortCommandPacket (zeros 15)).wf = true ∧ (Instr.shortCommandPacket (zeros 16)).wf = false := by decide +kernel

theorem wf_wakeCause : (Instr.wakeEvent 1).wf = true ∧ (Instr.wakeEvent 4).wf = true ∧ (Instr.wakeEvent 0).wf = false ∧ (Instr.wakeEvent 5).wf = false := by
  decide +kernel

theorem wf_vendor : (Instr.jtagVendorInstruction 3 .testMode).wf = true ∧ (Instr.jtagVendorInstruction 30 .testMode).wf = true
    ∧ ∀ n ∈ [0, 1, 2, 31], (Instr.jtagVendorInstruction (BitVec.ofNat 5 n) .testMode).wf = false := by decide +kernel

/-- R228, R231: a read, a status, an ignored write enable and an unknown opcode, each by its opcode byte. -/
theorem test_boot_opcodes : bootCommand 0x03 ⟨0, 4, 0⟩ ⟨1, none⟩ = .read ⟨0, 4, 0⟩ ∧ bootCommand 0x05 ⟨0, 4, 0⟩ ⟨1, none⟩ = .readStatus ⟨1, none⟩
    ∧ bootCommand 0x06 ⟨0, 4, 0⟩ ⟨1, none⟩ = .ignoredFlashCommand ∧ bootCommand 0xFF ⟨0, 4, 0⟩ ⟨1, none⟩ = .unknownBootOpcode := by decide +kernel

theorem wf_faultSources : (Instr.faultLatch 95 0 true).wf = true ∧ (Instr.faultLatch 96 0 true).wf = false ∧ (Instr.brokenWireRecovered 96).wf = false
    ∧ (Instr.brokenWire 95 true).wf = true ∧ (Instr.brokenWire 96 true).wf = false := by decide +kernel

theorem wf_segments : (Instr.codewordRead 2105343 0 0 false false false).wf = true ∧ (Instr.codewordRead 2105344 0 0 false false false).wf = false
    ∧ (Instr.patrolRead 2105344 0 0 false false false false).wf = false ∧ (Instr.sharedSegmentCompaction 2097152).wf = false := by decide +kernel

theorem wf_heap : (Instr.heapObjectMove 0 (segWords - 1) 0 0 false false).wf = true ∧ (Instr.heapObjectMove 0 segWords 0 0 false false).wf = false
    ∧ (Instr.heapObjectMove 0 0 segWords 0 false false).wf = false ∧ (Instr.cardScan 0x202000 0).wf = false := by decide +kernel

/-- An ill-formed term is refused by name. -/
theorem test_illFormed_refused : exec (.userInstruction 0xEF (at0 0)) up = .refused (.illFormed "USER_INSTRUCTION")
    ∧ exec (.iNop (pre0 [0x00] 0)) up = .refused (.illFormed "NOP") := ⟨rfl, rfl⟩

/-! ## Worked examples and tables of the specification -/

/-- The check value of CRC-32C over the digits 1 to 9 (R9). -/
theorem test_crc32c_check : crc32c (ascii "123456789") = 0xE3069283 := by decide +kernel

/-- "Three capacitors": W at 15.0 V for 220 µF, 470 µF and 1 mF; and with 10,464 EU of rule budget on 470 µF ("capturing the run-up"). -/
theorem test_three_capacitors :
    [(220000, 0), (470000, 0), (1000000, 0), (470000, 10464)].map (fun p =>
      winBytesNow { Oasis.reset with cUse := p.1, vhold := 15000, measured := true, esr := some 500, budget := p.2 } / 64)
      = [226351, 524288, 524288, 360265] := by decide +kernel

/-- A word of a slot: its operation, fields A and B, and the immediate. -/
def sw (op a b imm : Nat) : BitVec 32 := BitVec.ofNat 32 (op * 2 ^ 24 + a * 2 ^ 20 + b * 2 ^ 16 + imm)

/-- The bundle of "capturing the run-up to a fault": STEPS 4,099, 4,185,347 mEU, ARRAY_BYTES 4,227,072 and MAXREC 1,024. -/
theorem test_run_up_cost :
    (bundleCost [
      { arr := sw 1 1 0 4096, sea := 0, mov := 0, ctl := sw 2 4 0 1024 },
      { arr := sw 2 1 0 1, sea := 0, mov := 0, ctl := sw 3 1 0 5 },
      { arr := 0, sea := 0, mov := sw 1 2 0 0, ctl := 0 },
      { arr := 0, sea := sw 1 2 0 0, mov := 0, ctl := 0 },
      { arr := sw 3 2 0 0, sea := 0, mov := 0, ctl := 0 },
      { arr := 0, sea := 0, mov := 0, ctl := sw 4 0 0 0 },
      { arr := 0, sea := 0, mov := 0, ctl := sw 1 0 0 0 }]).map (fun p => (p.2.steps, p.2.eu, p.2.bytes, p.2.recs))
      = [(4099, 4185347, 4227072, 1024)] := by decide +kernel

/-- "A window under reordering": which SEQ values a session accepts, and HI after each. -/
theorem test_replay_window :
    ([5003, 4100, 3978, 5003, 6100, 5050].foldl (fun (p : Session × List Bool) n =>
      if seqFresh p.1 n then (seqTaken p.1 n, p.2 ++ [true]) else (p.1, p.2 ++ [false]))
      ({ Session.reset with hi := 5000 }, [])).2 = [true, true, false, false, true, false] := by decide +kernel

/-- "One authenticated append": the header bytes. -/
theorem test_append_header :
    packetHeader { Packet.empty with opc := 0x0023, flg := 1, qid := 3, tag := 0x1234, ses := 7, plen := 108, seq := 5004 }
      = [0x23, 0x00, 0x01, 0x03, 0x34, 0x12, 0x07, 0x00, 0x6C, 0x00, 0x00, 0x00, 0x8C, 0x13, 0x00, 0x00] := by decide +kernel

/-- The grant entry of "granting read access to the Wadi counters". -/
def wadiGrant : Cap := grantAt (zeros 64 ++ [0x00, 0x11, 0x00, 0x14, 0x03, 0x14, 0x00, 0x00]) 0

/-- A core 0 that holds it alone. -/
def granted : State := lev0 (fun k => { k with caps := vSet (Vector.replicate 16 Cap.reset) 3 wadiGrant }) up

/-- "Granting read access to the Wadi counters": the grant lies inside the root PORT capability, and gives no OUT. -/
theorem test_grant :
    capInside wadiGrant (vAt rootCaps 0) = true
    ∧ holdsCap (coreOf granted 0) (capPort 0 0x1403) = true ∧ holdsCap (coreOf granted 0) (capPort 1 0x1401) = false := by
  and_intros <;> decide +kernel

/-- Core 0 at the call of "a guarded far call", with predicate P1 as given. -/
def farCall (p1 : Bool) : State :=
  core0 (fun x => { x with ia := 0x01000080, lv := vUpd x.lv 7 fun l => { l with preds := if p1 then 3 else 1 } }) up

/-- "A guarded far call": E9 DD 61 79 1F 0E 00, then 01. -/
theorem test_far_call :
    [false, true].map (fun b =>
      let s := after (.iNop (at0 0)) (after (.iCall 0 (pre0 [0xE9, 0xDD] 0x000E1F79)) (farCall b))
      ((coreOf s 0).ia, bankOf s 0)) = [(0x010E2000, [tw 9 0x0088, tw 9 0x0100]), (0x01000088, [])] := by decide +kernel

/-- "A guarded far call": a repeat prefix on CALL, and a second 0xDD, are illegal. -/
theorem test_far_call_illegal :
    [[0xE9, 0xDD, 0xD8], [0xE9, 0xDD, 0xDD]].map (fun p =>
      let x := coreOf (after (.iCall 0 (pre0 p 0x000E1F79)) (farCall false)) 0
      ((vAt x.lv 7).xcause, (vAt x.lv 7).lnkRa)) = [(1, 0x01000080), (1, 0x01000080)] := by decide +kernel

/-- The domain of "a heap walk in domain 3". -/
def walk3 : State :=
  { up with
    mmu.desc := [(3, { Desc.reset with v := true, start := 1, root := 0x40000 })]
    mem.sram := [(0x40048, rawW 0x8000), (0x40049, rawW 0), (0x4004A, rawW 0x401), (0x4004B, rawW 0),
      (0x40134, rawW 0xD500), (0x40135, rawW 0x048D), (0x40136, rawW 0x0A00)]
    arr.map := [(0x12345, { mig := false, kind := 1, gen := 0, slot := 5 })] }

/-- "A heap walk in domain 3": word 0x01234567 lies in SEGNO 0x12345 at offset 0x4567. -/
theorem test_heap_walk : leadsTo 3 0x01234567 walk3 = some (.seg (0x12345 * 131072 + 0x4567)) := by decide +kernel

/-- "A byte-swap instruction at 0xF4": 0x1234 becomes 0x3412. -/
theorem test_byte_swap : bankOf (after (.userInstruction 0xF0 (at0 0)) swapper) 0 = [tw 1 0x3412] := by decide +kernel

/-- What an instruction leaves of core 0: its stack, and the flags of ST. -/
def stackSt (i : Instr) (s : State) : List Word × BitVec 4 := let t := after i s; (bankOf t 0, ((coreOf t 0).st).setWidth 4)

/-- ADD at the largest sum, and past it: the trap ARITH_OVF leaves the operands (R395). -/
theorem test_add : stackSt (.iAdd (at0 0)) (stk [tw 0 1, tw 0 0x7FFE]) = ([tw 0 0x7FFF], 0)
    ∧ bankOf (after (.iAdd (at0 0)) (stk [tw 0 1, tw 0 0x7FFF])) 0 = [tw 0 1, tw 0 0x7FFF]
    ∧ (vAt (coreOf (after (.iAdd (at0 0)) (stk [tw 0 1, tw 0 0x7FFF])) 0).lv 7).xcause = 0xC := by decide +kernel

/-- SUBW borrows: 0 - 1 is 0xFFFF with N and C (R396). The flags are N 3, Z 2, V 1, C 0 (R368). -/
theorem test_subw : stackSt (.iSubw (at0 0)) (stk [tw 1 1, tw 1 0]) = ([tw 1 0xFFFF], 0b1001) := by decide +kernel

/-- DIVUW: 0x00010001 by 2 is 0x8000 with rest 1, the rest on top (R396). -/
theorem test_divuw : (stackSt (.iDivuw (at0 0)) (stk [tw 1 2, tw 1 1, tw 1 1])).1 = [tw 1 1, tw 1 0x8000] := by decide +kernel

/-- SAR by 15 of a negative word fills with its sign, C the last bit out (R397). -/
theorem test_sar : stackSt (.iSar (at0 0)) (stk [tw 0 15, tw 1 0x8000]) = ([tw 1 0xFFFF], 0b1000) := by decide +kernel

/-- LADD carries from the low half to the high (R396). -/
theorem test_ladd : (stackSt (.iLadd (at0 0)) (stk [tw 0xC 1, tw 0xC 0, tw 0xC 0xFFFF, tw 0xC 0])).1 = [tw 0xC 0, tw 0xC 1] := by decide +kernel

/-- CRCB with poly 0 and 1 over the digits 1 to 9: the check values of CRC-32C (R9) and of CRC-16/CCITT from 0xFFFF, 0x29B1 (R406). -/
theorem test_crc_steps :
    (ascii "123456789").foldl (fun s b => crcStep false s b) 0xFFFFFFFF = ~~~ 0xE3069283
    ∧ (ascii "123456789").foldl (fun s b => crcStep true s b) 0xFFFF = 0x29B1 := by decide +kernel

/-- A load gets what a store put there (R390). -/
theorem test_store_load :
    bankOf (after (.iLd (at0 3)) (withBank 0 [tw 5 0, tw 4 0] (after (.iSt (at0 3)) (mapped0 [tw 5 0, tw 4 0, tw 2 0x41])))) 0 = [tw 2 0x41] := by
  decide +kernel

/-- A PIN reset leaves the phase STARTUP and its kind (R527, R528). -/
theorem test_pin_reset : (after .pinReset serving).pwr.kind = .pin ∧ (after .pinReset serving).pwr.phase = .startup := by decide +kernel

/-- IDENTIFY answers 32 bytes with the product number 0x5120 (R263). -/
theorem test_jedec : (after (.readIdentification 3) served).boot.out = some [0x3D, 0xC5, 0x1A] := by decide +kernel

/-- STREAM_APPEND of two bytes: the stream's next number rises from 3 to 4, one credit is charged and a reply forms (R19, R21, R84). -/
theorem test_append :
    (let t := after (.streamAppend (bare 0 (append 0))) anyone
     ((streamOf t 1).map (·.next), t.oas.outst - anyone.oas.outst, t.store.staging.length)) = (some 4, 1, 3) := by decide +kernel


end Sys2Proof.Tests
end

section
/-! SUPPORT. What a drain of the store buffers can change, and what a tick of an empty queue does (R422, R423, R534). -/
namespace Sys2Proof.Machine
open Sys2Proof

/-- The parts of the state that a store moved into the caches can change. -/
def storeRegions : List Region := [.cores, .cache, .mem, .arr, .fresh]

theorem OnlyIn.foldl {α : Type} {l : List Region} (f : State → α → State) (h : ∀ t a, OnlyIn l t (f t a)) (as : List α) (s : State) :
    OnlyIn l s (as.foldl f s) := by
  induction as generalizing s with
  | nil => exact OnlyIn.refl _ _
  | cons a as ih => exact (h s a).trans (ih (f s a)) (fun _ hr => hr) (fun _ hr => hr)

theorem OnlyIn.iter {l : List Region} (f : State → State) (h : ∀ t, OnlyIn l t (f t)) (n : Nat) (s : State) :
    OnlyIn l s (iter f n s) := by
  induction n generalizing s with
  | zero => exact OnlyIn.refl _ _
  | succ n ih => exact (h s).trans (ih (f s)) (fun _ hr => hr) (fun _ hr => hr)

theorem updTile_only (s : State) (t : Nat) (f : Tile → Tile) : OnlyIn [.cache] s (updTile s t f) := by
  intro r hr; cases r <;> simp_all [sameIn, updTile]

theorem takeFresh_only (s : State) : OnlyIn [.fresh] s (takeFresh s).2 := by
  intro r hr; cases r <;> simp_all [sameIn, takeFresh]

theorem tieBreak_only (l : List Nat) (s : State) : OnlyIn [.fresh] s (tieBreak l s).2 := by
  simp only [tieBreak]
  split
  · exact OnlyIn.refl _ _
  · exact OnlyIn.refl _ _
  · exact takeFresh_only s

theorem backPut_only (la : LAddr) (off : Nat) (w : Word) (s : State) : OnlyIn [.mem, .arr] s (backPut la off w s) := by
  cases la <;> (intro r hr; cases r <;> simp_all [sameIn, backPut, moveDirty])

theorem backPutAll_only (la : LAddr) (ws : List (Nat × Word)) (s : State) : OnlyIn [.mem, .arr] s (backPutAll la ws s) :=
  OnlyIn.foldl (fun t p => backPut la p.1 p.2 t) (fun t p => backPut_only la p.1 p.2 t) ws s

theorem cleanLine_only (t : Nat) (l : CLine) (s : State) : OnlyIn [.cache, .mem, .arr] s (cleanLine t l s) := by
  simp only [cleanLine]
  split
  · exact (backPutAll_only _ _ s).trans (updTile_only _ _ _) (by simp) (by simp)
  · exact OnlyIn.refl _ _

theorem victimWay_only (t req : Nat) (la : LAddr) (s s1 : State) (w : Nat) (h : victimWay t req la s = some (w, s1)) :
    OnlyIn [.cache, .fresh] s s1 := by
  have broken (l : List Nat) (u : State) (hb : some (tieBreak l u) = some (w, s1)) : OnlyIn [.fresh] u s1 := by
    have e : (tieBreak l u).2 = s1 := by simp_all
    exact e ▸ tieBreak_only l u
  simp only [victimWay] at h
  split at h
  · simp at h
  · split at h
    · exact (broken _ _ h).mono (by simp)
    · split at h
      · exact (broken _ _ h).mono (by simp)
      · exact (updTile_only s t _).trans (broken _ _ h) (by simp) (by simp)

theorem fillLine_only (t req : Nat) (cold : Bool) (la : LAddr) (s : State) :
    OnlyIn [.cache, .mem, .arr, .fresh] s (fillLine t req cold la s) := by
  simp only [fillLine]
  split
  · exact (updTile_only _ _ _).mono (by simp)
  · split
    · exact OnlyIn.refl _ _
    · next w s1 hv =>
      have hs1 := victimWay_only t req la s s1 w hv
      split
      · next l _ =>
        have hdrop : OnlyIn [.cache, .mem, .arr] s1 (dropLine t l.la (cleanLine t l s1)) :=
          (cleanLine_only t l s1).trans (updTile_only _ _ _) (by simp) (by simp)
        have hs2 := hs1.trans hdrop (n := [.cache, .mem, .arr, .fresh]) (by simp) (by simp)
        exact hs2.trans (updTile_only _ _ _) (by simp) (by simp)
      · exact hs1.trans (updTile_only _ _ _) (by simp) (by simp)

theorem stealLine_only (t : Nat) (la : LAddr) (s : State) : OnlyIn [.cache] s (stealLine t la s).2 :=
  OnlyIn.foldl _ (fun u k => updTile_only u k _) _ s

theorem storeWord_only (a : Agent) (cold : Bool) (la : LAddr) (off da : Nat) (w : Word) (s : State) :
    OnlyIn [.cache, .mem, .arr, .fresh] s (storeWord a cold la off da w s) := by
  have hfill : OnlyIn [.cache, .mem, .arr, .fresh] s (fillLine a.tile a.req cold la (stealLine a.tile la s).2) :=
    (stealLine_only a.tile la s).trans (fillLine_only _ _ _ _ _) (by simp) (by simp)
  simp only [storeWord]
  split
  · exact hfill.trans (updTile_only _ _ _) (by simp) (by simp)
  · have hall := hfill.trans (backPutAll_only la (stealLine a.tile la s).1 _) (n := [.cache, .mem, .arr, .fresh]) (by simp) (by simp)
    exact hall.trans (backPut_only la off w _) (by simp) (by simp)

theorem drainOne_only (c : Nat) (s : State) : OnlyIn storeRegions s (drainOne c s) := by
  simp only [drainOne]
  split
  · exact OnlyIn.refl _ _
  · exact (updCore_only _ _ _).trans (storeWord_only _ _ _ _ _ _ _) (by simp [storeRegions]) (by simp [storeRegions])

/-- A drain of every store buffer moves words into caches and memory, and touches nothing else (R422, R423). -/
theorem drainCores_only (s : State) : OnlyIn storeRegions s (drainCores s) :=
  OnlyIn.foldl _ (fun t c => OnlyIn.iter _ (drainOne_only c) _ t) _ s

/-! ## The tick of an empty queue -/

theorem step_of_empty (s : State) (h : s.pending = []) : step s = .next (tickNow s) := by
  simp only [step, stepWith, h]

/-- Time and the IDLE count advance, and what the drain leaves alone stays as it was. -/
theorem tickNow_only (s : State) : OnlyIn (storeRegions ++ [.tick, .dtime, .pwr]) s (tickNow s) := by
  have hclock : OnlyIn [.tick, .dtime, .pwr] (drainCores s) (tickNow s) := by
    intro r hr; cases r <;> simp_all [sameIn, tickNow]
  exact (drainCores_only s).trans hclock (fun r hr => List.mem_append_left _ hr) (fun r hr => List.mem_append_right _ hr)

theorem tickNow_tick (s : State) : (tickNow s).tick = s.tick + 1 := by
  have h : (drainCores s).tick = s.tick := drainCores_only s .tick (by decide)
  simp only [tickNow, h]

theorem timeRuns_iff (s : State) :
    timeRuns s = true ↔ (s.pwr.vmainHigh = true ∨ s.pwr.seq ≠ .none) ∧ s.pwr.seq ≠ .off ∧ s.pwr.pstate ≠ .off := by
  simp [timeRuns, inLoss, and_assoc]

theorem tickNow_dtime (s : State) : (tickNow s).dtime =
    if (s.pwr.vmainHigh = true ∨ s.pwr.seq ≠ .none) ∧ s.pwr.seq ≠ .off ∧ s.pwr.pstate ≠ .off then s.dtime + 1 else s.dtime := by
  have hd : (drainCores s).dtime = s.dtime := drainCores_only s .dtime (by decide)
  have hp : (drainCores s).pwr = s.pwr := drainCores_only s .pwr (by decide)
  simp only [tickNow, timeRuns_iff, hd, hp]

end Sys2Proof.Machine
end

section
/-! SUPPORT. The commands that write or read single registers: each acts once internal reset is released, and leaves the state that its
register's rule names. At the end, the statement on timers and ports. -/
namespace Sys2Proof.Machine
open Sys2Proof

theorem whenDue_of {c : Bool} (s t : State) (h : c = true) : whenDue c s t = .next t := by
  simp only [whenDue, h, if_true]

/-! ## Watchdog (R539, R548) -/

theorem exec_watchdogArm (core : Fin 16) (k : BitVec 4) (s : State) :
    exec (.watchdogArm core k) s = whenDue s.pwr.released s (wdWrite core.val (BitVec.ofNat 16 (2 ^ 15 + k.toNat)) s) := rfl

theorem exec_watchdogKick (core : Fin 16) (k : BitVec 4) (s : State) :
    exec (.watchdogKick core k) s = whenDue s.pwr.released s (wdWrite core.val (BitVec.ofNat 16 (2 ^ 14 + k.toNat)) s) := rfl

/-- PWR_WDCTL with EN starts a stopped watchdog with K; a running one only takes K. -/
theorem wdWrite_en (c : Nat) (k : BitVec 4) (s : State) : wdWrite c (BitVec.ofNat 16 (2 ^ 15 + k.toNat)) s =
    if s.pwr.wdEn then { s with pwr.wdK := k }
    else { s with pwr := { s.pwr with wdK := k, wdEn := true, wdCore := c, wdDue := some (s.tick + 1000 * 2 ^ k.toNat) } } := by
  have hk : BitVec.ofNat 4 (BitVec.ofNat 16 (2 ^ 15 + k.toNat)).toNat = k := by bv_omega
  have hen : (BitVec.ofNat 16 (2 ^ 15 + k.toNat)).getLsbD 15 = true := by revert k; decide
  have hkick : (BitVec.ofNat 16 (2 ^ 15 + k.toNat)).getLsbD 14 = false := by revert k; decide
  simp only [wdWrite, wdLoad, hk, hen, hkick]
  cases s.pwr.wdEn <;> rfl

/-- PWR_WDCTL with KICK starts a running watchdog's count again with K; a stopped one only takes K. -/
theorem wdWrite_kick (c : Nat) (k : BitVec 4) (s : State) : wdWrite c (BitVec.ofNat 16 (2 ^ 14 + k.toNat)) s =
    if s.pwr.wdEn then { s with pwr := { s.pwr with wdK := k, wdDue := some (s.tick + 1000 * 2 ^ k.toNat) } }
    else { s with pwr.wdK := k } := by
  have hk : BitVec.ofNat 4 (BitVec.ofNat 16 (2 ^ 14 + k.toNat)).toNat = k := by bv_omega
  have hen : (BitVec.ofNat 16 (2 ^ 14 + k.toNat)).getLsbD 15 = false := by revert k; decide
  have hkick : (BitVec.ofNat 16 (2 ^ 14 + k.toNat)).getLsbD 14 = true := by revert k; decide
  simp only [wdWrite, wdLoad, hk, hen, hkick]
  cases s.pwr.wdEn <;> rfl

/-! ## Captures (R216, R217, R550, R552, R560) -/

theorem exec_timeCapture (s : State) : exec .timeCapture s = whenDue s.pwr.released s (timeCapture s) := rfl

theorem exec_counterSelect (v : BitVec 16) (s : State) : exec (.counterSelect v) s = whenDue s.pwr.released s (cselWrite v s) := rfl

theorem exec_hostLinkMirrorCapture (core : Fin 16) (m : Fin 128) (s : State) :
    exec (.hostLinkMirrorCapture core m) s = whenDue s.pwr.released s (portRead core.val (0x2C00 + 2 * m.val) s).2 := rfl

theorem exec_wakeCauseRead (s : State) :
    exec .wakeCauseRead s = whenDue s.pwr.released s { s with pwr := { s.pwr with wakeCause := 0, wakeFrom := false } } := rfl

theorem cselWrite_eq (v : BitVec 16) (s : State) : cselWrite v s = { s with
    vtf := { s.vtf with csel := v.setWidth 5, cval := BitVec.ofNat 64 (vAt s.vtf.counters (v.toNat % 32)) } } := by
  have h : BitVec.ofNat 5 (v.toNat % 32) = v.setWidth 5 := by bv_omega
  simp only [cselWrite, h]

theorem portHung_mirror (m : Fin 128) (s : State) : portHung (0x2C00 + 2 * m.val) s = s.tbx.hung.getLsbD 0 := by
  have h : portIsland (0x2C00 + 2 * m.val) = some 0 := by
    rw [portIsland, if_pos ⟨by omega, by omega⟩]
  simp only [portHung, h]

/-- A read of an even port of the mirror captures the word of the host window it stands for. -/
theorem readEffect_mirror (c : Nat) (m : Fin 128) (s : State) :
    readEffect c (0x2C00 + 2 * m.val) s = updCore s c fun x => { x with mirror := BitVec.ofNat 32 (hwRead (4 * m.val) s) } := by
  have hm : (0x2C00 + 2 * m.val - 0x2C00) / 2 = m.val := by omega
  rw [readEffect, if_pos ⟨by omega, by omega, by omega⟩, hm]

theorem portRead_mirror (c : Nat) (m : Fin 128) (s : State) : (portRead c (0x2C00 + 2 * m.val) s).2 =
    if s.tbx.hung.getLsbD 0 then s else updCore s c fun x => { x with mirror := BitVec.ofNat 32 (hwRead (4 * m.val) s) } := by
  simp only [portRead, portHung_mirror, readEffect_mirror]
  split <;> rfl

/-! ## Patches (R483, R492) -/

theorem exec_patchWordWrite (v : BitVec 16) (s : State) :
    exec (.patchWordWrite v) s = whenDue s.pwr.released s (patchWord v s) := rfl

theorem exec_patchLock (leave : Bool) (s : State) : exec (.patchLock leave) s =
    whenDue (s.pwr.released && !inLoss s) s (if leave then leaveStartup s else lockPatches s) := rfl

theorem patchWord_eq (v : BitVec 16) (s : State) : patchWord v s = if s.ucode.lock then s else { s with
    ucode := { s.ucode with
      paddr := s.ucode.paddr + 1
      patch := put s.ucode.paddr.toNat (withParity (s.ucode.pdatah ++ v)) s.ucode.patch } } := by
  have h : BitVec.ofNat 24 (s.ucode.pdatah.toNat * 65536 + v.toNat) = s.ucode.pdatah ++ v := by
    apply BitVec.eq_of_toNat_eq
    have hpd := s.ucode.pdatah.isLt
    have hv := v.isLt
    rw [BitVec.toNat_ofNat, BitVec.toNat_append, ← Nat.shiftLeft_add_eq_or_of_lt hv, Nat.shiftLeft_eq]
    omega
  simp only [patchWord, h]

theorem lockPatches_locked (s : State) (h : s.ucode.lock = true) : lockPatches s = s := by
  simp only [lockPatches, h, if_true]

/-- The lock changes LOCK and PATCHH, and nothing where it is set. -/
theorem lockPatches_only (s : State) : OnlyIn [.ucode, .vtf] s (lockPatches s) := by
  simp only [lockPatches]
  split
  · exact OnlyIn.refl _ _
  · intro r hr; cases r <;> simp_all [sameIn]

theorem lockPatches_ucode (s : State) : (lockPatches s).ucode = { s.ucode with lock := true } := by
  simp only [lockPatches]
  split
  · next h => rw [← h]
  · rfl

theorem readyMsg_only (s : State) (ok : Bool) : OnlyIn [.link] s (readyMsg s ok) := formMsg_only _ _ s

theorem leaveStartup_other (s : State) (h : s.pwr.phase ≠ .startup) : leaveStartup s = s := by
  simp only [leaveStartup, h, if_false]

/-- STARTUP left locks the patches and takes up RECOVERY; the READY message it may form is the link's alone. -/
theorem leaveStartup_startup (s : State) (h : s.pwr.phase = .startup) :
    (leaveStartup s).ucode = { s.ucode with lock := true } ∧ (leaveStartup s).pwr = { s.pwr with phase := .recovery } := by
  have hmsg : OnlyIn [.link] { lockPatches s with pwr := { s.pwr with phase := .recovery } } (leaveStartup s) := by
    simp only [leaveStartup, h, if_true]
    split
    · exact readyMsg_only _ _
    · exact OnlyIn.refl _ _
  exact ⟨(hmsg .ucode (by decide)).trans (lockPatches_ucode s), hmsg .pwr (by decide)⟩

/-! ## Register writes (R11) -/

theorem exec_registerWrite_host (core : Fin 16) (addr : BitVec 16) (w : BitVec 32) (s : State) :
    exec (.registerWrite true core addr w) s = whenDue s.pwr.released s (hwWrite addr.toNat w s) := rfl

theorem exec_registerWrite_port (core : Fin 16) (addr : BitVec 16) (w : BitVec 32) (s : State) :
    exec (.registerWrite false core addr w) s =
      whenDue s.pwr.released s (portEffect core.val (domOf s core.val) addr.toNat (BitVec.ofNat 16 w.toNat) s) := rfl

theorem hwWrite_cwait (w : BitVec 32) (s : State) : hwWrite 0x010 w s = { s with oas.cwait := w.toNat / 2 ^ 20 } := by
  have h : bits w.toNat 20 12 = w.toNat / 2 ^ 20 := Nat.mod_eq_of_lt (by omega)
  simp only [hwWrite, h]

theorem hwWrite_reserved (w : BitVec 32) (s : State) : hwWrite 0x02C w s = s := rfl

/-- Bits 1 to 6 of a byte where they stand: the mask 0x7E. -/
theorem ofNat_bits_one_six (b : BitVec 8) : BitVec.ofNat 8 (bits b.toNat 1 6 * 2) = b &&& 0x7E := by
  revert b; decide

theorem portEffect_ien (c dom : Nat) (w : BitVec 32) (s : State) : portEffect c dom 0x0008 (BitVec.ofNat 16 w.toNat) s =
    updCore s c fun x => { x with ien := w.setWidth 8 &&& 0x7E } := by
  have hlow : bits (BitVec.ofNat 16 w.toNat).toNat 1 6 = bits (w.setWidth 8).toNat 1 6 := by
    simp only [bits, BitVec.toNat_ofNat, BitVec.toNat_setWidth]
    omega
  have h : BitVec.ofNat 8 (bits (BitVec.ofNat 16 w.toNat).toNat 1 6 * 2) = w.setWidth 8 &&& 0x7E := by
    rw [hlow, ofNat_bits_one_six]
  exact congrArg (fun b => updCore s c fun x => { x with ien := b }) h

theorem portEffect_brCnt (c dom : Nat) (v : BitVec 16) (s : State) : portEffect c dom 0x1402 v s = { s with wadi.brCnt := 0 } := rfl

theorem portEffect_dup (c dom : Nat) (v : BitVec 16) (s : State) : portEffect c dom 0x280C v s = { s with flt.dup := 0 } := rfl

theorem portEffect_rejCnt (c dom : Nat) (v : BitVec 16) (s : State) (h : s.tbx.hung.getLsbD 2 = false) :
    portEffect c dom 0x3401 v s = { s with side.rejCnt := 0 } := by
  have hung : portHung 0x3401 s = false := h
  rw [portEffect, hung]
  rfl

theorem portEffect_readOnly (c dom : Nat) (v : BitVec 16) (s : State) : portEffect c dom 0x4000 v s = s := rfl

theorem portEffect_dozeMask (c dom : Nat) (w : BitVec 32) (s : State) :
    portEffect c dom 0x4001 (BitVec.ofNat 16 w.toNat) s = { s with pwr.dozeMask := w.setWidth 8 } := by
  have h : BitVec.ofNat 8 (BitVec.ofNat 16 w.toNat).toNat = w.setWidth 8 := by bv_omega
  exact congrArg (fun b => { s with pwr.dozeMask := b }) h

/-- A write of an unimplemented port is counted (R555). -/
theorem portEffect_unimplemented (c dom : Nat) (v : BitVec 16) (s : State) :
    portEffect c dom 0x5000 v s = { s with tbx.unimp := satInc s.tbx.unimp } := rfl

/-! ## The obligation -/

/-- R483 as the two rows of PATCH_LOCK have it outside a loss sequence: the lock by LOCKSET, and the lock at the end of STARTUP. -/
theorem exec_patchLock_cases (s : State) (hr : s.pwr.released = true) (hq : s.pwr.seq = .none) :
    (s.ucode.lock = false → ∃ t, exec (.patchLock false) s = .next t ∧ t.ucode = { s.ucode with lock := true } ∧ OnlyIn [.ucode, .vtf] s t)
    ∧ (s.ucode.lock = true → exec (.patchLock false) s = .next s)
    ∧ (s.pwr.phase = .startup → ∃ t, exec (.patchLock true) s = .next t ∧ t.ucode.lock = true ∧ t.ucode.patch = s.ucode.patch
      ∧ t.pwr = { s.pwr with phase := .recovery })
    ∧ (s.pwr.phase ≠ .startup → exec (.patchLock true) s = .next s) := by
  have hdue : (s.pwr.released && !inLoss s) = true := by simp [inLoss, hr, hq]
  have hset : exec (.patchLock false) s = .next (lockPatches s) := (exec_patchLock false s).trans (whenDue_of s _ hdue)
  have hleave : exec (.patchLock true) s = .next (leaveStartup s) := (exec_patchLock true s).trans (whenDue_of s _ hdue)
  refine ⟨fun _ => ⟨_, hset, lockPatches_ucode s, lockPatches_only s⟩, fun hl => ?_, fun hp => ?_, fun hp => ?_⟩
  · rw [hset, lockPatches_locked s hl]
  · obtain ⟨hucode, hpwr⟩ := leaveStartup_startup s hp
    exact ⟨_, hleave, by rw [hucode], by rw [hucode], hpwr⟩
  · rw [hleave, leaveStartup_other s hp]

/-- One tick of an empty queue: the clocks advance, and only the drain of the store buffers acts beside them. -/
theorem step_ticks_of_empty (s : State) (h : s.pending = []) : ∃ t, step s = .next t ∧ t.tick = s.tick + 1 ∧ t.pending = []
    ∧ t.dtime = (if (s.pwr.vmainHigh = true ∨ s.pwr.seq ≠ .none) ∧ s.pwr.seq ≠ .off ∧ s.pwr.pstate ≠ .off then s.dtime + 1 else s.dtime)
    ∧ t.store = s.store ∧ t.eng = s.eng ∧ t.vtf = s.vtf ∧ t.link = s.link ∧ t.oas = s.oas ∧ t.flt = s.flt := by
  have only := tickNow_only s
  exact ⟨tickNow s, step_of_empty s h, tickNow_tick s, (only .pending (by decide)).trans h, tickNow_dtime s,
    only .store (by decide), only .eng (by decide), only .vtf (by decide), only .link (by decide), only .oas (by decide),
    only .flt (by decide)⟩

/-- Settles O56: the tick changes only what a drain reaches, and each command is the one register write that its row names. -/
theorem timersAndPorts : Obligations.TimersAndPorts := by
  intro s core k v w m p due u port
  refine ⟨step_ticks_of_empty s, fun hr => ?_⟩
  have acts (t : State) : whenDue s.pwr.released s t = .next t := whenDue_of s t hr
  have host (a : BitVec 16) (t : State) (h : hwWrite a.toNat w s = t) : exec (.registerWrite true core a w) s = .next t := by
    rw [exec_registerWrite_host, acts, h]
  have onPort (a : BitVec 16) (t : State)
      (h : portEffect core.val (domOf s core.val) a.toNat (BitVec.ofNat 16 w.toNat) s = t) : port a t :=
    (exec_registerWrite_port core a w s).trans (by rw [acts, h])
  refine ⟨?arm, ?kick, ?time, ?select, ?mirror, ?hung, ?wake, ?word, exec_patchLock_cases s hr, ?cwait, ?reserved,
    ?ien, ?brCnt, ?dup, ?rejCnt, ?readOnly, ?dozeMask, ?unimplemented⟩
  case arm => rw [exec_watchdogArm, acts, wdWrite_en]
  case kick => rw [exec_watchdogKick, acts, wdWrite_kick]
  case time => rw [exec_timeCapture, acts, timeCapture]
  case select => rw [exec_counterSelect, acts, cselWrite_eq]
  case mirror => intro hh; rw [exec_hostLinkMirrorCapture, acts, portRead_mirror, if_neg (ne_true_of_eq_false hh)]
  case hung => intro hh; rw [exec_hostLinkMirrorCapture, acts, portRead_mirror, if_pos hh]
  case wake => rw [exec_wakeCauseRead, acts]
  case word => rw [exec_patchWordWrite, acts, patchWord_eq]
  case cwait => exact host 0x010 _ (hwWrite_cwait w s)
  case reserved => exact host 0x02C _ (hwWrite_reserved w s)
  case ien => exact onPort 0x0008 _ (portEffect_ien _ _ w s)
  case brCnt => exact onPort 0x1402 _ (portEffect_brCnt _ _ _ s)
  case dup => exact onPort 0x280C _ (portEffect_dup _ _ _ s)
  case rejCnt => exact fun hh => onPort 0x3401 _ (portEffect_rejCnt _ _ _ s hh)
  case readOnly => exact onPort 0x4000 _ (portEffect_readOnly _ _ _ s)
  case dozeMask => exact onPort 0x4001 _ (portEffect_dozeMask _ _ w s)
  case unimplemented => exact onPort 0x5000 _ (portEffect_unimplemented _ _ _ s)

end Sys2Proof.Machine
end

section
/-! SUPPORT. What goes on behind a command without touching where its records stand: replies, device records, seals, reclaims. One relation
between the states before and after, kept by every operation of that kind. -/
namespace Sys2Proof.Machine
open Sys2Proof

/-! ## Keyed stores and vectors -/

theorem vAt_vMap {α β : Type} [Inhabited α] [Inhabited β] {n : Nat} (f : α → β) (v : Vector α n) (i : Nat) (h : i < n) :
    vAt (vMap f v) i = f (vAt v i) := by
  simp [vAt, vMap, h]

theorem dieOf_updDie (s : State) (d e : Nat) (f : Die → Die) (h : d < 8) :
    dieOf (updDie s d f) e = if d = e then f (dieOf s d) else dieOf s e := by
  split
  · next he => subst he; exact vAt_vUpd_same _ _ _ h
  · next he => exact vAt_vUpd_other _ _ _ _ he

theorem streamOf_updStream (s : State) (sid k : Nat) (f : Stream → Stream) :
    streamOf (updStream s sid f) k = if k = sid then (streamOf s sid).map f else streamOf s k := by
  simp only [updStream, streamOf]
  split
  · next h => split <;> simp_all
  · next st h =>
    split
    · next hk => subst hk; rw [h]; exact look_put_same _ _ _
    · next hk => exact look_put_other _ _ _ _ hk

theorem streamOf_updStream_same (s : State) (sid : Nat) (f : Stream → Stream) :
    streamOf (updStream s sid f) sid = (streamOf s sid).map f := (streamOf_updStream s sid sid f).trans (if_pos rfl)

theorem segOf_updSeg (s : State) (g k : Nat) (f : SegSt → SegSt) :
    segOf (updSeg s g f) k = if k = g then (segOf s g).map f else segOf s k := by
  simp only [updSeg, segOf]
  split
  · next h => split <;> simp_all
  · next x h =>
    split
    · next hk => subst hk; rw [h]; exact look_put_same _ _ _
    · next hk => exact look_put_other _ _ _ _ hk

theorem segOf_updSeg_same (s : State) (g : Nat) (f : SegSt → SegSt) : segOf (updSeg s g f) g = (segOf s g).map f :=
  (segOf_updSeg s g g f).trans (if_pos rfl)

/-- A key occurs once in a store, after smaller keys only. -/
def SoleKey {α : Type} (k : Nat) : List (Nat × α) → Prop
  | [] => False
  | (j, _) :: m => (j = k ∧ look k m = none) ∨ (j < k ∧ SoleKey k m)

theorem SoleKey.put {α : Type} {k : Nat} {m : List (Nat × α)} (h : SoleKey k m) (i : Nat) (a : α) : SoleKey k (put i a m) := by
  induction m with
  | nil => exact h.elim
  | cons e m ih =>
    obtain ⟨j, b⟩ := e
    have h0 := h
    simp only [Machine.put]
    rcases h with ⟨rfl, hn⟩ | ⟨hj, hm⟩
    · split
      · next hij => exact .inr ⟨hij, h0⟩
      · split
        · next hji => exact .inl ⟨hji.symm, hji ▸ hn⟩
        · next hji => exact .inl ⟨rfl, (look_put_other i j a m hji).trans hn⟩
    · split
      · next hij => exact .inr ⟨by omega, h0⟩
      · split
        · next hji => exact .inr ⟨hji ▸ hj, hm⟩
        · exact .inr ⟨hj, ih hm⟩

theorem SoleKey.look_del {α : Type} {k : Nat} {m : List (Nat × α)} (h : SoleKey k m) : look k (del k m) = none := by
  induction m with
  | nil => rfl
  | cons e m ih =>
    obtain ⟨j, b⟩ := e
    rcases h with ⟨rfl, hn⟩ | ⟨hj, hm⟩
    · simpa [del] using hn
    · have hne : j ≠ k := by omega
      simpa [del, look, hne] using ih hm

theorem del_of_look_none {α : Type} {k : Nat} {m : List (Nat × α)} (h : look k m = none) : del k m = m := by
  induction m with
  | nil => rfl
  | cons e m ih =>
    obtain ⟨j, b⟩ := e
    by_cases hj : j = k
    · simp [look, hj] at h
    · simp only [look, hj, if_false] at h
      simp [del, hj, ih h]

/-! ## The relation -/

/-- What a stream's entry keeps: its first number; no record waits for more codewords; a record that stands outside the segments of `F`
stands there still, and is unwritten still unless `W`. -/
structure StreamRuns (F : Nat → Prop) (W : Prop) (st v : Stream) : Prop where
  first : v.first = st.first
  cws : ∀ y ∈ v.recs, y.cws = [] ∨ ∃ r ∈ st.recs, r.seq = y.seq ∧ y.cws ⊆ r.cws
  place : ∀ q r p, recOf st q = some r → r.place = some p → ¬ F p.segno → ∃ y, recOf v q = some y ∧ y.place = some p
  waits : ∀ r ∈ st.recs, ∀ p, r.place = some p → ¬ F p.segno → r.written = false → W ∨ ∃ y ∈ v.recs, y.place = some p ∧ y.written = false

/-- What the array keeps for good: spare rows, slots marked failing; and what the collector does: latched sources. -/
structure Wear (s t : State) : Prop where
  rows : ∀ d < 8, (dieOf t d).bankRows = (dieOf s d).bankRows
  failing : ∀ n, (slotOf s n).failing = true → (slotOf t n).failing = true
  latch : ∀ i, s.flt.latch.getLsbD i = true → t.flt.latch.getLsbD i = true

/-- What a segment's entry keeps: fill position, streams, and what is home. -/
structure SegRuns (x z : SegSt) : Prop where
  fill : z.fill = x.fill
  sids : z.sids = x.sids
  home : x.home ⊆ z.home

/-- Behind a command, `s` went on to `t`: the segments of `F` may have been given back, and records written where `W`. -/
structure Runs (F : Nat → Prop) (W : Prop) (s t : State) : Prop where
  wear : Wear s t
  absent : ∀ sid, streamOf s sid = none → streamOf t sid = none
  streams : ∀ sid st, streamOf s sid = some st → ∃ v, streamOf t sid = some v ∧ StreamRuns F W st v
  sole : ∀ sid, SoleKey sid s.store.streams → SoleKey sid t.store.streams
  rise : keysRise s.arr.segs = true → keysRise t.arr.segs = true
  segs : ∀ g z, segOf t g = some z → ∃ x, segOf s g = some x ∧ (keysRise s.arr.segs = true ∨ ¬ F g → SegRuns x z)
  kept : ∀ g, ¬ F g → segOf s g ≠ none → segOf t g ≠ none
  tails : keysRise s.arr.segs = true → ∀ d < 8, ∀ e ∈ (dieOf s d).tailLive, segOf t e.segno = none ∨
    ∃ y ∈ (dieOf t d).tailLive, y.segno = e.segno ∧ y.cw = e.cw

variable {F : Nat → Prop} {W : Prop} {s t u : State}

theorem StreamRuns.refl (F : Nat → Prop) (W : Prop) (st : Stream) : StreamRuns F W st st where
  first := rfl
  cws := fun y hy => .inr ⟨y, hy, rfl, fun _ h => h⟩
  place := fun _ r _ hr hp _ => ⟨r, hr, hp⟩
  waits := fun r hr _ hp _ hw => .inr ⟨r, hr, hp, hw⟩

theorem StreamRuns.trans {a b c : Stream} (h : StreamRuns F W a b) (k : StreamRuns F W b c) : StreamRuns F W a c where
  first := k.first.trans h.first
  cws := fun y hy => by
    rcases k.cws y hy with h0 | ⟨r, hr, hs, hc⟩
    · exact .inl h0
    · rcases h.cws r hr with h0 | ⟨q, hq, hs', hc'⟩
      · exact .inl (List.eq_nil_iff_forall_not_mem.2 fun a ha => by simpa [h0] using hc ha)
      · exact .inr ⟨q, hq, hs'.trans hs, fun a ha => hc' (hc ha)⟩
  place := fun q r p hr hp hF => by
    obtain ⟨y, hy, hyp⟩ := h.place q r p hr hp hF
    exact k.place q y p hy hyp hF
  waits := fun r hr p hp hF hw => by
    rcases h.waits r hr p hp hF hw with hW | ⟨y, hy, hyp, hyw⟩
    · exact .inl hW
    · exact k.waits y hy p hyp hF hyw

theorem Wear.refl (s : State) : Wear s s := ⟨fun _ _ => rfl, fun _ h => h, fun _ h => h⟩

theorem Wear.trans (h : Wear s t) (k : Wear t u) : Wear s u :=
  ⟨fun d hd => (k.rows d hd).trans (h.rows d hd), fun n hn => k.failing n (h.failing n hn), fun i hi => k.latch i (h.latch i hi)⟩

theorem SegRuns.refl (x : SegSt) : SegRuns x x := ⟨rfl, rfl, fun _ h => h⟩

theorem SegRuns.trans {x y z : SegSt} (h : SegRuns x y) (k : SegRuns y z) : SegRuns x z :=
  ⟨k.fill.trans h.fill, k.sids.trans h.sids, fun _ ha => k.home (h.home ha)⟩

theorem Runs.gone (h : Runs F W s t) {g : Nat} (hg : segOf s g = none) : segOf t g = none := by
  cases hz : segOf t g with
  | none => rfl
  | some z =>
    obtain ⟨x, hx, -⟩ := h.segs g z hz
    simp [hg] at hx

theorem Runs.refl (F : Nat → Prop) (W : Prop) (s : State) : Runs F W s s where
  wear := Wear.refl s
  absent := fun _ h => h
  streams := fun _ st h => ⟨st, h, StreamRuns.refl F W st⟩
  sole := fun _ h => h
  rise := fun h => h
  segs := fun _ z h => ⟨z, h, fun _ => SegRuns.refl z⟩
  kept := fun _ _ h => h
  tails := fun _ _ _ e he => .inr ⟨e, he, rfl, rfl⟩

theorem Runs.trans (h : Runs F W s t) (k : Runs F W t u) : Runs F W s u where
  wear := h.wear.trans k.wear
  absent := fun sid hs => k.absent sid (h.absent sid hs)
  streams := fun sid st hs => by
    obtain ⟨v, hv, hr⟩ := h.streams sid st hs
    obtain ⟨w, hw, hr'⟩ := k.streams sid v hv
    exact ⟨w, hw, hr.trans hr'⟩
  sole := fun sid hs => k.sole sid (h.sole sid hs)
  rise := fun hr => k.rise (h.rise hr)
  segs := fun g z hz => by
    obtain ⟨y, hy, hyz⟩ := k.segs g z hz
    obtain ⟨x, hx, hxy⟩ := h.segs g y hy
    exact ⟨x, hx, fun hc => (hxy hc).trans (hyz (hc.imp_left h.rise))⟩
  kept := fun g hF hg => k.kept g hF (h.kept g hF hg)
  tails := fun hr d hd e he => by
    rcases h.tails hr d hd e he with hn | ⟨y, hy, hs, hc⟩
    · exact .inl (k.gone hn)
    · rcases k.tails (h.rise hr) d hd y hy with hn | ⟨z, hz, hs', hc'⟩
      · exact .inl (hs ▸ hn)
      · exact .inr ⟨z, hz, hs'.trans hs, hc'.trans hc⟩

/-- The same from the later step back. -/
theorem Runs.after (k : Runs F W t u) (h : Runs F W s t) : Runs F W s u := h.trans k

/-- More segments may have been given back, and records written. -/
theorem Runs.mono {F' : Nat → Prop} {W' : Prop} (h : Runs F W s t) (hF : ∀ g, F g → F' g) (hW : W → W') : Runs F' W' s t where
  wear := h.wear
  absent := h.absent
  streams := fun sid st hs => by
    obtain ⟨v, hv, hr⟩ := h.streams sid st hs
    exact ⟨v, hv, hr.first, hr.cws, fun q r p hq hp hn => hr.place q r p hq hp (fun hf => hn (hF _ hf)),
      fun r hq p hp hn hw => (hr.waits r hq p hp (fun hf => hn (hF _ hf)) hw).imp_left hW⟩
  sole := h.sole
  rise := h.rise
  segs := fun g z hz => by
    obtain ⟨x, hx, hxz⟩ := h.segs g z hz
    exact ⟨x, hx, fun hc => hxz (hc.imp_right fun hn hf => hn (hF _ hf))⟩
  kept := fun g hn => h.kept g fun hf => hn (hF _ hf)
  tails := h.tails

theorem Runs.foldl {α : Type} (f : State → α → State) (as : List α) (h : ∀ t a, a ∈ as → Runs F W t (f t a)) (s : State) :
    Runs F W s (as.foldl f s) := by
  induction as generalizing s with
  | nil => exact Runs.refl F W s
  | cons a as ih =>
    exact (h s a List.mem_cons_self).trans (ih (fun t b hb => h t b (List.mem_cons_of_mem _ hb)) (f s a))

theorem Runs.iter (f : State → State) (h : ∀ t, Runs F W t (f t)) (n : Nat) (s : State) : Runs F W s (iter f n s) := by
  induction n generalizing s with
  | zero => exact Runs.refl F W s
  | succ n ih => exact (h s).trans (ih (f s))

/-! ## Parts of the state that carry the relation -/

/-- The array and the collector as they were, the streams changed. -/
theorem Runs.of_streams (harr : t.arr = s.arr) (hflt : t.flt = s.flt) (absent : ∀ sid, streamOf s sid = none → streamOf t sid = none)
    (streams : ∀ sid st, streamOf s sid = some st → ∃ v, streamOf t sid = some v ∧ StreamRuns F W st v)
    (sole : ∀ sid, SoleKey sid s.store.streams → SoleKey sid t.store.streams) : Runs F W s t where
  wear := ⟨fun d _ => by simp only [dieOf, harr], fun n h => by simpa only [slotOf, harr] using h, fun i h => by simpa only [hflt] using h⟩
  absent := absent
  streams := streams
  sole := sole
  rise := fun h => by simpa only [harr] using h
  segs := fun g z h => ⟨z, by simpa only [segOf, harr] using h, fun _ => SegRuns.refl z⟩
  kept := fun g _ h => by simpa only [segOf, harr] using h
  tails := fun _ d _ e he => .inr ⟨e, by simpa only [dieOf, harr] using he, rfl, rfl⟩

/-- Streams as they were. -/
theorem Runs.of_array (hstr : t.store.streams = s.store.streams) (wear : Wear s t)
    (rise : keysRise s.arr.segs = true → keysRise t.arr.segs = true)
    (segs : ∀ g z, segOf t g = some z → ∃ x, segOf s g = some x ∧ (keysRise s.arr.segs = true ∨ ¬ F g → SegRuns x z))
    (kept : ∀ g, ¬ F g → segOf s g ≠ none → segOf t g ≠ none)
    (tails : keysRise s.arr.segs = true → ∀ d < 8, ∀ e ∈ (dieOf s d).tailLive, segOf t e.segno = none ∨
      ∃ y ∈ (dieOf t d).tailLive, y.segno = e.segno ∧ y.cw = e.cw) : Runs F W s t where
  wear := wear
  absent := fun sid h => by simpa only [streamOf, hstr] using h
  streams := fun sid st h => ⟨st, by simpa only [streamOf, hstr] using h, StreamRuns.refl F W st⟩
  sole := fun sid h => by simpa only [hstr] using h
  rise := rise
  segs := segs
  kept := kept
  tails := tails

/-- The streams and the array as they were, and no latch cleared. -/
theorem Runs.of_latch (hstr : t.store.streams = s.store.streams) (harr : t.arr = s.arr)
    (hl : ∀ i, s.flt.latch.getLsbD i = true → t.flt.latch.getLsbD i = true) : Runs F W s t :=
  .of_array hstr ⟨fun d _ => by simp only [dieOf, harr], fun n h => by simpa only [slotOf, harr] using h, hl⟩
    (fun h => by simpa only [harr] using h) (fun g z h => ⟨z, by simpa only [segOf, harr] using h, fun _ => SegRuns.refl z⟩)
    (fun g _ h => by simpa only [segOf, harr] using h) (fun _ d _ e he => .inr ⟨e, by simpa only [dieOf, harr] using he, rfl, rfl⟩)

/-- An operation that touches neither streams nor array nor collector. -/
theorem Runs.of_only {l : List Region} (h : OnlyIn l s t) (hs : Region.store ∉ l) (ha : Region.arr ∉ l) (hf : Region.flt ∉ l) :
    Runs F W s t :=
  .of_latch (congrArg StoreSt.streams (h .store hs)) (h .arr ha) (fun i hi => by rwa [show t.flt = s.flt from h .flt hf])

end Sys2Proof.Machine
end

section
/-! SUPPORT. What goes on behind a command, operation by operation: faults, credits, replies, records written, seals, reclaims. -/
namespace Sys2Proof.Machine
open Sys2Proof

variable {F : Nat → Prop} {W : Prop} {s t u : State}

/-! ## Faults and credits -/

theorem setBit96_true_getLsbD (v : BitVec 96) (n i : Nat) (h : v.getLsbD i = true) : (setBit96 v n true).getLsbD i = true := by
  simp [setBit96, h]

theorem setBit96_true_getLsbD_same (v : BitVec 96) (n : Nat) (h : n < 96) : (setBit96 v n true).getLsbD n = true := by
  simp [setBit96, h]

theorem startTimers_latch (f : Faults) (src now : Nat) : (startTimers f src now).latch = f.latch := by
  simp only [startTimers]
  split
  · rfl
  · split <;> rfl

theorem latchRegs_latch (f : Faults) (src : Nat) (det : BitVec 32) (dt now : Nat) :
    (latchRegs f src det dt now).latch = setBit96 f.latch src true := by
  simp only [latchRegs]
  split
  · rw [startTimers_latch]
  · rfl

/-- After a fault state the latch holds what it held, and where the collector runs the source (R498). -/
theorem latchFault_latch (src : Nat) (det : BitVec 32) (s : State) : (latchFault src det s).flt.latch =
    if collectorOn s = true ∧ s.flt.latch.getLsbD src = false then setBit96 s.flt.latch src true else s.flt.latch := by
  simp only [latchFault]
  split
  · next h => simp_all
  · next h =>
    have hon : collectorOn s = true := by simpa using h
    split
    · next hl => rw [if_neg (by simp [hl])]
    · next hl =>
      rw [if_pos (And.intro hon (by simpa using hl))]
      have hmsg (body : List Byte) (x : State) : (formMsg 3 body x).flt = x.flt := formMsg_only 3 body x .flt (by decide)
      have hloss (x : State) : (lossBegin true x).flt = x.flt := lossBegin_only true x .flt (by decide)
      split <;> split <;> simp only [hloss, hmsg, latchRegs_latch]

theorem latchFault_keeps_latch (src : Nat) (det : BitVec 32) (s : State) (i : Nat) (h : s.flt.latch.getLsbD i = true) :
    (latchFault src det s).flt.latch.getLsbD i = true := by
  rw [latchFault_latch]
  split
  · exact setBit96_true_getLsbD _ _ _ h
  · exact h

theorem raiseFault_runs (src : Nat) (det : BitVec 32) (s : State) : Runs F W s (raiseFault src det s) := by
  have hstr : (raiseFault src det s).store = s.store := raiseFault_only src det s .store (by decide)
  refine .of_latch (congrArg _ hstr) (raiseFault_only src det s .arr (by decide)) fun i h => ?_
  simp only [raiseFault]
  split
  · exact h
  · exact latchFault_keeps_latch src det s i h

/-- A source that is not masked is latched after its fault state where the collector runs (R496, R498). -/
theorem raiseFault_latches (src : Nat) (det : BitVec 32) (s : State) (hsrc : src < 96) (hm : s.flt.masked.getLsbD src = false)
    (hon : collectorOn s = true) : (raiseFault src det s).flt.latch.getLsbD src = true := by
  simp only [raiseFault, hm, Bool.false_eq_true, if_false, latchFault_latch, hon, true_and]
  split
  · exact setBit96_true_getLsbD_same _ _ hsrc
  · next h => simpa using h

theorem windowMsg_runs (s : State) : Runs F W s (windowMsg s) := .of_only (windowMsg_only s) (by decide) (by decide) (by decide)

theorem checkOver_runs (s : State) : Runs F W s (checkOver s) := by
  simp only [checkOver]
  have h (b : Bool) : Runs F W s (windowMsg { s with oas.overV := b }) :=
    .after (windowMsg_runs _) (.of_latch rfl rfl fun _ h => h)
  split
  · exact Runs.refl F W s
  · split
    · exact .after (raiseFault_runs _ _ _) (h _)
    · exact h _

theorem returnCredits_runs (n : Nat) (s : State) : Runs F W s (returnCredits n s) := by
  simp only [returnCredits]
  split
  · exact Runs.refl F W s
  · exact .after (checkOver_runs _) (.of_latch rfl rfl fun _ h => h)

theorem formReply_runs (x : Reply) (s : State) : Runs F W s (formReply x s) :=
  .of_only (formReply_only x s) (by decide) (by decide) (by decide)

/-! ## Streams -/

/-- The record with a number, after a change of every record that keeps the numbers. -/
theorem recOf_of_map (f : Rec → Rec) (st v : Stream) (hrecs : v.recs = st.recs.map f) (hseq : ∀ r ∈ st.recs, (f r).seq = r.seq) (q : Nat) :
    recOf v q = (recOf st q).map f := by
  simp only [recOf, hrecs]
  generalize st.recs = l at hseq
  induction l with
  | nil => rfl
  | cons x l ih =>
    have hx := hseq x List.mem_cons_self
    have ih := ih fun y hy => hseq y (List.mem_cons_of_mem _ hy)
    by_cases hq : x.seq = q <;> simp_all

/-- A stream that only its records' marks change. -/
theorem StreamRuns.of_map (f : Rec → Rec) (st v : Stream) (hfirst : v.first = st.first) (hrecs : v.recs = st.recs.map f)
    (hseq : ∀ r ∈ st.recs, (f r).seq = r.seq) (hplace : ∀ r ∈ st.recs, (f r).place = r.place) (hcws : ∀ r ∈ st.recs, (f r).cws ⊆ r.cws)
    (hw : W ∨ ∀ r ∈ st.recs, (f r).written = r.written) : StreamRuns F W st v where
  first := hfirst
  cws := fun y hy => by
    rw [hrecs] at hy
    obtain ⟨r, hr, rfl⟩ := List.mem_map.1 hy
    exact .inr ⟨r, hr, (hseq r hr).symm, hcws r hr⟩
  place := fun q r p hr hp _ => by
    have hmem := List.mem_of_find?_eq_some hr
    refine ⟨f r, ?_, (hplace r hmem).trans hp⟩
    rw [recOf_of_map f st v hrecs hseq, hr, Option.map_some]
  waits := fun r hr p hp _ hrw => by
    rcases hw with hW | hw
    · exact .inl hW
    · exact .inr ⟨f r, hrecs ▸ List.mem_map_of_mem hr, (hplace r hr).trans hp, (hw r hr).trans hrw⟩

/-- A stream whose records stay as they are. -/
theorem StreamRuns.of_same (st v : Stream) (hfirst : v.first = st.first) (hrecs : v.recs = st.recs) : StreamRuns F W st v :=
  .of_map id st v hfirst (by simpa using hrecs) (fun _ _ => rfl) (fun _ _ => rfl) (fun _ _ _ h => h) (.inr fun _ _ => rfl)

/-- A stream that one record joins, which waits for no codeword. -/
theorem StreamRuns.of_append (st v : Stream) (r : Rec) (hfirst : v.first = st.first) (hrecs : v.recs = st.recs ++ [r]) (hc : r.cws = []) :
    StreamRuns F W st v where
  first := hfirst
  cws := fun y hy => by
    rw [hrecs, List.mem_append, List.mem_singleton] at hy
    rcases hy with hy | rfl
    · exact .inr ⟨y, hy, rfl, fun _ h => h⟩
    · exact .inl hc
  place := fun q x p hx hp _ => ⟨x, by simp only [recOf] at hx ⊢; simp [hrecs, List.find?_append, hx], hp⟩
  waits := fun x hx p hp _ hxw => .inr ⟨x, by simp [hrecs, hx], hp, hxw⟩

/-- A stream that the records of segment `g` leave. -/
theorem StreamRuns.of_drop (g : Nat) (st : Stream) (hg : F g) : StreamRuns F W st (dropSegRecs g st) where
  first := rfl
  cws := fun y hy => .inr ⟨y, List.mem_of_mem_filter hy, rfl, fun _ h => h⟩
  place := fun q r p hr hp hF => by
    refine ⟨r, ?_, hp⟩
    have hgone : ¬ p.segno = g := fun h => hF (h ▸ hg)
    simp only [recOf, dropSegRecs] at hr ⊢
    rw [List.find?_filter]
    have hkeep : (match r.place with | some p => p.segno != g | none => true) = true := by simp [hp, hgone]
    generalize st.recs = l at hr
    induction l with
    | nil => simp at hr
    | cons x l ih =>
      by_cases hx : x.seq = q
      · simp only [List.find?_cons, hx, beq_self_eq_true] at hr
        obtain rfl : x = r := by simpa using hr
        simp [hx, hp, hgone]
      · have hx' : (x.seq == q) = false := by simpa using hx
        simp only [List.find?_cons, hx'] at hr ⊢
        simpa using ih hr
  waits := fun r hr p hp hF hw => by
    have hgone : ¬ p.segno = g := fun h => hF (h ▸ hg)
    exact .inr ⟨r, List.mem_filter.2 ⟨hr, by simp [hp, hgone]⟩, hp, hw⟩

theorem updStream_runs (sid : Nat) (f : Stream → Stream) (s : State) (h : ∀ st, streamOf s sid = some st → StreamRuns F W st (f st)) :
    Runs F W s (updStream s sid f) := by
  have only := updStream_only s sid f
  refine .of_streams (only .arr (by decide)) (only .flt (by decide)) (fun k hk => ?_) (fun k st hk => ?_) (fun k hk => ?_)
  · rw [streamOf_updStream]
    split
    · next e => subst e; rw [hk]; rfl
    · exact hk
  · rw [streamOf_updStream]
    split
    · next e => subst e; rw [hk]; exact ⟨f st, rfl, h st hk⟩
    · exact ⟨st, hk, StreamRuns.refl F W st⟩
  · simp only [updStream]
    split
    · exact hk
    · exact hk.put _ _

/-- One record's marks changed. -/
theorem updRec_runs (sid seq : Nat) (f : Rec → Rec) (s : State) (hseq : ∀ r, (f r).seq = r.seq) (hplace : ∀ r, (f r).place = r.place)
    (hcws : ∀ r, (f r).cws ⊆ r.cws) (hw : W ∨ ∀ r, (f r).written = r.written) : Runs F W s (updRec s sid seq f) := by
  refine updStream_runs sid _ s fun st _ => .of_map (fun r => if r.seq = seq then f r else r) st _ rfl rfl ?_ ?_ ?_ ?_
  · intro r _; split <;> simp [hseq]
  · intro r _; split <;> simp [hplace]
  · intro r _; split
    · exact hcws r
    · exact fun _ h => h
  · exact hw.imp_right fun hw r _ => by split <;> simp [hw]

/-- Another store that lists the same streams. -/
theorem Runs.of_store (hstr : t.store.streams = s.store.streams) (harr : t.arr = s.arr) (hflt : t.flt = s.flt) : Runs F W s t :=
  .of_latch hstr harr fun i h => by rwa [hflt]

theorem addRec_runs (sid : Nat) (r : Rec) (s : State) (hc : r.cws = []) : Runs F W s (addRec sid r s) := by
  simp only [addRec]
  split
  · exact Runs.refl F W s
  · next st hst =>
    refine .of_streams rfl rfl (fun k hk => ?_) (fun k v hk => ?_) (fun k hk => hk.put _ _)
    · have hne : k ≠ sid := by rintro rfl; simp [hst] at hk
      exact (look_put_other _ _ _ _ hne).trans hk
    · by_cases hks : k = sid
      · subst hks
        obtain rfl : st = v := by simpa [hst] using hk
        exact ⟨_, look_put_same _ _ _, .of_append st _ _ rfl rfl hc⟩
      · exact ⟨v, (look_put_other _ _ _ _ hks).trans hk, StreamRuns.refl F W v⟩

theorem addRec_only (sid : Nat) (r : Rec) (s : State) : OnlyIn [.store, .oas] s (addRec sid r s) := by
  simp only [addRec]
  split
  · exact OnlyIn.refl _ _
  · intro r hr; cases r <;> simp_all [sameIn, chargeCredits]

/-! ## Device records -/

theorem writeDev_only (payload : List Byte) (job : Option Nat) (s : State) : OnlyIn [.store, .oas] s (writeDev payload job s) := by
  have hstore (st : StoreSt) (x : State) : OnlyIn [.store, .oas] x { x with store := st } := by
    intro r hr; cases r <;> simp_all [sameIn]
  simp only [writeDev]
  split
  · exact OnlyIn.refl _ _
  · split
    · exact (addRec_only _ _ s).trans (hstore _ _) (fun _ h => h) (fun _ h => h)
    · exact hstore _ _

theorem writeDev_runs (payload : List Byte) (job : Option Nat) (s : State) : Runs F W s (writeDev payload job s) := by
  simp only [writeDev]
  split
  · exact Runs.refl F W s
  · split
    · exact (addRec_runs _ _ s rfl).trans (.of_store rfl rfl rfl)
    · exact .of_store rfl rfl rfl

theorem releaseWaiting_runs (s : State) : Runs F W s (releaseWaiting s) := by
  refine Runs.iter _ (fun t => ?_) _ s
  split
  · exact Runs.refl F W t
  · split
    · next j p rest _ _ =>
      have h1 : Runs F W t (writeDev p j { t with store.waiting := [] }) := .after (writeDev_runs _ _ _) (.of_store rfl rfl rfl)
      exact h1.trans (.of_store rfl rfl rfl)
    · exact Runs.refl F W t

theorem releaseWaiting_only (s : State) : OnlyIn [.store, .oas] s (releaseWaiting s) := by
  have hstore (st : StoreSt) (x : State) : OnlyIn [.store, .oas] x { x with store := st } := by
    intro r hr; cases r <;> simp_all [sameIn]
  refine OnlyIn.iter _ (fun t => ?_) _ s
  split
  · exact OnlyIn.refl _ _
  · split
    · exact ((hstore _ t).trans (writeDev_only _ _ _) (fun _ h => h) (fun _ h => h)).trans (hstore _ _) (fun _ h => h) (fun _ h => h)
    · exact OnlyIn.refl _ _

/-! ## Jobs and what ends with a record -/

theorem ackRec_runs (sid seq : Nat) (s : State) : Runs F W s (ackRec sid seq s) := by
  simp only [ackRec]
  split
  · exact Runs.refl F W s
  · split
    · exact Runs.refl F W s
    · have h1 := updRec_runs (F := F) (W := W) sid seq (fun x => { x with acked := true }) s (fun _ => rfl) (fun _ => rfl)
        (fun _ _ h => h) (.inr fun _ => rfl)
      exact h1.trans (.of_store rfl rfl rfl)

theorem updJob_runs (j : Nat) (f : Job → Job) (s : State) : Runs F W s (updJob s j f) := .of_store rfl rfl rfl

theorem finishJob_runs (j : Nat) (s : State) : Runs F W s (finishJob j s) := by
  simp only [finishJob]
  split
  · exact Runs.refl F W s
  · next x _ =>
    have hack : Runs F W s (if x.kind = .append then ackJob j s else s) := by
      split
      · exact Runs.foldl _ _ (fun t e _ => ackRec_runs e.1 e.2 t) s
      · exact Runs.refl F W s
    exact .after (Runs.foldl _ _ (fun t r _ => formReply_runs r t) _) (hack.trans (.of_store rfl rfl rfl))

theorem jobWrite_runs (j : Option Nat) (s : State) : Runs F W s (jobWrite j s) := by
  have hend (i : Nat) (f : Job → Job) : Runs F W s (finishJob i (updJob s i f)) := .after (finishJob_runs _ _) (updJob_runs _ _ _)
  simp only [jobWrite]
  split
  · exact Runs.refl F W s
  · split
    · exact Runs.refl F W s
    · split
      · split
        · exact hend _ _
        · exact hend _ _
        · exact hend _ _
        · exact updJob_runs _ _ s
      · exact updJob_runs _ _ s

theorem settleTrain_runs (tr : Option Nat) (s : State) : Runs F W s (settleTrain tr s) := by
  simp only [settleTrain]
  split
  · exact Runs.refl F W s
  · split
    · exact Runs.refl F W s
    · split
      · exact .after (returnCredits_runs _ _) (.of_store rfl rfl rfl)
      · exact Runs.refl F W s

theorem finishHalf_runs (h : Nat) (s : State) : Runs F W s (finishHalf h s) := by
  simp only [finishHalf]
  split
  · exact .after (writeDev_runs _ _ _) (.of_store rfl rfl rfl)
  · exact Runs.refl F W s

theorem earlyMerged_runs (e : Option (Nat × Nat)) (s : State) : Runs F W s (earlyMerged e s) := by
  simp only [earlyMerged]
  split
  · exact Runs.refl F W s
  · split
    · exact .after (finishHalf_runs _ _) (.of_store rfl rfl rfl)
    · exact Runs.refl F W s

theorem recWritten_runs (sid : Nat) (r : Rec) (s : State) : Runs F True s (recWritten sid r s) := by
  have h1 := updRec_runs (F := F) (W := True) sid r.seq (fun x => { x with written := true, credits := 0, early := none }) s
    (fun _ => rfl) (fun _ => rfl) (fun _ _ h => h) (.inl trivial)
  have h2 (x : State) : Runs F True x (updStream x sid fun y => { y with chainW := r.chain }) :=
    updStream_runs sid _ x fun st _ => .of_same st _ rfl rfl
  have h3 (x : State) : Runs F True x (if r.array then jobWrite r.job x else x) := by
    split
    · exact jobWrite_runs _ _
    · exact Runs.refl F True x
  exact .after (releaseWaiting_runs _) (.after (settleTrain_runs _ _) (.after (h3 _) (.after (earlyMerged_runs _ _)
    (.after (returnCredits_runs _ _) ((h1.trans (h2 _)).trans (.of_store rfl rfl rfl))))))

theorem settleStream_runs (sid : Nat) (s : State) : Runs F True s (settleStream sid s) := by
  refine Runs.iter _ (fun t => ?_) _ s
  split
  · exact Runs.refl F True t
  · split
    · exact Runs.refl F True t
    · split
      · exact recWritten_runs _ _ t
      · exact Runs.refl F True t

/-! ## Seals -/

theorem issueWrite_runs (g cw : Nat) (tail : Bool) (job : Option Nat) (s : State) : Runs F W s (issueWrite g cw tail job s) :=
  .of_array rfl ⟨fun _ _ => rfl, fun _ h => h, fun _ h => h⟩ (fun h => h) (fun _ z h => ⟨z, h, fun _ => SegRuns.refl z⟩) (fun _ _ h => h)
    (fun _ _ _ e he => .inr ⟨e, he, rfl, rfl⟩)

theorem updSeg_runs (g : Nat) (f : SegSt → SegSt) (s : State) (h : ∀ x, segOf s g = some x → SegRuns x (f x)) : Runs F W s (updSeg s g f) := by
  have only := updSeg_only s g f
  have hdies : (updSeg s g f).arr.dies = s.arr.dies := by simp only [updSeg]; split <;> rfl
  have hslots : (updSeg s g f).arr.slots = s.arr.slots := by simp only [updSeg]; split <;> rfl
  have hflt : (updSeg s g f).flt = s.flt := only .flt (by decide)
  refine .of_array (congrArg StoreSt.streams (only .store (by decide)))
    ⟨fun d _ => by simp only [dieOf, hdies], fun n hn => by simpa only [slotOf, hslots] using hn, fun i hi => by rwa [hflt]⟩
    (fun hr => ?_) (fun k z hz => ?_) (fun k _ hk => ?_) (fun _ d _ e he => .inr ⟨e, by simpa only [dieOf, hdies] using he, rfl, rfl⟩)
  · simp only [updSeg]
    split
    · exact hr
    · exact keysRise_put _ _ _ hr
  · rw [segOf_updSeg] at hz
    split at hz
    · next hk =>
      subst hk
      obtain ⟨x, hx, rfl⟩ := Option.map_eq_some_iff.1 hz
      exact ⟨x, hx, fun _ => h x hx⟩
    · exact ⟨z, hz, fun _ => SegRuns.refl z⟩
  · rw [segOf_updSeg]
    split
    · next e => subst e; simpa using hk
    · exact hk

theorem issueSeal_only (s : State) : OnlyIn [.vtf] s (issueSeal s).2 := by
  simp only [issueSeal]
  split <;> (intro r hr; cases r <;> simp_all [sameIn])

theorem sealSegment_runs (g cause : Nat) (job : Option Nat) (s : State) : Runs F W s (sealSegment g cause job s).2 := by
  have hopen (x : State) (l : List (SClass × Nat)) : Runs F W x { x with arr.openShared := l } :=
    .of_array rfl ⟨fun _ _ => rfl, fun _ h => h, fun _ h => h⟩ (fun h => h) (fun _ z h => ⟨z, h, fun _ => SegRuns.refl z⟩) (fun _ _ h => h)
      (fun _ _ _ e he => .inr ⟨e, he, rfl, rfl⟩)
  unfold sealSegment
  split
  · exact Runs.refl F W s
  · next seg _ =>
    split
    · exact Runs.refl F W s
    · extract_lets v base info s1 arr s2 s3 cws
      have h1 : Runs F W s s1 :=
        .after (updSeg_runs g _ _ fun x _ => ⟨rfl, rfl, fun _ h => h⟩) (.of_only (issueSeal_only s) (by decide) (by decide) (by decide))
      have h3 : Runs F W s2 s3 := by
        dsimp only [s3]
        split
        · exact updStream_runs _ _ _ fun st _ => .of_same st _ rfl rfl
        · exact Runs.refl F W s2
      exact .after (Runs.foldl _ _ (fun t k _ => issueWrite_runs g k false job t) s3) ((h1.trans (hopen s1 _)).trans h3)

theorem settleSeals_runs (s : State) : Runs F W s (settleSeals s) := by
  refine Runs.foldl _ _ (fun t j _ => ?_) s
  split
  · split
    · exact Runs.refl F W t
    · dsimp only
      split
      · split
        · exact .after (finishJob_runs _ _) (updJob_runs _ _ _)
        · exact .after (updJob_runs _ _ _) (sealSegment_runs _ _ _ t)
      · exact Runs.refl F W t
  · exact Runs.refl F W t

theorem tailRule2_runs (d : Nat) (s : State) : Runs F W s (tailRule2 d s) := by
  simp only [tailRule2]
  split
  · exact Runs.refl F W s
  · refine Runs.iter _ (fun t => ?_) _ s
    split
    · exact Runs.refl F W t
    · split
      · exact Runs.refl F W t
      · exact sealSegment_runs _ _ _ t

/-! ## Media state and reclaim -/

theorem newJob_runs (n : Nat) (l : List Reply) (b : Bool) (k : JobKind) (s : State) : Runs F W s (newJob n l b k s).2 := .of_store rfl rfl rfl

theorem bumpCounter_runs (i : Nat) (s : State) : Runs F W s (bumpCounter i s) := .of_store rfl rfl rfl

theorem mediaMsg_runs (s : State) : Runs F W s (mediaMsg s) := .of_only (formMsg_only _ _ s) (by decide) (by decide) (by decide)

theorem setMedia_runs (m : Media) (s : State) : Runs F W s { s with arr.media := m } :=
  .of_array rfl ⟨fun _ _ => rfl, fun _ h => h, fun _ h => h⟩ (fun h => h) (fun _ z h => ⟨z, h, fun _ => SegRuns.refl z⟩) (fun _ _ h => h)
    (fun _ _ _ e he => .inr ⟨e, he, rfl, rfl⟩)

theorem mediaTo_runs (dst : Media) (cause subj : Nat) (s : State) : Runs F W s (mediaTo dst cause subj s) := by
  unfold mediaTo
  extract_lets arr s1 body pay j s2 s3
  have h1 : Runs F W s s1 := .after (bumpCounter_runs _ _) (setMedia_runs dst s)
  have h2 : Runs F W s1 s2 := by
    dsimp only [s2]
    split
    · exact Runs.refl F W s1
    · exact .after (writeDev_runs _ _ _) (newJob_runs _ _ _ _ _)
  have h3 : Runs F W s2 s3 := by
    dsimp only [s3]
    split
    · exact raiseFault_runs _ _ _
    · exact raiseFault_runs _ _ _
    · exact Runs.refl F W s2
  exact .after (mediaMsg_runs s3) (.trans h1 (.trans h2 h3))

end Sys2Proof.Machine
end

section
/-! SUPPORT. What goes on behind a command: reclaims. -/
namespace Sys2Proof.Machine
open Sys2Proof

variable {F : Nat → Prop} {W : Prop} {s t u : State}

theorem mediaTest_runs (s : State) : Runs F W s (mediaTest s) := by
  simp only [mediaTest]
  split
  · split
    · exact mediaTo_runs _ _ _ s
    · exact Runs.refl F W s
  · split
    · exact mediaTo_runs _ _ _ s
    · exact Runs.refl F W s
  · exact Runs.refl F W s

theorem slotOf_updSlot_same (s : State) (n : Nat) (f : SlotInfo → SlotInfo) (h : f (slotOf s n) ≠ SlotInfo.reset) :
    slotOf (updSlot s n f) n = f (slotOf s n) := by
  show (look n (memSet SlotInfo.reset s.arr.slots n (f (slotOf s n)))).getD SlotInfo.reset = _
  rw [memSet, if_neg h, look_put_same, Option.getD_some]

theorem slotOf_updSlot_other (s : State) (n k : Nat) (f : SlotInfo → SlotInfo) (h : k ≠ n) : slotOf (updSlot s n f) k = slotOf s k :=
  memGet_memSet_other SlotInfo.reset s.arr.slots n k _ h

theorem slotInfo_ne_reset_of_failing {i : SlotInfo} (h : i.failing = true) : i ≠ SlotInfo.reset := by
  rintro rfl
  exact absurd h (by decide)

/-- A slot marked failing stays so where no update clears the mark. -/
theorem updSlot_keeps_failing (s : State) (n k : Nat) (f : SlotInfo → SlotInfo) (hf : ∀ i, i.failing = true → (f i).failing = true)
    (h : (slotOf s k).failing = true) : (slotOf (updSlot s n f) k).failing = true := by
  by_cases hk : k = n
  · subst hk
    have hf := hf _ h
    rwa [slotOf_updSlot_same s k f (slotInfo_ne_reset_of_failing hf)]
  · rwa [slotOf_updSlot_other s n k f hk]

/-- An operation on slots and dies that leaves the segments, the spare rows and the tail entries. -/
theorem Runs.of_slots (hstr : t.store.streams = s.store.streams) (hflt : t.flt = s.flt) (hsegs : t.arr.segs = s.arr.segs)
    (hdies : ∀ d < 8, (dieOf t d).bankRows = (dieOf s d).bankRows ∧ (dieOf t d).tailLive = (dieOf s d).tailLive)
    (hslots : ∀ n, (slotOf s n).failing = true → (slotOf t n).failing = true) : Runs F W s t :=
  .of_array hstr ⟨fun d hd => (hdies d hd).1, hslots, fun i h => by rwa [hflt]⟩ (fun h => by rwa [hsegs])
    (fun g z h => ⟨z, by simpa only [segOf, hsegs] using h, fun _ => SegRuns.refl z⟩) (fun g _ h => by simpa only [segOf, hsegs] using h)
    (fun _ d hd e he => .inr ⟨e, by rwa [(hdies d hd).2], rfl, rfl⟩)

theorem updSlot_runs (n : Nat) (f : SlotInfo → SlotInfo) (s : State) (hf : ∀ i, i.failing = true → (f i).failing = true) :
    Runs F W s (updSlot s n f) :=
  .of_slots rfl rfl rfl (fun _ _ => ⟨rfl, rfl⟩) (fun k hk => updSlot_keeps_failing s n k f hf hk)

theorem updDie_runs (d : Nat) (f : Die → Die) (s : State) (hd : d < 8) (hrows : ∀ x, (f x).bankRows = x.bankRows)
    (htails : ∀ x, ∀ e ∈ x.tailLive, ∃ y ∈ (f x).tailLive, y.segno = e.segno ∧ y.cw = e.cw) : Runs F W s (updDie s d f) := by
  refine .of_array rfl ⟨fun k _ => ?_, fun _ h => h, fun _ h => h⟩ (fun h => h) (fun _ z h => ⟨z, h, fun _ => SegRuns.refl z⟩)
    (fun _ _ h => h) (fun _ k _ e he => .inr ?_)
  · rw [dieOf_updDie _ _ _ _ hd]
    split
    · next hk => subst hk; exact hrows _
    · rfl
  · rw [dieOf_updDie _ _ _ _ hd]
    split
    · next hk => subst hk; exact htails _ e he
    · exact ⟨e, he, rfl, rfl⟩

theorem dropMove_runs (m : MoveSt) (s : State) : Runs F W s (dropMove m s) := by
  have hspare (x : State) (d b : Nat) : Runs F W x (updDie x d fun y => { y with bankSpare := vUpd y.bankSpare b (· + 1) }) := by
    by_cases hd : d < 8
    · exact updDie_runs d _ x hd (fun _ => rfl) fun _ e he => ⟨e, he, rfl, rfl⟩
    · have hsame : vUpd x.arr.dies d (fun y => { y with bankSpare := vUpd y.bankSpare b (· + 1) }) = x.arr.dies := by
        simp [vUpd, vSet, Vector.setIfInBounds_eq_of_size_le, Nat.le_of_not_lt hd]
      exact .of_slots rfl rfl rfl (fun _ _ => by simp only [dieOf, updDie, hsame, and_self]) (fun _ h => h)
  unfold dropMove
  extract_lets s1 s2
  have h1 : Runs F W s s1 := updSlot_runs _ _ s fun _ h => h
  have h2 : Runs F W s1 s2 := by
    dsimp only [s2]
    split
    · exact hspare s1 _ _
    · exact Runs.refl F W s1
  split
  · exact (h1.trans h2).trans (.of_slots rfl rfl rfl (fun _ _ => ⟨rfl, rfl⟩) (fun _ h => h))
  · exact h1.trans h2

theorem dropMoves_runs (g : Nat) (s : State) : Runs F W s (dropMoves g s) := by
  unfold dropMoves
  extract_lets s1
  have h1 : Runs F W s s1 := by
    refine Runs.foldl _ _ (fun t m _ => ?_) s
    split
    · split
      · exact dropMove_runs _ t
      · exact Runs.refl F W t
    · exact Runs.refl F W t
  exact h1.trans (.of_slots rfl rfl rfl (fun _ _ => ⟨rfl, rfl⟩) (fun _ h => h))

/-- Segment `g` taken from the list of segments. -/
theorem Runs.of_unmap (g : Nat) (hF : F g) (hstr : t.store.streams = s.store.streams) (hflt : t.flt = s.flt)
    (hsegs : t.arr.segs = del g s.arr.segs) (hrows : ∀ d < 8, (dieOf t d).bankRows = (dieOf s d).bankRows)
    (htails : ∀ d < 8, ∀ e ∈ (dieOf s d).tailLive, e.segno ≠ g → e ∈ (dieOf t d).tailLive)
    (hslots : ∀ n, (slotOf s n).failing = true → (slotOf t n).failing = true) : Runs F W s t := by
  have other (k : Nat) (hk : k ≠ g) : segOf t k = segOf s k := by
    simp only [segOf, hsegs, look_del_other g k _ hk]
  have same (hr : keysRise s.arr.segs = true) : segOf t g = none := by
    simp only [segOf, hsegs, look_del_same g _ hr]
  refine .of_array hstr ⟨hrows, hslots, fun i h => by rwa [hflt]⟩ (fun h => hsegs ▸ keysRise_del g _ h) (fun k z hz => ?_) (fun k hk h => ?_)
    (fun hr d hd e he => ?_)
  · by_cases hk : k = g
    · subst hk
      cases hx : segOf s k with
      | none =>
        have : segOf t k = none := by simp only [segOf, hsegs] at hx ⊢; rwa [del_of_look_none hx]
        simp [this] at hz
      | some x =>
        refine ⟨x, rfl, fun hc => ?_⟩
        rcases hc with hr | hn
        · simp [same hr] at hz
        · exact absurd hF hn
    · exact ⟨z, (other k hk).symm.trans hz, fun _ => SegRuns.refl z⟩
  · have hne : k ≠ g := fun e => hk (e ▸ hF)
    rwa [other k hne]
  · by_cases hg : e.segno = g
    · exact .inl (hg ▸ same hr)
    · exact .inr ⟨e, htails d hd e he hg, rfl, rfl⟩

theorem unmapSeg_runs (g : Nat) (s : State) (hF : F g) : Runs F W s (unmapSeg s g) := by
  unfold unmapSeg
  extract_lets s1
  have h1 : Runs F W s s1 := dropMoves_runs g s
  split
  · exact h1.trans (.of_unmap g hF rfl rfl rfl (fun _ _ => rfl) (fun _ _ _ he _ => he) (fun _ h => h))
  · next e _ =>
    have h2 : Runs F W s1 (updSlot s1 e.slot fun i => { i with used := false, seg := none }) := updSlot_runs _ _ s1 fun _ h => h
    refine (h1.trans h2).trans (.of_unmap g hF rfl rfl rfl (fun d hd => ?_) (fun d hd x hx hg => ?_) (fun _ h => h))
    · simp only [dieOf, vAt_vMap _ _ d hd]
    · simp only [dieOf, vAt_vMap _ _ d hd]
      exact List.mem_filter.2 ⟨hx, by simpa using hg⟩

theorem dropKeys_only (p : KeyEntry → Bool) (s : State) : OnlyIn [.vtf] s (dropKeys p s) := by
  intro r hr; cases r <;> simp_all [sameIn, dropKeys]

theorem pruneKeys_runs (sid : Nat) (s : State) : Runs F W s (pruneKeys sid s) := by
  simp only [pruneKeys]
  split
  · exact Runs.refl F W s
  · split
    · exact Runs.refl F W s
    · exact .after (.of_only (dropKeys_only _ _) (by decide) (by decide) (by decide))
        (updStream_runs sid _ s fun st _ => .of_same st _ rfl rfl)

theorem freeSeg_runs (g : Nat) (s : State) (hF : F g) : Runs F W s (freeSeg g s) := by
  simp only [freeSeg]
  split
  · exact Runs.refl F W s
  · exact .after (mediaTest_runs _) (.after (unmapSeg_runs g _ hF) (.trans (.after (Runs.foldl _ _ (fun t sid _ => pruneKeys_runs sid t) _)
      (Runs.foldl _ _ (fun t sid _ => updStream_runs sid _ t fun st _ => .of_drop g st hF) s))
      (.of_slots rfl rfl rfl (fun _ _ => ⟨rfl, rfl⟩) (fun _ h => h))))

/-- A reclaim gives back dead segments only (R58). -/
theorem reclaimAll_runs (s : State) : Runs (fun g => segDead s g = true) W s (reclaimAll s) :=
  Runs.foldl _ _ (fun t g hg => freeSeg_runs g t (List.mem_filter.1 hg).2) s

end Sys2Proof.Machine
end

section
/-! SUPPORT. A record placed in its segment, which nothing behind a command moves while it is unwritten (R49, R58). -/
namespace Sys2Proof.Machine
open Sys2Proof

variable {F : Nat → Prop} {W : Prop} {s t u : State}

/-! ## A record placed -/

/-- The record of a stream with a number stands unwritten at an offset of an open segment, whose fill position is known. -/
structure Placed (g sid seq off fill : Nat) (s : State) : Prop where
  record : ∃ y, recAt s sid seq = some y ∧ y.place = some { segno := g, off := off }
  segment : ∃ z, segOf s g = some z ∧ z.fill = fill ∧ sid ∈ z.sids
  unwritten : ∃ v, streamOf s sid = some v ∧ ∃ y ∈ v.recs, y.place = some { segno := g, off := off } ∧ y.written = false

variable {g sid seq off fill : Nat}

/-- Nothing behind a command moves a placed record out of a segment that is not given back. -/
theorem Placed.runs (h : Placed g sid seq off fill s) (k : Runs F False s t) (hF : ¬ F g) : Placed g sid seq off fill t := by
  obtain ⟨⟨y, hy, hyp⟩, ⟨z, hz, hfill, hsid⟩, ⟨v, hv, r, hr, hrp, hrw⟩⟩ := h
  obtain ⟨v', hv', hruns⟩ := k.streams sid v hv
  refine ⟨?_, ?_, ?_⟩
  · have hyv : recOf v seq = some y := by simpa [recAt, hv] using hy
    obtain ⟨y', hy', hyp'⟩ := hruns.place seq y _ hyv hyp hF
    exact ⟨y', by simpa [recAt, hv'] using hy', hyp'⟩
  · obtain ⟨z', hz'⟩ := Option.ne_none_iff_exists'.1 (k.kept g hF (by simp [hz]))
    obtain ⟨x, hx, hxz⟩ := k.segs g z' hz'
    obtain rfl : z = x := by simpa [hz] using hx
    have hseg := hxz (.inr hF)
    exact ⟨z', hz', hseg.fill.trans hfill, hseg.sids ▸ hsid⟩
  · exact ⟨v', hv', (hruns.waits r hr _ hrp hF hrw).resolve_left id⟩

/-- A segment that holds an unwritten record is not dead (R58). -/
theorem Placed.not_dead (h : Placed g sid seq off fill s) : segDead s g = false := by
  obtain ⟨-, ⟨z, hz, -, hsid⟩, ⟨v, hv, r, hr, hrp, hrw⟩⟩ := h
  cases hd : segDead s g with
  | false => rfl
  | true =>
    simp only [segDead, hz, Bool.and_eq_true, List.all_eq_true] at hd
    have hall := hd.2 sid hsid
    rw [hv] at hall
    have hin : r ∈ recsIn v g := List.mem_filter.2 ⟨hr, by simp [hrp]⟩
    simpa [hrw] using List.all_eq_true.1 hall r hin

theorem issueWrites_runs (g : Nat) (tail : Bool) (cws : List Nat) (s : State) :
    Runs F W s (cws.foldl (fun t k => issueWrite g k tail none t) s) :=
  Runs.foldl _ _ (fun t k _ => issueWrite_runs g k tail none t) s

/-- A record goes to the fill position of its segment, which rises by the stored size (R49). -/
theorem placeIn_placed (r : Rec) (x : SegSt) (st : Stream) (hx : segOf s g = some x) (hst : streamOf s sid = some st)
    (hr : r ∈ st.recs) (hw : r.written = false) :
    Placed g sid r.seq x.fill (x.fill + storedSize r.payload.length) (placeIn g sid r s) := by
  unfold placeIn
  split
  case h_2 => next hnone => exact absurd hst (hnone x st hx)
  next x' st' hx' hst' =>
  obtain rfl : x = x' := Option.some.inj (hx.symm.trans hx')
  obtain rfl : st = st' := Option.some.inj (hst.symm.trans hst')
  extract_lets size off fill first last cws prev s1 s2 s3 s4
  have h1 : ∃ z, segOf s1 g = some z ∧ z.fill = fill ∧ sid ∈ z.sids := by
    refine ⟨_, (segOf_updSeg_same s g _).trans (by rw [hx, Option.map_some]), rfl, ?_⟩
    split
    · next h => simpa using h
    · simp
  have h1st : streamOf s1 sid = some st := by
    have only : s1.store = s.store := updSeg_only _ _ _ .store (by decide)
    simpa only [streamOf, only] using hst
  let put : Rec → Rec := fun y => if y.seq = r.seq then { y with place := some { segno := g, off := off }, cws := cws } else y
  have h3st : ∃ v, streamOf s3 sid = some v ∧ v.recs = st.recs.map put := by
    have e := (streamOf_updStream_same s2 sid fun y => { y with recs := y.recs.map put }).trans
      (congrArg (Option.map _) (streamOf_updStream_same s1 sid fun y => { y with segs := if y.segs.contains g then y.segs else y.segs ++ [g] }))
    rw [h1st] at e
    exact ⟨_, e, rfl⟩
  have harr : s3.arr = s1.arr := (updStream_only _ _ _ .arr (by decide)).trans (updStream_only _ _ _ .arr (by decide))
  have h3 : Placed g sid r.seq x.fill fill s3 := by
    obtain ⟨v, hv, hrecs⟩ := h3st
    have hseq (y : Rec) (_ : y ∈ st.recs) : (put y).seq = y.seq := by
      dsimp only [put]
      split <;> rfl
    obtain ⟨y, hy⟩ : ∃ y, recOf st r.seq = some y := Option.isSome_iff_exists.1 (List.find?_isSome.2 ⟨r, hr, by simp⟩)
    have hyseq : y.seq = r.seq := by simpa using List.find?_some hy
    refine ⟨⟨put y, ?_, ?_⟩, by simpa only [segOf, harr] using h1, v, hv, put r, hrecs ▸ List.mem_map_of_mem hr, ?_, ?_⟩
    · simp only [recAt, hv, Option.bind_some, recOf_of_map put st v hrecs hseq, hy, Option.map_some]
    · simp only [put, hyseq, if_true, off]
    · simp only [put, if_true, off]
    · simp only [put, if_true, hw]
  have h4 : Placed g sid r.seq x.fill fill s4 := h3.runs (issueWrites_runs (F := fun _ => False) g false _ s3) id
  split
  · exact h4.runs (issueWrite_runs (F := fun _ => False) g last true none s4) id
  · exact h4

end Sys2Proof.Machine
end

section
/-! SUPPORT. What a drain places, what a verified or failed codeword leaves, and the statement on array writes. -/
namespace Sys2Proof.Machine
open Sys2Proof

variable {F : Nat → Prop} {W : Prop} {s t u : State} {g sid seq off fill : Nat}

/-! ## A drain (R16, R117) -/

/-- The record that a die's sequencer takes next stands unwritten in its stream. -/
theorem drainPick_unwritten {d : Nat} {r : Rec} {o : Option Nat} (h : drainPick s d = some (sid, r, o)) :
    ∃ st, streamOf s sid = some st ∧ r ∈ st.recs ∧ r.written = false := by
  obtain ⟨k, -, hk⟩ := List.exists_of_findSome?_eq_some h
  cases hr : nextUnplaced s k with
  | none => simp [hr] at hk
  | some y =>
    have hky : k = sid ∧ y = r := by
      simp only [hr] at hk
      split at hk
      · split at hk
        · simp only [Option.some.injEq, Prod.mk.injEq] at hk
          exact ⟨hk.1, hk.2.1⟩
        · simp at hk
      · simp at hk
    obtain ⟨rfl, rfl⟩ := hky
    simp only [nextUnplaced] at hr
    split at hr
    · simp at hr
    next st hst =>
    split at hr
    · simp at hr
    next z hz =>
    have hst' : streamOf s k = some st := by
      split at hst
      · simp at hst
      · exact hst
    obtain rfl : z = y := by
      split at hr
      · simp at hr
      · split at hr
        · simp at hr
        · split at hr
          · simpa using hr
          · split at hr
            · simp at hr
            · simpa using hr
    obtain ⟨-, hw⟩ : z.place = none ∧ z.written = false := by simpa using List.find?_some hz
    exact ⟨st, hst', List.mem_of_find?_eq_some hz, hw⟩

theorem flushHome_runs (d : Nat) (s : State) : Runs F W s (flushHome d s) := by
  simp only [flushHome]
  split
  · split
    · split
      · exact .of_slots rfl rfl rfl (fun _ _ => ⟨rfl, rfl⟩) (fun _ h => h)
      · exact Runs.refl F W s
    · exact Runs.refl F W s
  · exact Runs.refl F W s

theorem markIssued_only (s : State) : OnlyIn [.wadi] s (markIssued s) := by
  intro r hr; cases r <;> simp_all [sameIn, markIssued]

theorem markIssued_runs (s : State) : Runs F W s (markIssued s) := .of_only (markIssued_only s) (by decide) (by decide) (by decide)

theorem exec_stagingDrainWrite_early (d : Fin 8) (w : CwWrite) (s : State) (hung : dieHung s d.val = false) (hon : drainOn s = true)
    (hturn : ruleTurn s d.val = false) (hw : earlyWrite s d.val = some w) (hroom : bankRoom s d.val none = true) :
    exec (.stagingDrainWrite d) s = .next { s with arr.writes := s.arr.writes ++ [w] } := by
  show execStagingDrainWrite d s = _
  simp [execStagingDrainWrite, hung, hon, hturn, hw, hroom]

/-- A drain of a record into its open segment places it, and nothing that follows moves it. -/
theorem exec_stagingDrainWrite_placed (d : Fin 8) (r : Rec) (x : SegSt) (s : State) (hung : dieHung s d.val = false)
    (hon : drainOn s = true) (hring : (dieOf s d.val).tailLive.length < 30720)
    (hturn : ruleTurn s d.val = false) (hw : earlyWrite s d.val = none) (hpick : drainPick s d.val = some (sid, r, some g))
    (hroom : bankRoom s d.val (drainBank s sid d.val r (some g)) = true) (hx : segOf s g = some x) :
    ∃ t, exec (.stagingDrainWrite d) s = .next t ∧ Placed g sid r.seq x.fill (x.fill + storedSize r.payload.length) t := by
  obtain ⟨st, hst, hr, hrw⟩ := drainPick_unwritten hpick
  let s0 : State := { s with wadi.drainNext := vSet s.wadi.drainNext d.val false }
  let t0 := placeNext sid r (some g) d.val s0
  have hring' : ¬ 30720 ≤ (dieOf s d.val).tailLive.length := by omega
  have hexec : exec (.stagingDrainWrite d) s = .next (reclaimAll (settleSeals (markIssued (flushHome d.val t0)))) := by
    show execStagingDrainWrite d s = _
    simp [execStagingDrainWrite, hung, hon, hturn, hw, hpick, hroom, hring', t0, s0]
  have h0 : Placed g sid r.seq x.fill (x.fill + storedSize r.payload.length) t0 := placeIn_placed (s := s0) r x st hx hst hr hrw
  have h1 : Runs (fun _ => False) False t0 (settleSeals (markIssued (flushHome d.val t0))) :=
    .after (settleSeals_runs _) (.after (markIssued_runs _) (flushHome_runs _ _))
  have h2 := h0.runs h1 id
  exact ⟨_, hexec, h2.runs (reclaimAll_runs _) (by simp [h2.not_dead])⟩

/-- A codeword of an aged record goes to the tail ring (R117). -/
theorem exec_tailRingAgeTimeout_aged (d : Fin 8) (g k : Nat) (s : State) (hung : dieHung s d.val = false) (hon : drainOn s = true)
    (hloss : inLoss s = false) (hring : (dieOf s d.val).tailLive.length < 30720) (hlost : s.prev.lost = false)
    (haged : agedCw s d.val = some (g, k)) : exec (.tailRingAgeTimeout d) s = .next (markIssued (issueWrite g k true none s)) := by
  have hring' : ¬ 30720 ≤ (dieOf s d.val).tailLive.length := by omega
  show execTailRingAgeTimeout d s = _
  simp [execTailRingAgeTimeout, hung, hon, hloss, hring', hlost, haged]

/-! ## A codeword verified (R46, R117) -/

/-- A segment with a codeword at home. -/
def withHome (k : Nat) (x : SegSt) : SegSt := { x with home := if x.home.contains k then x.home else x.home ++ [k] }

theorem withHome_mem (k : Nat) (x : SegSt) : k ∈ (withHome k x).home := by
  simp only [withHome]
  split
  · next h => simpa using h
  · simp

theorem withHome_runs (k : Nat) (x : SegSt) : SegRuns x (withHome k x) := by
  refine ⟨rfl, rfl, fun a ha => ?_⟩
  simp only [withHome]
  split
  · exact ha
  · exact List.mem_append_left _ ha

/-- The codeword of a write stands where the write put it: in the tail ring, or at home. -/
def codewordStands (w : CwWrite) (s : State) : State :=
  if w.tail then tailRule2 w.die (updDie s w.die (tailPush w.segno w.cw))
  else updSeg (tailClear w.segno w.cw s) w.segno (withHome w.cw)

/-- The records that a write covers wait for its codeword no longer. -/
def coversDone (w : CwWrite) (s : State) : State :=
  w.covers.foldl (fun t e => updRec t e.1 e.2 fun r => { r with cws := r.cws.filter (· != w.cw) }) s

theorem writeVerified_eq (w : CwWrite) (s : State) : writeVerified w s =
    settleSeals (jobWrite w.job (((w.covers.map (·.1)).eraseDups).foldl (fun t sid => settleStream sid t) (coversDone w (codewordStands w s)))) := rfl

theorem coverDone_runs (k sid seq : Nat) (s : State) :
    Runs F W s (updRec s sid seq fun r => { r with cws := r.cws.filter (· != k) }) :=
  updRec_runs sid seq _ s (fun _ => rfl) (fun _ => rfl) (fun _ _ h => List.mem_of_mem_filter h) (.inr fun _ => rfl)

theorem coversDone_runs (w : CwWrite) (s : State) : Runs F W s (coversDone w s) :=
  Runs.foldl _ _ (fun t e _ => coverDone_runs w.cw e.1 e.2 t) s

theorem writeVerified_runs (w : CwWrite) (s : State) : Runs F True (coversDone w (codewordStands w s)) (writeVerified w s) := by
  rw [writeVerified_eq]
  exact .after (settleSeals_runs _) (.after (jobWrite_runs _ _) (Runs.foldl _ _ (fun t sid _ => settleStream_runs sid t) _))

/-- No record of a stream with a number waits for codeword `k`. -/
def NotWaiting (k sid seq : Nat) (s : State) : Prop := ∀ v, streamOf s sid = some v → ∀ r ∈ v.recs, r.seq = seq → k ∉ r.cws

theorem NotWaiting.runs {k : Nat} (h : NotWaiting k sid seq s) (hr : Runs F W s t) : NotWaiting k sid seq t := by
  intro v hv r hrv hseq
  cases hs : streamOf s sid with
  | none => simp [hr.absent sid hs] at hv
  | some st =>
    obtain ⟨v', hv', hruns⟩ := hr.streams sid st hs
    obtain rfl : v = v' := Option.some.inj (hv.symm.trans hv')
    rcases hruns.cws r hrv with h0 | ⟨y, hy, hys, hsub⟩
    · simp [h0]
    · exact fun hk => h st hs y hy (hys.trans hseq) (hsub hk)

theorem coverDone_notWaiting (k sid seq : Nat) (s : State) :
    NotWaiting k sid seq (updRec s sid seq fun r => { r with cws := r.cws.filter (· != k) }) := by
  intro v hv r hr hseq
  rw [updRec, streamOf_updStream_same] at hv
  obtain ⟨st, -, rfl⟩ := Option.map_eq_some_iff.1 hv
  obtain ⟨y, hy, rfl⟩ := List.mem_map.1 hr
  by_cases hy : y.seq = seq
  · simp [hy]
  · simp [hy] at hseq

theorem coversDone_notWaiting (w : CwWrite) (s : State) (e : Nat × Nat) (he : e ∈ w.covers) : NotWaiting w.cw e.1 e.2 (coversDone w s) := by
  unfold coversDone
  generalize w.covers = l at he
  induction l generalizing s with
  | nil => simp at he
  | cons a l ih =>
    rcases List.mem_cons.1 he with rfl | he
    · exact (coverDone_notWaiting w.cw e.1 e.2 s).runs (Runs.foldl (F := fun _ => False) (W := False) _ l
        (fun t a _ => coverDone_runs w.cw a.1 a.2 t) _)
    · exact ih _ he

theorem NotWaiting.recAt {k : Nat} (h : NotWaiting k sid seq s) (y : Rec) (hy : recAt s sid seq = some y) : k ∉ y.cws := by
  obtain ⟨v, hv, hyv⟩ := Option.bind_eq_some_iff.1 hy
  exact h v hv y (List.mem_of_find?_eq_some hyv) (by simpa using List.find?_some hyv)

theorem tailPush_mem (g cw : Nat) (x : Die) : ∃ e ∈ (tailPush g cw x).tailLive, e.segno = g ∧ e.cw = cw :=
  ⟨_, List.mem_append_right _ (List.mem_singleton.2 rfl), rfl, rfl⟩

theorem dieOf_tailClear (g cw : Nat) (s : State) (d : Nat) (hd : d < 8) : (dieOf (tailClear g cw s) d).bankRows = (dieOf s d).bankRows := by
  simp only [dieOf, tailClear, vAt_vMap _ _ d hd]

theorem codewordStands_wear (w : CwWrite) (s : State) (hd : w.die < 8) : Wear s (codewordStands w s) := by
  simp only [codewordStands]
  split
  · have hpush : Wear s (updDie s w.die (tailPush w.segno w.cw)) := by
      refine ⟨fun d _ => ?_, fun _ h => h, fun _ h => h⟩
      rw [dieOf_updDie _ _ _ _ hd]
      split
      · next h => subst h; rfl
      · rfl
    exact hpush.trans (tailRule2_runs (F := fun _ => False) (W := False) _ _).wear
  · have hclear : Wear s (tailClear w.segno w.cw s) := ⟨fun d hd => dieOf_tailClear _ _ s d hd, fun _ h => h, fun _ h => h⟩
    exact hclear.trans (updSeg_runs (F := fun _ => False) (W := False) _ (withHome w.cw) _ fun x _ => withHome_runs w.cw x).wear

theorem codewordStands_rise (w : CwWrite) (s : State) (h : keysRise s.arr.segs = true) : keysRise (codewordStands w s).arr.segs = true := by
  simp only [codewordStands]
  split
  · exact (tailRule2_runs (F := fun _ => False) (W := False) _ _).rise h
  · simp only [updSeg]
    split
    · exact h
    · exact keysRise_put _ _ _ h

theorem codewordStands_home (w : CwWrite) (s : State) (ht : w.tail = false) (z : SegSt)
    (hz : segOf (codewordStands w s) w.segno = some z) : w.cw ∈ z.home := by
  simp only [codewordStands, ht, Bool.false_eq_true, if_false, segOf_updSeg_same] at hz
  obtain ⟨x, -, rfl⟩ := Option.map_eq_some_iff.1 hz
  exact withHome_mem w.cw x

theorem codewordStands_tail (w : CwWrite) (s : State) (ht : w.tail = true) (hd : w.die < 8) (hr : keysRise s.arr.segs = true) :
    segOf (codewordStands w s) w.segno = none ∨ ∃ e ∈ (dieOf (codewordStands w s) w.die).tailLive, e.segno = w.segno ∧ e.cw = w.cw := by
  simp only [codewordStands, ht, if_true]
  obtain ⟨e, he, hs, hc⟩ := tailPush_mem w.segno w.cw (dieOf s w.die)
  have hmem : e ∈ (dieOf (updDie s w.die (tailPush w.segno w.cw)) w.die).tailLive := by
    rwa [dieOf_updDie _ _ _ _ hd, if_pos rfl]
  rcases (tailRule2_runs (F := fun _ => False) (W := False) w.die (updDie s w.die (tailPush w.segno w.cw))).tails hr w.die hd e hmem with h | ⟨y, hy, hys, hyc⟩
  · exact .inl (hs ▸ h)
  · exact .inr ⟨y, hy, hys.trans hs, hyc.trans hc⟩

theorem writeVerified_covers (w : CwWrite) (s t : State) (h : Runs F True (writeVerified w s) t) (e : Nat × Nat) (he : e ∈ w.covers)
    (y : Rec) (hy : recAt t e.1 e.2 = some y) : w.cw ∉ y.cws :=
  ((coversDone_notWaiting w _ e he).runs ((writeVerified_runs w s).trans h)).recAt y hy

/-- From where the codeword of a write stands, on to what follows its verification. -/
theorem codewordStands_runs (w : CwWrite) (s t : State) (h : Runs F True (writeVerified w s) t) : Runs F True (codewordStands w s) t :=
  .after h (.after (writeVerified_runs w s) (coversDone_runs w _))

theorem writeVerified_home (w : CwWrite) (s t : State) (h : Runs F True (writeVerified w s) t) (hr : keysRise s.arr.segs = true)
    (ht : w.tail = false) (z : SegSt) (hz : segOf t w.segno = some z) : w.cw ∈ z.home := by
  obtain ⟨x, hx, hxz⟩ := (codewordStands_runs w s t h).segs _ z hz
  exact (hxz (.inl (codewordStands_rise w s hr))).home (codewordStands_home w s ht x hx)

theorem writeVerified_tail (w : CwWrite) (s t : State) (h : Runs F True (writeVerified w s) t) (hd : w.die < 8)
    (hr : keysRise s.arr.segs = true) (ht : w.tail = true) (hseg : segOf t w.segno ≠ none) :
    ∃ e ∈ (dieOf t w.die).tailLive, e.segno = w.segno ∧ e.cw = w.cw := by
  have hruns := codewordStands_runs w s t h
  rcases codewordStands_tail w s ht hd hr with hgone | ⟨e, he, hs, hc⟩
  · exact absurd (hruns.gone hgone) hseg
  · rcases hruns.tails (codewordStands_rise w s hr) w.die hd e he with hgone | ⟨y, hy, hys, hyc⟩
    · exact absurd (hs ▸ hgone) hseg
    · exact ⟨y, hy, hys.trans hs, hyc.trans hc⟩

theorem writeVerified_wear (w : CwWrite) (s : State) (hd : w.die < 8) : Wear s (writeVerified w s) :=
  (codewordStands_wear w s hd).trans (codewordStands_runs (F := fun _ => False) w s _ (Runs.refl _ _ _)).wear

/-! ## A codeword whose row fails (R116) -/

theorem slotOf_rowMarked (s : State) (n k : Nat) :
    slotOf (updSlot s n fun i => { i with badRows := if i.badRows.contains (k / 4) then i.badRows else i.badRows ++ [k / 4] }) n =
      { slotOf s n with badRows := if (slotOf s n).badRows.contains (k / 4) then (slotOf s n).badRows else (slotOf s n).badRows ++ [k / 4] } := by
  refine slotOf_updSlot_same s n _ fun h => ?_
  have hrows := congrArg SlotInfo.badRows h
  dsimp only [SlotInfo.reset] at hrows
  split at hrows
  · next hc => simp [hrows] at hc
  · simp at hrows

/-- A slot marked failing is failing, or was retired already. -/
theorem markFailing_failing (n : Nat) (s : State) (hm : metaSlot n = false) :
    (slotOf (markFailing n s) n).failing = true ∨ (slotOf s n).retired = true := by
  simp only [markFailing, hm, Bool.false_and, Bool.or_false]
  split
  · next h =>
    refine (Bool.or_eq_true _ _ ▸ h).imp_left fun hf => ?_
    exact hf
  · refine .inl ?_
    have hne : ({ slotOf s n with failing := true } : SlotInfo) ≠ SlotInfo.reset := slotInfo_ne_reset_of_failing rfl
    exact congrArg SlotInfo.failing (slotOf_updSlot_same s n (fun i => { i with failing := true }) hne)

theorem markFailing_flt (n : Nat) (s : State) : (markFailing n s).flt = s.flt := by
  simp only [markFailing]
  split <;> rfl

/-- A failed row: ARY_WVFAIL is latched, and a spare row of the bank goes, or with none left the slot is failing (R116). -/
theorem rowFailed_wears (n k : Nat) (s : State) (hd : slotDie n < 8) (hb : slotBank n < 16) (hm : metaSlot n = false)
    (hmask : s.flt.masked.getLsbD (44 + slotDie n) = false) (hon : collectorOn s = true) :
    let t := (rowFailed n k s).2
    let rows := vAt (dieOf s (slotDie n)).bankRows (slotBank n)
    t.flt.latch.getLsbD (44 + slotDie n) = true
      ∧ (0 < rows → vAt (dieOf t (slotDie n)).bankRows (slotBank n) = rows - 1)
      ∧ (rows = 0 → (slotOf t n).failing = true ∨ (slotOf s n).retired = true) := by
  intro t rows
  let det := BitVec.ofNat 32 (slotDetail n)
  let s1 := raiseFault (44 + slotDie n) det s
  let s2 := updSlot s1 n fun i => { i with badRows := if i.badRows.contains (k / 4) then i.badRows else i.badRows ++ [k / 4] }
  have hlatch : s2.flt.latch.getLsbD (44 + slotDie n) = true := raiseFault_latches _ det s (by omega) hmask hon
  have harr : s1.arr = s.arr := raiseFault_only _ det s .arr (by decide)
  have hdies : dieOf s1 (slotDie n) = dieOf s (slotDie n) := congrArg (fun a : ArraySt => vAt a.dies (slotDie n)) harr
  replace hdies : dieOf s2 (slotDie n) = dieOf s (slotDie n) := hdies
  have ht : t = if 0 < rows then updDie s2 (slotDie n) fun x => { x with bankRows := vUpd x.bankRows (slotBank n) (· - 1) }
      else markFailing n s2 := by
    have hrows : rows = vAt (dieOf s2 (slotDie n)).bankRows (slotBank n) := by rw [hdies]
    rw [hrows]
    simp only [t, rowFailed]
    split <;> rfl
  refine ⟨?_, fun hpos => ?_, fun hzero => ?_⟩
  · rw [ht]
    split
    · exact hlatch
    · rwa [markFailing_flt]
  · rw [ht, if_pos hpos, dieOf_updDie _ _ _ _ hd, if_pos rfl, hdies]
    exact vAt_vUpd_same _ _ _ hb
  · rw [ht, if_neg (by omega)]
    refine (markFailing_failing n s2 hm).imp_right fun hr => ?_
    have hret : (slotOf s2 n).retired = (slotOf s1 n).retired := (congrArg SlotInfo.retired (slotOf_rowMarked s1 n k) :)
    have hsame : slotOf s1 n = slotOf s n := congrArg (fun a : ArraySt => (look n a.slots).getD SlotInfo.reset) harr
    rw [← hsame, ← hret]
    exact hr

theorem writeFailed_wear (w : CwWrite) (s : State) (hd : w.die < 8) :
    Wear (rowFailed (segSlot s w.segno) w.cw s).2 (writeFailed w s) := by
  simp only [writeFailed]
  split
  · next t h => rw [h]; exact writeVerified_wear w t hd
  · next t h => rw [h]; exact writeVerified_wear { w with tail := true } t hd

/-! ## The end of a codeword's write -/

/-- A write taken from its die at its end. -/
def writeTaken (d n : Nat) (w : CwWrite) (s : State) : State :=
  let s0 := markIssued s
  surcharge w n (markDirty w (updDie { s0 with arr.writes := s0.arr.writes.erase w } d fun x => { x with turn := x.turn + 1 }))

theorem writeTaken_die (d n e : Nat) (w : CwWrite) (s : State) (hd : d < 8) :
    (dieOf (writeTaken d n w s) e).bankRows = (dieOf s e).bankRows := by
  have h : (dieOf (updDie s d fun x => { x with turn := x.turn + 1 }) e).bankRows = (dieOf s e).bankRows := by
    rw [dieOf_updDie _ _ _ _ hd]
    split
    · next h => rw [h]
    · rfl
  refine Eq.trans ?_ h
  simp only [writeTaken, surcharge, markDirty]
  split <;> rfl

theorem writeTaken_parts (d n : Nat) (w : CwWrite) (s : State) : (writeTaken d n w s).arr.segs = s.arr.segs
    ∧ (writeTaken d n w s).arr.slots = s.arr.slots ∧ (writeTaken d n w s).arr.map = s.arr.map
    ∧ (writeTaken d n w s).arr.metaGone = s.arr.metaGone ∧ (writeTaken d n w s).flt = s.flt ∧ (writeTaken d n w s).pwr = s.pwr := by
  simp only [writeTaken, surcharge, markDirty]
  split <;> exact ⟨rfl, rfl, rfl, rfl, rfl, rfl⟩

theorem exec_codewordWriteComplete (d : Fin 8) (ok : Bool) (n : Nat) (w : CwWrite) (s : State) (hung : dieHung s d.val = false)
    (hrel : s.pwr.released = true) (hm : s.pwr.seq ≠ .marked) (ho : s.pwr.seq ≠ .off) (hw : dieWrite s d.val = some w)
    (hlog : w.segno < earlySeg 0) (hgen : w.tail = true ∨ w.gen = segGen s w.segno) :
    exec (.codewordWriteComplete d ok n) s = .next (reclaimAll (if ok then writeVerified w (writeTaken d.val n w s)
      else mediaTest (writeFailed w (writeTaken d.val n w s)))) := by
  have hlog' : ¬ earlySeg 0 ≤ w.segno := by omega
  have hgen' : (!w.tail && decide (w.gen ≠ segGen s w.segno)) = false := by rcases hgen with h | h <;> simp [h]
  show execCodewordWriteComplete d ok n s = _
  simp only [execCodewordWriteComplete, hung, hrel, hm, ho, hw, hlog', decide_false, Bool.or_false, Bool.not_true, Bool.false_eq_true,
    if_false]
  refine congrArg Host.Outcome.next ?_
  exact if_neg (ne_true_of_eq_false hgen')

theorem dieWrite_die {d : Nat} {w : CwWrite} (h : dieWrite s d = some w) : w.die = d := by
  have := List.find?_some h
  simp only [Bool.and_eq_true, beq_iff_eq] at this
  exact this.1

theorem exec_codewordWriteComplete_verified (d : Fin 8) (n : Nat) (w : CwWrite) (s : State) (hung : dieHung s d.val = false)
    (hrel : s.pwr.released = true) (hm : s.pwr.seq ≠ .marked) (ho : s.pwr.seq ≠ .off) (hw : dieWrite s d.val = some w)
    (hlog : w.segno < earlySeg 0) (hgen : w.tail = true ∨ w.gen = segGen s w.segno) :
    ∃ t, exec (.codewordWriteComplete d true n) s = .next t
      ∧ (∀ e ∈ w.covers, ∀ y, recAt t e.1 e.2 = some y → w.cw ∉ y.cws)
      ∧ (w.tail = false → keysRise s.arr.segs = true → ∀ z, segOf t w.segno = some z → w.cw ∈ z.home)
      ∧ (w.tail = true → keysRise s.arr.segs = true → segOf t w.segno ≠ none →
        ∃ e ∈ (dieOf t d.val).tailLive, e.segno = w.segno ∧ e.cw = w.cw) := by
  have hd : w.die = d.val := dieWrite_die hw
  obtain ⟨hsegs, -⟩ := writeTaken_parts d.val n w s
  have hruns : Runs (fun _ => True) True (writeVerified w (writeTaken d.val n w s)) (reclaimAll (writeVerified w (writeTaken d.val n w s))) :=
    (reclaimAll_runs _).mono (fun _ _ => trivial) id
  refine ⟨_, exec_codewordWriteComplete d true n w s hung hrel hm ho hw hlog hgen, fun e he y hy => ?_, fun ht hr z hz => ?_, fun ht hr hseg => ?_⟩
  · exact writeVerified_covers w _ _ hruns e he y hy
  · exact writeVerified_home w _ _ hruns (by rwa [hsegs]) ht z hz
  · have htail := writeVerified_tail w _ _ hruns (by omega) (by rwa [hsegs]) ht hseg
    rwa [hd] at htail

theorem exec_codewordWriteComplete_failed (d : Fin 8) (n : Nat) (w : CwWrite) (s : State) (hung : dieHung s d.val = false)
    (hrel : s.pwr.released = true) (hm : s.pwr.seq ≠ .marked) (ho : s.pwr.seq ≠ .off) (hw : dieWrite s d.val = some w)
    (hlog : w.segno < earlySeg 0) (hgen : w.tail = true ∨ w.gen = segGen s w.segno) (hoff : s.pwr.pstate ≠ .off)
    (hmask : s.flt.masked.getLsbD (44 + d.val) = false) (hslot : slotDie (segSlot s w.segno) = d.val)
    (hmeta : metaSlot (segSlot s w.segno) = false) :
    let b := slotBank (segSlot s w.segno)
    ∃ t, exec (.codewordWriteComplete d false n) s = .next t ∧ t.flt.latch.getLsbD (44 + d.val) = true
      ∧ (0 < vAt (dieOf s d.val).bankRows b → vAt (dieOf t d.val).bankRows b = vAt (dieOf s d.val).bankRows b - 1)
      ∧ (vAt (dieOf s d.val).bankRows b = 0 →
        (slotOf t (segSlot s w.segno)).failing = true ∨ (slotOf s (segSlot s w.segno)).retired = true) := by
  intro b
  have hd : w.die = d.val := dieWrite_die hw
  let u := writeTaken d.val n w s
  obtain ⟨-, hslots, hmap, hgone, hflt, hpwr⟩ := writeTaken_parts d.val n w s
  have hdie : (dieOf u d.val).bankRows = (dieOf s d.val).bankRows := writeTaken_die d.val n d.val w s d.isLt
  have hseg : segSlot u w.segno = segSlot s w.segno := by simp only [u, segSlot, mapLook, hmap, hgone]
  have hsame : slotOf u (segSlot s w.segno) = slotOf s (segSlot s w.segno) := by simp only [u, slotOf, hslots]
  have hb : slotBank (segSlot s w.segno) < 16 := by
    simp only [slotBank]
    split <;> omega
  have hon : collectorOn u = true := by simp [u, collectorOn, hpwr, hrel, hoff]
  obtain ⟨hlatch, hrows, hfail⟩ := rowFailed_wears (segSlot s w.segno) w.cw u (by omega) hb hmeta (by rw [hslot, hflt]; exact hmask) hon
  have hwear : Wear (rowFailed (segSlot s w.segno) w.cw u).2 (reclaimAll (mediaTest (writeFailed w u))) := by
    rw [← hseg]
    exact (writeFailed_wear w u (by omega)).trans (.trans (mediaTest_runs (F := fun _ => False) (W := False) _).wear
      (reclaimAll_runs (W := False) _).wear)
  rw [hslot, hdie] at hrows
  rw [hslot, hdie, hsame] at hfail
  rw [hslot] at hlatch
  refine ⟨_, exec_codewordWriteComplete d false n w s hung hrel hm ho hw hlog hgen, hwear.latch _ hlatch, fun hpos => ?_, fun hzero => ?_⟩
  · exact (congrArg (vAt · b) (hwear.rows d.val d.isLt)).trans (hrows hpos)
  · exact (hfail hzero).imp_left (hwear.failing _)

/-- Settles O31: each row is run to its end, and what follows it (seals, reclaims, media state) keeps what the row did. -/
theorem arrayWrites : Obligations.ArrayWrites := by
  intro s d n g k x w b ends drains hung
  refine ⟨fun hon hturn hw hroom => exec_stagingDrainWrite_early d w s hung hon hturn hw hroom, ?placed, ?verified, ?failed, ?aged⟩
  case placed =>
    rintro sid r ⟨hon, -, hring⟩ hturn hw hpick hroom hx
    obtain ⟨t, ht, ⟨y, hy, hplace⟩, ⟨z, hz, hfill, -⟩, -⟩ :=
      exec_stagingDrainWrite_placed d r x s hung hon hring hturn hw hpick hroom hx
    refine ⟨t, y, z, ht, hy, hplace, hz, hfill.trans ?_⟩
    rw [storedSize, roundUp]
    omega
  case verified =>
    rintro ⟨hrel, hm, ho, hw, hlog, hgen⟩
    exact exec_codewordWriteComplete_verified d n w s hung hrel hm ho hw hlog hgen
  case failed =>
    rintro ⟨hrel, hm, ho, hw, hlog, hgen⟩ hoff hmask hslot hmeta
    exact exec_codewordWriteComplete_failed d n w s hung hrel hm ho hw hlog hgen hoff hmask hslot hmeta
  case aged =>
    rintro ⟨hon, hloss, hring⟩ hlost haged
    refine ⟨_, exec_tailRingAgeTimeout_aged d g k s hung hon hloss hring hlost haged, rfl, ?_⟩
    have hissue : OnlyIn [.arr] s (issueWrite g k true none s) := by
      intro r hr; cases r <;> simp_all [sameIn, issueWrite]
    exact hissue.trans (markIssued_only _) (by simp) (by simp)

end Sys2Proof.Machine
end

section
/-! SUPPORT. What goes on behind a command in the command engine: queues, trains, late members and contexts stay as they are. -/
namespace Sys2Proof.Machine
open Sys2Proof

variable {s t u : State}

/-- The queues, trains, late members and contexts of the engine are the same in two states: jobs and returned credits may differ. -/
structure EngKept (s t : State) : Prop where
  queues : t.eng.queues = s.eng.queues
  trains : t.eng.trains = s.eng.trains
  aborts : t.eng.aborts = s.eng.aborts
  ctx : t.eng.ctx = s.eng.ctx

theorem EngKept.refl (s : State) : EngKept s s := ⟨rfl, rfl, rfl, rfl⟩

/-- The steps in the order of the terms: the later one first. -/
theorem EngKept.after (k : EngKept t u) (h : EngKept s t) : EngKept s u :=
  ⟨k.queues.trans h.queues, k.trains.trans h.trains, k.aborts.trans h.aborts, k.ctx.trans h.ctx⟩

theorem EngKept.of_only {l : List Region} (h : OnlyIn l s t) (he : Region.eng ∉ l) : EngKept s t := by
  have e : t.eng = s.eng := h .eng he
  exact ⟨by rw [e], by rw [e], by rw [e], by rw [e]⟩

theorem EngKept.foldl {α : Type} (f : State → α → State) (h : ∀ t a, EngKept t (f t a)) (as : List α) (s : State) :
    EngKept s (as.foldl f s) := by
  induction as generalizing s with
  | nil => exact EngKept.refl s
  | cons a as ih => exact .after (ih (f s a)) (h s a)

theorem formReply_engKept (r : Reply) (s : State) : EngKept s (formReply r s) := by
  simp only [formReply]
  split
  · exact EngKept.refl s
  · split
    · exact ⟨rfl, rfl, rfl, rfl⟩
    · split
      · exact EngKept.refl s
      · exact ⟨rfl, rfl, rfl, rfl⟩

theorem returnCredits_engKept (n : Nat) (s : State) : EngKept s (returnCredits n s) := by
  simp only [returnCredits]
  split
  · exact EngKept.refl s
  · exact .after (.of_only (checkOver_only _) (by decide)) ⟨rfl, rfl, rfl, rfl⟩

theorem ackRec_only (sid seq : Nat) (s : State) : OnlyIn [.store] s (ackRec sid seq s) := by
  have hsnap (x : State) (l : List (Nat × Nat)) : OnlyIn [.store] x { x with store.snapReply := l } := by
    intro r hr; cases r <;> simp_all [sameIn]
  simp only [ackRec]
  split
  · exact OnlyIn.refl _ _
  · split
    · exact OnlyIn.refl _ _
    · have h1 := updStream_only s sid fun st => { st with recs := st.recs.map fun r => if r.seq = seq then { r with acked := true } else r }
      exact h1.trans (hsnap _ _) (fun _ h => h) (fun _ h => h)

theorem updJob_engKept (j : Nat) (f : Job → Job) (s : State) : EngKept s (updJob s j f) := ⟨rfl, rfl, rfl, rfl⟩

theorem finishJob_engKept (j : Nat) (s : State) : EngKept s (finishJob j s) := by
  simp only [finishJob]
  split
  · exact EngKept.refl s
  · next x _ =>
    have hack : EngKept s (if x.kind = .append then ackJob j s else s) := by
      split
      · exact .of_only (OnlyIn.foldl (fun t (e : Nat × Nat) => ackRec e.1 e.2 t) (fun t e => ackRec_only e.1 e.2 t) _ s) (by decide)
      · exact EngKept.refl s
    refine .after (EngKept.foldl _ (fun t r => formReply_engKept r t) _ _) (.after ?_ hack)
    exact ⟨rfl, rfl, rfl, rfl⟩

theorem issueWrite_only (g cw : Nat) (tail : Bool) (job : Option Nat) (s : State) : OnlyIn [.arr] s (issueWrite g cw tail job s) := by
  intro r hr; cases r <;> simp_all [sameIn, issueWrite]

theorem sealSegment_only (g cause : Nat) (job : Option Nat) (s : State) : OnlyIn [.vtf, .arr, .store] s (sealSegment g cause job s).2 := by
  have hopen (x : State) (l : List (SClass × Nat)) : OnlyIn [.arr] x { x with arr.openShared := l } := by
    intro r hr; cases r <;> simp_all [sameIn]
  unfold sealSegment
  split
  · exact OnlyIn.refl _ _
  · split
    · exact OnlyIn.refl _ _
    · extract_lets v base info s1 arr s2 s3 cws
      have h1 : OnlyIn [.vtf, .arr, .store] s s1 := (issueSeal_only s).trans (updSeg_only _ _ _) (by simp) (by simp)
      have h2 : OnlyIn [.vtf, .arr, .store] s s2 := h1.trans (hopen s1 _) (by simp) (by simp)
      have h3 : OnlyIn [.vtf, .arr, .store] s s3 := by
        dsimp only [s3]
        split
        · exact h2.trans (updStream_only s2 _ _) (by simp) (by simp)
        · exact h2
      exact h3.trans (OnlyIn.foldl (fun t k => issueWrite g k false job t) (fun t k => issueWrite_only g k false job t) cws s3)
        (by simp) (by simp)

theorem sealSegment_engKept (g cause : Nat) (job : Option Nat) (s : State) : EngKept s (sealSegment g cause job s).2 :=
  .of_only (sealSegment_only g cause job s) (by decide)

theorem settleSeals_engKept (s : State) : EngKept s (settleSeals s) := by
  refine EngKept.foldl _ (fun t j => ?_) _ s
  split
  · split
    · exact EngKept.refl t
    · dsimp only
      split
      · split
        · exact .after (finishJob_engKept _ _) (updJob_engKept _ _ _)
        · exact .after (updJob_engKept _ _ _) (sealSegment_engKept _ _ _ t)
      · exact EngKept.refl t
  · exact EngKept.refl t

theorem unloadNow_engKept (j : Job) (num : Nat) (bundle shrink : Bool) (s : State) : EngKept s (unloadNow j num bundle shrink s) := by
  unfold unloadNow
  extract_lets set wadi s1 oas s2
  have h1 : EngKept s s1 := ⟨rfl, rfl, rfl, rfl⟩
  have h2 : EngKept s1 s2 := by
    dsimp only [s2]
    split
    · exact .after (.of_only (recomputeW_only _) (by decide)) ⟨rfl, rfl, rfl, rfl⟩
    · exact EngKept.refl s1
  exact .after (finishJob_engKept j.id s2) (.after h2 h1)

theorem settleUnloads_engKept (s : State) : EngKept s (settleUnloads s) := by
  refine EngKept.foldl _ (fun t j => ?_) _ s
  split
  · split
    · exact unloadNow_engKept _ _ _ _ t
    · exact EngKept.refl t
  · exact EngKept.refl t

theorem releaseWaiting_engKept (s : State) : EngKept s (releaseWaiting s) := .of_only (releaseWaiting_only s) (by decide)

theorem mediaTo_engKept (dst : Media) (cause subj : Nat) (s : State) : EngKept s (mediaTo dst cause subj s) := by
  unfold mediaTo
  extract_lets arr s1 body pay j s2 s3
  have h1 : EngKept s s1 := ⟨rfl, rfl, rfl, rfl⟩
  have h2 : EngKept s1 s2 := by
    dsimp only [s2]
    split
    · exact EngKept.refl s1
    · exact .after (.of_only (writeDev_only _ _ _) (by decide)) ⟨rfl, rfl, rfl, rfl⟩
  have h3 : EngKept s2 s3 := by
    dsimp only [s3]
    split
    · exact .of_only (raiseFault_only _ _ _) (by decide)
    · exact .of_only (raiseFault_only _ _ _) (by decide)
    · exact EngKept.refl s2
  exact .after (.of_only (formMsg_only _ _ s3) (by decide)) (.after h3 (.after h2 h1))

/-- The media state changes, and its counter, with messages, a record and a fault; nothing else of the array or the trust block (R141). -/
theorem mediaTo_parts (dst : Media) (cause subj : Nat) (s : State) :
    (mediaTo dst cause subj s).arr = { s.arr with media := dst } ∧ (mediaTo dst cause subj s).vtf = (bumpCounter 2 s).vtf := by
  have hjob (x : State) (n : Nat) (l : List Reply) (b : Bool) (k : JobKind) : OnlyIn [.eng] x (newJob n l b k x).2 := by
    intro r hr; cases r <;> simp_all [sameIn, newJob]
  unfold mediaTo
  extract_lets arr s1 body pay j s2 s3
  have h2 : OnlyIn [.eng, .store, .oas] s1 s2 := by
    dsimp only [s2]
    split
    · exact OnlyIn.refl _ _
    · exact (hjob s1 _ _ _ _).trans (writeDev_only _ _ _) (by simp) (by simp)
  have h3 : OnlyIn [.flt, .pwr, .link, .oas, .cores, .prev] s2 s3 := by
    dsimp only [s3]
    split
    · exact raiseFault_only _ _ _
    · exact raiseFault_only _ _ _
    · exact OnlyIn.refl _ _
  have h4 : OnlyIn [.link] s3 (mediaMsg s3) := formMsg_only _ _ s3
  exact ⟨(h4 .arr (by decide)).trans ((h3 .arr (by decide)).trans (h2 .arr (by decide))),
    (h4 .vtf (by decide)).trans ((h3 .vtf (by decide)).trans (h2 .vtf (by decide)))⟩

theorem mediaTest_cases (s : State) : mediaTest s = s ∨ ∃ cause, s.arr.media ≠ .sabkha ∧ mediaTest s = mediaTo .sabkha cause noSubj s := by
  simp only [mediaTest]
  split
  · next h =>
    split
    · exact .inr ⟨1, by simp [h], rfl⟩
    · exact .inl rfl
  · next h =>
    split
    · exact .inr ⟨3, by simp [h], rfl⟩
    · exact .inl rfl
  · exact .inl rfl

theorem mediaTest_engKept (s : State) : EngKept s (mediaTest s) := by
  rcases mediaTest_cases s with h | ⟨c, -, h⟩
  · exact h.symm ▸ EngKept.refl s
  · exact h.symm ▸ mediaTo_engKept _ _ _ s

theorem mediaTest_arr (s : State) : ∃ m, (mediaTest s).arr = { s.arr with media := m } := by
  rcases mediaTest_cases s with h | ⟨c, -, h⟩
  · exact ⟨s.arr.media, by rw [h]⟩
  · exact ⟨_, by rw [h, (mediaTo_parts _ _ _ s).1]⟩

theorem mediaTest_sanitize (s : State) : (mediaTest s).vtf.sanitize = s.vtf.sanitize := by
  rcases mediaTest_cases s with h | ⟨c, -, h⟩
  · rw [h]
  · rw [h, (mediaTo_parts _ _ _ s).2]
    rfl

/-! ## Reclaim of one segment -/

/-- The segments and the segment map are the same in two states. -/
structure MapKept (s t : State) : Prop where
  segs : t.arr.segs = s.arr.segs
  map : t.arr.map = s.arr.map

theorem MapKept.refl (s : State) : MapKept s s := ⟨rfl, rfl⟩

theorem MapKept.after (k : MapKept t u) (h : MapKept s t) : MapKept s u := ⟨k.segs.trans h.segs, k.map.trans h.map⟩

theorem MapKept.of_only {l : List Region} (h : OnlyIn l s t) (ha : Region.arr ∉ l) : MapKept s t := by
  have e : t.arr = s.arr := h .arr ha
  exact ⟨by rw [e], by rw [e]⟩

theorem MapKept.foldl {α : Type} (f : State → α → State) (h : ∀ t a, MapKept t (f t a)) (as : List α) (s : State) :
    MapKept s (as.foldl f s) := by
  induction as generalizing s with
  | nil => exact MapKept.refl s
  | cons a as ih => exact .after (ih (f s a)) (h s a)

theorem dropMove_mapKept (m : MoveSt) (s : State) : MapKept s (dropMove m s) := by
  simp only [dropMove]
  split <;> split <;> exact ⟨rfl, rfl⟩

theorem dropMoves_mapKept (g : Nat) (s : State) : MapKept s (dropMoves g s) := by
  unfold dropMoves
  extract_lets s1
  have h1 : MapKept s s1 := by
    refine MapKept.foldl _ (fun t m => ?_) _ s
    split
    · split
      · exact dropMove_mapKept _ t
      · exact MapKept.refl t
    · exact MapKept.refl t
  exact .after (t := s1) ⟨rfl, rfl⟩ h1

theorem mediaTest_mapKept (s : State) : MapKept s (mediaTest s) := by
  obtain ⟨m, hm⟩ := mediaTest_arr s
  exact ⟨by rw [hm], by rw [hm]⟩

theorem pruneKeys_only (sid : Nat) (s : State) : OnlyIn [.store, .vtf] s (pruneKeys sid s) := by
  simp only [pruneKeys]
  split
  · exact OnlyIn.refl _ _
  · split
    · exact OnlyIn.refl _ _
    · exact (updStream_only _ _ _).trans (dropKeys_only _ _) (by simp) (by simp)

/-- A segment unmapped leaves the list of segments and the segment map (R138). -/
theorem unmapSeg_maps (g : Nat) (s : State) : (unmapSeg s g).arr.segs = del g s.arr.segs ∧ (unmapSeg s g).arr.map = del g s.arr.map := by
  have h := dropMoves_mapKept g s
  rw [← h.segs, ← h.map]
  unfold unmapSeg
  extract_lets s1
  split
  · next hnone =>
    have hlook : look g s1.arr.map = none := by
      simp only [mapLook] at hnone
      split at hnone
      · simp at hnone
      · assumption
    exact ⟨rfl, (del_of_look_none hlook).symm⟩
  · exact ⟨rfl, rfl⟩

theorem dropMoves_only (g : Nat) (s : State) : OnlyIn [.arr] s (dropMoves g s) := by
  have hrec (x : State) (a : ArraySt) : OnlyIn [.arr] x { x with arr := a } := by
    intro r hr; cases r <;> simp_all [sameIn]
  have hmove (m : MoveSt) (x : State) : OnlyIn [.arr] x (dropMove m x) := by
    unfold dropMove
    extract_lets s1 s2
    have h1 : OnlyIn [.arr] x s1 := updSlot_only _ _ _
    have h2 : OnlyIn [.arr] x s2 := by
      dsimp only [s2]
      split
      · exact h1.trans (updDie_only _ _ _) (fun _ h => h) (fun _ h => h)
      · exact h1
    split
    · exact h2.trans (hrec s2 _) (fun _ h => h) (fun _ h => h)
    · exact h2
  unfold dropMoves
  extract_lets s1
  refine OnlyIn.trans (t := s1) (l := [.arr]) (OnlyIn.foldl _ (fun t m => ?_) _ s) (hrec s1 _) (fun _ h => h) (fun _ h => h)
  split
  · split
    · exact hmove _ t
    · exact OnlyIn.refl _ _
  · exact OnlyIn.refl _ _

theorem unmapSeg_only (g : Nat) (s : State) : OnlyIn [.arr, .mem, .cache] s (unmapSeg s g) := by
  have h := dropMoves_only g s
  unfold unmapSeg
  extract_lets s1
  refine h.trans (t := s1) (m := [.arr, .mem, .cache]) ?_ (by simp) (by simp)
  split
  all_goals (intro r hr; cases r <;> simp_all [sameIn, updSlot])

/-- The records of segment `g`, of streams `sids`, gone from their streams with the keys that nothing refers to then (R201). -/
def segRecordsGone (g : Nat) (sids : List Nat) (s : State) : State :=
  let t := sids.foldl (fun t sid => pruneKeys sid t) (sids.foldl (fun t sid => updStream t sid (dropSegRecs g)) s)
  { t with arr.openShared := t.arr.openShared.filter fun x => x.2 != g }

theorem freeSeg_of_some (g : Nat) (x : SegSt) (s : State) (hx : segOf s g = some x) :
    freeSeg g s = mediaTest (unmapSeg (segRecordsGone g x.sids s) g) := by
  simp only [freeSeg, hx]
  rfl

theorem segRecordsGone_kept (g : Nat) (sids : List Nat) (s : State) :
    MapKept s (segRecordsGone g sids s) ∧ EngKept s (segRecordsGone g sids s) := by
  have h : OnlyIn [.store, .vtf] s (sids.foldl (fun t sid => pruneKeys sid t) (sids.foldl (fun t sid => updStream t sid (dropSegRecs g)) s)) :=
    (OnlyIn.foldl _ (fun t sid => updStream_only t sid (dropSegRecs g)) sids s).trans
      (OnlyIn.foldl _ (fun t sid => pruneKeys_only sid t) sids _) (by simp) (by simp)
  have hm := MapKept.of_only h (by decide)
  have he := EngKept.of_only h (by decide)
  exact ⟨⟨hm.segs, hm.map⟩, ⟨he.queues, he.trains, he.aborts, he.ctx⟩⟩

/-- A segment given back leaves the list of segments and the segment map. -/
theorem freeSeg_maps (g : Nat) (x : SegSt) (s : State) (hx : segOf s g = some x) :
    (freeSeg g s).arr.segs = del g s.arr.segs ∧ (freeSeg g s).arr.map = del g s.arr.map := by
  obtain ⟨hgone, -⟩ := segRecordsGone_kept g x.sids s
  obtain ⟨hsegs, hmap⟩ := unmapSeg_maps g (segRecordsGone g x.sids s)
  have htest := mediaTest_mapKept (unmapSeg (segRecordsGone g x.sids s) g)
  rw [freeSeg_of_some g x s hx]
  exact ⟨htest.segs.trans (hsegs.trans (by rw [hgone.segs])), htest.map.trans (hmap.trans (by rw [hgone.map]))⟩

theorem freeSeg_engKept (g : Nat) (s : State) : EngKept s (freeSeg g s) := by
  cases hx : segOf s g with
  | none => simp only [freeSeg, hx]; exact EngKept.refl s
  | some x =>
    rw [freeSeg_of_some g x s hx]
    exact .after (mediaTest_engKept _) (.after (.of_only (unmapSeg_only g _) (by decide)) (segRecordsGone_kept g x.sids s).2)

/-! ## A train aborted -/

theorem lowerSeals_engKept (sid last : Nat) (s : State) : EngKept s (lowerSeals sid last s) := ⟨rfl, rfl, rfl, rfl⟩

/-- A train taken back is gone, and the answering of late members is as it was (R66). -/
theorem unwindTrain_eng (tr : Train) (s : State) : (unwindTrain tr s).eng.trains = s.eng.trains.filter (fun x => x.tid != tr.tid)
    ∧ (unwindTrain tr s).eng.aborts = s.eng.aborts := by
  unfold unwindTrain
  extract_lets s1 store eng wadi s2
  have h1 : EngKept s s1 := .of_only (OnlyIn.foldl _ (fun t b => updStream_only t _ _) tr.back s) (by decide)
  have h := EngKept.after (EngKept.foldl (fun u (b : Nat × Nat × List Byte) => lowerSeals b.1 (b.2.1 - 1) u)
    (fun u b => lowerSeals_engKept _ _ u) tr.back _) (returnCredits_engKept (tr.members.map (·.credits)).sum s2)
  exact ⟨h.trains.trans (congrArg (List.filter _) h1.trains), h.aborts.trans h1.aborts⟩

theorem abortTrain_eng (tr : Train) (cause : Nat) (sts : Status) (index : Nat) (s : State) :
    (abortTrain tr cause sts index true s).eng.trains = s.eng.trains.filter (fun x => x.tid != tr.tid)
    ∧ (tr.qid, { cause := cause, sts := sts, index := index, untilAt := s.tick + 50000 }) ∈
      (abortTrain tr cause sts index true s).eng.aborts := by
  unfold abortTrain
  extract_lets res keep eng s1
  obtain ⟨htrains, haborts⟩ : s1.eng.trains = s.eng.trains.filter (fun x => x.tid != tr.tid)
      ∧ s1.eng.aborts = keep ++ [(tr.qid, { cause := cause, sts := sts, index := index, untilAt := s.tick + 50000 })] :=
    unwindTrain_eng tr _
  have h := EngKept.after (settleUnloads_engKept _) (.after (settleSeals_engKept _) (.after (releaseWaiting_engKept _)
    (EngKept.foldl (fun u (m : TrainMember) => formReply { m.rep with sts := sts, res := BitVec.ofNat 32 res, data := [] } u)
      (fun u m => formReply_engKept _ u) tr.members s1)))
  refine ⟨h.trains.trans htrains, ?_⟩
  rw [h.aborts]
  exact haborts ▸ List.mem_append_right _ (List.mem_singleton.2 rfl)

end Sys2Proof.Machine
end

section
/-! SUPPORT. Waits that run out, the arbiter, expired segments and the merge of a held half; and the statement on what waits in the engine. -/
namespace Sys2Proof.Machine
open Sys2Proof

variable {s t u : State}

/-! ## One element of a list acts -/

theorem foldl_fixed {α β : Type} (f : β → α → β) (l : List α) (b : β) (h : ∀ a ∈ l, f b a = b) : l.foldl f b = b := by
  induction l with
  | nil => rfl
  | cons a l ih => rw [List.foldl_cons, h a List.mem_cons_self, ih fun x hx => h x (List.mem_cons_of_mem _ hx)]

/-- A fold in which one element acts, and no other before or after it. -/
theorem foldl_of_single {α β : Type} (f : β → α → β) (l : List α) (a : α) (b c : β) (hn : l.Nodup) (ha : a ∈ l) (hf : f b a = c)
    (h1 : ∀ x ∈ l, x ≠ a → f b x = b) (h2 : ∀ x ∈ l, x ≠ a → f c x = c) : l.foldl f b = c := by
  obtain ⟨l1, l2, rfl⟩ := List.append_of_mem ha
  have hne (x : α) (hx : x ∈ l1 ∨ x ∈ l2) : x ≠ a := by
    rintro rfl
    simp only [List.nodup_append, List.nodup_cons, List.mem_cons] at hn
    rcases hx with hx | hx
    · exact hn.2.2 x hx x (.inl rfl) rfl
    · exact hn.2.1.1 hx
  rw [List.foldl_append, List.foldl_cons, foldl_fixed f l1 b (fun x hx => h1 x (by simp [hx]) (hne x (.inl hx))), hf,
    foldl_fixed f l2 c fun x hx => h2 x (by simp [hx]) (hne x (.inr hx))]

/-! ## Credit waits (R88) -/

theorem expireCredit_empty (q : Nat) (h : queueOf s q = []) : expireCredit q s = s := by
  simp only [expireCredit, h]

theorem headLeft_empty (q : Nat) (h : queueOf s q = []) : headLeft q s = s := by
  simp only [headLeft, h, List.length_nil, newHead]

theorem queueOf_dropHead (q k : Nat) (p : QPkt) (s : State) (hq : q < 64) :
    queueOf (dropHead q p s) k = if q = k then (queueOf s q).tail else queueOf s k := by
  split
  · next h => subst h; exact vAt_vSet_same _ _ _ hq
  · next h => exact vAt_vSet_other _ _ _ _ h

theorem queueOf_formReply (r : Reply) (s : State) (k : Nat) : queueOf (formReply r s) k = queueOf s k :=
  congrArg (vAt · k) (formReply_engKept r s).queues

/-- An append outside a train whose credit wait has run out is answered, and leaves its queue empty. -/
theorem expireCredit_due (q t0 : Nat) (p : QPkt) (hq : q < 64) (hp : queueOf s q = [p]) (hopc : p.pkt.opc = 0x0023)
    (hchain : fChain p.pkt = false) (hwait : p.waitFrom = some t0) (hcause : p.cause = 1 ∨ p.cause = 3) (hc : s.oas.cwait ≠ 0)
    (hdue : t0 + s.oas.cwait * 1000 ≤ s.tick) :
    expireCredit q s = dropHead q p (formReply (ctxReply (ctxOf p) .noCred 0 []) s) := by
  have hempty : queueOf (dropHead q p (formReply (ctxReply (ctxOf p) .noCred 0 []) s)) q = [] := by
    rw [queueOf_dropHead _ _ _ _ hq, if_pos rfl, queueOf_formReply, hp, List.tail_cons]
  have hcond : s.oas.cwait ≠ 0 ∧ t0 + s.oas.cwait * 1000 ≤ s.tick ∧ p.pkt.opc = 0x0023 ∧ (p.cause = 1 ∨ p.cause = 3) :=
    ⟨hc, hdue, hopc, hcause⟩
  simp only [expireCredit, hp, hwait, if_pos hcond, hchain, Bool.false_eq_true, if_false]
  exact headLeft_empty q hempty

theorem exec_creditWaitExpiry_single (q t0 : Nat) (p : QPkt) (hq : q < 64) (hal : alive s = true) (hp : queueOf s q = [p])
    (hother : ∀ k, k ≠ q → queueOf s k = []) (hopc : p.pkt.opc = 0x0023)
    (hchain : fChain p.pkt = false) (hwait : p.waitFrom = some t0) (hcause : p.cause = 1 ∨ p.cause = 3) (hc : s.oas.cwait ≠ 0)
    (hdue : t0 + s.oas.cwait * 1000 ≤ s.tick) :
    exec .creditWaitExpiry s = .next (dropHead q p (formReply (ctxReply (ctxOf p) .noCred 0 []) s)) := by
  refine (whenDue_of s _ hal).trans (congrArg _ ?_)
  refine foldl_of_single _ _ q s _ List.nodup_range (List.mem_range.2 hq)
    (expireCredit_due q t0 p hq hp hopc hchain hwait hcause hc hdue) (fun k _ hk => expireCredit_empty k (hother k hk)) fun k _ hk => ?_
  refine expireCredit_empty k ?_
  rw [queueOf_dropHead _ _ _ _ hq, if_neg (Ne.symm hk), queueOf_formReply]
  exact hother k hk

/-! ## The arbiter (R251, R252) -/

/-- Whether the head of a queue is urgent. -/
def headUrgent (s : State) (k : Nat) : Bool := match queueOf s k with | y :: _ => fUrg y.pkt | [] => false

theorem arbOrder_eq (s : State) : arbOrder s =
    (((List.range 64).map fun i => (s.eng.rrUrg + 1 + i) % 64).filter fun q => !(queueOf s q).isEmpty && headUrgent s q)
      ++ (((List.range 64).map fun i => (s.eng.rrNorm + 1 + i) % 64).filter fun q => !(queueOf s q).isEmpty && !headUrgent s q) := rfl

theorem mem_roundRobin (n k : Nat) (hk : k < 64) : k ∈ (List.range 64).map fun i => (n + 1 + i) % 64 :=
  List.mem_map.2 ⟨(k + 64 - (n + 1) % 64) % 64, List.mem_range.2 (by omega), by omega⟩

/-- Where some head is urgent, the first queue in the order of arbitration has an urgent head. -/
theorem arbOrder_urgent (q : Nat) (rest : List Nat) (h : arbOrder s = q :: rest) (k : Nat) (hk : k < 64) (hu : headUrgent s k = true) :
    headUrgent s q = true := by
  have hne : (queueOf s k).isEmpty = false := by
    cases hq : queueOf s k with
    | nil => simp [headUrgent, hq] at hu
    | cons => rfl
  have hmem : k ∈ ((List.range 64).map fun i => (s.eng.rrUrg + 1 + i) % 64).filter fun q => !(queueOf s q).isEmpty && headUrgent s q :=
    List.mem_filter.2 ⟨mem_roundRobin _ k hk, by simp [hne, hu]⟩
  obtain ⟨a, l, hl⟩ := List.exists_cons_of_ne_nil (List.ne_nil_of_mem hmem)
  rw [arbOrder_eq, hl, List.cons_append] at h
  have ha : a ∈ ((List.range 64).map fun i => (s.eng.rrUrg + 1 + i) % 64).filter fun q => !(queueOf s q).isEmpty && headUrgent s q :=
    hl ▸ List.mem_cons_self
  have := (List.mem_filter.1 ha).2
  rw [(List.cons.inj h).1] at this
  simp only [Bool.and_eq_true] at this
  exact this.2

theorem grant_cons_of_admitted (q : Nat) (rest : List Nat) (v : State) (h : admitHead q s = (true, v)) :
    grant (q :: rest) s = (true, served q (headUrgent s q) (headLeft q v)) := by
  simp only [grant, h]
  rfl

/-- One grant of the arbiter serves the first queue in its order. -/
theorem exec_queueHeadAdmit_first (q : Nat) (rest : List Nat) (v : State) (hon : engineOn s = true) (hoff : s.pwr.pstate ≠ .off)
    (h : arbOrder s = q :: rest) (hv : admitHead q s = (true, v)) :
    exec .queueHeadAdmit s = .next (settleEntry (served q (headUrgent s q) (headLeft q v))) := by
  refine (whenDue_of s _ (by simp [hon, hoff])).trans ?_
  rw [h, grant_cons_of_admitted q rest v hv]

/-! ## Expired segments (R54) -/

/-- The segment that a reclaim begins with is one of those listed. -/
theorem expiredPick_mem {g : Nat} {x : SegSt} (h : expiredPick s = some (g, x)) : (g, x) ∈ s.arr.segs := by
  have key : ∀ (l : List (Nat × SegSt)) (b : Option (Nat × SegSt)), l.foldl
      (fun b e => match b with | none => some e | some y => if e.2.openTs < y.2.openTs then some e else some y) b = some (g, x) →
      (g, x) ∈ l ∨ b = some (g, x) := by
    intro l
    induction l with
    | nil => exact fun b hb => .inr hb
    | cons e l ih =>
      intro b hb
      rcases ih _ hb with h | h
      · exact .inl (List.mem_cons_of_mem _ h)
      · cases b with
        | none => exact .inl (by simp_all)
        | some y =>
          dsimp only at h
          split at h
          · exact .inl (by simp_all)
          · exact .inr h
  rcases key _ none h with h | h
  · exact List.mem_of_mem_filter h
  · simp at h

theorem look_ne_none_of_mem {α : Type} {k : Nat} {a : α} {m : List (Nat × α)} (h : (k, a) ∈ m) : look k m ≠ none := by
  induction m with
  | nil => simp at h
  | cons e m ih =>
    obtain ⟨j, b⟩ := e
    simp only [look]
    split
    · simp
    · next hj =>
      refine ih ((List.mem_cons.1 h).resolve_left fun he => hj ?_)
      exact (congrArg Prod.fst he).symm

/-- The first step of a reclaim of a segment with one stream: its first retained number passes the segment, which is marked (R54). -/
theorem expireSeg_single (g sid : Nat) (x : SegSt) (st : Stream) (hx : segOf s g ≠ none) (hsid : x.sids = [sid])
    (hst : streamOf s sid = some st) : ∃ v z, streamOf (expireSeg g x s) sid = some v ∧ v.first = firstAfter st g
      ∧ segOf (expireSeg g x s) g = some z ∧ z.expiring = true ∧ (expireSeg g x s).arr.map = s.arr.map := by
  let s1 := updSeg s g fun y => { y with expiring := true }
  let s2 := updStream s1 sid fun y => { y with first := firstAfter st g }
  have hst1 : streamOf s1 sid = some st := by
    have e : s1.store = s.store := updSeg_only _ _ _ .store (by decide)
    simpa only [streamOf, e] using hst
  have heq : expireSeg g x s = trimRec sid (firstAfter st g) 3 none s2 := by
    simp only [expireSeg, hsid, List.foldl_cons, List.foldl_nil]
    show (match streamOf s1 sid with | none => s1 | some st => trimRec sid (firstAfter st g) 3 none (updStream s1 sid _)) = _
    rw [hst1]
  have hst2 : streamOf s2 sid = some { st with first := firstAfter st g } := by
    rw [streamOf_updStream_same, hst1, Option.map_some]
  obtain ⟨v, hv, hruns⟩ := (writeDev_runs (F := fun _ => False) (W := False) _ _ s2).streams sid _ hst2
  obtain ⟨y, hy⟩ := Option.ne_none_iff_exists'.1 hx
  have harr : (expireSeg g x s).arr = s1.arr := by
    rw [heq]
    exact (writeDev_only _ _ s2 .arr (by decide)).trans (updStream_only s1 sid _ .arr (by decide))
  refine ⟨v, { y with expiring := true }, heq ▸ hv, hruns.first, ?_, rfl, ?_⟩
  · simp only [segOf, harr]
    exact (segOf_updSeg_same s g _).trans (by rw [hy, Option.map_some])
  · rw [harr]
    simp only [s1, updSeg]
    split <;> rfl

theorem exec_timedExpiryReclaim_first (g : Nat) (x : SegSt) (hal : alive s = true) (hm : s.store.mounted = true)
    (hnone : ∀ e ∈ s.arr.segs, e.2.expiring = false) (hpick : expiredPick s = some (g, x)) :
    exec .timedExpiryReclaim s = .next (expireSeg g x s) := by
  have hfind : (s.arr.segs.find? fun e => e.2.expiring && !trimPending s e.2.sids) = none :=
    List.find?_eq_none.2 fun e he => by simp [hnone e he]
  show execTimedExpiryReclaim s = _
  simp [execTimedExpiryReclaim, hal, hm, hfind, hpick]

theorem exec_timedExpiryReclaim_second (g : Nat) (x : SegSt) (rest : List (Nat × SegSt)) (hal : alive s = true)
    (hm : s.store.mounted = true) (hsegs : s.arr.segs = (g, x) :: rest) (hx : x.expiring = true) (hpend : trimPending s x.sids = false) :
    exec .timedExpiryReclaim s = .next (freeSeg g s) := by
  have hfind : (s.arr.segs.find? fun e => e.2.expiring && !trimPending s e.2.sids) = some (g, x) := by
    rw [hsegs]
    simp [hx, hpend]
  show execTimedExpiryReclaim s = _
  simp [execTimedExpiryReclaim, hal, hm, hfind]

/-! ## The merge of a half (R72, R74) -/

/-- The streams and, of each half, the unmerged records, the hold and the count of dropped records are the same in two states. -/
structure HalvesKept (s t : State) : Prop where
  streams : t.store.streams = s.store.streams
  recs : ∀ k, (vAt t.store.halves k).recs = (vAt s.store.halves k).recs
  held : ∀ k, (vAt t.store.halves k).held = (vAt s.store.halves k).held
  dropped : ∀ k, (vAt t.store.halves k).dropped = (vAt s.store.halves k).dropped

theorem HalvesKept.refl (s : State) : HalvesKept s s := ⟨rfl, fun _ => rfl, fun _ => rfl, fun _ => rfl⟩

theorem HalvesKept.after (k : HalvesKept t u) (h : HalvesKept s t) : HalvesKept s u :=
  ⟨k.streams.trans h.streams, fun i => (k.recs i).trans (h.recs i), fun i => (k.held i).trans (h.held i),
    fun i => (k.dropped i).trans (h.dropped i)⟩

theorem HalvesKept.of_store (h : t.store = s.store) : HalvesKept s t := by
  refine ⟨?_, fun k => ?_, fun k => ?_, fun k => ?_⟩ <;> rw [h]

/-- A value read of every element is what it was where the changed element keeps it. -/
theorem vAt_vUpd_proj {α β : Type} [Inhabited α] {n : Nat} (P : α → β) (v : Vector α n) (i j : Nat) (f : α → α)
    (h : ∀ a, P (f a) = P a) : P (vAt (vUpd v i f) j) = P (vAt v j) := by
  by_cases hij : i = j
  · subst hij
    by_cases hi : i < n
    · rw [vAt_vUpd_same v i f hi, h]
    · have : vUpd v i f = v := by simp [vUpd, vSet, Vector.setIfInBounds_eq_of_size_le, Nat.le_of_not_lt hi]
      rw [this]
  · rw [vAt_vUpd_other v i j f hij]

theorem HalvesKept.of_upd (h : Nat) (g : Half → Half) (s : State) (hrecs : ∀ x, (g x).recs = x.recs) (hheld : ∀ x, (g x).held = x.held)
    (hdrop : ∀ x, (g x).dropped = x.dropped) : HalvesKept s { s with store.halves := vUpd s.store.halves h g } :=
  ⟨rfl, fun k => vAt_vUpd_proj Half.recs _ h k g hrecs, fun k => vAt_vUpd_proj Half.held _ h k g hheld,
    fun k => vAt_vUpd_proj Half.dropped _ h k g hdrop⟩

theorem sealEarly_halvesKept (h cause : Nat) (s : State) : HalvesKept s (sealEarly h cause s) := by
  simp only [sealEarly]
  split
  · exact HalvesKept.refl s
  · split
    · exact HalvesKept.refl s
    · exact .after (.of_upd h _ _ (fun _ => rfl) (fun _ => rfl) fun _ => rfl) (.of_store (issueSeal_only s .store (by decide)))

/-- A merge drops every record of a stream that is gone (R74). -/
theorem mergeRecs_gone (f : State → State) (h : Nat) (hh : h < 2) (l : List EarlyRec) (kept : List Nat) (s : State)
    (hl : ∀ e ∈ l, streamOf s e.sid = none ∧ e.merging = none) :
    (∀ e ∈ (vAt (mergeRecs f h kept l s).store.halves h).recs, e ∈ (vAt s.store.halves h).recs ∧ ∀ x ∈ l, e.index ≠ x.index)
    ∧ (vAt (mergeRecs f h kept l s).store.halves h).dropped = (vAt s.store.halves h).dropped + l.length
    ∧ ∀ k, k ≠ h → vAt (mergeRecs f h kept l s).store.halves k = vAt s.store.halves k := by
  induction l generalizing s with
  | nil => simp [mergeRecs]
  | cons e l ih =>
    obtain ⟨hst, hmerging⟩ := hl e List.mem_cons_self
    let drop : Half → Half := fun x => { x with dropped := x.dropped + 1, recs := x.recs.filter fun y => y.index != e.index }
    let s1 : State := { s with store.halves := vUpd s.store.halves h drop }
    have hstep : mergeRecs f h kept (e :: l) s = mergeRecs f h kept l s1 := by
      simp only [mergeRecs, hmerging, mergeOne, hst]
      rfl
    have hat : vAt s1.store.halves h = drop (vAt s.store.halves h) := vAt_vUpd_same _ _ _ hh
    obtain ⟨hrecs, hdrop, hother⟩ := ih s1 fun x hx => hl x (List.mem_cons_of_mem _ hx)
    rw [hstep]
    refine ⟨fun x hx => ?_, ?_, fun k hk => (hother k hk).trans (vAt_vUpd_other _ _ _ _ (Ne.symm hk))⟩
    · obtain ⟨hmem, hne⟩ := hrecs x hx
      rw [hat] at hmem
      obtain ⟨hmem, hidx⟩ := List.mem_filter.1 hmem
      refine ⟨hmem, fun y hy => ?_⟩
      rcases List.mem_cons.1 hy with rfl | hy
      · simpa using hidx
      · exact hne y hy
    · rw [hdrop, hat, List.length_cons]
      show _ + 1 + _ = _
      omega

theorem addRec_halves (sid : Nat) (r : Rec) (s : State) : (addRec sid r s).store.halves = s.store.halves := by
  simp only [addRec]
  split <;> rfl

theorem writeDev_halves (payload : List Byte) (job : Option Nat) (s : State) : (writeDev payload job s).store.halves = s.store.halves := by
  simp only [writeDev]
  split
  · rfl
  · split
    · exact addRec_halves _ _ s
    · rfl

/-- A half of which a merge has left no record is free again (R72). -/
theorem finishHalf_free (h : Nat) (hh : h < 2) (s : State) (hrecs : (vAt s.store.halves h).recs = [])
    (hdrop : 0 < (vAt s.store.halves h).dropped) : (vAt (finishHalf h s).store.halves h).recs = []
      ∧ (vAt (finishHalf h s).store.halves h).held = false
      ∧ ∀ k, k ≠ h → vAt (finishHalf h s).store.halves k = vAt s.store.halves k := by
  have hcond : ((vAt s.store.halves h).recs.isEmpty
      && decide ((vAt s.store.halves h).merged + (vAt s.store.halves h).dropped ≠ 0)) = true := by
    simp only [hrecs, List.isEmpty_nil, Bool.true_and, decide_eq_true_eq]
    omega
  simp only [finishHalf, hcond, if_true, writeDev_halves]
  refine ⟨?_, ?_, fun k hk => vAt_vSet_other _ _ _ _ (Ne.symm hk)⟩
  · rw [vAt_vSet_same _ _ _ hh]; rfl
  · rw [vAt_vSet_same _ _ _ hh]; rfl

/-- A half whose every record is of a stream that is gone is free after its merge, and the other half is as it was held. -/
theorem mergeHalf_gone (h : Nat) (hh : h < 2) (s : State) (hne : (vAt s.store.halves h).recs ≠ [])
    (hgone : ∀ e ∈ (vAt s.store.halves h).recs, streamOf s e.sid = none ∧ e.merging = none) :
    (vAt (mergeHalf id h s).store.halves h).recs = [] ∧ (vAt (mergeHalf id h s).store.halves h).held = false
    ∧ ∀ k, k ≠ h → (vAt (mergeHalf id h s).store.halves k).held = (vAt s.store.halves k).held := by
  unfold mergeHalf
  extract_lets x t st s1 st1 s2 y
  rw [if_neg (by simp [x, hne])]
  have h1 : HalvesKept s s1 := by
    dsimp only [s1]
    split
    · exact .after (.of_upd h _ _ (fun _ => rfl) (fun _ => rfl) fun _ => rfl) (sealEarly_halvesKept h 5 s)
    · exact HalvesKept.refl s
  let u : State := { s1 with store.halves := vUpd s1.store.halves h fun y => { y with ringWait := false } }
  have h1' : HalvesKept s u := .after (.of_upd h _ s1 (fun _ => rfl) (fun _ => rfl) fun _ => rfl) h1
  obtain ⟨hrecs, hdrop, hother⟩ := mergeRecs_gone id h hh x.recs [] u fun e he => by
    have hst := hgone e he
    exact ⟨by simpa only [streamOf, h1'.streams] using hst.1, hst.2⟩
  have hnil : (vAt s2.store.halves h).recs = [] := List.eq_nil_iff_forall_not_mem.2 fun e he => by
    obtain ⟨hmem, hidx⟩ := hrecs e he
    rw [h1'.recs h] at hmem
    exact hidx e hmem rfl
  have hpos : 0 < (vAt s2.store.halves h).dropped := by
    have hlen : 0 < x.recs.length := List.length_pos_iff.2 hne
    have : (vAt s2.store.halves h).dropped = _ := hdrop
    omega
  have hempty : y.recs.isEmpty = true := by simp only [y, hnil, List.isEmpty_nil]
  rw [if_pos hempty]
  obtain ⟨hr, hheld, hrest⟩ := finishHalf_free h hh s2 hnil hpos
  exact ⟨hr, hheld, fun k hk => (congrArg Half.held ((hrest k hk).trans (hother k hk))).trans (h1'.held k)⟩

theorem mem_halvesByAge (s : State) (k : Nat) : k ∈ halvesByAge s ↔ k < 2 := by
  simp only [halvesByAge]
  split <;> simp only [List.mem_cons, List.not_mem_nil, or_false] <;> omega

theorem halvesByAge_nodup (s : State) : (halvesByAge s).Nodup := by
  simp only [halvesByAge]
  split <;> decide

theorem mem_toList_of_lt {α : Type} [Inhabited α] {n : Nat} (v : Vector α n) (i : Nat) (h : i < n) : vAt v i ∈ v.toList := by
  simp [vAt, h]

/-- A retry of the merge of the one held half, whose every record is of a stream that is gone, frees it. -/
theorem exec_earlyMergeRetry_gone (h : Nat) (hh : h < 2) (hal : alive s = true) (hm : s.store.mounted = true)
    (hheld : (vAt s.store.halves h).held = true) (hother : (vAt s.store.halves (1 - h)).held = false)
    (hne : (vAt s.store.halves h).recs ≠ [])
    (hgone : ∀ e ∈ (vAt s.store.halves h).recs, streamOf s e.sid = none ∧ e.merging = none)
    (hslot : ∃ d, d < 8 ∧ 0 < dieAvail s d .playa) :
    ∃ t, exec .earlyMergeRetry s = .next t ∧ (vAt t.store.halves h).recs = [] ∧ (vAt t.store.halves h).held = false := by
  have hdue : (alive s && s.store.mounted && (s.store.halves.toList.any fun h => h.held)
      && ((s.store.halves.toList.any fun h => h.ringWait) || (List.range 8).any fun d => decide (0 < dieAvail s d .playa))) = true := by
    have hany : (s.store.halves.toList.any fun h => h.held) = true := List.any_eq_true.2 ⟨_, mem_toList_of_lt _ h hh, hheld⟩
    have hdie : ((List.range 8).any fun d => decide (0 < dieAvail s d .playa)) = true := by
      obtain ⟨d, hd, hpos⟩ := hslot
      exact List.any_eq_true.2 ⟨d, List.mem_range.2 hd, decide_eq_true hpos⟩
    rw [hal, hm, hany, hdie, Bool.or_true, Bool.and_self, Bool.and_self, Bool.and_self]
  obtain ⟨hrecs, hfree, hrest⟩ := mergeHalf_gone h hh s hne hgone
  have hone (k : Nat) (hk : k ∈ halvesByAge s) (hkh : k ≠ h) : (vAt s.store.halves k).held = false := by
    have hk2 := (mem_halvesByAge s k).1 hk
    obtain rfl : k = 1 - h := by omega
    exact hother
  have hfold : (halvesByAge s).foldl (fun t h => if (vAt t.store.halves h).held then mergeHalf id h t else t) s = mergeHalf id h s := by
    refine foldl_of_single _ _ h s _ (halvesByAge_nodup s) ((mem_halvesByAge s h).2 hh) (if_pos hheld) (fun k hk hkh => ?_) (fun k hk hkh => ?_)
    · exact if_neg (ne_true_of_eq_false (hone k hk hkh))
    · exact if_neg (ne_true_of_eq_false ((hrest k hkh).trans (hone k hk hkh)))
  exact ⟨_, (whenDue_of s _ hdue).trans (congrArg _ hfold), hrecs, hfree⟩

/-! ## Trains, deletions and an overwrite -/

theorem exec_caravanInactivityTimeout_single (v : Train) (hal : alive s = true) (ht : s.eng.trains = [v]) (hopen : v.st = .opened)
    (hp : trainPaused s v = false) (hlate : v.lastAt + 50000 < s.tick) :
    exec .caravanInactivityTimeout s = .next (abortTrain v 5 .badParam v.members.length true s) := by
  refine (whenDue_of s _ hal).trans ?_
  simp [ht, hopen, hp, hlate]

theorem exec_streamDeletionComplete_first (sid : Nat) (st : Stream) (rest : List (Nat × Stream)) (hs : s.store.streams = (sid, st) :: rest)
    (hst : st.st = .deleting) (hjobs : ∀ j ∈ s.eng.jobs, j.kind ≠ .deleteJob sid) (hstage : ∀ e ∈ s.store.staging, e.1 ≠ sid) :
    exec .streamDeletionComplete s = .next (deletionDone sid st s) := by
  have hready : deletionReady s sid st = true := by
    simp only [deletionReady, hst, decide_true, Bool.true_and, Bool.and_eq_true, Bool.not_eq_true', List.any_eq_false, decide_eq_true_eq,
      beq_iff_eq]
    exact ⟨hjobs, hstage⟩
  show execStreamDeletionComplete s = _
  simp [execStreamDeletionComplete, hs, hready]

theorem markDead_runs (F : Nat → Prop) (W : Prop) (g sid : Nat) (s : State) :
    Runs F W s (updSeg s g fun x => { x with dead := if x.dead.contains sid then x.dead else x.dead ++ [sid] }) :=
  updSeg_runs g _ s fun _ _ => ⟨rfl, rfl, fun _ h => h⟩

/-- A stream whose deletion has ended is absent, and has no context (R60). -/
theorem deletionDone_absent (sid : Nat) (st : Stream) (s : State) (h : SoleKey sid s.store.streams) :
    streamOf (deletionDone sid st s) sid = none ∧ ∀ e ∈ (deletionDone sid st s).eng.ctx, e.sid ≠ sid := by
  unfold deletionDone
  extract_lets s1 store eng s2
  have h1 : Runs (fun _ => True) True s s1 := by
    dsimp only [s1]
    split
    · exact Runs.foldl _ _ (fun t g _ => .after (sealSegment_runs _ _ _ _) (markDead_runs _ _ g sid t)) s
    · exact Runs.foldl _ _ (fun t g _ => freeSeg_runs g t trivial) s
  have h2 : streamOf s2 sid = none := (h1.sole sid h).look_del
  have hctx : ∀ e ∈ s2.eng.ctx, e.sid ≠ sid := fun e he => by simpa using (List.mem_filter.1 he).2
  split
  · have hruns : Runs (fun _ => True) True s2 ((st.segs.filter fun g => segDead s2 g).foldl (fun t g => freeSeg g t) s2) :=
      Runs.foldl _ _ (fun t g _ => freeSeg_runs g t trivial) s2
    have hkept := EngKept.foldl (fun t g => freeSeg g t) (fun t g => freeSeg_engKept g t) (st.segs.filter fun g => segDead s2 g) s2
    exact ⟨hruns.absent sid h2, by rw [hkept.ctx]; exact hctx⟩
  · exact ⟨h2, hctx⟩

/-- The slots of which an overwrite waited are free of the mark. -/
theorem exec_sanitizeOverwriteComplete_due (hal : alive s = true) (hs : s.vtf.sanitize.isSome = true) :
    ∃ t, exec .sanitizeOverwriteComplete s = .next t ∧ t.vtf.sanitize = none
      ∧ (∀ e ∈ t.arr.slots, e.2.zeroing = false) ∧ (s.arr.media = .sabkha → OnlyIn [.vtf, .arr] s t) := by
  let u : State := { s with
    vtf.sanitize := none
    arr.slots := s.arr.slots.map fun e =>
      if e.2.zeroing then (e.1, { e.2 with zeroing := false, prog := e.2.prog + 1 }) else e }
  have hexec : exec .sanitizeOverwriteComplete s = .next (mediaTest u) := whenDue_of s _ (by rw [hal, hs]; rfl)
  refine ⟨_, hexec, ?_, fun e he => ?_, fun hmedia => ?_⟩
  · exact mediaTest_sanitize u
  · obtain ⟨m, hm⟩ := mediaTest_arr u
    rw [hm] at he
    obtain ⟨x, -, rfl⟩ := List.mem_map.1 he
    split
    · rfl
    · next hz => simpa using hz
  · have hsame : mediaTest u = u := by simp only [mediaTest, u, hmedia]
    rw [hsame]
    intro r hr; cases r <;> simp_all [sameIn, u]

/-- Settles O38: each row acts on the one wait, segment, half, train or stream that is due, and what follows it leaves that as it is. -/
theorem waitsExpiriesAndReclaims : Obligations.WaitsExpiriesAndReclaims := by
  intro s q p t0 sid g st x urgent
  refine ⟨?credit, ?arbiter, ?expire, ?reclaim, ?merge, ?inactive, ?answers, ?deletion,
    fun hal hs => exec_sanitizeOverwriteComplete_due hal hs⟩
  case credit =>
    intro hal hp hother hopc hchain hwait hcause hc hdue
    exact exec_creditWaitExpiry_single q.val t0 p q.isLt hal hp hother hopc hchain hwait hcause hc hdue
  case arbiter =>
    intro hon hoff rest v h
    exact ⟨fun ⟨k, hk, hu⟩ => arbOrder_urgent q.val rest h k hk hu, fun hv => exec_queueHeadAdmit_first q.val rest v hon hoff h hv⟩
  case expire =>
    intro hal hm hnone hpick hsid hst
    have hx : segOf s g ≠ none := look_ne_none_of_mem (expiredPick_mem hpick)
    obtain ⟨v, z, hall⟩ := expireSeg_single g sid x st hx hsid hst
    exact ⟨_, v, z, exec_timedExpiryReclaim_first g x hal hm hnone hpick, hall⟩
  case reclaim =>
    intro hal hm rest hsegs hx hpend
    have hseg : segOf s g = some x := by simp [segOf, hsegs, look]
    obtain ⟨h1, h2⟩ := freeSeg_maps g x s hseg
    exact ⟨_, exec_timedExpiryReclaim_second g x rest hal hm hsegs hx hpend, h1.trans (by simp [hsegs, del]), h2⟩
  case merge =>
    intro hal hm h hheld hother hne hgone hslot
    exact exec_earlyMergeRetry_gone h.val h.isLt hal hm hheld hother hne hgone hslot
  case inactive =>
    intro v hal ht hopen hp hlate
    obtain ⟨htrains, haborts⟩ := abortTrain_eng v 5 .badParam v.members.length s
    exact ⟨_, exec_caravanInactivityTimeout_single v hal ht hopen hp hlate, htrains.trans (by simp [ht]), haborts⟩
  case answers =>
    refine ⟨_, rfl, fun e => by simp, fun r hr => ?_⟩
    cases r <;> simp_all [sameIn]
  case deletion =>
    intro rest hs hrest hst hjobs hstage
    obtain ⟨habsent, hctx⟩ := deletionDone_absent sid st s (hs ▸ .inl ⟨rfl, hrest⟩)
    exact ⟨_, exec_streamDeletionComplete_first sid st rest hs hst hjobs hstage, habsent, hctx⟩

end Sys2Proof.Machine
end

section
/-! SUPPORT. A command packet that arrives alone and passes its checks is dispatched, and leaves its queue with what its command answers. -/
namespace Sys2Proof.Machine
open Sys2Proof

variable {s t u s2 : State} {opc : BitVec 16} {x : CmdIn} {c : Ctx}

/-! ## The checks passed (R247) -/

theorem checkLate_passed {c' : Ctx} (h : checkLate c s = .passed c' t) : c' = c ∧ t = s := by
  simp only [checkLate] at h
  repeat' split at h
  all_goals simp_all

/-- A packet that passed is the command's, touches the sessions alone, and the session of its keys is open. -/
structure PassedAs (p : Packet) (c : Ctx) (s t : State) : Prop where
  pkt : c.pkt = p
  only : OnlyIn [.vtf] s t
  session : c.keys = [] ∨ (t.vtf.sessions.any fun x => x.ses == p.ses.toNat && x.keys == c.keys) = true

theorem PassedAs.of_late {p : Packet} {c0 : Ctx} (h : checkLate c0 u = .passed c t) (hp : c0.pkt = p) (only : OnlyIn [.vtf] s u)
    (hs : c0.keys = [] ∨ (u.vtf.sessions.any fun x => x.ses == p.ses.toNat && x.keys == c0.keys) = true) : PassedAs p c s t := by
  obtain ⟨rfl, rfl⟩ := checkLate_passed h
  exact ⟨hp, only, hs⟩

theorem checkSession_passed {p : Packet} (h : checkSession p s = .passed c t) : PassedAs p c s t := by
  unfold checkSession at h
  extract_lets n bad at h
  split at h
  · split at h
    · simp [bad] at h
    · exact .of_late h rfl (OnlyIn.refl _ _) (.inl rfl)
  · split at h
    · split at h
      · simp [bad] at h
      · exact .of_late h rfl (OnlyIn.refl _ _) (.inl rfl)
    · split at h
      · simp [bad] at h
      · split at h
        · simp [bad] at h
        · next y hy =>
          dsimp only at h
          split at h
          · simp [bad] at h
          · split at h
            · simp [bad] at h
            · refine .of_late h rfl (fun r hr => by cases r <;> simp_all [sameIn]) (.inr ?_)
              have hses : y.ses = p.ses.toNat := by simpa using List.find?_some hy
              refine List.any_eq_true.2 ⟨seqTaken y p.seq.toNat, List.mem_map.2 ⟨y, List.mem_of_find?_eq_some hy, if_pos rfl⟩, ?_⟩
              simp [seqTaken, hses]

theorem checkPacket_passed {p : Packet} (h : checkPacket p false s = .passed c t) : s.pwr.phase ≠ .halt ∧ PassedAs p c s t := by
  simp only [checkPacket] at h
  split at h
  · simp at h
  next hphase =>
  refine ⟨hphase, ?_⟩
  split at h
  · simp at h
  split at h
  · simp at h
  split at h
  · simp at h
  split at h
  · simp at h
  have hlen (b : Prop) [Decidable b] (r : Checked) (h : (if b then .refused (plainReply p .badLen) s else r) = .passed c t) :
      r = .passed c t := by
    split at h
    · simp at h
    · exact h
  exact checkSession_passed (hlen _ _ h)

/-! ## The packet in its queue -/

/-- The packet of a command that was admitted, as it stands at the head of its queue. -/
def admittedPkt (opc : BitVec 16) (x : CmdIn) (c : Ctx) (s : State) : QPkt := { passedPkt opc x c with owner := s.vtf.owner.getD [] }

/-- The command that it spells, with the owner key held at its arrival (R193). -/
def admittedCtx (c : Ctx) (s : State) : Ctx := { c with owner := s.vtf.owner.getD [] }

theorem joined_only (opc : BitVec 16) (x : CmdIn) (s : State) : OnlyIn [.pwr, .eng] s (joined opc x s) := by
  have hrenew (q : Nat) (p : QPkt) (u : State) : OnlyIn [.eng] u (renewAbort q p u) := by
    simp only [renewAbort]
    split
    · intro r hr; cases r <;> simp_all [sameIn]
    · exact OnlyIn.refl _ _
  exact ((noteRequest_only s).trans (hrenew _ _ _) (n := [.pwr, .eng]) (by simp) (by simp)).trans (setQueue_only _ _ _) (by simp) (by simp)

theorem renewAbort_eng (q : Nat) (p : QPkt) (s : State) : ∃ l, (renewAbort q p s).eng = { s.eng with aborts := l } := by
  simp only [renewAbort]
  split
  · exact ⟨_, rfl⟩
  · exact ⟨s.eng.aborts, rfl⟩

/-- Of the engine a packet that joins its empty queue changes that queue, and renews the answering of late members. -/
theorem joined_eng (opc : BitVec 16) (x : CmdIn) (s : State) :
    ∃ l, (joined opc x s).eng = { s.eng with queues := vSet s.eng.queues x.qid.toNat [queued opc x s], aborts := l } := by
  obtain ⟨l, hl⟩ := renewAbort_eng x.qid.toNat (hostPkt opc x) (noteRequest s)
  refine ⟨l, ?_⟩
  simp only [joined, setQueue, hl]
  rfl

theorem joined_pwr (opc : BitVec 16) (x : CmdIn) (s : State) :
    (joined opc x s).pwr.phase = s.pwr.phase ∧ (joined opc x s).pwr.entry = s.pwr.entry := by
  simp only [joined, renewAbort]
  split <;> exact ⟨rfl, rfl⟩

/-- What the state in which an admitted command acts shares with the state its packet came to. -/
structure AdmittedState (opc : BitVec 16) (x : CmdIn) (c : Ctx) (s s2 : State) : Prop where
  pkt : c.pkt = (hostPkt opc x).pkt
  queue : queueOf s2 x.qid.toNat = [admittedPkt opc x c s]
  only : OnlyIn [.pwr, .eng, .vtf] s s2
  trains : s2.eng.trains = s.eng.trains
  jobs : s2.eng.jobs = s.eng.jobs
  barQ : s2.eng.barQ = s.eng.barQ
  phase : s2.pwr.phase ≠ .halt
  entry : s2.pwr.entry = s.pwr.entry
  session : sessionGone s2 (admittedPkt opc x c s) = false

theorem setHead_single (q : Nat) (p y : QPkt) (s : State) (h : queueOf s q = [y]) : setHead q p s = setQueue s q [p] := by
  simp only [setHead, h]

theorem admittedState_of (h : Admitted opc x c s s2) : AdmittedState opc x c s s2 := by
  obtain ⟨-, hq, -, -, -, -, -, -, -, -, -, ⟨t, ht, rfl⟩, -, -⟩ := h
  obtain ⟨hphase, hpkt, only, hsession⟩ := checkPacket_passed ht
  obtain ⟨l, hl⟩ := joined_eng opc x s
  obtain ⟨hjphase, hjentry⟩ := joined_pwr opc x s
  have heng : t.eng = (joined opc x s).eng := only .eng (by decide)
  have hpwr : t.pwr = (joined opc x s).pwr := only .pwr (by decide)
  have hhead : queueOf t x.qid.toNat = [queued opc x s] := by
    simp only [queueOf, heng, hl]
    exact vAt_vSet_same _ _ _ hq
  rw [setHead_single _ _ _ _ hhead]
  have hall : OnlyIn [.pwr, .eng, .vtf] s t := (joined_only opc x s).trans only (by simp) (by simp)
  refine ⟨hpkt, vAt_vSet_same _ _ _ hq, hall.trans (setQueue_only _ _ _) (by simp) (by simp), ?_, ?_, ?_, ?_, ?_, ?_⟩
  · exact (congrArg Engine.trains heng).trans (by rw [hl])
  · exact (congrArg Engine.jobs heng).trans (by rw [hl])
  · exact (congrArg Engine.barQ heng).trans (by rw [hl])
  · exact fun e => hphase ((congrArg Pwr.phase hpwr).symm.trans e)
  · exact (congrArg Pwr.entry hpwr).trans hjentry
  · rcases hsession with hk | hk
    · simp [sessionGone, admittedPkt, passedPkt, hk]
    · simp only [sessionGone, Bool.and_eq_false_iff, Bool.not_eq_false']
      exact .inr hk

/-! ## Dispatch (R251, R255, R256) -/

theorem checkHead_of_passed (q : Nat) (p : QPkt) (hq : queueOf s q = [p]) (hp : p.passed = true) (hs : sessionGone s p = false) :
    checkHead q s = (false, s) := by
  simp [checkHead, hq, hp, hs]

/-- The packet that has joined its queue passes its checks there. -/
theorem checkHead_joined (h : Admitted opc x c s s2) : checkHead x.qid.toNat (joined opc x s) = (false, s2) := by
  obtain ⟨hchan, hq, -, -, -, htrain, -, -, -, -, -, ⟨t, ht, rfl⟩, -, -⟩ := h
  obtain ⟨l, hl⟩ := joined_eng opc x s
  have hhead : queueOf (joined opc x s) x.qid.toNat = [queued opc x s] := by
    simp only [queueOf, hl]
    exact vAt_vSet_same _ _ _ hq
  have htr : trainOfQueue (joined opc x s) x.qid.toNat = none := by
    simp only [trainOfQueue, hl]
    exact htrain
  have hcheck : checkPacket (queued opc x s).pkt false (joined opc x s) = .passed c t := ht
  have hpassed : (queued opc x s).passed = false := rfl
  have hshort : (queued opc x s).short = false := rfl
  simp only [checkHead, hhead, hpassed, htr, hshort, Option.isSome_none, hcheck, Bool.false_eq_true, if_false]
  rfl

theorem admitPassed_eq_dispatch (h : Admitted opc x c s s2) (hb : isBarrier (admittedCtx c s) = false) :
    admitPassed (admittedCtx c s) x.qid.toNat s2 = dispatch (admittedCtx c s) x.qid.toNat s2 := by
  have hs := admittedState_of h
  obtain ⟨-, -, -, -, -, -, hmount, hreplies, hbar, -, hentry, -, -, hat⟩ := h
  have hstore : s2.store = s.store := hs.only .store (by decide)
  have hlink : s2.link = s.link := hs.only .link (by decide)
  have hopc : (admittedCtx c s).pkt.opc = opc := congrArg Packet.opc hs.pkt
  have hmount1 : (!s2.store.mounted && !premount opc.toNat && !streamOpc opc.toNat) = false := by
    rcases hmount with h | h | rfl
    · simp [hstore, h]
    · simp [h]
    · simp [show streamOpc 35 = true by decide]
  have hmount2 : (!s2.store.mounted && streamOpc opc.toNat && decide (opc.toNat ≠ 0x0023)) = false := by
    rcases hmount with h | h | rfl
    · simp [hstore, h]
    · have hpre : streamOpc opc.toNat = false := by
        simp only [premount, List.contains_eq_mem, List.mem_cons, List.not_mem_nil, or_false, decide_eq_true_eq] at h
        simp only [streamOpc, Bool.and_eq_false_iff, decide_eq_false_iff_not]
        omega
      simp [hpre]
    · simp
  have hbacklog : (decide ((admittedCtx c s).pkt.chan = .host) && decide (512 ≤ s2.link.replies.length)) = false := by
    rw [hlink]
    simp only [Bool.and_eq_false_iff, decide_eq_false_iff_not]
    exact .inr (by omega)
  have hjobs : (s2.eng.jobs.any (·.barrier)) = false := by
    rw [hs.jobs]
    simpa using hbar
  have hbarrier : (match barrierAt s2 with | some b => decide (b ≠ x.qid.toNat) | none => false) = false := by
    split
    · next b hb => simp [hat b hb]
    · rfl
  have hfree : ((s2.eng.jobs.any (·.barrier)) || (match barrierAt s2 with | some b => decide (b ≠ x.qid.toNat) | none => false)
      || s2.pwr.entry.isSome) = false := by
    rw [hjobs, hbarrier, hs.entry, hentry]
    rfl
  simp only [admitPassed, hopc, hs.phase, hmount1, hmount2, hbacklog, hb, if_false, Bool.false_eq_true]
  exact if_neg (ne_true_of_eq_false hfree)

/-- An admitted packet whose command ends in `t` has left its queue (R251). -/
theorem arrive_of_dispatch (h : Admitted opc x c s s2) (hb : isBarrier (admittedCtx c s) = false)
    (hd : dispatch (admittedCtx c s) x.qid.toNat s2 = .fin t) : arrive opc x s = leftQueue opc x c t := by
  have hs := admittedState_of h
  have hcheck := checkHead_joined h
  have hpassed := admitPassed_eq_dispatch h hb
  obtain ⟨hchan, hq, hon, hoff, hempty, -, -, -, -, -, -, -, hhead, -⟩ := h
  have hctx : ctxOf (admittedPkt opc x c s) = admittedCtx c s := by
    simp only [ctxOf, admittedPkt, passedPkt, admittedCtx, hs.pkt]
  have hadmit : admitHead x.qid.toNat s2 = (true, dropHead x.qid.toNat (passedPkt opc x c) t) := by
    simp only [admitHead, checkHead_of_passed _ _ hs.queue rfl hs.session, hs.queue, headPassed, hctx, hpassed, hd]
    rfl
  have hurg : headUrgent s2 x.qid.toNat = fUrg (hostPkt opc x).pkt := by
    simp only [headUrgent, hs.queue]
    rfl
  have hgrant : grant [x.qid.toNat] s2 =
      (true, served x.qid.toNat (fUrg (hostPkt opc x).pkt) (headLeft x.qid.toNat (dropHead x.qid.toNat (passedPkt opc x c) t))) := by
    rw [grant_cons_of_admitted _ _ _ hadmit, hurg]
  have hturn : takeTurn x.qid.toNat 65 s2 = (grant [x.qid.toNat] s2).2 := by
    obtain ⟨rest, hrest⟩ : ∃ rest, arbOrder s2 = x.qid.toNat :: rest := by
      cases ha : arbOrder s2 with
      | nil => simp [ha] at hhead
      | cons a l => exact ⟨l, by simpa [ha] using hhead⟩
    have htake : (arbOrder s2).takeWhile (· ≠ x.qid.toNat) = [] := by simp [hrest]
    simp only [takeTurn, htake, grant]
  have hdeliver : arrive opc x s = deliver (hostPkt opc x) s := by
    show (match x.chan with | .host => deliver (hostPkt opc x) s | .sideband => _) = _
    rw [hchan]
  have hqid : (if (hostPkt opc x).pkt.chan = .sideband then 0 else (hostPkt opc x).pkt.qid.toNat) = x.qid.toNat := by
    simp [hostPkt, hchan]
  have hgate : (!engineOn s || decide (s.pwr.pstate = .off)) = false := by simp [hon, hoff]
  have hnil : (queueOf (noteRequest s) x.qid.toNat).isEmpty = true := by
    have : queueOf (noteRequest s) x.qid.toNat = queueOf s x.qid.toNat := rfl
    rw [this, hempty]
    rfl
  have hlt : ¬ 63 < x.qid.toNat := by omega
  have hcheck' : checkHead x.qid.toNat (setQueue (renewAbort x.qid.toNat (hostPkt opc x) (noteRequest s)) x.qid.toNat
      [{ hostPkt opc x with owner := (noteRequest s).vtf.owner.getD [] }]) = (false, s2) := hcheck
  rw [hdeliver]
  simp only [deliver, hgate, hqid, hlt, hnil, hcheck', hturn, hgrant, Bool.false_eq_true, if_false, if_true]
  rfl

end Sys2Proof.Machine
end

section
/-! SUPPORT. An append: what its own checks admit, the record it stages, the train it opens and its place in the early log; and the statement
on STREAM_APPEND. -/
namespace Sys2Proof.Machine
open Sys2Proof

variable {s t u s1 s2 : State} {x : CmdIn} {c : Ctx} {st : Stream} {sid : Nat}

/-! ## Sizes (R19, R34) -/

theorem creditsFor_eq (n : Nat) : creditsFor n = (32 + n + 63) / 64 := by
  simp only [creditsFor, ceilDiv]
  omega

theorem storedSize_eq (n : Nat) : storedSize n = (32 + n + 15) / 16 * 16 := by
  simp only [storedSize, roundUp]
  omega

/-! ## The checks of an append (R27, R31, R34, R84) -/

/-- Flags, mode, stream and length of an append are ones that R270 permits. -/
def AppendFieldsOk (c : Ctx) : Prop :=
  pf c 4 2 &&& 0xE3 = pf c 4 2 ∧ pf c 6 1 ≤ 1 ∧ pf c 0 4 ≠ 0 ∧ ((pf c 4 2).testBit 1 = true → (c.plain.drop 8).length = 16)

theorem appendFields_of_ok (h : AppendFieldsOk c) : appendFields c = none := by
  obtain ⟨hflags, hmode, hsid, hlen⟩ := h
  have h1 : ¬(pf c 4 2 &&& 0xE3 ≠ pf c 4 2 ∨ 1 < pf c 6 1) := by
    rintro (h | h)
    · exact h hflags
    · omega
  have h3 : ¬((pf c 4 2).testBit 1 = true ∧ (payloadOf c 8).length ≠ 16) := fun ⟨hb, hne⟩ => hne (hlen hb)
  simp only [appendFields, if_neg h1, if_neg (fun h : pf c 0 4 = 0 ∧ _ => hsid h.1), if_neg h3]

theorem appendState_ok (h : streamOf s sid = some st) (hdel : st.st ≠ .deleting) (hseal : st.st ≠ .sealed) (hn : st.next < seqMax) :
    appendState s sid = .ok st := by
  simp only [appendState, h]
  cases hst : st.st <;> simp_all <;> omega

theorem hostCharge_of_empty (n : Nat) (hw : s.store.waiting = []) (hn : n ≤ max s.oas.win 4096 - s.oas.outst) : hostCharge s n = true := by
  simp [hostCharge, chargeFits, available, accountSize, hw, hn]

/-! ## The context found or loaded (R31, R32) -/

/-- A context taken up for a command changes the list of contexts and the loads that are kept, and nothing else. -/
structure CtxLoaded (s t : State) : Prop where
  only : OnlyIn [.eng, .prev] s t
  trains : t.eng.trains = s.eng.trains
  nextId : t.eng.nextId = s.eng.nextId

theorem loadCtx_loaded (h : loadCtx sid s = some t) : CtxLoaded s t := by
  have hctx (l : List CtxEntry) (p : List Nat) : CtxLoaded s { s with eng.ctx := l, prev.loads := p } :=
    ⟨fun r hr => by cases r <;> simp_all [sameIn], rfl, rfl⟩
  simp only [loadCtx] at h
  split at h
  · cases h; exact ⟨OnlyIn.refl _ _, rfl, rfl⟩
  · split at h
    · cases h; exact hctx _ s.prev.loads
    · split at h
      · cases h; exact hctx _ _
      · split at h
        · cases h; exact hctx _ _
        · simp at h

/-- A state whose next number is taken (R61). -/
def idTaken (s : State) : State := { s with eng.nextId := s.eng.nextId + 1 }

theorem loadCtx_idTaken (h : loadCtx sid s = some t) : loadCtx sid (idTaken s) = some (idTaken t) := by
  have hev : evictable (idTaken s) = evictable s := rfl
  have hctx : (idTaken s).eng.ctx = s.eng.ctx := rfl
  simp only [loadCtx, hctx, hev] at h ⊢
  split at h
  · next hz => cases h; exact if_pos hz
  next hz =>
  rw [if_neg hz]
  split at h
  · cases h; rfl
  split at h
  · next hl => cases h; exact if_pos hl
  next hl =>
  rw [if_neg hl]
  split at h
  · cases h; rfl
  · simp at h

/-! ## The record an append stages (R17, R21, R40, R43) -/

/-- A stream's last record is new: it holds a payload and stands in staging, not written and with no place. -/
def StagedAs (sid n : Nat) (pay : List Byte) (ts : Nat) (arr : Bool) (train : Option Nat) (t : State) : Prop :=
  ∃ v r, streamOf t sid = some v ∧ v.next = n + 1 ∧ r ∈ v.recs ∧ r.seq = n ∧ r.payload = pay ∧ r.ts = ts
    ∧ r.credits = (32 + pay.length + 63) / 64 ∧ r.written = false ∧ r.place = none ∧ r.train = train ∧ r.array = arr
    ∧ (sid, n) ∈ t.store.staging

theorem StagedAs.of_store {n ts : Nat} {pay : List Byte} {arr : Bool} {train : Option Nat} (h : t.store = s.store)
    (hs : StagedAs sid n pay ts arr train s) : StagedAs sid n pay ts arr train t := by
  unfold StagedAs streamOf at hs ⊢
  rwa [h]

theorem addRec_staged (r : Rec) (h : streamOf s sid = some st) (hw : r.written = false) (hp : r.place = none) :
    StagedAs sid st.next r.payload r.ts r.array r.train (addRec sid r s) := by
  simp only [addRec, h]
  exact ⟨_, _, look_put_same _ _ _, rfl, List.mem_append.2 (.inr (List.mem_singleton.2 rfl)), rfl, rfl, rfl, creditsFor_eq _, hw, hp, rfl, rfl,
    List.mem_append.2 (.inr (List.mem_singleton.2 rfl))⟩

theorem addRec_outst (r : Rec) (h : streamOf s sid = some st) :
    (addRec sid r s).oas.outst = s.oas.outst + (32 + r.payload.length + 63) / 64 := by
  simp only [addRec, h, ← creditsFor_eq]
  rfl

theorem updStream_staging (sid : Nat) (f : Stream → Stream) (s : State) : (updStream s sid f).store.staging = s.store.staging := by
  simp only [updStream]
  split <;> rfl

theorem ackRec_staged {n ts : Nat} {pay : List Byte} {arr : Bool} {train : Option Nat} (k : Nat) (h : StagedAs sid n pay ts arr train s) :
    StagedAs sid n pay ts arr train (ackRec sid k s) := by
  simp only [ackRec]
  split
  · exact h
  · split
    · exact h
    · obtain ⟨v, r, hv, hn, hr, hseq, hpay, hts, hcred, hw, hp, htrain, harr, hmem⟩ := h
      refine ⟨{ v with recs := v.recs.map fun y => if y.seq = k then { y with acked := true } else y },
        if r.seq = k then { r with acked := true } else r, (streamOf_updStream_same _ _ _).trans (by rw [hv]; rfl), hn,
        List.mem_map.2 ⟨r, hr, rfl⟩, ?_⟩
      have hmem' : (sid, n) ∈ (updRec s sid k fun y => { y with acked := true }).store.staging := (updStream_staging _ _ _).symm ▸ hmem
      split <;> exact ⟨hseq, hpay, hts, hcred, hw, hp, htrain, harr, hmem'⟩

/-! ## An append outside a train, after mount (R17, R45, R46) -/

/-- The own checks that an append outside a train has passed, with the state in which it is carried out. -/
structure AppendTakes (c : Ctx) (sid : Nat) (st : Stream) (s2 s1 : State) : Prop where
  fields : AppendFieldsOk c
  named : pf c 0 4 = sid
  stream : streamOf s2 sid = some st
  undeleted : st.st ≠ .deleting
  unsealed : st.st ≠ .sealed
  media : s2.arr.media ≠ .readonly
  free : trainHolding s2 sid = none
  held : st.heldBy = none
  ctx : loadCtx sid s2 = some s1
  waiting : s2.store.waiting = []
  mounted : s2.store.mounted = true
  room : st.next < seqMax
  space : spaceFor s1 sid st (storedSize (c.plain.drop 8).length) = .fits

theorem AppendTakes.stream_loaded (h : AppendTakes c sid st s2 s1) : streamOf s1 sid = some st := by
  have : s1.store = s2.store := (loadCtx_loaded h.ctx).only .store (by decide)
  unfold streamOf
  rw [this]
  exact h.stream

theorem AppendTakes.charge (h : AppendTakes c sid st s2 s1) {n : Nat} (hn : n ≤ max s2.oas.win 4096 - s2.oas.outst) :
    hostCharge s1 n = true := by
  have only := (loadCtx_loaded h.ctx).only
  have hoas : s1.oas = s2.oas := only .oas (by decide)
  have hstore : s1.store = s2.store := only .store (by decide)
  exact hostCharge_of_empty n (hstore ▸ h.waiting) (hoas ▸ hn)

theorem appendOne_of_takes (h : AppendTakes c sid st s2 s1) (hslots : slotsFree s1 sid (pf c 4 2) = true)
    (hn : (32 + (c.plain.drop 8).length + 63) / 64 ≤ max s2.oas.win 4096 - s2.oas.outst) :
    appendOne c s2 = .fin (admitAppend c sid st none s1) := by
  have hcharge := h.charge hn
  have hstream := h.stream_loaded
  rw [← creditsFor_eq] at hcharge
  have hspace : spaceFor s1 sid st (storedSize (payloadOf c 8).length) = .fits := h.space
  have hcharge' : hostCharge s1 (creditsFor (payloadOf c 8).length) = true := hcharge
  simp only [appendOne, appendFields_of_ok h.fields, h.named, appendState_ok h.stream h.undeleted h.unsealed h.room, if_neg h.media, h.free,
    h.held, h.ctx, hslots, hcharge', makeSpace, hspace, hstream, Option.isSome_none, Bool.or_self, Bool.not_true, Bool.false_eq_true, if_false]

/-- A stream that has numbers left after a record is not sealed by it (R38). -/
theorem sealIfLast_of_room {v : Stream} (h : streamOf s sid = some v) (hn : v.next ≤ seqMax) : sealIfLast sid s = s := by
  have : ¬(seqMax < v.next ∧ v.st ≠ .sealed) := fun h => absurd h.1 (by omega)
  simp only [sealIfLast, h, if_neg this]

/-- What an append leaves once its record is staged: slots taken for the rules it triggers, and no seal. -/
theorem append_finished {n sidf ts : Nat} {pay : List Byte} {arr : Bool} (hn : n < seqMax) (h : StagedAs sid n pay ts arr none s) :
    sealIfLast sid (addPend sid sidf n none s) = addPend sid sidf n none s := by
  obtain ⟨v, r, hv, hnext, -⟩ := h
  exact sealIfLast_of_room (v := v) hv (by omega)

/-- A record that an append outside a train stages (R21, R35). -/
def appendRec (c : Ctx) (arr : Bool) (job : Option Nat) (s : State) : Rec :=
  { Rec.reset with sidf := pf c 4 2, ts := s.dtime, payload := payloadOf c 8, array := arr, nrep := fNoReply c.pkt, job := job }

theorem admitAppend_hold (hst : streamOf s sid = some st) (hn : st.next < seqMax) (hm : modeArray s st (pf c 6 1) = false) :
    admitAppend c sid st none s = formReply (ctxReply c .ok 0 (appendData st.next s.dtime))
      (ackRec sid st.next (addPend sid (pf c 4 2) st.next none (addRec sid (appendRec c false none s) s))) := by
  have hstaged := addRec_staged (appendRec c false none s) hst rfl rfl
  simp only [admitAppend, hm, Bool.false_eq_true, if_false]
  exact congrArg (fun t => formReply _ (ackRec _ _ t)) (append_finished hn hstaged)

theorem admitAppend_array (hst : streamOf s sid = some st) (hn : st.next < seqMax) (hm : modeArray s st (pf c 6 1) = true) :
    let j := newJob 1 [ctxReply c .okArray 0 (appendData st.next s.dtime)] false .append s
    admitAppend c sid st none s = addPend sid (pf c 4 2) st.next none (addRec sid (appendRec c true (some j.1) s) j.2) := by
  intro j
  have hst' : streamOf j.2 sid = some st := hst
  have hstaged := addRec_staged (appendRec c true (some j.1) s) hst' rfl rfl
  simp only [admitAppend, hm, if_true]
  exact append_finished hn hstaged

theorem appendOne_hold (h : AppendTakes c sid st s2 s1) (hslots : slotsFree s1 sid (pf c 4 2) = true)
    (hn : (32 + (c.plain.drop 8).length + 63) / 64 ≤ max s2.oas.win 4096 - s2.oas.outst) (hm : modeArray s1 st (pf c 6 1) = false) :
    ∃ u, appendOne c s2 = .fin (formReply (ctxReply c .ok 0 (leB 8 st.next ++ leB 8 s2.dtime)) u)
      ∧ StagedAs sid st.next (c.plain.drop 8) s2.dtime false none u
      ∧ u.oas.outst = s2.oas.outst + (32 + (c.plain.drop 8).length + 63) / 64 := by
  have only := (loadCtx_loaded h.ctx).only
  have hdtime : s1.dtime = s2.dtime := only .dtime (by decide)
  have hoas : s1.oas = s2.oas := only .oas (by decide)
  rw [appendOne_of_takes h hslots hn, admitAppend_hold h.stream_loaded h.room hm, ← hdtime, ← hoas]
  refine ⟨_, rfl, ackRec_staged _ (.of_store rfl (addRec_staged (appendRec c false none s1) h.stream_loaded rfl rfl)), ?_⟩
  exact (congrArg Oasis.outst (ackRec_only _ _ _ .oas (by decide))).trans (addRec_outst (appendRec c false none s1) h.stream_loaded)

theorem newJob_mem (n : Nat) (l : List Reply) (b : Bool) (k : JobKind) (s : State) :
    ∃ y ∈ (newJob n l b k s).2.eng.jobs, y.waits = n ∧ y.replies = l :=
  ⟨_, List.mem_append.2 (.inr (List.mem_singleton.2 rfl)), rfl, rfl⟩

theorem appendOne_array (h : AppendTakes c sid st s2 s1) (hslots : slotsFree s1 sid (pf c 4 2) = true)
    (hn : (32 + (c.plain.drop 8).length + 63) / 64 ≤ max s2.oas.win 4096 - s2.oas.outst) (hm : modeArray s1 st (pf c 6 1) = true) :
    ∃ t, appendOne c s2 = .fin t ∧ StagedAs sid st.next (c.plain.drop 8) s2.dtime true none t
      ∧ t.oas.outst = s2.oas.outst + (32 + (c.plain.drop 8).length + 63) / 64 ∧ t.link.replies = s2.link.replies
      ∧ ∃ j ∈ t.eng.jobs, j.waits = 1 ∧ j.replies = [ctxReply c .okArray 0 (leB 8 st.next ++ leB 8 s2.dtime)] := by
  have only := (loadCtx_loaded h.ctx).only
  have hdtime : s1.dtime = s2.dtime := only .dtime (by decide)
  have hoas : s1.oas = s2.oas := only .oas (by decide)
  have hlink : s1.link = s2.link := only .link (by decide)
  rw [appendOne_of_takes h hslots hn, admitAppend_array h.stream_loaded h.room hm, ← hdtime, ← hoas, ← hlink]
  set j := newJob 1 [ctxReply c .okArray 0 (appendData st.next s1.dtime)] false .append s1
  have hj : streamOf j.2 sid = some st := h.stream_loaded
  have honly := addRec_only sid (appendRec c true (some j.1) s1) j.2
  refine ⟨_, rfl, .of_store rfl (addRec_staged (appendRec c true (some j.1) s1) hj rfl rfl),
    addRec_outst (appendRec c true (some j.1) s1) hj, congrArg Link.replies (honly .link (by decide)), ?_⟩
  have hjobs : (addRec sid (appendRec c true (some j.1) s1) j.2).eng.jobs = j.2.eng.jobs := congrArg Engine.jobs (honly .eng (by decide))
  rw [show (addPend _ _ _ _ _).eng.jobs = j.2.eng.jobs from hjobs]
  exact newJob_mem _ _ _ _ _

theorem appendOne_noStream (hf : AppendFieldsOk c) (h : streamOf s (pf c 0 4) = none) : appendOne c s = reject c .noStream s := by
  simp only [appendOne, appendFields_of_ok hf, appendState, h]

theorem appendOne_sealed (hf : AppendFieldsOk c) (h : streamOf s (pf c 0 4) = some st) (hst : st.st = .sealed) :
    appendOne c s = reject c .readOnly s := by
  simp only [appendOne, appendFields_of_ok hf, appendState, h, hst]

/-! ## The packet of an append (R247, R270) -/

theorem exec_streamAppend_of_fin (h : Admitted 0x0023 x c s s2) (hd : cmdAppend c x.qid.toNat s2 = .fin t) :
    exec (.streamAppend x) s = .next (leftQueue 0x0023 x c t) := by
  have hopc : (admittedCtx c s).pkt.opc.toNat = 0x0023 := by
    have : c.pkt.opc = 0x0023 := congrArg Packet.opc (admittedState_of h).pkt
    simp [admittedCtx, this]
  have hbar : isBarrier (admittedCtx c s) = false := by simp only [isBarrier, hopc]
  have hdisp : dispatch (admittedCtx c s) x.qid.toNat s2 = .fin t := by
    simp only [dispatch, hopc]
    exact hd
  exact congrArg Host.Outcome.next (arrive_of_dispatch h hbar hdisp)

theorem trainOfQueue_of_admitted {opc : BitVec 16} (h : Admitted opc x c s s2) : trainOfQueue s2 x.qid.toNat = none := by
  have htrains := (admittedState_of h).trains
  obtain ⟨-, -, -, -, -, htrain, -⟩ := h
  simpa only [trainOfQueue, htrains] using htrain

theorem cmdAppend_single (hm : s.store.mounted = true) (hc : fChain c.pkt = false) (q : Nat) : cmdAppend c q s = appendOne c s := by
  simp only [cmdAppend, hm, hc, Bool.not_true, Bool.false_eq_true, if_false]

/-! ## The first member of a train (R61, R63, R64) -/

/-- The train that a CHAIN append opens (R61). -/
def openedTrain (q : Nat) (s : State) : Train := { Train.reset with tid := s.eng.nextId, qid := q }

theorem trainMember_first (q : Nat) (h : AppendTakes c sid st s2 s1) (hlast : fLast c.pkt = false)
    (hsize : (c.plain.drop 8).length ≤ 8388608) (hslots : slotsFree s1 sid (pf c 4 2 ||| 4) = true)
    (hn : (32 + (c.plain.drop 8).length + 63) / 64 ≤ max s2.oas.win 4096 - s2.oas.outst)
    (haccount : (32 + (c.plain.drop 8).length + 63) / 64 + 2 ≤ max s2.oas.win 4096) :
    trainMember c (openedTrain q s2) (idTaken s2) = .fin (admitMember c (openedTrain q s2) sid st (idTaken s1)) := by
  have hcharge := h.charge hn
  rw [← creditsFor_eq] at hcharge haccount
  have hlen : ¬(64 ≤ (openedTrain q s2).members.length ∨ 8388608 < (openedTrain q s2).total + (payloadOf c 8).length) := by
    rintro (h | h)
    · simp [openedTrain, Train.reset] at h
    · simp only [openedTrain, Train.reset, payloadOf] at h; omega
  have hstate : appendState (idTaken s2) sid = .ok st := appendState_ok h.stream h.undeleted h.unsealed h.room
  have hmedia : ¬(idTaken s2).arr.media = .readonly := h.media
  have hacc : ¬accountSize (idTaken s2).oas < ((openedTrain q s2).members.map (·.credits)).sum + creditsFor (payloadOf c 8).length
      + descrCredits ((openedTrain q s2).members.length + 1) := by
    have hd : descrCredits 1 = 2 := by decide
    have : accountSize (idTaken s2).oas = max s2.oas.win 4096 := rfl
    simp only [openedTrain, Train.reset, List.map_nil, List.sum_nil, List.length_nil, Nat.zero_add, hd, this, payloadOf]
    omega
  have hhold : trainHolding (idTaken s2) sid = none := h.free
  have hslots' : slotsFree (idTaken s1) sid (pf c 4 2 ||| 0x004) = true := hslots
  have hcharge' : hostCharge (idTaken s1) (creditsFor (payloadOf c 8).length + 0) = true := hcharge
  have hspace : spaceFor (idTaken s1) sid st (storedSize (payloadOf c 8).length) = .fits := h.space
  simp only [trainMember, if_neg hlen, appendFields_of_ok h.fields, h.named, hstate, if_neg hmedia, if_neg hacc, hhold, h.held,
    loadCtx_idTaken h.ctx, hslots', hlast, hcharge', hspace, Option.isSome_none, Bool.not_true, Bool.false_eq_true, if_false]

theorem chainAppend_first (q : Nat) (hlook : look q s.eng.aborts = none) (hq : trainOfQueue s q = none)
    (hopen : (s.eng.trains.filter fun t => decide (t.st = .opened)).length < 4) :
    chainAppend c q s = trainMember c (openedTrain q s) (idTaken s) := by
  simp only [chainAppend, hlook, hq]
  exact if_neg (by omega)

/-- The one open train of a queue is the one that was put last where none was open before. -/
theorem trainOfQueue_put (q n : Nat) (v : Train) (h : trainOfQueue s q = none) (hv : v.qid = q) (ho : v.st = .opened) :
    trainOfQueue { s with eng.trains := (s.eng.trains.filter fun t => t.tid != n) ++ [v] } q = some v := by
  have hold : (s.eng.trains.filter fun t => t.tid != n).find? (fun t => t.qid == q && decide (t.st = .opened)) = none := by
    rw [trainOfQueue, List.find?_eq_none] at h
    rw [List.find?_eq_none]
    exact fun t ht => h t (List.mem_of_mem_filter ht)
  simp only [trainOfQueue, List.find?_append, hold]
  simp [hv, ho]

theorem admitMember_first (q : Nat) (hst : streamOf s sid = some st) (hlast : fLast c.pkt = false) (hq : trainOfQueue s q = none) :
    ∃ v, StagedAs sid st.next (c.plain.drop 8) s.dtime false (some u.eng.nextId) (admitMember c (openedTrain q u) sid st s)
      ∧ trainOfQueue (admitMember c (openedTrain q u) sid st s) q = some v ∧ v.tid = u.eng.nextId ∧ v.members.length = 1
      ∧ v.total = (c.plain.drop 8).length ∧ v.st = .opened := by
  have hstaged := addRec_staged { Rec.reset with
    sidf := pf c 4 2 ||| 0x004, ts := s.dtime, payload := payloadOf c 8, train := some u.eng.nextId, nrep := fNoReply c.pkt } hst rfl rfl
  simp only [admitMember, hlast, Bool.false_eq_true, if_false]
  refine ⟨_, .of_store rfl hstaged, trainOfQueue_put q _ _ ?_ rfl rfl, ?_, ?_, ?_, ?_⟩
  · exact (congrArg (fun e : Engine => e.trains.find? _) (addRec_only sid _ s .eng (by decide))).trans hq
  · rfl
  · rfl
  · exact Nat.zero_add _
  · rfl

theorem cmdAppend_first (q : Nat) (h : AppendTakes c sid st s2 s1) (hchain : fChain c.pkt = true) (hlast : fLast c.pkt = false)
    (hlook : look q s2.eng.aborts = none) (hq : trainOfQueue s2 q = none)
    (hopen : (s2.eng.trains.filter fun t => decide (t.st = .opened)).length < 4)
    (hsize : (c.plain.drop 8).length ≤ 8388608) (hslots : slotsFree s1 sid (pf c 4 2 ||| 4) = true)
    (hn : (32 + (c.plain.drop 8).length + 63) / 64 ≤ max s2.oas.win 4096 - s2.oas.outst)
    (haccount : (32 + (c.plain.drop 8).length + 63) / 64 + 2 ≤ max s2.oas.win 4096) :
    ∃ t v, cmdAppend c q s2 = .fin t ∧ StagedAs sid st.next (c.plain.drop 8) s2.dtime false (some s2.eng.nextId) t
      ∧ trainOfQueue t q = some v ∧ v.tid = s2.eng.nextId ∧ v.members.length = 1 ∧ v.total = (c.plain.drop 8).length ∧ v.st = .opened := by
  have hloaded := loadCtx_loaded h.ctx
  have hdtime : (idTaken s1).dtime = s2.dtime := hloaded.only .dtime (by decide)
  have hq1 : trainOfQueue (idTaken s1) q = none := by
    have : (idTaken s1).eng.trains = s2.eng.trains := hloaded.trains
    simp only [trainOfQueue, this]
    exact hq
  have hcmd : cmdAppend c q s2 = .fin (admitMember c (openedTrain q s2) sid st (idTaken s1)) := by
    simp only [cmdAppend, h.mounted, hchain, chainAppend_first q hlook hq hopen, Bool.not_true, Bool.false_eq_true, if_false, if_true]
    exact trainMember_first q h hlast hsize hslots hn haccount
  obtain ⟨v, hv⟩ := admitMember_first (c := c) (u := s2) q (s := idTaken s1) h.stream_loaded hlast hq1
  rw [hdtime] at hv
  exact ⟨_, v, hcmd, hv⟩

/-! ## An append before mount (R70, R71) -/

theorem sealEarly_oas (h cause : Nat) (s : State) : (sealEarly h cause s).oas = s.oas := by
  simp only [sealEarly]
  split
  · rfl
  · split
    · rfl
    · exact issueSeal_only s .oas (by decide)

/-- The room found for an early record keeps the halves' records and the account. -/
theorem earlyRoom_kept (h sid size : Nat) (s : State) : HalvesKept s (earlyRoom h sid size s).2 ∧ (earlyRoom h sid size s).2.oas = s.oas := by
  have hfresh (u : State) : HalvesKept u (earlyRoom.fresh h u).2 ∧ (earlyRoom.fresh h u).2.oas = u.oas :=
    ⟨.after (.of_upd h _ _ (fun _ => rfl) (fun _ => rfl) fun _ => rfl) (.of_store rfl), rfl⟩
  simp only [earlyRoom]
  split
  · split
    · exact ⟨.refl s, rfl⟩
    · obtain ⟨hk, ho⟩ := hfresh (sealEarly h 1 s)
      exact ⟨hk.after (sealEarly_halvesKept h 1 s), ho.trans (sealEarly_oas h 1 s)⟩
  · exact hfresh s

/-- A record joins the kept records of a half. -/
theorem HalvesKept.joins (k : HalvesKept s t) {h : Nat} (hh : h < 2) {g : Half → Half} {e : EarlyRec} (hg : ∀ y, (g y).recs = y.recs ++ [e]) :
    (vAt (vUpd t.store.halves h g) h).recs = (vAt s.store.halves h).recs ++ [e] := by
  rw [vAt_vUpd_same _ _ _ hh, hg, k.recs]

theorem appendEarly_hold {h : Nat} (hf : AppendFieldsOk c) (hlist : look (pf c 0 4) s.store.earlyList = some false)
    (hst : streamOf s (pf c 0 4) = some st) (hcur : s.store.curHalf = some h) (hh : h < 2) (hmount : s.store.mounted = false)
    (hlife : s.vtf.life = .owned) (hphase : s.pwr.phase = .recovery)
    (hfull : earlyFull (vAt s.store.halves h) (pf c 0 4) (storedSize (c.plain.drop 8).length) = false) (hw : s.store.waiting = [])
    (hn : (32 + (c.plain.drop 8).length + 63) / 64 ≤ max s.oas.win 4096 - s.oas.outst) (hm : modeArray s st (pf c 6 1) = false) :
    ∃ u e, appendEarly c s = .fin (formReply (ctxReply c .ok 0
          (leB 8 (2 ^ 47 + (vAt s.store.halves h).count + 1) ++ leB 8 s.dtime)) u)
      ∧ (vAt u.store.halves h).recs = (vAt s.store.halves h).recs ++ [e] ∧ e.sid = pf c 0 4 ∧ e.payload = c.plain.drop 8 ∧ e.ts = s.dtime
      ∧ e.index = (vAt s.store.halves h).count + 1 ∧ u.oas.outst = s.oas.outst + (32 + (c.plain.drop 8).length + 63) / 64 := by
  have haccept : earlyAccepted s = true := by simp [earlyAccepted, hmount, hlife, hcur, hphase]
  have hfull' : earlyFull (vAt s.store.halves h) (pf c 0 4) (storedSize (payloadOf c 8).length) = false := hfull
  have hcharge : hostCharge s (creditsFor (payloadOf c 8).length) = true := hostCharge_of_empty _ hw (by rw [creditsFor_eq]; exact hn)
  simp only [appendEarly, hlist, appendFields_of_ok hf, hst, hcur, haccept, hfull', hcharge, hm, Bool.not_true, Bool.false_eq_true, if_false]
  obtain ⟨hkept, hoas⟩ := earlyRoom_kept h (pf c 0 4) (storedSize (payloadOf c 8).length) s
  refine ⟨_, _, rfl, hkept.joins hh fun _ => rfl, ?_, ?_, ?_, ?_, ?_⟩
  · rfl
  · rfl
  · rfl
  · rfl
  · show _ + creditsFor (payloadOf c 8).length = _
    rw [creditsFor_eq, hoas]
    rfl

/-- Settles O43: an admitted append packet is dispatched to the command, whose checks the hypotheses decide one by one. Outside a train it
stages one record and answers or opens a job; the first CHAIN append stages one that its new train holds; before mount its record joins the
current half. -/
theorem streamAppendStages : Obligations.StreamAppendStages := by
  unfold Obligations.StreamAppendStages
  intro s s2 s1 x c st h sid pay need fields takes staged
  have htakes (k : takes) : AppendTakes c sid st s2 s1 := by
    obtain ⟨hf, hst, hdel, hseal, hmedia, hfree, hheld, hctx, hwait, hmount, hroom, hspace⟩ := k
    exact ⟨hf, rfl, hst, hdel, hseal, hmedia, hfree, hheld, hctx, hwait, hmount, hroom, (storedSize_eq pay.length).symm ▸ hspace⟩
  refine ⟨fun ha k hchain hslots hn => ⟨fun hm => ?_, fun hm => ?_⟩, fun ha k hchain hlast hlook hopen hsize hslots hn haccount => ?_,
    fun ha hchain hmount hf hlist hst hcur hh hlife hphase hfull hw hn hm => ?_, fun ha hmount hchain hf => ⟨fun hst => ?_, fun hst hseal => ?_⟩⟩
  · obtain ⟨u, hu, hstaged, houtst⟩ := appendOne_hold (htakes k) hslots hn hm
    exact ⟨u, exec_streamAppend_of_fin ha ((cmdAppend_single (htakes k).mounted hchain _).trans hu), hstaged, houtst⟩
  · obtain ⟨t, ht, hrest⟩ := appendOne_array (htakes k) hslots hn hm
    exact ⟨t, exec_streamAppend_of_fin ha ((cmdAppend_single (htakes k).mounted hchain _).trans ht), hrest⟩
  · have hq := trainOfQueue_of_admitted ha
    obtain ⟨t, v, ht, hrest⟩ := cmdAppend_first x.qid.toNat (htakes k) hchain hlast hlook hq hopen hsize hslots hn haccount
    exact ⟨t, v, exec_streamAppend_of_fin ha ht, hrest⟩
  · obtain ⟨u, e, hu, hrest⟩ := appendEarly_hold hf hlist hst hcur hh hmount hlife hphase ((storedSize_eq pay.length).symm ▸ hfull) hw hn hm
    refine ⟨u, e, exec_streamAppend_of_fin ha ?_, hrest⟩
    simp only [cmdAppend, hmount, hchain, Bool.not_false, if_true, Bool.false_eq_true, if_false]
    exact hu
  · exact exec_streamAppend_of_fin ha ((cmdAppend_single hmount hchain _).trans (appendOne_noStream hf hst))
  · exact exec_streamAppend_of_fin ha ((cmdAppend_single hmount hchain _).trans (appendOne_sealed hf hst hseal))

end Sys2Proof.Machine
end

section
/-! SUPPORT. The state right after a power-on reset: its repeated parts all start alike; and the statement on reset values. -/
namespace Sys2Proof.Machine
open Sys2Proof

theorem vAt_replicate {α : Type} [Inhabited α] {n i : Nat} (a : α) (h : i < n) : vAt (Vector.replicate n a) i = a := by
  simp [vAt, h]

theorem vAt_ofFn {α : Type} [Inhabited α] {n : Nat} (f : Fin n → α) (i : Fin n) : vAt (Vector.ofFn f) i.val = f i := by
  simp [vAt]

theorem queueOf_reset (q : Fin 64) : queueOf State.reset q.val = [] := vAt_replicate _ q.isLt

theorem dieOf_reset (d : Fin 8) : dieOf State.reset d.val = Die.reset := vAt_replicate _ d.isLt

theorem coreOf_reset (c : Fin 16) : coreOf State.reset c.val = Core.reset := vAt_replicate _ c.isLt

theorem tileOf_reset (t : Fin 4) : tileOf State.reset t.val = Tile.reset := vAt_replicate _ t.isLt

/-- Level 7 starts with the root capabilities, the others with none (R366 to R369). -/
theorem coreReset_caps : (vAt Core.reset.lv 7).caps = rootCaps ∧ ∀ m : Fin 7, (vAt Core.reset.lv m.val).caps = Vector.replicate 16 Cap.reset :=
  ⟨rfl, by decide⟩

/-- Settles O59: queues, dies, cores and tiles each start as one reset record, and every other field named is read off the reset state. -/
theorem resetState : Obligations.ResetState := by
  unfold Obligations.ResetState
  intro s o f
  refine ⟨?work, ?power, ?trust, ?store, ?dies, ?oasis, ?faults, ?link, ?boot, ?cores, ?tiles, ?mmu, ?rest, ?ispace, ?sram⟩
  case work => exact ⟨rfl, queueOf_reset, rfl, rfl⟩
  case power => decide
  case trust => exact ⟨rfl, rfl, rfl, rfl, fun _ => Nat.zero_le _⟩
  case store => decide
  case dies =>
    intro d x
    have hx : x = Die.reset := dieOf_reset d
    rw [hx]
    exact ⟨rfl, rfl, rfl, rfl, rfl, rfl, rfl, fun k => vAt_replicate _ k.isLt⟩
  case oasis => decide
  case faults =>
    exact ⟨rfl, rfl, rfl, rfl, rfl, rfl, rfl, rfl, rfl, rfl, rfl, fun n => vAt_ofFn _ n⟩
  case link => decide
  case boot => decide
  case cores =>
    intro c x
    have hx : x = Core.reset := coreOf_reset c
    rw [hx]
    exact ⟨rfl, rfl, rfl, rfl, coreReset_caps⟩
  case tiles =>
    intro t x
    have hx : x = Tile.reset := tileOf_reset t
    rw [hx]
    exact ⟨rfl, rfl, rfl, fun k => vAt_replicate _ k.isLt⟩
  case mmu => exact ⟨rfl, rfl, fun _ => rfl, rfl⟩
  case rest => decide
  case ispace => rfl
  case sram => rfl

end Sys2Proof.Machine
end

section
/-! SUPPORT. The fields of a byte string that is put together from fixed parts, and the commands that carry out their packets alone. -/
namespace Sys2Proof.Machine
open Sys2Proof

variable {s t s2 : State} {opc : BitVec 16} {x : CmdIn} {c : Ctx}

/-! ## Fields of a byte string -/

@[simp] theorem leB_length (n v : Nat) : (leB n v).length = n := by
  induction n generalizing v with
  | zero => rfl
  | succ n ih => simp [leB, ih]

@[simp] theorem zeros_length (n : Nat) : (zeros n).length = n := List.length_replicate

theorem leN_leB (n v : Nat) : leN (leB n v) = v % 256 ^ n := by
  induction n generalizing v with
  | zero => simp [leB, leN, Nat.mod_one]
  | succ n ih =>
    show (BitVec.ofNat 8 v).toNat + 256 * leN (leB n (v / 256)) = _
    rw [ih, BitVec.toNat_ofNat, Nat.pow_succ' (m := 256), ← Nat.mod_mul]

/-- A field behind the first part of a string is a field of the rest. -/
theorem bytesAt_append_right {a : List Byte} {o : Nat} (m : List Byte) (n : Nat) (h : a.length ≤ o) :
    bytesAt (a ++ m) o n = bytesAt m (o - a.length) n := by
  simp only [bytesAt, List.drop_append, List.drop_eq_nil_of_le h, List.nil_append]

theorem bytesAt_append_left {a : List Byte} {n : Nat} (m : List Byte) (h : a.length = n) : bytesAt (a ++ m) 0 n = a := by
  subst h
  simp [bytesAt]

theorem fieldAt_append_right {a : List Byte} {o : Nat} (m : List Byte) (n : Nat) (h : a.length ≤ o) :
    fieldAt (a ++ m) o n = fieldAt m (o - a.length) n := congrArg leN (bytesAt_append_right m n h)

theorem fieldAt_leB (n v : Nat) (m : List Byte) : fieldAt (leB n v ++ m) 0 n = v % 256 ^ n := by
  rw [fieldAt, bytesAt_append_left m (leB_length n v), leN_leB]

/-! ## A packet carried out (R251, R255, R261) -/

/-- A packet of an opcode is no barrier, and a command carries it out, whoever owned the device when it arrived. -/
def CarriedOutBy (opc : BitVec 16) (cmd : Ctx → Nat → State → Verdict) : Prop :=
  ∀ c o q s, c.pkt.opc = opc → isBarrier { c with owner := o } = false ∧ dispatch { c with owner := o } q s = cmd c q s

/-- An admitted packet whose command ends in `t` has left its queue. -/
theorem exec_of_fin {i : Instr} {cmd : Ctx → Nat → State → Verdict} (hrow : exec i s = .next (arrive opc x s)) (hcmd : CarriedOutBy opc cmd)
    (h : Admitted opc x c s s2) (hd : cmd c x.qid.toNat s2 = .fin t) : exec i s = .next (leftQueue opc x c t) := by
  have hopc : c.pkt.opc = opc := congrArg Packet.opc (admittedState_of h).pkt
  obtain ⟨hbar, hdisp⟩ := hcmd c (s.vtf.owner.getD []) x.qid.toNat s2 hopc
  rw [hrow, arrive_of_dispatch h hbar (hdisp.trans hd)]

/-- An admitted packet whose command answers has left its queue with that reply. -/
theorem exec_of_answer {i : Instr} {cmd : Ctx → Nat → State → Verdict} {sts : Status} {res : Nat} {data : List Byte}
    (hrow : exec i s = .next (arrive opc x s)) (hcmd : CarriedOutBy opc cmd) (h : Admitted opc x c s s2)
    (hd : cmd c x.qid.toNat s2 = answer c sts res data t) : exec i s = .next (replied opc x c sts res data t) :=
  exec_of_fin hrow hcmd h hd

theorem identify_carriedOut : CarriedOutBy 0x0001 fun c _ => cmdIdentify c :=
  fun _ _ _ _ h => by simp only [isBarrier, dispatch, h]; exact ⟨rfl, rfl⟩

theorem getStatus_carriedOut : CarriedOutBy 0x0002 cmdGetStatus :=
  fun _ _ _ _ h => by simp only [isBarrier, dispatch, h]; exact ⟨rfl, rfl⟩

theorem attest_carriedOut : CarriedOutBy 0x0012 fun c _ => cmdAttest c :=
  fun _ _ _ _ h => by simp only [isBarrier, dispatch, h]; exact ⟨rfl, rfl⟩

theorem streamCreate_carriedOut : CarriedOutBy 0x0020 fun c _ => cmdCreate c :=
  fun _ _ _ _ h => by simp only [isBarrier, dispatch, h]; exact ⟨rfl, rfl⟩

theorem streamOpen_carriedOut : CarriedOutBy 0x0021 fun c _ => cmdOpen c :=
  fun _ _ _ _ h => by simp only [isBarrier, dispatch, h]; exact ⟨rfl, rfl⟩

theorem streamClose_carriedOut : CarriedOutBy 0x0022 fun c _ => cmdClose c :=
  fun _ _ _ _ h => by simp only [isBarrier, dispatch, h]; exact ⟨rfl, rfl⟩

theorem streamRead_carriedOut : CarriedOutBy 0x0024 fun c _ => cmdRead c :=
  fun _ _ _ _ h => by simp only [isBarrier, dispatch, h]; exact ⟨rfl, rfl⟩

theorem streamSeal_carriedOut : CarriedOutBy 0x0025 fun c _ => cmdSeal c :=
  fun _ _ _ _ h => by simp only [isBarrier, dispatch, h]; exact ⟨rfl, rfl⟩

theorem streamTrim_carriedOut : CarriedOutBy 0x0026 fun c _ => cmdTrim c :=
  fun _ _ _ _ h => by simp only [isBarrier, dispatch, h]; exact ⟨rfl, rfl⟩

theorem streamInfo_carriedOut : CarriedOutBy 0x0027 fun c _ => cmdInfo c :=
  fun _ _ _ _ h => by simp only [isBarrier, dispatch, h]; exact ⟨rfl, rfl⟩

theorem streamDelete_carriedOut : CarriedOutBy 0x0028 fun c _ => cmdDelete c :=
  fun _ _ _ _ h => by simp only [isBarrier, dispatch, h]; exact ⟨rfl, rfl⟩

theorem faultRead_carriedOut : CarriedOutBy 0x0060 fun c _ => cmdFaultRead c :=
  fun _ _ _ _ h => by simp only [isBarrier, dispatch, h]; exact ⟨rfl, rfl⟩

end Sys2Proof.Machine
end

section
/-! SUPPORT. What the commands that return information answer; and the statement on queries. -/
namespace Sys2Proof.Machine
open Sys2Proof

variable {s t s1 s2 : State} {x : CmdIn} {c : Ctx} {st : Stream} {sid : Nat}

/-! ## Codes that fit a byte -/

theorem phaseNum_lt (p : Phase) : phaseNum p < 256 := by cases p <;> decide

theorem lifeNum_lt (l : Life) : lifeNum l < 256 := by cases l <;> decide

theorem mediaNum_lt (m : Media) : mediaNum m < 256 := by cases m <;> decide

theorem sstateNum_lt (x : SState) : sstateNum x < 256 := by cases x <;> decide

theorem clsCode_lt (x : SClass) : clsCode x < 256 := by cases x <;> decide

theorem variantNum_lt (s : State) : variantNum s < 256 := by
  simp only [variantNum]
  split <;> decide

/-! ## IDENTIFY and GET_STATUS (R263, R264, R143) -/

/-- The 32 bytes of IDENTIFY. -/
theorem cmdIdentify_answer (c : Ctx) (s : State) : ∃ data, cmdIdentify c s = answer c .ok 0 data s ∧ data.length = 32
    ∧ fieldAt data 0 4 = 0x5120 ∧ fieldAt data 4 1 = 0xB0 ∧ fieldAt data 5 1 = variantNum s ∧ fieldAt data 6 1 = lifeNum s.vtf.life
    ∧ bytesAt data 8 8 = Config.devId.toList ∧ fieldAt data 20 4 = 1048576 ∧ fieldAt data 24 2 = 3072 := by
  refine ⟨_, rfl, by simp, ?_, ?_, ?_, ?_, ?_, ?_, ?_⟩
  all_goals simp [fieldAt_append_right, bytesAt_append_right, fieldAt_leB, bytesAt_append_left, Nat.mod_eq_of_lt, variantNum_lt, lifeNum_lt]

theorem statusPage_fields (s : State) (n : Nat) (hn : n < 256) : (statusPage s n).length = 32
    ∧ fieldAt (statusPage s n) 0 1 = phaseNum s.pwr.phase ∧ fieldAt (statusPage s n) 4 4 = s.oas.win % 2 ^ 32
    ∧ fieldAt (statusPage s n) 8 4 = (max s.oas.win 4096 - s.oas.outst) % 2 ^ 32 ∧ fieldAt (statusPage s n) 12 4 = s.oas.outst % 2 ^ 32
    ∧ fieldAt (statusPage s n) 24 1 = n := by
  refine ⟨by simp [statusPage], ?_, ?_, ?_, ?_, ?_⟩
  all_goals simp [statusPage, fieldAt_append_right, fieldAt_leB, Nat.mod_eq_of_lt, phaseNum_lt, hn, available, accountSize]

theorem healthPage_fields (s : State) : (healthPage s).length = 64 ∧ fieldAt (healthPage s) 0 1 = mediaNum s.arr.media
    ∧ fieldAt (healthPage s) 8 4 = 20972 ∧ fieldAt (healthPage s) 12 4 = playaFree s % 2 ^ 32
    ∧ fieldAt (healthPage s) 48 4 = s.arr.ceTotal % 2 ^ 32 ∧ fieldAt (healthPage s) 52 4 = s.arr.ucTotal % 2 ^ 32 := by
  refine ⟨by simp [healthPage], ?_, ?_, ?_, ?_, ?_⟩
  all_goals simp [healthPage, fieldAt_append_right, fieldAt_leB, Nat.mod_eq_of_lt, mediaNum_lt]

theorem cmdGetStatus_status (q : Nat) (h : pf c 0 1 = 0) (hs : s.vtf.sanitize = none) :
    cmdGetStatus c q s = answer c .ok 0 (statusPage s 100) s := by
  simp only [cmdGetStatus, h, hs]
  rfl

theorem cmdGetStatus_health (q : Nat) (h : pf c 0 1 = 1) : cmdGetStatus c q s = answer c .ok 0 (healthPage s) s := by
  simp only [cmdGetStatus, h]

/-- The queue that GET_STATUS itself heads is empty in its answer (R326). -/
theorem cmdGetStatus_queues {p : QPkt} (q : Nat) (h : pf c 0 1 = 2) (hq : queueOf s q = [p]) :
    cmdGetStatus c q s = answer c .ok 0 ((List.range 64).flatMap fun k => leB 4 (qstatWord (setQueue s q []) k)) s := by
  simp only [cmdGetStatus, h, hq, List.tail_cons]

theorem cmdGetStatus_badPage (q : Nat) (h : 2 < pf c 0 1) : cmdGetStatus c q s = answer c .badParam 0 [] s := by
  simp only [cmdGetStatus]
  split
  case h_4 => rfl
  all_goals omega

/-! ## ATTEST (R209, R267) -/

/-- The report up to its nonce. -/
theorem attestReport_eq (s : State) (nonce : List Byte) : ∃ hk pol rest, attestReport s nonce =
    leB 4 0x54415A5A ++ (leB 1 1 ++ (leB 1 (lifeNum s.vtf.life) ++ (leB 1 s.vtf.debug ++ (leB 1 (mediaNum s.arr.media)
      ++ (Config.devId.toList ++ (leB 1 0xB0 ++ (leB 1 (variantNum s) ++ (leB 1 hk ++ (zeros 1 ++ (leB 4 pol ++ (leB 8 s.dtime
      ++ (nonce ++ rest)))))))))))) := by
  unfold attestReport
  extract_lets hk owned
  simp only [List.append_assoc]
  exact ⟨hk, _, _, rfl⟩

theorem attestReport_fields (s : State) (nonce : List Byte) : fieldAt (attestReport s nonce) 0 4 = 0x54415A5A
    ∧ fieldAt (attestReport s nonce) 5 1 = lifeNum s.vtf.life ∧ fieldAt (attestReport s nonce) 6 1 = s.vtf.debug % 256
    ∧ bytesAt (attestReport s nonce) 8 8 = Config.devId.toList ∧ fieldAt (attestReport s nonce) 24 8 = s.dtime % 2 ^ 64
    ∧ (nonce.length = 32 → bytesAt (attestReport s nonce) 32 32 = nonce) := by
  obtain ⟨hk, pol, rest, h⟩ := attestReport_eq s nonce
  rw [h]
  refine ⟨?_, ?_, ?_, ?_, ?_, fun hn => ?_⟩
  all_goals simp [fieldAt_append_right, bytesAt_append_right, fieldAt_leB, bytesAt_append_left, Nat.mod_eq_of_lt, lifeNum_lt, *]

theorem cmdAttest_report (h : pf c 32 1 = 0) : cmdAttest c s = answer c .ok 0
    (attestReport s (bytesAt c.plain 0 32) ++ (Config.dikSign (attestReport s (bytesAt c.plain 0 32))).toList) s := by
  simp only [cmdAttest, h]

theorem cmdAttest_cert (h : pf c 32 1 = 1 ∨ pf c 32 1 = 2) : cmdAttest c s = answer c .ok 0 (Config.cert (pf c 32 1)) s := by
  rcases h with h | h <;> simp only [cmdAttest, h]

theorem cmdAttest_badKind (h : 2 < pf c 32 1) : cmdAttest c s = answer c .badParam 0 [] s := by
  simp only [cmdAttest]
  split
  case h_4 => rfl
  all_goals omega

/-! ## STREAM_INFO (R275) -/

theorem infoBytes_fields (s : State) (sid : Nat) (st : Stream) : (infoBytes s sid st).length = 64
    ∧ fieldAt (infoBytes s sid st) 0 4 = sid % 2 ^ 32 ∧ fieldAt (infoBytes s sid st) 4 1 = sstateNum st.st
    ∧ fieldAt (infoBytes s sid st) 5 1 = clsCode st.attr.cls ∧ fieldAt (infoBytes s sid st) 8 4 = st.gen % 2 ^ 32
    ∧ fieldAt (infoBytes s sid st) 24 8 = st.first % 2 ^ 64 ∧ fieldAt (infoBytes s sid st) 32 8 = (st.next - 1) % 2 ^ 64
    ∧ fieldAt (infoBytes s sid st) 40 8 = horizon s st % 2 ^ 64 ∧ fieldAt (infoBytes s sid st) 48 4 = st.segs.length % 2 ^ 32 := by
  refine ⟨by simp [infoBytes], ?_, ?_, ?_, ?_, ?_, ?_, ?_, ?_⟩
  all_goals simp [infoBytes, fieldAt_append_right, fieldAt_leB, Nat.mod_eq_of_lt, sstateNum_lt, clsCode_lt]

theorem streamOf_loaded (h : loadCtx sid s = some t) (k : Nat) : streamOf t k = streamOf s k := by
  have hstore : t.store = s.store := (loadCtx_loaded h).only .store (by decide)
  simp only [streamOf, hstore]

theorem cmdInfo_noStream (h : streamOf s (pf c 0 4) = none) : cmdInfo c s = answer c .noStream 0 [] s := by
  simp only [cmdInfo, h, reject]

theorem cmdInfo_answer (h : streamOf s (pf c 0 4) = some st) (hctx : loadCtx (pf c 0 4) s = some t) :
    cmdInfo c s = answer c .ok 0 (infoBytes t (pf c 0 4) st) t := by
  simp only [cmdInfo, h, hctx, streamOf_loaded hctx]

/-! ## FAULT_READ (R281) -/

theorem histBytes_length (e : HistEntry) : (histBytes e).length = 16 := by simp [histBytes]

theorem latchPage_fields {first : List Byte} (latch : BitVec 96) (n flags : Nat) (h : first.length = 16) :
    let data := first ++ leB 12 latch.toNat ++ leB 1 n ++ leB 1 flags ++ zeros 2
    data.length = 32 ∧ fieldAt data 16 12 = latch.toNat ∧ fieldAt data 28 1 = n % 256 := by
  refine ⟨by simp [h], ?_, ?_⟩
  all_goals simp [h, fieldAt_append_right, fieldAt_leB, Nat.mod_eq_of_lt, latch.isLt]

theorem cmdFaultRead_latches (h : pf c 0 1 = 0) : ∃ data, cmdFaultRead c s = answer c .ok 0 data s ∧ data.length = 32
    ∧ fieldAt data 16 12 = s.flt.latch.toNat ∧ fieldAt data 28 1 = s.flt.hist.length % 256 := by
  cases hfirst : s.flt.first with
  | none =>
    refine ⟨_, ?_, latchPage_fields s.flt.latch s.flt.hist.length (b2n s.flt.hovf + 2 * b2n (faultN s)) (zeros_length 16)⟩
    simp only [cmdFaultRead, h, hfirst]
  | some e =>
    refine ⟨_, ?_, latchPage_fields s.flt.latch s.flt.hist.length (b2n s.flt.hovf + 2 * b2n (faultN s)) (histBytes_length e)⟩
    simp only [cmdFaultRead, h, hfirst]

theorem cmdFaultRead_history (h : pf c 0 1 = 1) (hstart : pf c 1 1 ≤ 31) (hmin : 1 ≤ pf c 2 1) (hmax : pf c 2 1 ≤ 32) :
    cmdFaultRead c s = answer c .ok ((s.flt.hist.drop (pf c 1 1)).take (pf c 2 1)).length
      (((s.flt.hist.drop (pf c 1 1)).take (pf c 2 1)).flatMap histBytes) s := by
  have hok : ¬(31 < pf c 1 1 ∨ pf c 2 1 = 0 ∨ 32 < pf c 2 1) := by omega
  simp only [cmdFaultRead, h, if_neg hok]

/-! ## STREAM_READ (R55 to R57, R123, R271, R272) -/

theorem liveStream_eq_some (h : liveStream s sid = some st) : streamOf s sid = some st ∧ st.st ≠ .deleting := by
  simp only [liveStream] at h
  split at h
  · split at h
    · simp at h
    · next v hv hdel => obtain rfl := Option.some.inj h; exact ⟨hv, hdel⟩
  · simp at h

/-- A read takes its items from the first on. -/
theorem takeItems_prefix (m b n : Nat) (l : List ReadItem) : (takeItems m b n l).1 <+: l := by
  induction l generalizing m n with
  | nil => exact List.prefix_rfl
  | cons a l ih =>
    simp only [takeItems]
    split
    · exact List.nil_prefix
    · split
      · exact List.nil_prefix
      · split
        · exact List.prefix_append [a] l
        · exact (List.prefix_cons_inj a).2 (ih _ _)

/-- What a read takes fits its limit of bytes. -/
theorem takeItems_fits (m b n : Nat) (l : List ReadItem) (h : n ≤ b) : n + ((takeItems m b n l).1.flatMap (·.bytes)).length ≤ b := by
  induction l generalizing m n with
  | nil => exact h
  | cons a l ih =>
    simp only [takeItems]
    split
    · exact h
    · split
      · exact h
      · next hfit =>
        have hle : n + a.bytes.length ≤ b := by omega
        split
        · simpa using hle
        · have := ih (m - 1) (n + a.bytes.length) hle
          simp only [List.flatMap_cons, List.length_append]
          omega

/-- The records that a read in record mode asks for (R55). -/
def readWanted (c : Ctx) (st : Stream) (s : State) : List Rec :=
  if (pf c 4 1).testBit 0 then (st.recs.filter fun r => readable s st r).dropWhile fun r => decide (r.ts < pf c 8 8)
  else (st.recs.filter fun r => readable s st r).filter fun r => decide (pf c 8 8 ≤ r.seq)

/-- A record as a read returns it (R56). -/
def readItem (s : State) (sid : Nat) (r : Rec) : ReadItem :=
  { seq := r.seq, bytes := recRead s sid r, held := false, bad := recFaulty s sid r }

theorem readWanted_sublist (c : Ctx) (st : Stream) (s : State) : (readWanted c st s).Sublist (st.recs.filter fun r => readable s st r) := by
  simp only [readWanted]
  split
  · exact List.dropWhile_sublist _
  · exact List.filter_sublist

theorem mem_readWanted {r : Rec} (h : r ∈ readWanted c st s) :
    readable s st r = true ∧ ((pf c 4 1).testBit 0 = false → pf c 8 8 ≤ r.seq) := by
  refine ⟨(List.mem_filter.1 ((readWanted_sublist c st s).subset h)).2, fun hseq => ?_⟩
  simp only [readWanted, hseq, Bool.false_eq_true, if_false] at h
  simpa using (List.mem_filter.1 h).2

theorem heldRecs_of_none (sid : Nat) (h : ∀ y ∈ s.store.halves.toList, y.held = false) : heldRecs s sid = [] := by
  refine List.flatMap_eq_nil_iff.2 fun n hn => ?_
  have hfree := h _ (mem_toList_of_lt s.store.halves n ((mem_halvesByAge s n).1 hn))
  simp only [hfree, Bool.false_eq_true, if_false]

/-- A read in record mode answers with 16 bytes and what it takes of the wanted records and, after them, of held ones; or with nothing. -/
theorem readRecords_answer (c : Ctx) (sid : Nat) (st : Stream) (s : State) : ∃ sts res data held,
    readRecords c sid st s = answer c sts res data s ∧ (heldRecs s sid = [] → held = [])
    ∧ (data = [] ∨ ∃ head : List Byte, head.length = 16 ∧ data = head ++ (takeItems (pf c 16 4) (pf c 20 4) 0
        ((readWanted c st s).map (readItem s sid) ++ held)).1.flatMap (·.bytes)) := by
  unfold readRecords
  extract_lets byTime start maxRec maxBytes hz retained ok merged items last reaches heldAll held all out ended gap lastM lo hi skipW skipL flags
    firstN data
  have hheld (h : heldRecs s sid = []) : (held.map fun r =>
      ({ seq := 2 ^ 47 + r.index, bytes := heldStored r, held := true, bad := false } : ReadItem)) = [] := by
    simp [held, heldAll, h]
  have hdata : ∃ head : List Byte, head.length = 16 ∧ data = head ++ out.1.flatMap (·.bytes) := ⟨_, by simp, rfl⟩
  split
  · exact ⟨_, _, _, _, rfl, hheld, .inl rfl⟩
  · split
    · exact ⟨_, _, _, _, rfl, hheld, .inr hdata⟩
    · exact ⟨_, _, _, _, rfl, hheld, .inr hdata⟩

/-- What a read in record mode returns: readable records in order, then held ones, within its limit of bytes. -/
theorem readRecords_records (c : Ctx) (sid : Nat) (st : Stream) (s : State) : ∃ (sts : Status) (res : Nat) (data e : List Byte) (l : List Rec),
    readRecords c sid st s = answer c sts res data s ∧ l.Sublist st.recs
    ∧ (∀ r ∈ l, readable s st r = true ∧ ((pf c 4 1).testBit 0 = false → pf c 8 8 ≤ r.seq))
    ∧ data.drop 16 = l.flatMap (recRead s sid) ++ e ∧ data.length ≤ 16 + pf c 20 4
    ∧ ((∀ y ∈ s.store.halves.toList, y.held = false) → e = []) := by
  obtain ⟨sts, res, data, held, hanswer, hheld, rfl | ⟨head, hlen, rfl⟩⟩ := readRecords_answer c sid st s
  · exact ⟨sts, res, [], [], [], hanswer, List.nil_sublist _, by simp, rfl, Nat.zero_le _, fun _ => rfl⟩
  · have hpre := takeItems_prefix (pf c 16 4) (pf c 20 4) 0 ((readWanted c st s).map (readItem s sid) ++ held)
    have hfits := takeItems_fits (pf c 16 4) (pf c 20 4) 0 ((readWanted c st s).map (readItem s sid) ++ held) (Nat.zero_le _)
    generalize (takeItems (pf c 16 4) (pf c 20 4) 0 ((readWanted c st s).map (readItem s sid) ++ held)).1 = out at hanswer hpre hfits
    have hout := List.prefix_iff_eq_take.1 hpre
    rw [List.take_append, ← List.map_take] at hout
    refine ⟨sts, res, _, (held.take (out.length - ((readWanted c st s).map (readItem s sid)).length)).flatMap (·.bytes),
      (readWanted c st s).take out.length, hanswer, ?_, fun r hr => mem_readWanted (List.mem_of_mem_take hr), ?_, ?_, fun hnone => ?_⟩
    · exact (List.take_sublist _ _).trans ((readWanted_sublist c st s).trans List.filter_sublist)
    · rw [List.drop_left' hlen]
      conv_lhs => rw [hout]
      rw [List.flatMap_append, List.flatMap_map]
      rfl
    · rw [List.length_append, hlen]
      omega
    · rw [hheld (heldRecs_of_none sid hnone), List.take_nil, List.flatMap_nil]

theorem cmdRead_live (hmin : 48 ≤ pf c 20 4) (hmax : pf c 20 4 ≤ 1048576) (h : liveStream s (pf c 0 4) = some st)
    (hctx : loadCtx (pf c 0 4) s = some t) :
    cmdRead c s = if (pf c 4 1).testBit 1 then readImage c st t else readRecords c (pf c 0 4) st t := by
  have hok : ¬(pf c 20 4 < 48 ∨ 1048576 < pf c 20 4) := by omega
  simp only [cmdRead, if_neg hok, h, hctx]

/-- The image of a segment whole, of which no stream is deleted and no codeword is uncorrectable (R272). -/
theorem readImage_whole {g : SegSt} (hseg : segOf s (pf c 8 4) = some g) (hmem : pf c 8 4 ∈ st.segs) (hrecs : recsIn st (pf c 8 4) ≠ [])
    (hmax : 262144 ≤ pf c 20 4) (hdead : g.dead = []) (hbad : g.uncorr = []) :
    readImage c st s = answer c .ok 0 (segImage s (pf c 8 4) g) s := by
  have hin : ¬((!st.segs.contains (pf c 8 4)) = true ∨ recsIn st (pf c 8 4) = []) := by simp [hmem, hrecs]
  have hlong : ¬(pf c 20 4 < 262144) := by omega
  have hown : ¬(g.kind = .shared ∧ g.dead ≠ []) := by simp [hdead]
  simp only [readImage, hseg, if_neg hin, if_neg hlong, if_neg hown, hbad, argMin]

/-- Settles O39: an admitted query is carried out by its command, whose answer is read off field by field. -/
theorem queriesAnswer : Obligations.QueriesAnswer := by
  intro s s2 s1 x c st g sid
  refine ⟨fun h => ?identify, fun h => ⟨fun hp hs => ?status, fun hp => ?health, fun hp => ?queues, fun hp => ?badPage⟩,
    fun h => ⟨fun hp => ?report, fun hp => ?cert, fun hp => ?badKind⟩, fun h => ⟨fun hst => ?noStream, fun hst hctx => ?info⟩,
    fun h hmin hmax hlive hctx => ⟨fun hmode => ?records, fun hmode hseg hmem hrecs hlong hdead hbad => ?image⟩,
    fun h => ⟨fun hp => ?latches, fun hp hstart hn hn' => ?history⟩⟩
  case identify =>
    obtain ⟨data, hd, hfields⟩ := cmdIdentify_answer c s2
    exact ⟨data, exec_of_answer rfl identify_carriedOut h hd, hfields⟩
  case status => exact ⟨_, exec_of_answer rfl getStatus_carriedOut h (cmdGetStatus_status _ hp hs), statusPage_fields s2 100 (by decide)⟩
  case health => exact ⟨_, exec_of_answer rfl getStatus_carriedOut h (cmdGetStatus_health _ hp), healthPage_fields s2⟩
  case queues => exact exec_of_answer rfl getStatus_carriedOut h (cmdGetStatus_queues _ hp (admittedState_of h).queue)
  case badPage => exact exec_of_answer rfl getStatus_carriedOut h (cmdGetStatus_badPage _ hp)
  case report =>
    obtain ⟨hmagic, hlife, hdebug, hdev, htime, hnonce⟩ := attestReport_fields s2 (bytesAt c.plain 0 32)
    exact ⟨_, exec_of_answer rfl attest_carriedOut h (cmdAttest_report hp), hmagic, hlife, hdebug, hdev, htime, hnonce⟩
  case cert => exact exec_of_answer rfl attest_carriedOut h (cmdAttest_cert hp)
  case badKind => exact exec_of_answer rfl attest_carriedOut h (cmdAttest_badKind hp)
  case noStream => exact exec_of_answer rfl streamInfo_carriedOut h (cmdInfo_noStream hst)
  case info => exact ⟨_, exec_of_answer rfl streamInfo_carriedOut h (cmdInfo_answer hst hctx), infoBytes_fields s1 sid st⟩
  case records =>
    obtain ⟨sts, res, data, e, l, hd, hrest⟩ := readRecords_records c sid st s1
    have hcmd : cmdRead c s2 = answer c sts res data s1 := by
      rw [cmdRead_live hmin hmax hlive hctx, hmode]
      exact hd
    exact ⟨sts, res, data, e, l, exec_of_answer rfl streamRead_carriedOut h hcmd, hrest⟩
  case image =>
    refine exec_of_answer rfl streamRead_carriedOut h ?_
    rw [cmdRead_live hmin hmax hlive hctx, hmode]
    exact readImage_whole hseg hmem hrecs hlong hdead hbad
  case latches =>
    obtain ⟨data, hd, hfields⟩ := cmdFaultRead_latches hp
    exact ⟨data, exec_of_answer rfl faultRead_carriedOut h hd, hfields⟩
  case history => exact exec_of_answer rfl faultRead_carriedOut h (cmdFaultRead_history hp hstart hn hn')

end Sys2Proof.Machine
end

section
/-! SUPPORT. What the entry of one stream keeps through what goes on behind a command: its state, its numbers and its keys. -/
namespace Sys2Proof.Machine
open Sys2Proof

variable {s t u : State} {sid : Nat} {β : Type} {p : Stream → β}

/-! ## A value read off the entry of a stream -/

/-- A value read off the entry of a stream is the same in two states, and so is whether the stream has an entry. -/
def ReadsSame (p : Stream → β) (sid : Nat) (s t : State) : Prop := (streamOf t sid).map p = (streamOf s sid).map p

theorem ReadsSame.refl (p : Stream → β) (sid : Nat) (s : State) : ReadsSame p sid s s := rfl

/-- The steps in the order of the terms: the later one first. -/
theorem ReadsSame.after (k : ReadsSame p sid t u) (h : ReadsSame p sid s t) : ReadsSame p sid s u := Eq.trans k h

theorem ReadsSame.of_streamOf (h : streamOf t sid = streamOf s sid) : ReadsSame p sid s t := congrArg (Option.map p) h

theorem ReadsSame.of_only {l : List Region} (h : OnlyIn l s t) (hl : Region.store ∉ l) : ReadsSame p sid s t :=
  .of_streamOf (congrArg (fun x : StoreSt => look sid x.streams) (h .store hl))

theorem ReadsSame.foldl {α : Type} (f : State → α → State) (h : ∀ t a, ReadsSame p sid t (f t a)) (as : List α) (s : State) :
    ReadsSame p sid s (as.foldl f s) := by
  induction as generalizing s with
  | nil => exact ReadsSame.refl p sid s
  | cons a as ih => exact .after (ih (f s a)) (h s a)

theorem ReadsSame.entry {st : Stream} (h : ReadsSame p sid s t) (hst : streamOf s sid = some st) :
    ∃ v, streamOf t sid = some v ∧ p v = p st := by
  simpa only [ReadsSame, hst, Option.map_some, Option.map_eq_some_iff] using h

/-- An entry changed in what is not read. -/
theorem updStream_readsSame (k : Nat) (f : Stream → Stream) (s : State) (hf : ∀ st, p (f st) = p st) :
    ReadsSame p sid s (updStream s k f) := by
  simp only [ReadsSame, streamOf_updStream]
  split
  · next hk => rw [hk, Option.map_map, show p ∘ f = p from funext hf]
  · rfl

/-! ## Device records and the media state leave every stream but stream 0 (R43) -/

theorem addRec_streamOf (k : Nat) (r : Rec) (s : State) (h : sid ≠ k) : streamOf (addRec k r s) sid = streamOf s sid := by
  simp only [addRec]
  split
  · rfl
  · exact look_put_other _ _ _ _ h

theorem writeDev_streamOf (payload : List Byte) (job : Option Nat) (s : State) (h : sid ≠ 0) :
    streamOf (writeDev payload job s) sid = streamOf s sid := by
  simp only [writeDev]
  split
  · rfl
  · split
    · exact addRec_streamOf 0 _ s h
    · rfl

theorem mediaTo_streamOf (dst : Media) (cause subj : Nat) (s : State) (h : sid ≠ 0) :
    streamOf (mediaTo dst cause subj s) sid = streamOf s sid := by
  unfold mediaTo
  extract_lets arr s1 body pay j s2 s3
  have h2 : streamOf s2 sid = streamOf s sid := by
    dsimp only [s2]
    split
    · rfl
    · exact writeDev_streamOf _ _ _ h
  have hstore : s3.store = s2.store := by
    dsimp only [s3]
    split
    · exact raiseFault_only _ _ _ .store (by decide)
    · exact raiseFault_only _ _ _ .store (by decide)
    · rfl
  have hmsg : (mediaMsg s3).store = s3.store := formMsg_only _ _ s3 .store (by decide)
  rw [← h2]
  simp only [streamOf, hmsg, hstore]

theorem mediaTest_streamOf (s : State) (h : sid ≠ 0) : streamOf (mediaTest s) sid = streamOf s sid := by
  rcases mediaTest_cases s with hs | ⟨cause, -, hs⟩
  · rw [hs]
  · rw [hs, mediaTo_streamOf _ _ _ s h]

/-! ## Reclaim keeps state and numbers (R58) -/

/-- State, first retained number and next number of a stream. -/
def lifeOf (st : Stream) : SState × Nat × Nat := (st.st, st.first, st.next)

theorem pruneKeys_life (k : Nat) (s : State) : ReadsSame lifeOf sid s (pruneKeys k s) := by
  simp only [pruneKeys]
  split
  · exact ReadsSame.refl _ _ _
  · split
    · exact ReadsSame.refl _ _ _
    · exact .after (.of_only (dropKeys_only _ _) (by decide)) (updStream_readsSame k _ s fun _ => rfl)

theorem freeSeg_life (g : Nat) (s : State) (h : sid ≠ 0) : ReadsSame lifeOf sid s (freeSeg g s) := by
  cases hx : segOf s g with
  | none => simp only [freeSeg, hx]; exact ReadsSame.refl _ _ _
  | some x =>
    have hdrop := ReadsSame.foldl (p := lifeOf) (sid := sid) (fun t k => updStream t k (dropSegRecs g))
      (fun t k => updStream_readsSame k _ t fun _ => rfl) x.sids s
    have hprune := ReadsSame.foldl (p := lifeOf) (sid := sid) (fun t k => pruneKeys k t) (fun t k => pruneKeys_life k t) x.sids
      (x.sids.foldl (fun t k => updStream t k (dropSegRecs g)) s)
    have hgone : ReadsSame lifeOf sid s (segRecordsGone g x.sids s) := hprune.after hdrop
    rw [freeSeg_of_some g x s hx]
    exact .after (.of_streamOf (mediaTest_streamOf _ h)) (.after (.of_only (unmapSeg_only g _) (by decide)) hgone)

theorem reclaim_life (k : Nat) (s : State) (h : sid ≠ 0) : ReadsSame lifeOf sid s (reclaim k s) := by
  simp only [reclaim]
  split
  · exact ReadsSame.refl _ _ _
  · exact ReadsSame.foldl _ (fun t g => freeSeg_life g t h) _ s

/-! ## Seals and placed records keep state, numbers and keys -/

/-- State, numbers and keys of a stream. -/
def headOf (st : Stream) : (SState × Nat × Nat) × List Nat := (lifeOf st, st.keys)

/-- The head of a stream and the key table are the same in two states. -/
structure HeadKept (sid : Nat) (s t : State) : Prop where
  head : ReadsSame headOf sid s t
  keys : t.vtf.keys = s.vtf.keys

theorem HeadKept.refl (sid : Nat) (s : State) : HeadKept sid s s := ⟨rfl, rfl⟩

/-- The steps in the order of the terms: the later one first. -/
theorem HeadKept.after (k : HeadKept sid t u) (h : HeadKept sid s t) : HeadKept sid s u := ⟨k.head.after h.head, k.keys.trans h.keys⟩

theorem HeadKept.of_only {l : List Region} (h : OnlyIn l s t) (hs : Region.store ∉ l) (hv : Region.vtf ∉ l) : HeadKept sid s t :=
  ⟨.of_only h hs, congrArg Trust.keys (h .vtf hv)⟩

/-- An entry of any stream changed outside its head. -/
theorem updStream_headKept (k : Nat) (f : Stream → Stream) (s : State) (hf : ∀ st, headOf (f st) = headOf st) :
    HeadKept sid s (updStream s k f) :=
  ⟨updStream_readsSame k f s hf, congrArg Trust.keys (updStream_only s k f .vtf (by decide))⟩

theorem HeadKept.foldl {α : Type} (f : State → α → State) (h : ∀ t a, HeadKept sid t (f t a)) (as : List α) (s : State) :
    HeadKept sid s (as.foldl f s) := by
  induction as generalizing s with
  | nil => exact HeadKept.refl sid s
  | cons a as ih => exact .after (ih (f s a)) (h s a)

theorem HeadKept.iter (f : State → State) (h : ∀ t, HeadKept sid t (f t)) (n : Nat) (s : State) : HeadKept sid s (iter f n s) := by
  induction n generalizing s with
  | zero => exact HeadKept.refl sid s
  | succ n ih => exact .after (ih (f s)) (h s)

theorem updJob_only (j : Nat) (f : Job → Job) (s : State) : OnlyIn [.eng] s (updJob s j f) := by
  intro r hr; cases r <;> simp_all [sameIn, updJob]

theorem newJob_only (n : Nat) (l : List Reply) (b : Bool) (k : JobKind) (s : State) : OnlyIn [.eng] s (newJob n l b k s).2 := by
  intro r hr; cases r <;> simp_all [sameIn, newJob]

theorem updJob_headKept (j : Nat) (f : Job → Job) (s : State) : HeadKept sid s (updJob s j f) :=
  .of_only (updJob_only j f s) (by decide) (by decide)

theorem ackRec_headKept (k seq : Nat) (s : State) : HeadKept sid s (ackRec k seq s) := by
  simp only [ackRec]
  split
  · exact HeadKept.refl sid s
  · split
    · exact HeadKept.refl sid s
    · obtain ⟨head, keys⟩ := updStream_headKept (sid := sid) k
        (fun st => { st with recs := st.recs.map fun r => if r.seq = seq then { r with acked := true } else r }) s fun _ => rfl
      exact ⟨head, keys⟩

theorem finishJob_headKept (j : Nat) (s : State) : HeadKept sid s (finishJob j s) := by
  simp only [finishJob]
  split
  · exact HeadKept.refl sid s
  · next x _ =>
    have hack : HeadKept sid s (if x.kind = .append then ackJob j s else s) := by
      split
      · exact HeadKept.foldl _ (fun t (e : Nat × Nat) => ackRec_headKept e.1 e.2 t) _ s
      · exact HeadKept.refl sid s
    exact .after (HeadKept.foldl _ (fun t r => .of_only (formReply_only r t) (by decide) (by decide)) _ _) ⟨hack.head, hack.keys⟩

theorem issueSeal_keys (s : State) : (issueSeal s).2.vtf.keys = s.vtf.keys := by
  simp only [issueSeal]
  split <;> rfl

theorem sealSegment_headKept (g cause : Nat) (job : Option Nat) (s : State) : HeadKept sid s (sealSegment g cause job s).2 := by
  unfold sealSegment
  split
  · exact HeadKept.refl sid s
  · split
    · exact HeadKept.refl sid s
    · extract_lets v base info s1 arr s2 s3 cws
      have hissue : HeadKept sid s v.2 := ⟨.of_only (issueSeal_only s) (by decide), issueSeal_keys s⟩
      have h1 : HeadKept sid s s1 := .after (.of_only (updSeg_only _ _ _) (by decide) (by decide)) hissue
      have h3 : HeadKept sid s2 s3 := by
        dsimp only [s3]
        split
        · exact updStream_headKept _ _ _ fun _ => rfl
        · exact HeadKept.refl sid s2
      exact .after (HeadKept.foldl _ (fun t k => .of_only (issueWrite_only g k false job t) (by decide) (by decide)) cws s3)
        (h3.after ⟨h1.head, h1.keys⟩)

theorem settleSeals_headKept (s : State) : HeadKept sid s (settleSeals s) := by
  refine HeadKept.foldl _ (fun t j => ?_) _ s
  split
  · split
    · exact HeadKept.refl sid t
    · dsimp only
      split
      · split
        · exact .after (finishJob_headKept _ _) (updJob_headKept _ _ _)
        · exact .after (updJob_headKept _ _ _) (sealSegment_headKept _ _ _ t)
      · exact HeadKept.refl sid t
  · exact HeadKept.refl sid t

theorem placeIn_headKept (g k : Nat) (r : Rec) (s : State) : HeadKept sid s (placeIn g k r s) := by
  unfold placeIn
  split
  case h_2 => exact HeadKept.refl sid s
  extract_lets size off fill first last cws prev s1 s2 s3 s4
  have h3 : HeadKept sid s s3 :=
    .after (updStream_headKept _ _ _ fun _ => rfl) (.after (updStream_headKept _ _ _ fun _ => rfl)
      (.of_only (updSeg_only s g _) (by decide) (by decide)))
  have h4 : HeadKept sid s s4 :=
    .after (HeadKept.foldl _ (fun t k => .of_only (issueWrite_only g k false none t) (by decide) (by decide)) _ s3) h3
  split
  · exact .after (.of_only (issueWrite_only g last true none s4) (by decide) (by decide)) h4
  · exact h4

theorem openSegOn_headKept {k d g : Nat} {st : Stream} {w : Draw} (h : openSegOn s k st d w = some (g, t)) : HeadKept sid s t := by
  have harr (a : ArraySt) : HeadKept sid s { s with arr := a } := ⟨rfl, rfl⟩
  simp only [openSegOn] at h
  split at h
  · simp at h
  · obtain ⟨-, rfl⟩ := Prod.mk.inj (Option.some.inj h)
    split
    · exact harr _
    · exact .after (updStream_headKept _ _ _ fun _ => rfl) (harr _)

theorem placeNext_headKept (k : Nat) (r : Rec) (o : Option Nat) (d : Nat) (s : State) : HeadKept sid s (placeNext k r o d s) := by
  simp only [placeNext]
  split
  · exact placeIn_headKept _ k r s
  · split
    · exact HeadKept.refl sid s
    · next st _ =>
      have hseal : HeadKept sid s (match openSegOf s st with | some old => (sealSegment old 1 none s).2 | none => s) := by
        split
        · exact sealSegment_headKept _ _ _ s
        · exact HeadKept.refl sid s
      split
      · exact HeadKept.refl sid s
      · next hopen => exact .after (placeIn_headKept _ k r _) (.after (openSegOn_headKept hopen) hseal)

theorem placeStream_headKept (k : Nat) (s : State) : HeadKept sid s (placeStream k s) := by
  refine HeadKept.iter _ (fun t => ?_) _ s
  split
  · exact HeadKept.refl sid t
  · split
    · exact HeadKept.refl sid t
    · exact placeNext_headKept _ _ _ _ t

theorem writeDev_headKept (payload : List Byte) (job : Option Nat) (s : State) (h : sid ≠ 0) : HeadKept sid s (writeDev payload job s) :=
  ⟨.of_streamOf (writeDev_streamOf payload job s h), congrArg Trust.keys (writeDev_only payload job s .vtf (by decide))⟩

end Sys2Proof.Machine
end

section
/-! SUPPORT. What each stream command leaves of its stream where its own checks pass; and the statement on stream commands. -/
namespace Sys2Proof.Machine
open Sys2Proof

variable {s t s1 s2 : State} {x : CmdIn} {c : Ctx} {st : Stream} {sid : Nat} {a : Attr}

/-! ## STREAM_CREATE (R29 to R31, R201, R268) -/

theorem freeSid_ne_zero (s : State) : freeSid s ≠ 0 := by
  have key (l : List Nat) (n : Nat) (hn : n ≠ 0) : l.foldl (fun c k => if k = c then c + 1 else c) n ≠ 0 := by
    induction l generalizing n with
    | nil => exact hn
    | cons k l ih =>
      rw [List.foldl_cons]
      split
      · exact ih _ (Nat.succ_ne_zero n)
      · exact ih _ hn
  exact key _ 1 (by decide)

/-- A stream as STREAM_CREATE makes it, with the key that is next. -/
structure CreatedAs (a : Attr) (gen key : Nat) (v : Stream) : Prop where
  attr : v.attr = a
  st : v.st = .closed
  first : v.first = 1
  next : v.next = 1
  recs : v.recs = []
  keys : v.keys = [key]
  gen : v.gen = gen

theorem makeStream_created (sid : Nat) (a : Attr) (s : State) :
    ∃ v, streamOf (makeStream sid a s) sid = some v ∧ CreatedAs a ((look sid s.store.gens).getD 0 + 1) s.vtf.nextKey v :=
  ⟨_, look_put_same _ _ _, rfl, rfl, rfl, rfl, rfl, rfl, rfl⟩

/-- The stream that a creation names, or the lowest free one. -/
def createSid (c : Ctx) (s : State) : Nat := if pf c 0 4 = 0 then freeSid s else pf c 0 4

theorem createSid_ne_zero (c : Ctx) (s : State) : createSid c s ≠ 0 := by
  simp only [createSid]
  split
  · exact freeSid_ne_zero s
  · assumption

/-- What a creation leaves: the stream made, and a job that answers once its CREATE record is written. -/
def created (c : Ctx) (sid : Nat) (a : Attr) (s : State) : State :=
  let s1 := makeStream sid a s
  let j := newJob 1 [ctxReply c .ok sid []] false .plain s1
  createRec sid ((look sid s1.store.gens).getD 1) a (some j.1) j.2

theorem cmdCreate_fin (ha : createAttr c = some a) (hsid : pf c 0 4 = 0 ∨ streamOf s (pf c 0 4) = none)
    (hroom : s.store.streams.length < 1048576) (hearly : a.early = true → s.store.earlyList.length < 256) (hmedia : s.arr.media ≠ .readonly)
    (htakes : stream0Takes s 40 = true) (hdrbg : s.vtf.drbgOk = true) (hent : s.vtf.entFail = false) :
    cmdCreate c s = .fin (created c (createSid c s) a s) := by
  have hnew : ¬(pf c 0 4 ≠ 0 ∧ (streamOf s (pf c 0 4)).isSome = true) := by
    rintro ⟨hne, hsome⟩
    simp [hsid.resolve_left hne] at hsome
  have hfew : ¬1048576 ≤ s.store.streams.length := by omega
  have hlist : ¬(a.early = true ∧ 256 ≤ s.store.earlyList.length) := fun ⟨he, hn⟩ => by have := hearly he; omega
  have hready : drbgReady s = true := by simp [drbgReady, hdrbg, hent]
  simp only [cmdCreate, ha, if_neg hnew, if_neg hfew, if_neg hlist, if_neg hmedia, htakes, hready, Bool.not_true, Bool.false_eq_true, if_false]
  rfl

theorem created_stream (c : Ctx) (a : Attr) (s : State) (h : sid ≠ 0) : ∃ v, streamOf (created c sid a s) sid = some v
    ∧ CreatedAs a ((look sid s.store.gens).getD 0 + 1) s.vtf.nextKey v := by
  obtain ⟨v, hv, hcreated⟩ := makeStream_created sid a s
  exact ⟨v, (writeDev_streamOf _ _ _ h).trans hv, hcreated⟩

theorem cmdCreate_badParam (h : createAttr c = none) : cmdCreate c s = answer c .badParam 0 [] s := by
  simp only [cmdCreate, h, reject]

/-! ## STREAM_OPEN and STREAM_CLOSE (R31 to R33, R269) -/

theorem holdCtx_only (k : Nat) (b : Bool) (s : State) : OnlyIn [.eng] s (holdCtx k b s) := by
  intro r hr; cases r <;> simp_all [sameIn, holdCtx]

/-- A stream's entry changed with its context loaded: that entry, contexts and loads change, and nothing else. -/
theorem loaded_updStream (f : Stream → Stream) (b : Bool) (h : streamOf s sid = some st) (hctx : loadCtx sid s = some t) :
    streamOf (holdCtx sid b (updStream t sid f)) sid = some (f st) ∧ OnlyIn [.store, .eng, .prev] s (holdCtx sid b (updStream t sid f)) := by
  constructor
  · have hupd := streamOf_updStream_same t sid f
    rw [streamOf_loaded hctx, h] at hupd
    exact hupd
  · exact ((loadCtx_loaded hctx).only.trans (updStream_only t sid f) (n := [.store, .eng, .prev]) (by simp) (by simp)).trans
      (holdCtx_only sid b _) (by simp) (by simp)

theorem cmdOpen_answer (hmode : pf c 4 1 ≤ 1) (h : liveStream s (pf c 0 4) = some st) (hseal : st.st ≠ .sealed)
    (hheld : st.st = .opened ∨ pf c 0 4 = 0 ∨ heldCtx s < 3072) (hctx : loadCtx (pf c 0 4) s = some t) :
    cmdOpen c s = answer c .ok 0 [] (holdCtx (pf c 0 4) true
      (updStream t (pf c 0 4) fun x => { x with st := .opened, openArray := decide (pf c 4 1 = 1) })) := by
  have hm : ¬1 < pf c 4 1 := by omega
  have hroom : ¬(st.st ≠ .opened ∧ pf c 0 4 ≠ 0 ∧ 3072 ≤ heldCtx s) := by
    rintro ⟨ho, h0, hn⟩
    rcases hheld with h | h | h
    · exact ho h
    · exact h0 h
    · omega
  simp only [cmdOpen, if_neg hm, h, if_neg hseal, if_neg hroom, hctx]

theorem cmdOpen_noStream (hmode : pf c 4 1 ≤ 1) (h : liveStream s (pf c 0 4) = none) : cmdOpen c s = answer c .noStream 0 [] s := by
  have hm : ¬1 < pf c 4 1 := by omega
  simp only [cmdOpen, if_neg hm, h, reject]

theorem cmdClose_answer (h : liveStream s (pf c 0 4) = some st) (hctx : loadCtx (pf c 0 4) s = some t) :
    cmdClose c s = answer c .ok 0 [] (holdCtx (pf c 0 4) false
      (updStream t (pf c 0 4) fun x => { x with st := if x.st = .opened then .closed else x.st })) := by
  simp only [cmdClose, h, hctx]

/-! ## STREAM_SEAL (R59, R273) -/

theorem makeSealed_streamOf (sid : Nat) (s : State) :
    streamOf (makeSealed sid s) sid = (streamOf s sid).map fun st => { st with st := .sealed } := streamOf_updStream_same s sid _

theorem cmdSeal_fin (hmode : pf c 4 1 ≤ 1) (hsid : pf c 0 4 ≠ 0) (h : liveStream s (pf c 0 4) = some st) (hseal : st.st ≠ .sealed)
    (hmedia : s.arr.media ≠ .readonly) (hbound : pf c 4 1 = 1 → bound s (pf c 0 4) = false) (hctx : loadCtx (pf c 0 4) s = some t) :
    let j := newJob 0 [ctxReply c .ok 0xFFFFFFFF []] false (.sealWait (pf c 0 4) (decide (pf c 4 1 = 1)) (st.next - 1)) t
    cmdSeal c s = .fin (settleSeals (if pf c 4 1 = 1 then makeSealed (pf c 0 4) j.2 else j.2)) := by
  have hm : ¬1 < pf c 4 1 := by omega
  have hb : ¬(decide (pf c 4 1 = 1) && bound s (pf c 0 4)) = true := by
    simp only [Bool.and_eq_true, decide_eq_true_eq, not_and, Bool.not_eq_true]
    exact hbound
  simp only [cmdSeal, if_neg hm, if_neg hsid, h, if_neg hseal, if_neg hmedia, if_neg hb, hctx, decide_eq_true_eq]

/-- A seal leaves the stream's numbers, and its state unless the seal is final. -/
theorem settled_sealing (final : Prop) [Decidable final] (h : streamOf s sid = some st) :
    ∃ v, streamOf (settleSeals (if final then makeSealed sid s else s)) sid = some v
      ∧ lifeOf v = (if final then .sealed else st.st, st.first, st.next) := by
  have hentry : ∃ y, streamOf (if final then makeSealed sid s else s) sid = some y
      ∧ lifeOf y = (if final then .sealed else st.st, st.first, st.next) := by
    split
    · exact ⟨_, by rw [makeSealed_streamOf, h, Option.map_some], rfl⟩
    · exact ⟨st, h, rfl⟩
  obtain ⟨y, hy, hlife⟩ := hentry
  obtain ⟨v, hv, hhead⟩ := (settleSeals_headKept _).head.entry hy
  exact ⟨v, hv, (congrArg Prod.fst hhead).trans hlife⟩

/-! ## STREAM_TRIM (R58, R274) -/

theorem cmdTrim_stream0 (h : pf c 0 4 = 0) : cmdTrim c s = answer c .noCap 0 [] s := by
  simp only [cmdTrim, if_pos h, reject]

theorem cmdTrim_passed (hsid : pf c 0 4 ≠ 0) (h : liveStream s (pf c 0 4) = some st) (hcls : st.attr.cls ≠ .pinned)
    (hctx : loadCtx (pf c 0 4) s = some t) (hle : min (pf c 8 6) st.next ≤ st.first) :
    cmdTrim c s = answer c .ok 0 (leB 8 st.first) t := by
  simp only [cmdTrim, if_neg hsid, h, if_neg hcls, hctx, if_pos hle]

/-- What a trim leaves: the first retained number moved, the TRIM record put, and what is dead given back. -/
def trimmed (c : Ctx) (sid n : Nat) (s : State) : State :=
  let j := newJob 1 [ctxReply c .ok 0 (leB 8 n)] false .plain (updStream s sid fun x => { x with first := n })
  reclaim sid (trimRec sid n 1 (some j.1) j.2)

theorem cmdTrim_fin (hsid : pf c 0 4 ≠ 0) (h : liveStream s (pf c 0 4) = some st) (hcls : st.attr.cls ≠ .pinned)
    (hctx : loadCtx (pf c 0 4) s = some t) (hlt : st.first < min (pf c 8 6) st.next) (htakes : stream0Takes s 24 = true) :
    cmdTrim c s = .fin (trimmed c (pf c 0 4) (min (pf c 8 6) st.next) t) := by
  have hn : ¬min (pf c 8 6) st.next ≤ st.first := by omega
  simp only [cmdTrim, if_neg hsid, h, if_neg hcls, hctx, if_neg hn, htakes, Bool.not_true, Bool.false_eq_true, if_false]
  rfl

theorem trimmed_stream (c : Ctx) (n : Nat) (hsid : sid ≠ 0) (h : streamOf s sid = some st) :
    ∃ v, streamOf (trimmed c sid n s) sid = some v ∧ lifeOf v = (st.st, n, st.next) := by
  unfold trimmed
  extract_lets j
  have hj : streamOf j.2 sid = some { st with first := n } :=
    (streamOf_updStream_same s sid _).trans (by rw [h, Option.map_some])
  have hrec : streamOf (trimRec sid n 1 (some j.1) j.2) sid = some { st with first := n } := (writeDev_streamOf _ _ _ hsid).trans hj
  exact (reclaim_life sid _ hsid).entry hrec

/-! ## STREAM_DELETE (R60, R269) -/

/-- A stream DELETING: its keys destroyed, and of its segments what the keys of `gone` cover kept as ciphertext. -/
def keysDestroyed (gone : Nat → Bool) (sid : Nat) (segs : List Nat) (s : State) : State :=
  dropKeys (fun k => k.owner == some sid)
    (updStream (segs.foldl (fun t g => keepCipher gone g t) s) sid fun x => { x with st := .deleting, keys := [] })

/-- What a deletion sets going once the keys are destroyed: the stream leaves the early list, its shared segments are marked and sealed, and
the job that answers waits for the seals and the DELETE record. -/
def deletionBegun (c : Ctx) (sid : Nat) (st : Stream) (segs : List Nat) (s : State) : State :=
  let s1 := { s with store.earlyList := s.store.earlyList.filter fun e => e.1 != sid }
  let s2 := if st.attr.shared then
      segs.foldl (fun t g => updSeg t g fun x => { x with dead := if x.dead.contains sid then x.dead else x.dead ++ [sid] }) s1
    else s1
  let j := newJob 1 [ctxReply c .ok 0 []] false (.deleteJob sid) s2
  let s3 := if st.attr.shared then
      segs.foldl (fun t g =>
        let u := sealSegment g 2 (some j.1) t
        updJob u.2 j.1 fun y => { y with waits := y.waits + u.1 }) j.2
    else j.2
  writeDev (devPayload 0x0003 sid (leB 4 st.gen ++ zeros 4 ++ leB 8 (st.next - 1))) (some j.1) s3

theorem cmdDelete_fin (hsid : pf c 0 4 ≠ 0) (h : liveStream s (pf c 0 4) = some st) (hopen : st.st ≠ .opened)
    (hbound : bound s (pf c 0 4) = false) (hctx : loadCtx (pf c 0 4) s = some t) (htakes : stream0Takes s 24 = true) :
    ∃ gone segs u, HeadKept (pf c 0 4) t u
      ∧ cmdDelete c s = .fin (deletionBegun c (pf c 0 4) st segs (keysDestroyed gone (pf c 0 4) segs u)) := by
  have hkept : HeadKept (pf c 0 4) t (if st.attr.shared then placeStream (pf c 0 4) t else t) := by
    split
    · exact placeStream_headKept _ t
    · exact HeadKept.refl _ t
  obtain ⟨y, hy, -⟩ := hkept.head.entry ((streamOf_loaded hctx _).trans (liveStream_eq_some h).1)
  refine ⟨fun k => (if st.attr.shared then placeStream (pf c 0 4) t else t).vtf.keys.any fun e => e.ref == k && e.owner == some (pf c 0 4),
    y.segs, _, hkept, ?_⟩
  simp only [cmdDelete, if_neg hsid, h, if_neg hopen, hbound, hctx, htakes, hy, Bool.not_true, Bool.false_eq_true, if_false]
  rfl

theorem keepCipher_only (p : Nat → Bool) (g : Nat) (s : State) : OnlyIn [.arr] s (keepCipher p g s) := by
  simp only [keepCipher]
  split
  · exact OnlyIn.refl _ _
  · exact updSeg_only _ _ _

theorem keysDestroyed_stream (gone : Nat → Bool) (segs : List Nat) (h : streamOf s sid = some st) :
    streamOf (keysDestroyed gone sid segs s) sid = some { st with st := .deleting, keys := [] } := by
  have hcipher : streamOf (segs.foldl (fun t g => keepCipher gone g t) s) sid = some st := by
    have hstore := OnlyIn.foldl _ (fun t g => keepCipher_only gone g t) segs s .store (by decide)
    exact (congrArg (fun x : StoreSt => look sid x.streams) hstore).trans h
  exact (streamOf_updStream_same _ sid _).trans (by rw [hcipher, Option.map_some])

/-- No key that is left is the stream's. -/
theorem keysDestroyed_keys (gone : Nat → Bool) (sid : Nat) (segs : List Nat) (s : State) :
    ∀ k ∈ (keysDestroyed gone sid segs s).vtf.keys, k.owner ≠ some sid := by
  intro k hk
  obtain ⟨e, -, rfl⟩ := List.mem_map.1 hk
  split
  · simp [KeyEntry.reset]
  · next h => simpa using h

theorem deletionBegun_headKept (c : Ctx) (st : Stream) (segs : List Nat) (s : State) (h : sid ≠ 0) :
    HeadKept sid s (deletionBegun c sid st segs s) := by
  unfold deletionBegun
  extract_lets store s1 s2 j s3
  have h2 : HeadKept sid s1 s2 := by
    dsimp only [s2]
    split
    · exact HeadKept.foldl _ (fun t g => .of_only (updSeg_only t g _) (by decide) (by decide)) segs s1
    · exact HeadKept.refl sid s1
  have hj : HeadKept sid s2 j.2 := .of_only (newJob_only _ _ _ _ s2) (by decide) (by decide)
  have h3 : HeadKept sid j.2 s3 := by
    dsimp only [s3]
    split
    · exact HeadKept.foldl _ (fun t g => .after (updJob_headKept _ _ _) (sealSegment_headKept g 2 _ t)) segs j.2
    · exact HeadKept.refl sid j.2
  exact .after (writeDev_headKept _ _ s3 h) (h3.after (hj.after ⟨h2.head, h2.keys⟩))

/-- A deletion leaves the stream DELETING, without a key in its entry or in the key table. -/
theorem deletion_stream (c : Ctx) (gone : Nat → Bool) (segs : List Nat) (hsid : sid ≠ 0) (h : streamOf s sid = some st) (hk : HeadKept sid s t) :
    ∃ v, streamOf (deletionBegun c sid st segs (keysDestroyed gone sid segs t)) sid = some v ∧ v.st = .deleting ∧ v.keys = []
      ∧ ∀ k ∈ (deletionBegun c sid st segs (keysDestroyed gone sid segs t)).vtf.keys, k.owner ≠ some sid := by
  obtain ⟨y, hy, -⟩ := hk.head.entry h
  have hkept := deletionBegun_headKept c st segs (keysDestroyed gone sid segs t) hsid
  obtain ⟨v, hv, hhead⟩ := hkept.head.entry (keysDestroyed_stream gone segs hy)
  exact ⟨v, hv, congrArg (fun p => p.1.1) hhead, congrArg Prod.snd hhead, hkept.keys ▸ keysDestroyed_keys gone sid segs t⟩

/-- Settles O42: an admitted stream command whose own checks pass is carried out, and what follows it (a job, a device record, seals and
reclaims) keeps the entry of its stream. -/
theorem streamCommands : Obligations.StreamCommands := by
  intro s s2 s1 x c st a sid live
  refine ⟨?create, ?badCreate, ?opens, ?closes, ?seals, ?trims, ?deletes, ?noStream, ?stream0⟩
  case create =>
    intro h ha hsid hroom hearly hmedia htakes hdrbg hent
    obtain ⟨v, hv, hcreated⟩ := created_stream c a s2 (createSid_ne_zero c s2)
    exact ⟨_, createSid c s2, v, exec_of_fin rfl streamCreate_carriedOut h (cmdCreate_fin ha hsid hroom hearly hmedia htakes hdrbg hent), rfl,
      createSid_ne_zero c s2, hv, hcreated.attr, hcreated.st, hcreated.first, hcreated.next, hcreated.recs, hcreated.keys, hcreated.gen⟩
  case badCreate => exact fun h ha => exec_of_answer rfl streamCreate_carriedOut h (cmdCreate_badParam ha)
  case opens =>
    rintro h ⟨hlive, hctx⟩ hmode hseal hheld
    exact ⟨_, exec_of_answer rfl streamOpen_carriedOut h (cmdOpen_answer hmode hlive hseal hheld hctx),
      loaded_updStream _ true (liveStream_eq_some hlive).1 hctx⟩
  case closes =>
    rintro h ⟨hlive, hctx⟩
    exact ⟨_, exec_of_answer rfl streamClose_carriedOut h (cmdClose_answer hlive hctx),
      loaded_updStream _ false (liveStream_eq_some hlive).1 hctx⟩
  case seals =>
    rintro h ⟨hlive, hctx⟩ hmode hsid hseal hmedia hbound
    let j := newJob 0 [ctxReply c .ok 0xFFFFFFFF []] false (.sealWait sid (decide (pf c 4 1 = 1)) (st.next - 1)) s1
    have hj : streamOf j.2 sid = some st := (streamOf_loaded hctx sid).trans (liveStream_eq_some hlive).1
    obtain ⟨v, hv, hlife⟩ := settled_sealing (pf c 4 1 = 1) hj
    exact ⟨_, v, exec_of_fin rfl streamSeal_carriedOut h (cmdSeal_fin hmode hsid hlive hseal hmedia hbound hctx), hv,
      congrArg Prod.fst hlife, congrArg (fun p => p.2.1) hlife, congrArg (fun p => p.2.2) hlife⟩
  case trims =>
    rintro h ⟨hlive, hctx⟩ hsid hcls
    refine ⟨fun hle => exec_of_answer rfl streamTrim_carriedOut h (cmdTrim_passed hsid hlive hcls hctx hle), fun hlt htakes => ?_⟩
    obtain ⟨v, hv, hlife⟩ := trimmed_stream c (min (pf c 8 6) st.next) hsid ((streamOf_loaded hctx sid).trans (liveStream_eq_some hlive).1)
    exact ⟨_, v, exec_of_fin rfl streamTrim_carriedOut h (cmdTrim_fin hsid hlive hcls hctx hlt htakes), hv,
      congrArg (fun p => p.2.1) hlife, congrArg (fun p => p.2.2) hlife⟩
  case deletes =>
    rintro h ⟨hlive, hctx⟩ hsid hopen hbound htakes
    obtain ⟨gone, segs, u, hkept, hcmd⟩ := cmdDelete_fin hsid hlive hopen hbound hctx htakes
    obtain ⟨v, hv⟩ := deletion_stream c gone segs hsid ((streamOf_loaded hctx sid).trans (liveStream_eq_some hlive).1) hkept
    exact ⟨_, v, exec_of_fin rfl streamDelete_carriedOut h hcmd, hv⟩
  case noStream => exact fun h hmode hnone => exec_of_answer rfl streamOpen_carriedOut h (cmdOpen_noStream hmode hnone)
  case stream0 => exact fun h hsid => exec_of_answer rfl streamTrim_carriedOut h (cmdTrim_stream0 hsid)

end Sys2Proof.Machine
end

section
/-! SUPPORT. What a report of the window, a charge, a fault and a loss sequence that begins leave of Oasis, of the power state and of the
collector's inputs. -/
namespace Sys2Proof.Machine
open Sys2Proof

variable {s t u : State}

/-- Oasis without what reports, charges and a loss sequence that begins change: the charger, the load of a measurement, the credits
outstanding with OVER, and the window last reported. -/
def oasRest (o : Oasis) : Oasis :=
  { o with charging := false, meas := { o.meas with loadOn := false }, outst := 0, overV := false, winMsg := 0 }

/-- The power state without what a loss sequence that begins changes. -/
def pwrRest (p : Pwr) : Pwr := { p with seq := .none, fatal := false, phase := .startup, entry := none }

/-- What the wires show the collector: sources present, forced and masked. -/
def inputsOf (f : Faults) : BitVec 96 × BitVec 96 × BitVec 96 := (f.present, f.force, f.masked)

/-- From `s` to `t` credits moved, the window was reported or faults reacted: the charger and the load may have stopped, a loss sequence may
have begun, sources may have latched. -/
structure Reacted (s t : State) : Prop where
  oas : oasRest t.oas = oasRest s.oas
  charging : s.oas.charging = false → t.oas.charging = false
  load : s.oas.meas.loadOn = false → t.oas.meas.loadOn = false
  pwr : pwrRest t.pwr = pwrRest s.pwr
  inputs : inputsOf t.flt = inputsOf s.flt

theorem Reacted.refl (s : State) : Reacted s s := ⟨rfl, id, id, rfl, rfl⟩

/-- The steps in the order of the terms: the later one first. -/
theorem Reacted.after (k : Reacted t u) (h : Reacted s t) : Reacted s u :=
  ⟨k.oas.trans h.oas, fun hc => k.charging (h.charging hc), fun hl => k.load (h.load hl), k.pwr.trans h.pwr, k.inputs.trans h.inputs⟩

theorem Reacted.of_only {l : List Region} (h : OnlyIn l s t) (ho : Region.oas ∉ l) (hp : Region.pwr ∉ l) (hf : Region.flt ∉ l) : Reacted s t := by
  have eo : t.oas = s.oas := h .oas ho
  have ep : t.pwr = s.pwr := h .pwr hp
  have ef : t.flt = s.flt := h .flt hf
  constructor <;> simp [eo, ep, ef]

theorem Reacted.foldl {α : Type} (f : State → α → State) (h : ∀ t a, Reacted t (f t a)) (as : List α) (s : State) :
    Reacted s (as.foldl f s) := by
  induction as generalizing s with
  | nil => exact .refl s
  | cons a as ih => exact .after (ih (f s a)) (h s a)

/-- What is read off the rest of Oasis reads as before. -/
theorem Reacted.oasis {α : Type} (h : Reacted s t) (p : Oasis → α) (hp : ∀ o, p (oasRest o) = p o := by exact fun _ => rfl) :
    p t.oas = p s.oas := by
  rw [← hp t.oas, h.oas, hp]

/-- What is read off the rest of the power state reads as before. -/
theorem Reacted.power {α : Type} (h : Reacted s t) (p : Pwr → α) (hp : ∀ o, p (pwrRest o) = p o := by exact fun _ => rfl) :
    p t.pwr = p s.pwr := by
  rw [← hp t.pwr, h.pwr, hp]

/-- Whether the collector runs does not change (R503, R533). -/
theorem Reacted.collectorOn (h : Reacted s t) : collectorOn t = collectorOn s :=
  h.power fun p => p.released && decide (p.pstate ≠ .off)

theorem oas_only (s : State) (o : Oasis) : OnlyIn [.oas] s { s with oas := o } := by
  intro r hr; cases r <;> simp_all [sameIn]

theorem setBit96_getLsbD (v : BitVec 96) (n i : Nat) (b : Bool) (h : n < 96) :
    (setBit96 v n b).getLsbD i = if i = n then b else v.getLsbD i := by
  have hone : (1#96 <<< n).getLsbD i = decide (i = n) := by
    rw [BitVec.getLsbD_shiftLeft, BitVec.getLsbD_one]
    by_cases hi : i = n
    · simp [hi, h]
    · simp only [hi, decide_false, Bool.and_eq_false_iff, decide_eq_false_iff_not, Bool.not_eq_false', decide_eq_true_eq]
      omega
  cases b with
  | true =>
    by_cases hi : i = n
    · simp [setBit96, hi, h]
    · simp [setBit96, hone, hi]
  | false =>
    by_cases hi : i = n
    · simp [setBit96, hi]
    · simp only [setBit96, Bool.false_eq_true, if_false, BitVec.getLsbD_and, BitVec.getLsbD_not, hone, hi, decide_false, Bool.not_false,
        Bool.and_true]
      by_cases hw : i < 96
      · simp [hw]
      · simp [BitVec.getLsbD_of_ge v i (by omega)]

/-! ## Loss sequences and faults (R93, R498 to R507) -/

theorem lossBegin_reacted (fatal : Bool) (s : State) : Reacted s (lossBegin fatal s) := by
  simp only [lossBegin]
  split
  · exact .refl s
  · exact ⟨rfl, fun _ => rfl, fun _ => rfl, rfl, rfl⟩

theorem startTimers_inputs (f : Faults) (src now : Nat) : inputsOf (startTimers f src now) = inputsOf f := by
  simp only [startTimers]
  split
  · rfl
  · split <;> rfl

theorem latchRegs_inputs (f : Faults) (src : Nat) (det : BitVec 32) (dt now : Nat) :
    inputsOf (latchRegs f src det dt now) = inputsOf f := by
  simp only [latchRegs]
  split
  · exact startTimers_inputs _ _ _
  · rfl

/-- A source that was not latched: its registers take the fault, a message may be formed, and the policy of a halt begins one. -/
theorem latchFault_new {src : Nat} (det : BitVec 32) (hon : collectorOn s = true) (hl : s.flt.latch.getLsbD src = false) :
    ∃ m, OnlyIn [.link] { s with flt := latchRegs s.flt src det s.dtime s.tick } m
      ∧ latchFault src det s = if vAt s.flt.pol src = 2 then lossBegin true m else m := by
  simp only [latchFault, hon, hl, Bool.not_true, Bool.false_eq_true, if_false]
  refine ⟨_, ?_, rfl⟩
  split
  · exact formMsg_only _ _ _
  · exact OnlyIn.refl _ _

theorem latchFault_reacted (src : Nat) (det : BitVec 32) (s : State) : Reacted s (latchFault src det s) := by
  cases hon : collectorOn s with
  | false =>
    simp only [latchFault, hon, Bool.not_false, if_true]
    exact .refl s
  | true =>
    cases hl : s.flt.latch.getLsbD src with
    | true =>
      simp only [latchFault, hon, hl, Bool.not_true, Bool.false_eq_true, if_false, if_true]
      exact ⟨rfl, id, id, rfl, rfl⟩
    | false =>
      obtain ⟨m, hm, heq⟩ := latchFault_new det hon hl
      have hregs : Reacted s { s with flt := latchRegs s.flt src det s.dtime s.tick } :=
        ⟨rfl, id, id, rfl, latchRegs_inputs s.flt src det s.dtime s.tick⟩
      have hm' : Reacted s m := .after (.of_only hm (by decide) (by decide) (by decide)) hregs
      rw [heq]
      split
      · exact .after (lossBegin_reacted true m) hm'
      · exact hm'

theorem raiseFault_reacted (src : Nat) (det : BitVec 32) (s : State) : Reacted s (raiseFault src det s) := by
  simp only [raiseFault]
  split
  · exact .refl s
  · exact latchFault_reacted src det s

/-- A fault state that begins shows itself, and the collector reacts (R498). -/
theorem faultStateBegin_reacted (src : Nat) (det : BitVec 32) (s : State) :
    Reacted { s with flt := { s.flt with present := setBit96 s.flt.present src true, detail := put src det s.flt.detail } }
      (faultStateBegin src det s) := raiseFault_reacted _ _ _

theorem faultStateBegin_latches {src : Nat} (det : BitVec 32) (hsrc : src < 96) (hm : s.flt.masked.getLsbD src = false)
    (hon : collectorOn s = true) : (faultStateBegin src det s).flt.latch.getLsbD src = true := raiseFault_latches _ _ _ hsrc hm hon

theorem faultStateBegin_only (src : Nat) (det : BitVec 32) (s : State) :
    OnlyIn [.flt, .pwr, .link, .oas, .cores, .prev] s (faultStateBegin src det s) := by
  have hshow : OnlyIn [.flt] s
      { s with flt := { s.flt with present := setBit96 s.flt.present src true, detail := put src det s.flt.detail } } := by
    intro r hr; cases r <;> simp_all [sameIn]
  exact hshow.trans (raiseFault_only _ _ _) (by decide) (by decide)

theorem faultStateBegin_present {src : Nat} (det : BitVec 32) (s : State) (h : src < 96) :
    (faultStateBegin src det s).flt.present.getLsbD src = true := by
  have hp : (faultStateBegin src det s).flt.present = setBit96 s.flt.present src true :=
    congrArg Prod.fst (faultStateBegin_reacted src det s).inputs
  rw [hp, setBit96_getLsbD _ _ _ _ h, if_pos rfl]

/-! ## The window and its account (R82 to R89) -/

theorem windowMsg_reacted (s : State) : Reacted s (windowMsg s) :=
  .after (.of_only (formMsg_only _ _ _) (by decide) (by decide) (by decide)) ⟨rfl, id, id, rfl, rfl⟩

theorem checkOver_reacted (s : State) : Reacted s (checkOver s) := by
  simp only [checkOver]
  have hmsg (b : Bool) : Reacted s (windowMsg { s with oas.overV := b }) := .after (windowMsg_reacted _) ⟨rfl, id, id, rfl, rfl⟩
  split
  · exact .refl s
  · split
    · exact .after (raiseFault_reacted _ _ _) (hmsg _)
    · exact hmsg _

theorem returnCredits_reacted (n : Nat) (s : State) : Reacted s (returnCredits n s) := by
  simp only [returnCredits]
  split
  · exact .refl s
  · exact .after (checkOver_reacted _) ⟨rfl, id, id, rfl, rfl⟩

/-- The window of a state taken over, before it is reported (R82). -/
def windowTaken (s : State) : State :=
  { s with oas := { s.oas with winBytes := winBytesNow s.oas, win := winBytesNow s.oas / 64, winKnown := true } }

/-- The window reported, where it has moved enough (R87). -/
def windowReported (s : State) : State :=
  if winMoved s.oas.win (winBytesNow s.oas / 64) s.oas.winMsg then windowMsg (windowTaken s) else windowTaken s

theorem recomputeW_eq (s : State) : recomputeW s = checkOver (windowReported s) := rfl

theorem windowReported_reacted (s : State) : Reacted (windowTaken s) (windowReported s) := by
  simp only [windowReported]
  split
  · exact windowMsg_reacted _
  · exact .refl _

theorem recomputeW_reacted (s : State) : Reacted (windowTaken s) (recomputeW s) := .after (checkOver_reacted _) (windowReported_reacted s)

theorem recomputeW_win (s : State) : (recomputeW s).oas.winBytes = winBytesNow s.oas ∧ (recomputeW s).oas.win = winBytesNow s.oas / 64 :=
  ⟨(recomputeW_reacted s).oasis (·.winBytes), (recomputeW_reacted s).oasis (·.win)⟩

/-- What is read off neither the window nor what reports and loss sequences change reads as before. -/
theorem recomputeW_oasis {α : Type} (p : Oasis → α) (s : State) (hp : ∀ o, p (oasRest o) = p o := by exact fun _ => rfl)
    (hw : ∀ o b w k, p { o with winBytes := b, win := w, winKnown := k } = p o := by exact fun _ _ _ _ => rfl) :
    p (recomputeW s).oas = p s.oas :=
  ((recomputeW_reacted s).oasis p hp).trans (hw s.oas _ _ _)

theorem windowMsg_oas (s : State) : (windowMsg s).oas = { s.oas with winMsg := s.oas.win } := formMsg_only _ _ _ .oas (by decide)

/-- Where the credits fit the account, no fault is raised, and a measurement goes on (R89). -/
theorem checkOver_meas_of_fits (h : s.oas.outst ≤ accountSize s.oas) : (checkOver s).oas.meas = s.oas.meas := by
  have hover : decide (accountSize s.oas < s.oas.outst) = false := decide_eq_false (by omega)
  simp only [checkOver, hover, Bool.false_eq_true, if_false]
  split
  · rfl
  · rw [windowMsg_oas]

theorem recomputeW_meas_of_fits (h : s.oas.outst ≤ winBytesNow s.oas / 64) : (recomputeW s).oas.meas = s.oas.meas := by
  have hrep : (windowReported s).oas.meas = s.oas.meas ∧ (windowReported s).oas.win = winBytesNow s.oas / 64
      ∧ (windowReported s).oas.outst = s.oas.outst := by
    simp only [windowReported]
    split
    · rw [windowMsg_oas]
      exact ⟨rfl, rfl, rfl⟩
    · exact ⟨rfl, rfl, rfl⟩
  obtain ⟨hmeas, hwin, houtst⟩ := hrep
  rw [recomputeW_eq, checkOver_meas_of_fits, hmeas]
  rw [accountSize, hwin, houtst]
  exact h.trans (Nat.le_max_left _ _)

end Sys2Proof.Machine
end

section
/-! SUPPORT. The port of the rule budget and the window at full charge; and the statement on the rule budget. -/
namespace Sys2Proof.Machine
open Sys2Proof

theorem exec_ruleBudgetWrite (v : BitVec 16) (s : State) :
    exec (.ruleBudgetWrite v) s = whenDue (alive s) s (budgetWrite v.toNat s) := rfl

/-- A write takes its 14 low bits: below the committed budget it is refused, above 16,000 EU it changes nothing (R112, R167). -/
theorem budgetWrite_eq (v : BitVec 16) (s : State) : budgetWrite v.toNat s =
    if (v.setWidth 14).toNat < committed s then { s with wadi.budRej := true }
    else if 16000 < (v.setWidth 14).toNat then s
    else recomputeW { s with oas.budget := (v.setWidth 14).toNat } := by
  simp only [budgetWrite, BitVec.toNat_setWidth]

theorem portValue_ruleBudget (c : Nat) (s : State) : portValue c 0x2405 s = s.oas.budget := rfl

theorem portRead_ruleBudget (c : Nat) (s : State) (hh : portHung 0x2405 s = false) (hb : s.oas.budget ≤ 16000) :
    (portRead c 0x2405 s).1 = (BitVec.ofNat 14 s.oas.budget).setWidth 16 := by
  simp only [portRead, hh, Bool.false_eq_true, if_false, portValue_ruleBudget]
  bv_omega

/-- At 15.0 V, with 470 µF and an ESR of 500 mΩ, the energy above V_floor less 4 mJ and 2,590 EU still pays for 32 MiB (R82). -/
theorem winBytesNow_full (o : Oasis) (hcap : o.cUse = 470000) (hesr : o.esr = some 500) (hrate : o.ederate = none)
    (hrun : o.meas.running = false) (hmode : o.meas.mode1 = false) (hv : o.vhold = 15000) (hb : o.budget ≤ 2590) :
    winBytesNow o = 33554432 := by
  have hfull : 33554432 ≤
      (33 * 470000 * (1500000 * 1500000 - 450000 * 450000) - (4 * 10 ^ 18 + o.budget * 10 ^ 15)) / (75 * 10 ^ 10) := by omega
  simpa [winBytesNow, winBytesAt, esrUsed, vFloorU, hcap, hesr, hrate, hrun, hmode, hv] using hfull

/-- Settles O37: the port holds 14 bits, a write is one of the three cases of `budgetWrite_eq`, and the window at full charge is computed. -/
theorem ruleBudgetTakesEffectAtOnce : Obligations.RuleBudgetTakesEffectAtOnce := by
  refine ⟨fun s core v => ?_, rfl, fun o b hcap hesr hrate hrun hmode hv hb => winBytesNow_full _ hcap hesr hrate hrun hmode hv hb⟩
  intro n
  refine ⟨portRead_ruleBudget core.val s, fun ha => ?_⟩
  have acts : exec (.ruleBudgetWrite v) s = .next (budgetWrite v.toNat s) := (exec_ruleBudgetWrite v s).trans (whenDue_of s _ ha)
  rw [acts, budgetWrite_eq]
  refine ⟨fun hlow => ?below, fun hmin hhigh => ?above, fun hmin hmax => ?taken⟩
  case below => rw [if_pos hlow]
  case above => rw [if_neg (Nat.not_lt.2 hmin), if_pos hhigh]
  case taken =>
    rw [if_neg (Nat.not_lt.2 hmin), if_neg (Nat.not_lt.2 hmax)]
    exact ⟨_, rfl, recomputeW_oasis (·.budget) _, (recomputeW_win _).2, recomputeW_only _ .wadi (by decide)⟩

end Sys2Proof.Machine
end

section
/-! SUPPORT. Charger, measurements and HOLDUP_TEST, row by row, and the window recomputed; and the statement on them. -/
namespace Sys2Proof.Machine
open Sys2Proof

variable {s : State}

theorem oasisCalm_of (h : s.pwr.seq = .none ∧ s.pwr.pstate ≠ .off) : oasisCalm s = true := by
  simp [oasisCalm, oasisOn, inLoss, h]

theorem oasisOn_of_calm (h : oasisCalm s = true) : oasisOn s = true := by simp_all [oasisCalm]

theorem inLoss_of_calm (h : oasisCalm s = true) : inLoss s = false := by simp_all [oasisCalm]

/-- The collector of a calm device runs once internal reset is released (R503). -/
theorem collectorOn_of_calm (h : oasisCalm s = true) (hr : s.pwr.released = true) : collectorOn s = true := by
  simp_all [oasisCalm, oasisOn, collectorOn]

/-! ## The charger (R76, R77, R91) -/

theorem exec_chargerResume_due (hcalm : oasisCalm s = true) (hoff : s.oas.charging = false) (hen : s.oas.chgEn = true)
    (hrun : s.oas.meas.running = false) : exec .chargerResume s = .next { s with
      oas := { s.oas with vhold := min s.oas.vhold 14900, charging := true, chgStart := some s.tick, chgTimedOut := false } } :=
  whenDue_of s _ (by simp [hcalm, hoff, hen, hrun])

theorem wantMeas_some (w : MeasWhy) (s : State) : (wantMeas w s).oas.meas.want.isSome = true := by
  simp only [wantMeas]
  cases w <;> cases s.oas.meas.want <;> rfl

theorem wantMeas_only (w : MeasWhy) (s : State) : OnlyIn [.oas] s (wantMeas w s) := oas_only s _

/-- Oasis with VHOLD at 15.0 V and the charger off (R76). -/
def chargedFull (s : State) : State :=
  { s with oas := { s.oas with vhold := 15000, charging := false, chgStart := none, chgTimedOut := false } }

theorem exec_chargerStop_due (hcalm : oasisCalm s = true) (hon : s.oas.charging = true) (hrun : s.oas.meas.running = false) :
    exec .chargerStop s = .next (if (recomputeW (chargedFull s)).oas.measured then recomputeW (chargedFull s)
      else wantMeas .first (recomputeW (chargedFull s))) := by
  have hnot : ¬(s.oas.meas.running = true ∧ s.oas.meas.loadOn = false) := by simp [hrun]
  exact (whenDue_of s _ (by simp [hcalm, hon])).trans (congrArg Host.Outcome.next (if_neg hnot))

/-- The window recomputed leaves the charger off and VHOLD at 15.0 V. -/
theorem recomputeW_chargedFull (s : State) : (recomputeW (chargedFull s)).oas.charging = false
    ∧ (recomputeW (chargedFull s)).oas.vhold = 15000 ∧ (recomputeW (chargedFull s)).oas.chgStart = none
    ∧ (recomputeW (chargedFull s)).oas.measured = s.oas.measured := by
  exact ⟨(recomputeW_reacted (chargedFull s)).charging rfl, recomputeW_oasis (·.vhold) _, recomputeW_oasis (·.chgStart) _,
    recomputeW_oasis (·.measured) _⟩

theorem exec_chgTimeout_due {n : Nat} (hcalm : oasisCalm s = true) (hstart : s.oas.chgStart = some n) (hdue : n + 2000000 ≤ s.tick)
    (hon : s.oas.charging = true) (hnew : s.oas.chgTimedOut = false) :
    exec .chgTimeout s = .next (raiseFault 2 (BitVec.ofNat 32 (s.oas.vhold / 100)) { s with oas.chgTimedOut := true }) := by
  have hcond : n + 2000000 ≤ s.tick ∧ s.oas.charging = true ∧ s.oas.chgTimedOut = false ∧ oasisCalm s = true := ⟨hdue, hon, hnew, hcalm⟩
  show execChgTimeout s = _
  simp only [execChgTimeout, hstart, if_pos hcond]

theorem exec_vholdOver_due {v : Nat} (hcalm : oasisCalm s = true) (hv : 16000 < v) : exec (.vholdOver v) s = .next
    (faultStateBegin 1 (BitVec.ofNat 32 (v / 100)) { s with oas := { s.oas with vhold := v, charging := false, chgStart := none } }) :=
  whenDue_of s _ (by simp [oasisOn_of_calm hcalm, hv])

/-! ## Measurements (R78 to R81, R102) -/

theorem exec_measurementStart_due (hcalm : oasisCalm s = true) (hwant : s.oas.meas.want.isSome = true) (hrun : s.oas.meas.running = false)
    (hoff : s.oas.charging = false) (hv : 15000 ≤ s.oas.vhold) (hmode : s.oas.meas.mode1 = false)
    (hfits : s.oas.outst ≤ winBytesAt s.oas 14000 / 64) : exec .measurementStart s = .next (recomputeW
      { s with oas.meas := { s.oas.meas with running := true, loadOn := true, want := none, loadAt := s.tick } }) := by
  have hplain : ¬(s.oas.meas.mode1 = true ∧ s.oas.meas.discharged = false) := by simp [hmode]
  exact (whenDue_of s _ (by simp [hcalm, hwant, hrun, hoff, hv])).trans
    (congrArg Host.Outcome.next ((if_neg hplain).trans (if_pos hfits)))

/-- The window of a measurement is that of 14.0 V (R79). -/
theorem winBytesNow_running (o : Oasis) (hrun : o.meas.running = true) (hmode : o.meas.mode1 = false) :
    winBytesNow o = winBytesAt o 14000 := by
  simp only [winBytesNow, hrun, hmode, Bool.false_eq_true, if_false, if_true]

theorem winBytesNow_resting (o : Oasis) (hrun : o.meas.running = false) (hmode : o.meas.mode1 = false) :
    winBytesNow o = winBytesAt o o.vhold := by
  simp only [winBytesNow, hrun, hmode, Bool.false_eq_true, if_false]

/-- The outcome of a measurement, before a fault of the capacitor is raised (R80, R81). -/
def measTaken (cNf esrMohm : Nat) (s : State) : State :=
  { s with oas := { s.oas with
    cUse := if decide (5000 < esrMohm) || decide (cNf < 10000) then 0 else cNf
    cLast := some cNf
    esr := some esrMohm
    esrLast := some esrMohm
    cfail := decide (5000 < esrMohm) || decide (cNf < 10000)
    measured := true
    measTemp := s.oas.temp
    measTs := s.dtime
    measNext := s.tick + mperTicks s.oas } }

theorem takeMeas_reacted (cNf esrMohm : Nat) (s : State) : Reacted (measTaken cNf esrMohm s) (takeMeas cNf esrMohm s) := by
  have htake : takeMeas cNf esrMohm s = if decide (5000 < esrMohm) || decide (cNf < 10000) then
      raiseFault 3 (BitVec.ofNat 32 (min 0xFFFF (cNf / 100) * 65536 + min 0xFFFF esrMohm)) (measTaken cNf esrMohm s)
    else measTaken cNf esrMohm s := rfl
  rw [htake]
  split
  · exact raiseFault_reacted _ _ _
  · exact .refl _

/-- Oasis as the end of a measurement's load leaves it, before its values are taken over (R78). -/
def loadEnded (s : State) : State :=
  { s with oas := { s.oas with
    vhold := 14000
    charging := s.oas.chgEn
    chgStart := if s.oas.chgEn then some s.tick else none
    meas := { s.oas.meas with loadOn := false, rechStart := some s.tick } } }

theorem exec_measurementComplete_due (mv : Nat) (u : Uncertainty) (hcalm : oasisCalm s = true) (hload : s.oas.meas.loadOn = true)
    (hdis : s.oas.meas.discharging = false) : exec (.measurementComplete mv u) s = .next (recomputeW
      (takeMeas (cOf (s.tick - s.oas.meas.loadAt) u.c.val) (esrOf mv u.esr.val) (loadEnded s))) :=
  whenDue_of s _ (by simp [hcalm, hload, hdis])

/-- What a measurement took over stands once the window is recomputed. -/
theorem recomputeW_takeMeas {α : Type} (p : Oasis → α) (cNf esrMohm : Nat) (s : State) (hp : ∀ o, p (oasRest o) = p o := by exact fun _ => rfl)
    (hw : ∀ o b w k, p { o with winBytes := b, win := w, winKnown := k } = p o := by exact fun _ _ _ _ => rfl) :
    p (recomputeW (takeMeas cNf esrMohm s)).oas = p (measTaken cNf esrMohm s).oas :=
  (recomputeW_oasis p _ hp hw).trans ((takeMeas_reacted cNf esrMohm s).oasis p hp)

theorem recomputeW_takeMeas_load (cNf esrMohm : Nat) (h : s.oas.meas.loadOn = false) :
    (recomputeW (takeMeas cNf esrMohm s)).oas.meas.loadOn = false :=
  (recomputeW_reacted _).load ((takeMeas_reacted cNf esrMohm s).load h)

/-- The next period begins (R79, R108). -/
def periodRestarted (s : State) : State := { s with oas.measNext := s.tick + mperTicks s.oas }

theorem periodRestarted_only (s : State) : OnlyIn [.oas] s (periodRestarted s) := oas_only s _

theorem mperTicks_eq (o : Oasis) : mperTicks o = o.mper.toNat * 100000000 := rfl

theorem wantMeas_measNext (w : MeasWhy) (s : State) : (wantMeas w s).oas.measNext = s.oas.measNext := rfl

theorem exec_measurementPeriodExpiry_due (hcalm : oasisCalm s = true) (hper : s.oas.mper ≠ 0) (hdue : s.oas.measNext ≤ s.tick) :
    exec .measurementPeriodExpiry s = .next (wantMeas .periodic (periodRestarted s)) :=
  whenDue_of s _ (by simp only [hcalm, decide_eq_true hper, decide_eq_true hdue, Bool.and_self])

theorem exec_temperatureMeasurementTrigger_due (hcalm : oasisCalm s = true) (hm : s.oas.measured = true)
    (hmoved : 15 ≤ (s.oas.temp - s.oas.measTemp).natAbs) : exec .temperatureMeasurementTrigger s = .next (wantMeas .temperature s) :=
  whenDue_of s _ (by simp [hcalm, hm, hmoved])

theorem exec_measurementSkip_due (hm : s.oas.measured = true) (hrun : s.oas.meas.running = false)
    (hdue : s.oas.meas.wantAt + 1000000 ≤ s.tick) (hwhy : s.oas.meas.want = some .periodic ∨ s.oas.meas.want = some .temperature) :
    exec .measurementSkip s = .next { s with oas := { s.oas with measSkip := true, meas := { s.oas.meas with want := none } } } :=
  whenDue_of s _ (by simp [hm, hrun, hdue, hwhy])

/-- Oasis after the discharge of a MODE 1 test that delivered `edelUj` (R102). -/
def dischargeEnded (edelUj : Nat) (s : State) : State :=
  { s with oas := { s.oas with
    vhold := vFloorMv s.oas
    ederate := some (edelUj, vFloorMv s.oas)
    charging := s.oas.chgEn
    chgStart := if s.oas.chgEn then some s.tick else none
    meas := { s.oas.meas with loadOn := false, rechStart := some s.tick } } }

theorem exec_holdupDischargeComplete_due (v : Nat) (hcalm : oasisCalm s = true) (hdis : s.oas.meas.discharging = true)
    (hload : s.oas.meas.loadOn = true) : exec (.holdupDischargeComplete v) s = .next (dischargeEnded v s) :=
  whenDue_of s _ (by simp [hcalm, hdis, hload])

theorem dischargeEnded_only (v : Nat) (s : State) : OnlyIn [.oas] s (dischargeEnded v s) := oas_only s _

/-! ## The window recomputed (R82) -/

/-- Once a start has measured, a sample changes only what the estimate from the rise is made of (R80). -/
theorem riseSample_measured (now v : Nat) (o : Oasis) (h : o.measured = true) :
    ∃ r e, riseSample now v o = { o with rise2 := r, cEst := e } := by
  unfold riseSample
  extract_lets o1 o2
  have h1 : ∃ r, o1 = { o with rise2 := r } := by
    dsimp only [o1]
    split
    · exact ⟨_, rfl⟩
    · exact ⟨o.rise2, rfl⟩
  have h2 : ∃ r e, o2 = { o with rise2 := r, cEst := e } := by
    obtain ⟨r, hr⟩ := h1
    dsimp only [o2]
    rw [hr]
    split
    · split
      · exact ⟨r, _, rfl⟩
      · exact ⟨r, o.cEst, rfl⟩
    · exact ⟨r, o.cEst, rfl⟩
  obtain ⟨r, e, he⟩ := h2
  have hm : o2.measured = true := (congrArg Oasis.measured he).trans h
  rw [if_pos (.inl hm)]
  exact ⟨r, e, he⟩

/-- The state a sample of VHOLD leaves before the window is recomputed: an overvoltage that has gone is no fault state any more (R77). -/
def sampled (v : Nat) (s : State) : State :=
  let s1 := { s with oas := riseSample s.tick v { s.oas with vhold := v } }
  if v ≤ 16000 ∧ s1.flt.present.getLsbD 1 = true then faultStateEnd 1 s1 else s1

theorem exec_windowRecompute_calm (v : Nat) (hcalm : oasisCalm s = true) :
    exec (.windowRecompute v) s = .next (recomputeW (sampled v s)) := by
  show Host.Outcome.next (if (!oasisOn s) = true then s else if inLoss s = true then sampled v s else recomputeW (sampled v s)) = _
  simp only [oasisOn_of_calm hcalm, inLoss_of_calm hcalm, Bool.not_true, Bool.false_eq_true, if_false]

theorem sampled_only (v : Nat) (s : State) : OnlyIn [.oas, .flt] s (sampled v s) := by
  simp only [sampled]
  split <;> (intro r hr; cases r <;> simp_all [sameIn, faultStateEnd])

/-- What is read off neither the rise nor its estimate reads as with the new VHOLD alone. -/
theorem sampled_reads {α : Type} (p : Oasis → α) (v : Nat) (hm : s.oas.measured = true)
    (hp : ∀ o r e, p { o with rise2 := r, cEst := e } = p o := by exact fun _ _ _ => rfl) :
    p (sampled v s).oas = p { s.oas with vhold := v } := by
  obtain ⟨r, e, he⟩ := riseSample_measured s.tick v { s.oas with vhold := v } hm
  have hoas : (sampled v s).oas = riseSample s.tick v { s.oas with vhold := v } := by
    simp only [sampled]
    split <;> rfl
  rw [hoas, he, hp]

/-- The bytes of the window at an ESR of 500 mΩ, where V_floor is 4.5 V and no MODE 1 test has lowered the energy (R81, R82). -/
theorem winBytesAt_floor45 (o : Oasis) (v : Nat) (hesr : o.esr = some 500) (hrate : o.ederate = none) (hv : v ≤ 15000) :
    winBytesAt o v = if v ≤ 4500 then 0
      else min 33554432 ((33 * o.cUse * (v * v - 4500 * 4500) * 10000 - (4 * 10 ^ 18 + o.budget * 10 ^ 15)) / (75 * 10 ^ 10)) := by
  have henergy : 33 * o.cUse * (v * 100 * (v * 100) - 450000 * 450000) = 33 * o.cUse * (v * v - 4500 * 4500) * 10000 := by
    rw [Nat.mul_assoc _ (v * v - 4500 * 4500), Nat.sub_mul]
    congr 2
    ring
  have hfloor : vFloorU (esrUsed o) = 450000 := by simp [esrUsed, hesr, vFloorU]
  simp only [winBytesAt, hfloor, hrate, Nat.min_eq_left hv, henergy]
  by_cases hlow : v ≤ 4500
  · rw [if_pos hlow, if_pos (by omega)]; rfl
  · rw [if_neg hlow, if_neg (by omega)]

/-- The window that a sample of VHOLD leaves, where the start has measured an ESR of 500 mΩ. -/
theorem recomputeW_sampled {v : Nat} (hrun : s.oas.meas.running = false) (hmode : s.oas.meas.mode1 = false) (hrate : s.oas.ederate = none)
    (hm : s.oas.measured = true) (hv : v ≤ 15000) (hesr : s.oas.esr = some 500) :
    (recomputeW (sampled v s)).oas.vhold = v ∧ (recomputeW (sampled v s)).oas.winBytes = (if v ≤ 4500 then 0
      else min 33554432 ((33 * s.oas.cUse * (v * v - 4500 * 4500) * 10000 - (4 * 10 ^ 18 + s.oas.budget * 10 ^ 15)) / (75 * 10 ^ 10))) := by
  have hbytes : winBytesNow (sampled v s).oas = winBytesAt { s.oas with vhold := v } v :=
    (sampled_reads winBytesNow v hm).trans (winBytesNow_resting { s.oas with vhold := v } hrun hmode)
  exact ⟨(recomputeW_oasis (·.vhold) _).trans (sampled_reads (·.vhold) v hm),
    (recomputeW_win _).1.trans (hbytes.trans (winBytesAt_floor45 { s.oas with vhold := v } v hesr hrate hv))⟩

/-- Settles O30, row by row: each is due in its case, and what it leaves of Oasis is read off through the reports, faults and the window
recomputed behind it. -/
theorem chargerMeasurementsAndWindow : Obligations.ChargerMeasurementsAndWindow := by
  intro s v mv u o calm c e bad hcalm'
  have hcalm : oasisCalm s = true := oasisCalm_of hcalm'
  refine ⟨exec_chargerResume_due hcalm, fun hon hrun => ?stop, fun n hstart hdue hon hnew hm hl hr => ?timeout,
    fun hv hm hl hr => ?overvoltage, fun hwant hrun hoff hv hmode hfits => ?start, fun hper hdue => ?period, fun hm hmoved => ?temperature,
    fun hload hdis => ?complete, exec_measurementSkip_due, fun hdis hload => ?discharge, fun hrun hmode hrate hm hv hesr => ?window⟩
  case stop =>
    obtain ⟨hoff, hv, hstart, hmeas⟩ := recomputeW_chargedFull s
    refine ⟨_, exec_chargerStop_due hcalm hon hrun, ?_⟩
    split
    · next h => exact ⟨hoff, hv, hstart, fun hnew => absurd (hmeas.symm.trans h) (ne_true_of_eq_false hnew)⟩
    · exact ⟨hoff, hv, hstart, fun _ => wantMeas_some _ _⟩
  case timeout =>
    exact ⟨_, exec_chgTimeout_due hcalm hstart hdue hon hnew, raiseFault_latches 2 _ _ (by decide) hm (collectorOn_of_calm hcalm hr),
      (raiseFault_reacted _ _ _).oasis (·.chgTimedOut)⟩
  case overvoltage =>
    have hreact := faultStateBegin_reacted 1 (BitVec.ofNat 32 (v / 100))
      { s with oas := { s.oas with vhold := v, charging := false, chgStart := none } }
    exact ⟨_, exec_vholdOver_due hcalm hv, hreact.charging rfl, hreact.oasis (·.vhold),
      faultStateBegin_latches _ (by decide) hm (collectorOn_of_calm hcalm hr)⟩
  case start =>
    let t := { s with oas.meas := { s.oas.meas with running := true, loadOn := true, want := none, loadAt := s.tick } }
    have hwin : winBytesNow t.oas = winBytesAt o 14000 := winBytesNow_running t.oas rfl hmode
    have hmeas : (recomputeW t).oas.meas = t.oas.meas := recomputeW_meas_of_fits (hwin.symm ▸ hfits)
    refine ⟨recomputeW t, exec_measurementStart_due hcalm hwant hrun hoff hv hmode hfits, ?_⟩
    rw [hmeas, (recomputeW_win t).2, hwin]
    exact ⟨rfl, rfl, rfl, rfl, rfl⟩
  case period =>
    have hnext : (periodRestarted s).oas.measNext = s.tick + o.mper.toNat * 100000000 := by rw [← mperTicks_eq]; rfl
    exact ⟨_, exec_measurementPeriodExpiry_due hcalm hper hdue, wantMeas_some _ _, (wantMeas_measNext _ _).trans hnext,
      (periodRestarted_only s).trans (wantMeas_only _ _) (by decide) (by decide)⟩
  case temperature =>
    exact ⟨_, exec_temperatureMeasurementTrigger_due hcalm hm hmoved, wantMeas_some _ s, wantMeas_only _ s⟩
  case complete =>
    have hvalues {α : Type} (p : Oasis → α) (hp : ∀ o, p (oasRest o) = p o := by exact fun _ => rfl)
        (hw : ∀ o b w k, p { o with winBytes := b, win := w, winKnown := k } = p o := by exact fun _ _ _ _ => rfl) :=
      recomputeW_takeMeas p c e (loadEnded s) hp hw
    exact ⟨_, exec_measurementComplete_due mv u hcalm hload hdis, hvalues (·.cLast), hvalues (·.esr), hvalues (·.cUse), hvalues (·.cfail),
      hvalues (·.measured), hvalues (·.vhold), recomputeW_takeMeas_load c e rfl, hvalues (·.measTs)⟩
  case discharge => exact ⟨_, exec_holdupDischargeComplete_due v hcalm hdis hload, rfl, rfl, rfl, dischargeEnded_only v s⟩
  case window =>
    obtain ⟨hvhold, hbytes⟩ := recomputeW_sampled hrun hmode hrate hm hv hesr
    obtain ⟨hwb, hw⟩ := recomputeW_win (sampled v s)
    have only : OnlyIn [.flt, .pwr, .link, .oas, .cores, .prev] s (recomputeW (sampled v s)) :=
      (sampled_only v s).trans (recomputeW_only _) (by decide) (by decide)
    exact ⟨_, exec_windowRecompute_calm v hcalm, hvhold, by rw [hw, hwb], hbytes, only .store (by decide), only .vtf (by decide),
      only .arr (by decide)⟩

end Sys2Proof.Machine
end

section
/-! SUPPORT. The supply monitors, and the steps of the power-loss sequence up to the converter's end; and the statement on them. -/
namespace Sys2Proof.Machine
open Sys2Proof

variable {s t u : State}

/-! ## A loss sequence begins (R93) -/

theorem vAt_vMap_default {α β : Type} [Inhabited α] [Inhabited β] {n : Nat} (f : α → β) (v : Vector α n) (i : Nat) (hf : f default = default) :
    vAt (vMap f v) i = f (vAt v i) := by
  by_cases h : i < n
  · exact vAt_vMap f v i h
  · simp [vAt, h, hf]

/-- A core at work has power fail pending (R93 step 3). -/
def failPending (x : Core) : Core := if x.running && !x.stopped then { x with pfPend := true } else x

/-- The first steps of the sequence as a state shows them. -/
structure LossBegun (fatal : Bool) (s t : State) : Prop where
  pwr : t.pwr = { s.pwr with seq := .manifest, fatal := fatal, phase := if fatal then .halt else s.pwr.phase, entry := none }
  link : t.link.ls = .disabled ∧ t.link.msgs = []
  charging : t.oas.charging = false
  prev : t.prev.power = true ∧ t.prev.lossTs = s.dtime
  cores : ∀ c : Nat, coreOf t c = failPending (coreOf s c)

theorem lossBegin_begins (fatal : Bool) (hq : s.pwr.seq = .none) (hp : s.pwr.pstate ≠ .off) : LossBegun fatal s (lossBegin fatal s) := by
  have hgo : (inLoss s || decide (s.pwr.pstate = .off)) = false := by simp [inLoss, hq, hp]
  simp only [lossBegin, hgo, Bool.false_eq_true, if_false]
  exact ⟨rfl, ⟨rfl, rfl⟩, rfl, ⟨rfl, rfl⟩, fun c => vAt_vMap_default failPending s.cores c rfl⟩

/-- A sequence that runs is not changed (R509). -/
theorem lossBegin_running (fatal : Bool) (h : s.pwr.seq ≠ .none) : lossBegin fatal s = s := by
  have hin : inLoss s = true := by simp [inLoss, h]
  simp only [lossBegin, hin, Bool.true_or, if_true]

/-- The monitors with VMAIN gone (R91). -/
def vmainGone (s : State) : State :=
  { s with pwr := { s.pwr with vmainHigh := false, vmainOk := false, vmainLost := s.pwr.vmainLost || s.pwr.fatal } }

theorem vmainGone_only (s : State) : OnlyIn [.pwr] s (vmainGone s) := by
  intro r hr; cases r <;> simp_all [sameIn, vmainGone]

theorem exec_vmainFail (s : State) :
    exec .vmainFail s = .next (if s.pwr.released then lossBegin false (vmainGone s) else vmainGone s) := rfl

/-! ## VIO (R91, R335) -/

/-- The monitors with VIO low, for a free number of ticks. -/
def vioDropped (s : State) : State :=
  { (freeTicks s).2 with
    pwr := { s.pwr with vioLow := true, vioOk := false, vioAt := s.tick + (freeTicks s).1 }, boot.vioReleased := true }

theorem exec_vioLow_calm (hq : s.pwr.seq = .none) : exec .vioLow s = .next (faultStateBegin 5 0 (vioDropped s)) := by
  have hcalm : ¬inLoss s = true := by simp [inLoss, hq]
  exact congrArg Host.Outcome.next (if_neg hcalm)

/-- The monitors with VIO valid again. -/
def vioReturned (s : State) : State :=
  faultStateEnd 5 { s with pwr := { s.pwr with vioOk := true, vioLow := false }, boot.vioReleased := false }

theorem vioReturned_only (s : State) : OnlyIn [.pwr, .boot, .flt] s (vioReturned s) := by
  intro r hr; cases r <;> simp_all [sameIn, vioReturned, faultStateEnd]

theorem exec_vioValidExpiry (s : State) :
    exec .vioValidExpiry s = whenDue (decide (s.pwr.vioAt + 10000 ≤ s.tick)) s (vioReturned s) := rfl

/-! ## WARN (R92) -/

/-- PFAILn held low for a free number of ticks. -/
def pfailHeld (s : State) : State :=
  { (freeTicks s).2 with pwr.pfailUntil := max s.pwr.pfailUntil (s.tick + (freeTicks s).1) }

theorem pfailHeld_only (s : State) : OnlyIn [.pwr, .fresh] s (pfailHeld s) := by
  intro r hr; cases r <;> simp_all [sameIn, pfailHeld, freeTicks, takeFresh]

theorem exec_warnEnter_new (hw : s.oas.warn = false) (hr : s.pwr.released = true) (hp : s.pwr.pstate ≠ .off) (hq : s.pwr.seq ≠ .off) :
    exec .warnEnter s = .next (windowMsg { pfailHeld s with oas := { s.oas with warn := true } }) := by
  have hgo : ¬(s.oas.warn || !s.pwr.released || !oasisOn s) = true := by simp [hw, hr, hp, hq, oasisOn]
  exact congrArg Host.Outcome.next (if_neg hgo)

/-- Whether a job is a HOLDUP_TEST (R102). -/
def isHoldup (j : Job) : Bool := match j.kind with | .holdup _ => true | _ => false

theorem find_isHoldup_none (h : ∀ j ∈ s.eng.jobs, ∀ b, j.kind ≠ .holdup b) : s.eng.jobs.find? isHoldup = none := by
  rw [List.find?_eq_none]
  intro j hj
  simp only [isHoldup]
  split
  · next b hb => exact absurd hb (h j hj b)
  · exact Bool.false_ne_true

/-- Where no HOLDUP_TEST waits, none is taken up (R102). -/
theorem holdupNext_none (h : ∀ j ∈ s.eng.jobs, ∀ b, j.kind ≠ .holdup b) : holdupNext s = s := by
  simp only [holdupNext]
  split
  · rfl
  · split
    · rfl
    · next j hj => exact absurd ((find_isHoldup_none h).symm.trans hj) (by simp)

theorem exec_warnExit_due (hw : s.oas.warn = true) (hdue : s.pwr.pfailUntil + 1000 ≤ s.tick) :
    exec .warnExit s = .next (holdupNext (windowMsg { s with oas := { s.oas with warn := false } })) :=
  whenDue_of s _ (by simp [hw, hdue])

/-! ## The flush (R93, R117) -/

theorem Reacted.foldr {α : Type} (f : α → State → State) (h : ∀ a t, Reacted t (f a t)) (as : List α) (s : State) :
    Reacted s (as.foldr f s) := by
  induction as with
  | nil => exact .refl s
  | cons a as ih => exact .after (h a _) ih

theorem lowerSeals_reacted (sid last : Nat) (s : State) : Reacted s (lowerSeals sid last s) := ⟨rfl, id, id, rfl, rfl⟩

theorem unwindTrain_reacted (tr : Train) (s : State) : Reacted s (unwindTrain tr s) := by
  unfold unwindTrain
  extract_lets s1 store eng wadi s2
  have h1 : Reacted s s1 := .foldl _ (fun u (b : Nat × Nat × List Byte) => .of_only (updStream_only u b.1 _) (by decide) (by decide) (by decide)) _ s
  have h2 : Reacted s s2 := .after (t := s1) ⟨rfl, id, id, rfl, rfl⟩ h1
  exact .after (.foldl _ (fun u (b : Nat × Nat × List Byte) => lowerSeals_reacted b.1 _ u) _ _) (.after (returnCredits_reacted _ _) h2)

theorem dropOpenTrains_reacted (s : State) : Reacted s (dropOpenTrains s) := .foldr _ unwindTrain_reacted _ s

/-- The flush reaches codewords: the power state and what is noted of the end stay, but for the partly filled codewords that go home. -/
structure FlushKept (s t : State) : Prop where
  pwr : t.pwr = s.pwr
  prev : ∃ l, t.prev = { s.prev with partials := l }

theorem FlushKept.refl (s : State) : FlushKept s s := ⟨rfl, s.prev.partials, rfl⟩

/-- The steps in the order of the terms: the later one first. -/
theorem FlushKept.after (k : FlushKept t u) (h : FlushKept s t) : FlushKept s u := by
  obtain ⟨l, hl⟩ := h.prev
  obtain ⟨m, hm⟩ := k.prev
  exact ⟨k.pwr.trans h.pwr, m, by rw [hm, hl]⟩

theorem FlushKept.foldl {α : Type} (f : State → α → State) (h : ∀ t a, FlushKept t (f t a)) (as : List α) (s : State) :
    FlushKept s (as.foldl f s) := by
  induction as generalizing s with
  | nil => exact .refl s
  | cons a as ih => exact .after (ih (f s a)) (h s a)

theorem flushHome_kept (d : Nat) (s : State) : FlushKept s (flushHome d s) := by
  simp only [flushHome]
  split
  · split
    · split
      · exact ⟨rfl, _, rfl⟩
      · exact .refl s
    · exact .refl s
  · exact .refl s

theorem flushPartials_kept (s : State) : FlushKept s (flushPartials s) := by
  refine .foldl _ (fun t e => ?_) _ s
  split
  · exact .refl t
  · split
    · exact .refl t
    · refine .foldl _ (fun u k => ?_) _ t
      split
      · exact .refl u
      · exact .after (flushHome_kept _ _) ⟨rfl, u.prev.partials, rfl⟩

/-- The flush as it starts: open trains are gone, and the manifest is noted (R68, R93 steps 4 and 5). -/
def manifestNoted (s : State) : State :=
  let s1 := dropOpenTrains s
  { s1 with
    pwr := { s1.pwr with seq := .flush, cliveNext := s.tick + 1000, meterNj := 0, meterMv := s1.oas.vhold }
    prev := { s1.prev with manifest := some (manifestOf s1), early := manifestEarly s1, trains := s1.eng.trains, clive := s1.oas.cUse } }

theorem exec_flushBegin_due (hq : s.pwr.seq = .manifest) : exec .flushBegin s = .next (flushPartials (manifestNoted s)) :=
  whenDue_of s _ (decide_eq_true hq)

/-- The state after an estimate of C_live (R93 step 6). -/
def cliveTaken (v nj : Nat) (s : State) : State :=
  { s with
    oas.vhold := v
    prev.clive := match cLiveOf nj s.pwr.meterMv v with | some c => min s.prev.clive c | none => s.prev.clive
    pwr := { s.pwr with cliveNext := s.pwr.cliveNext + 100, meterNj := nj } }

theorem exec_cLiveEstimate_due (v q w : Nat) (hq : s.pwr.seq = .flush) (hdue : s.pwr.cliveNext ≤ s.tick) :
    exec (.cLiveEstimate v q w) s = .next (cliveTaken v (s.pwr.meterNj + q * w / 1000) s) :=
  whenDue_of s _ (by simp [hq, hdue])

/-- An estimate from a fall of VHOLD lowers C_live to it; where VHOLD has not fallen there is none. -/
theorem cliveTaken_eq (v nj : Nat) (s : State) : cliveTaken v nj s = { s with
    oas.vhold := v
    prev.clive := if s.pwr.meterMv * s.pwr.meterMv ≤ v * v then s.prev.clive
      else min s.prev.clive (2 * nj * 1000000 / (s.pwr.meterMv * s.pwr.meterMv - v * v))
    pwr := { s.pwr with cliveNext := s.pwr.cliveNext + 100, meterNj := nj } } := by
  by_cases h : s.pwr.meterMv * s.pwr.meterMv ≤ v * v <;> simp only [cliveTaken, cLiveOf, h, if_true, if_false]

/-! ## The end of the sequence (R93 steps 7 and 8, R94) -/

theorem writeCkpt_owned (h : s.vtf.life = .owned) : writeCkpt s =
    { bumpCounter 7 s with prev := { s.prev with
      ckpt := some (vAt (bumpCounter 7 s).vtf.counters 7), ckptBody := ckptBody (bumpCounter 7 s)
      ckptSig := (Config.dikSign (ckptBody (bumpCounter 7 s))).toList, loads := [] } } := by
  simp only [writeCkpt, h, ne_eq, not_true_eq_false, if_false]
  rfl

theorem writeCkpt_other (h : s.vtf.life ≠ .owned) : writeCkpt s = s := by
  simp only [writeCkpt, ne_eq, h, not_false_eq_true, if_true]

theorem bumpCounter_same (i : Nat) (s : State) (h : i < 32) : vAt (bumpCounter i s).vtf.counters i = vAt s.vtf.counters i + 1 :=
  vAt_vUpd_same _ _ _ h

/-- An owned device leaves a checkpoint with the next value of counter 7, signed, and its marker. -/
structure ClosedOut (stopped : Bool) (s t : State) : Prop where
  seq : t.pwr.seq = .marked
  marker : ∃ n, t.prev.marker = some (stopped, s.oas.vhold, n)
  counter : vAt t.vtf.counters 7 = vAt s.vtf.counters 7 + 1
  ckpt : t.prev.ckpt = some (vAt s.vtf.counters 7 + 1)
  writes : t.arr.writes = []
  signed : t.prev.ckptSig = (Config.dikSign t.prev.ckptBody).toList

theorem closeOut_owned (stopped : Bool) (h : s.vtf.life = .owned) : ClosedOut stopped s (closeOut stopped s) := by
  have hbump := bumpCounter_same 7 s (by decide)
  simp only [closeOut, writeCkpt_owned h]
  exact ⟨rfl, ⟨_, rfl⟩, hbump, congrArg some hbump, rfl, rfl⟩

/-- Where no execution runs or waits, a stopped flush drops none (R177). -/
theorem stopRuns_idle (hpend : s.wadi.pend = []) (hruns : ∀ d : Nat, vAt s.wadi.seqs d = none) :
    ∃ w, stopRuns s = { s with wadi := w } := by
  have hnone : s.wadi.seqs.toList.filterMap id = [] := by
    rw [List.filterMap_eq_nil_iff]
    intro r hr
    obtain ⟨i, hi, rfl⟩ := List.mem_iff_getElem.1 hr
    have := hruns i
    simpa [vAt, show i < 8 by simpa using hi] using this
  simp only [stopRuns, hnone, hpend]
  exact ⟨_, rfl⟩

theorem exec_flushStopAtVRes_due (hq : s.pwr.seq = .flush) (hv : atVres s.oas s.prev.clive s.oas.vhold = true) :
    exec .flushStopAtVRes s = .next (closeOut true (stopRuns s)) :=
  whenDue_of s _ (by simp [hq, hv])

theorem exec_flushComplete_due (hq : s.pwr.seq = .flush) (hd : flushDone s = true) :
    exec .flushComplete s = .next (closeOut false s) :=
  whenDue_of s _ (by simp [hq, hd])

theorem exec_converterOff_marked (hq : s.pwr.seq = .marked) : exec (.converterOff false) s = .next
    (if s.pwr.vmainHigh && !s.pwr.fatal then applyReset .por { s with arr.writes := [], pwr.seq := .off }
      else { s with arr.writes := [], pwr.seq := .off }) :=
  whenDue_of s _ (by simp [hq])

theorem vAt_replicate_default {α : Type} [Inhabited α] (n i : Nat) : vAt (Vector.replicate n (default : α)) i = default := by
  by_cases h : i < n
  · exact vAt_replicate default h
  · simp [vAt, h]

theorem applyReset_por (s : State) : Restarted .por (applyReset .por s) ∧ (applyReset .por s).pwr.released = false :=
  ⟨⟨rfl, rfl, rfl, rfl, rfl, rfl, rfl, rfl, rfl, rfl, rfl, rfl, rfl, fun q => vAt_replicate_default 64 q,
    fun c => vAt_vMap _ _ _ c.isLt⟩, rfl⟩

/-! ## The obligation -/

/-- Settles O27, row by row: a monitor that falls begins the sequence or is noted; each step is due in its stage and leaves the next one. -/
theorem supplyAndPowerLoss : Obligations.SupplyAndPowerLoss := by
  refine ⟨fun s => ⟨fun hr hq hp => ?fail, fun hq => ?running, fun hq hr hp hm hl => ?low, fun hdue => ?valid, fun hnot => ?notYet,
    fun hhigh hdue => whenDue_of s _ (by simp [hhigh, hdue]), fun hw hr hp hq => ?enter, fun hw hdue hjobs => ?exit⟩, ?sequence⟩
  case fail =>
    have hloss := lossBegin_begins (s := vmainGone s) false hq hp
    have only : OnlyIn [.pwr, .link, .oas, .prev, .cores] s (lossBegin false (vmainGone s)) :=
      (vmainGone_only s).trans (lossBegin_only _ _) (by decide) (by decide)
    obtain ⟨hpwr, ⟨hls, hmsgs⟩, hcharge, ⟨hpower, hts⟩, hcores⟩ := hloss
    refine ⟨_, (exec_vmainFail s).trans (by rw [if_pos hr]), ?_⟩
    rw [hpwr]
    exact ⟨rfl, rfl, rfl, rfl, rfl, hls, hmsgs, hcharge, hpower, hts, hcores, only⟩
  case running =>
    have hsame : (if s.pwr.released then lossBegin false (vmainGone s) else vmainGone s) = vmainGone s := by
      rw [lossBegin_running (s := vmainGone s) false hq, ite_self]
    exact ⟨vmainGone s, (exec_vmainFail s).trans (by rw [hsame]), rfl, rfl, vmainGone_only s⟩
  case low =>
    have hon : collectorOn (vioDropped s) = true := by
      show (s.pwr.released && decide (s.pwr.pstate ≠ .off)) = true
      simp [hr, hp]
    have hreact := faultStateBegin_reacted 5 0 (vioDropped s)
    exact ⟨_, exec_vioLow_calm hq, hreact.power (·.vioLow), hreact.power (·.vioOk), (Nat.le_add_right _ _).trans_eq (hreact.power (·.vioAt)).symm,
      congrArg (·.vioReleased) (faultStateBegin_only 5 0 (vioDropped s) .boot (by decide)), faultStateBegin_latches _ (by decide) hm hon,
      faultStateBegin_present _ _ (by decide)⟩
  case valid =>
    refine ⟨_, (exec_vioValidExpiry s).trans (whenDue_of s _ (decide_eq_true hdue)), rfl, rfl, rfl, ?_, vioReturned_only s⟩
    exact (setBit96_getLsbD _ _ _ _ (by decide)).trans (if_pos rfl)
  case notYet =>
    rw [exec_vioValidExpiry, decide_eq_false (by omega)]
    rfl
  case enter =>
    have only := windowMsg_only { pfailHeld s with oas := { s.oas with warn := true } }
    have hpwr : (windowMsg { pfailHeld s with oas := { s.oas with warn := true } }).pwr = (pfailHeld s).pwr := only .pwr (by decide)
    refine ⟨_, exec_warnEnter_new hw hr hp hq, by rw [windowMsg_oas], ?_, ?_⟩
    · rw [hpwr]
      exact max_le_max le_rfl (Nat.le_add_right _ _)
    · have hheld : OnlyIn [.oas, .pwr, .link, .fresh] s { pfailHeld s with oas := { s.oas with warn := true } } :=
        (pfailHeld_only s).trans (oas_only _ _) (by decide) (by decide)
      exact hheld.trans only (by decide) (by decide)
  case exit =>
    let t := windowMsg { s with oas := { s.oas with warn := false } }
    have only : OnlyIn [.oas, .pwr, .link] s t := (oas_only s _).trans (windowMsg_only _) (by decide) (by decide)
    have hjobs' : t.eng.jobs = s.eng.jobs := congrArg Engine.jobs (only .eng (by decide))
    refine ⟨t, (exec_warnExit_due hw hdue).trans (by rw [holdupNext_none (hjobs' ▸ hjobs)]), ?_, only⟩
    exact congrArg Oasis.warn (windowMsg_oas _)
  case sequence =>
    intro s v q w c0 nj
    refine ⟨fun hq => ?flushStarts, fun hq hdue => ?estimate, fun hq hlife hv hpend hruns => ?stop, fun hq hlife hd => ?complete,
      fun hq hlife hd => ?other, fun hq hstay => ?off, fun hq hhigh hfatal => ?restart⟩
    case flushStarts =>
      obtain ⟨hpwr, l, hprev⟩ := flushPartials_kept (manifestNoted s)
      refine ⟨_, exec_flushBegin_due hq, ?_⟩
      rw [hpwr, hprev]
      exact ⟨rfl, rfl, rfl, (dropOpenTrains_reacted s).oasis (·.cUse)⟩
    case estimate => rw [exec_cLiveEstimate_due v q w hq hdue, cliveTaken_eq]
    case stop =>
      obtain ⟨x, hx⟩ := stopRuns_idle hpend hruns
      obtain ⟨hseq, ⟨n, hmarker⟩, hcount, hckpt, hwrites, hsigned⟩ := closeOut_owned (s := { s with wadi := x }) true hlife
      exact ⟨_, n, (exec_flushStopAtVRes_due hq hv).trans (by rw [hx]), hseq, hmarker, hcount, hckpt, hwrites, hsigned⟩
    case complete =>
      obtain ⟨hseq, ⟨n, hmarker⟩, hcount, hckpt, -, -⟩ := closeOut_owned false hlife
      exact ⟨_, n, exec_flushComplete_due hq hd, hseq, hmarker, hcount, hckpt⟩
    case other =>
      have hnone := writeCkpt_other hlife
      have hclosed : (closeOut false s).vtf = (writeCkpt s).vtf ∧ (closeOut false s).prev.ckpt = (writeCkpt s).prev.ckpt := ⟨rfl, rfl⟩
      rw [hnone] at hclosed
      exact ⟨_, exec_flushComplete_due hq hd, rfl, hclosed⟩
    case off =>
      have hno : ¬(s.pwr.vmainHigh && !s.pwr.fatal) = true := by rcases hstay with h | h <;> simp [h]
      rw [exec_converterOff_marked hq, if_neg hno]
    case restart =>
      obtain ⟨hrestart, hheld⟩ := applyReset_por { s with arr.writes := [], pwr.seq := .off }
      exact ⟨_, (exec_converterOff_marked hq).trans (by rw [if_pos (by simp [hhigh, hfatal])]), hrestart, hheld⟩

end Sys2Proof.Machine
end

section
/-! SUPPORT. A barrier command that arrives where nothing is under way is carried out at once, and is over when it leaves its queue. -/
namespace Sys2Proof.Machine
open Sys2Proof

variable {s t s2 : State} {opc : BitVec 16} {x : CmdIn} {c : Ctx}

/-! ## The power state and the frame of an admitted command -/

theorem setHead_only (q : Nat) (p : QPkt) (s : State) : OnlyIn [.eng] s (setHead q p s) := by
  simp only [setHead]
  split
  · exact OnlyIn.refl _ _
  · exact setQueue_only _ _ _

/-- A command that arrives leaves IDLE, and changes the power state in nothing else (R533). -/
theorem admitted_pwr (h : Admitted opc x c s s2) : s2.pwr = (noteRequest s).pwr := by
  obtain ⟨-, -, -, -, -, -, -, -, -, -, -, ⟨t, ht, rfl⟩, -, -⟩ := h
  obtain ⟨-, -, only, -⟩ := checkPacket_passed ht
  have hjoined : (joined opc x s).pwr = (noteRequest s).pwr := by
    simp only [joined, renewAbort]
    split <;> rfl
  exact (setHead_only _ _ t .pwr (by decide)).trans ((only .pwr (by decide)).trans hjoined)

/-- The device that carries out an admitted command is started, outside OFF and in no loss sequence. -/
structure Awake (s : State) : Prop where
  released : s.pwr.released = true
  calm : s.pwr.seq = .none
  on : s.pwr.pstate ≠ .off

theorem Awake.collectorOn (h : Awake s) : collectorOn s = true := by
  simp [Machine.collectorOn, h.released, h.on]

theorem Awake.oasisCalm (h : Awake s) : oasisCalm s = true := oasisCalm_of ⟨h.calm, h.on⟩

theorem admitted_awake (h : Admitted opc x c s s2) : Awake s2 := by
  have hpwr := admitted_pwr h
  obtain ⟨-, -, hon, hoff, -⟩ := h
  obtain ⟨hr, hq⟩ : s.pwr.released = true ∧ s.pwr.seq = .none := by simpa [engineOn, inLoss] using hon
  refine ⟨by rw [hpwr]; exact hr, by rw [hpwr]; exact hq, ?_⟩
  rw [hpwr]
  show (if s.pwr.pstate = .idle then .run else s.pwr.pstate) ≠ PState.off
  split
  · decide
  · exact hoff

/-! ## Taken up in its turn (R251, R252) -/

/-- What a packet alone in its queue, with every other head after it, does: it is checked and then granted. -/
theorem deliver_alone {p : QPkt} (hon : engineOn s = true) (hoff : s.pwr.pstate ≠ .off) (hchan : p.pkt.chan = .host)
    (hq : p.pkt.qid.toNat < 64) (hempty : queueOf s p.pkt.qid.toNat = [])
    (hcheck : checkHead p.pkt.qid.toNat (setQueue (renewAbort p.pkt.qid.toNat p (noteRequest s)) p.pkt.qid.toNat
      [{ p with owner := s.vtf.owner.getD [] }]) = (false, t)) :
    deliver p s = settleEntry (takeTurn p.pkt.qid.toNat 65 t) := by
  have hgate : (!engineOn s || decide (s.pwr.pstate = .off)) = false := by simp [hon, hoff]
  have hhost : ¬p.pkt.chan = .sideband := by simp [hchan]
  have hnil : (queueOf (noteRequest s) p.pkt.qid.toNat).isEmpty = true := List.isEmpty_iff.2 hempty
  have hcheck' : checkHead p.pkt.qid.toNat (setQueue (renewAbort p.pkt.qid.toNat p (noteRequest s)) p.pkt.qid.toNat
      [{ p with owner := (noteRequest s).vtf.owner.getD [] }]) = (false, t) := hcheck
  simp only [deliver, hgate, if_neg hhost, if_neg (Nat.not_lt.2 (Nat.le_of_lt_succ hq)), hnil, hcheck', Bool.false_eq_true, if_false, if_true]

theorem takeTurn_first (q n : Nat) (h : (arbOrder s).head? = some q) : takeTurn q (n + 1) s = (grant [q] s).2 := by
  obtain ⟨rest, hrest⟩ : ∃ rest, arbOrder s = q :: rest := List.head?_eq_some_iff.1 h
  have htake : (arbOrder s).takeWhile (· ≠ q) = [] := by simp [hrest]
  simp only [takeTurn, htake, grant]

/-- An admitted packet that admission lets end in `t` has left its queue, whether or not it is a barrier. -/
theorem arrive_of_admitPassed (h : Admitted opc x c s s2) (hd : admitPassed (admittedCtx c s) x.qid.toNat s2 = .fin t) :
    arrive opc x s = leftQueue opc x c t := by
  have hs := admittedState_of h
  have hcheck := checkHead_joined h
  obtain ⟨hchan, hq, hon, hoff, hempty, -, -, -, -, -, -, -, hhead, -⟩ := h
  have hctx : ctxOf (admittedPkt opc x c s) = admittedCtx c s := by
    simp only [ctxOf, admittedPkt, passedPkt, admittedCtx, hs.pkt]
  have hadmit : admitHead x.qid.toNat s2 = (true, dropHead x.qid.toNat (admittedPkt opc x c s) t) := by
    simp only [admitHead, checkHead_of_passed _ _ hs.queue rfl hs.session, hs.queue, headPassed, hctx, hd]
  have hdeliver : arrive opc x s = deliver (hostPkt opc x) s := by
    show (match x.chan with | .host => deliver (hostPkt opc x) s | .sideband => _) = _
    rw [hchan]
  rw [hdeliver, deliver_alone (p := hostPkt opc x) hon hoff hchan hq hempty hcheck]
  show settleEntry (takeTurn x.qid.toNat 65 s2) = _
  rw [takeTurn_first _ _ hhead, grant_cons_of_admitted _ _ _ hadmit]
  simp only [headUrgent, hs.queue]
  rfl

/-- A barrier that finds nothing under way is dispatched with admission held for it, and lets go at its end (R255). -/
theorem admitPassed_of_alone (h : AdmittedAlone opc x c s s2) (hstream : streamOpc opc.toNat = false)
    (hb : isBarrier (admittedCtx c s) = true) (hd : dispatch (admittedCtx c s) x.qid.toNat s2 = .fin t) :
    ∃ v, Admitted opc x c s v ∧ admitPassed (admittedCtx c s) x.qid.toNat v = .fin { t with eng.barQ := none } := by
  obtain ⟨⟨v, hv, rfl⟩, hreplies, htrains⟩ := h
  have hs := admittedState_of hv
  refine ⟨v, hv, ?_⟩
  obtain ⟨-, -, -, -, -, -, hmount, hbacklog, hbar, -, hentry, -, -, hat⟩ := hv
  have hstore : v.store = s.store := hs.only .store (by decide)
  have hlink : v.link = s.link := hs.only .link (by decide)
  have hopc : (admittedCtx c s).pkt.opc = opc := congrArg Packet.opc hs.pkt
  have hmounted : (!v.store.mounted && !premount opc.toNat && !streamOpc opc.toNat) = false := by
    rcases hmount with h | h | rfl
    · simp [hstore, h]
    · simp [h]
    · exact absurd hstream (by decide)
  have hnotStream : (!v.store.mounted && streamOpc opc.toNat && decide (opc.toNat ≠ 0x0023)) = false := by simp [hstream]
  have hroom : (decide ((admittedCtx c s).pkt.chan = .host) && decide (512 ≤ v.link.replies.length)) = false := by
    rw [hlink, decide_eq_false (Nat.not_le.2 hbacklog), Bool.and_false]
  have hfree : ((v.eng.jobs.any (·.barrier)) || (match barrierAt v with | some b => decide (b ≠ x.qid.toNat) | none => false)
      || v.pwr.entry.isSome) = false := by
    have hbarrier : (match barrierAt v with | some b => decide (b ≠ x.qid.toNat) | none => false) = false := by
      split
      · next b hb => simp [hat b hb]
      · rfl
    have hjobs : v.eng.jobs.any (·.barrier) = false := by
      rw [hs.jobs]
      simpa using hbar
    rw [hjobs, hbarrier, hs.entry, hentry]
    rfl
  have hquiet : ((v.eng.jobs.any fun j => !j.replies.isEmpty) || v.eng.trains.any fun t => decide (t.st = .opened)) = false := by
    rw [hs.jobs, hs.trains, Bool.or_eq_false_iff, List.any_eq_false, List.any_eq_false]
    exact ⟨fun j hj => by simp [hreplies j hj], fun t ht => by simp [htrains t ht]⟩
  have hgo : dispatch (admittedCtx c s) x.qid.toNat { v with eng.barQ := some x.qid.toNat } = .fin t := hd
  simp only [admitPassed, hopc, if_neg hs.phase, hmounted, hnotStream, hroom, hb, Bool.false_eq_true, if_false, if_true]
  exact (if_neg (ne_true_of_eq_false hfree)).trans ((if_neg (ne_true_of_eq_false hquiet)).trans (by rw [hgo]))

/-- A barrier command that is carried out alone has left its queue, and admission is free again (R255). -/
theorem arrive_of_alone (h : AdmittedAlone opc x c s s2) (hstream : streamOpc opc.toNat = false)
    (hb : isBarrier (admittedCtx c s) = true) (hd : dispatch (admittedCtx c s) x.qid.toNat s2 = .fin t) :
    arrive opc x s = leftQueue opc x c { t with eng.barQ := none } := by
  obtain ⟨v, hv, hpassed⟩ := admitPassed_of_alone h hstream hb hd
  exact arrive_of_admitPassed hv hpassed

/-! ## The queue left behind -/

/-- A command that was alone leaves its queue empty, and no packet behind it is checked. -/
theorem leftQueue_alone {p : QPkt} (hq : x.qid.toNat < 64) (h : queueOf t x.qid.toNat = [p]) : leftQueue opc x c t =
    settleEntry (served x.qid.toNat (fUrg (hostPkt opc x).pkt) (dropHead x.qid.toNat (passedPkt opc x c) t)) := by
  have hempty : queueOf (dropHead x.qid.toNat (passedPkt opc x c) t) x.qid.toNat = [] := by
    rw [queueOf_dropHead _ _ _ _ hq, if_pos rfl, h, List.tail_cons]
  rw [leftQueue, headLeft_empty _ hempty]

theorem dropHead_only (q : Nat) (p : QPkt) (s : State) : OnlyIn [.eng, .link] s (dropHead q p s) := by
  have htaken : OnlyIn [.eng] s (setQueue s q (queueOf s q).tail) := setQueue_only _ _ _
  have hcredits (v : State) : OnlyIn [.link] v { v with link := { v.link with chUsed := v.link.chUsed - p.ch, cdUsed := v.link.cdUsed - p.cd } } := by
    intro r hr; cases r <;> simp_all [sameIn]
  exact (htaken.trans (hcredits _) (n := [.eng, .link]) (by decide) (by decide)).trans (pump_only _) (by decide) (by decide)

theorem served_only (q : Nat) (urg : Bool) (s : State) : OnlyIn [.eng] s (served q urg s) := by
  simp only [served]
  split <;> (intro r hr; cases r <;> simp_all [sameIn])

/-- An entry whose last step may be due: entered, or still prepared. -/
theorem enteredIf_cases {p : PState} (hentry : s.pwr.entry = some (p, 0)) (b : Bool) (l : Link) (k : Cache) :
    ∃ l' k', (if b then entered p { s with link := l, cache := k } else { s with link := l, cache := k }) = { s with link := l', cache := k' }
    ∨ ∃ p', s.pwr.entry = some (p', 0)
      ∧ (if b then entered p { s with link := l, cache := k } else { s with link := l, cache := k })
        = entered p' { s with link := l', cache := k' } := by
  cases b with
  | true => exact ⟨l, k, .inr ⟨p, hentry, rfl⟩⟩
  | false => exact ⟨l, k, .inl rfl⟩

/-- What the steps of an entry can do: they stay, with link and caches prepared, or the state is entered (R535 to R538). -/
theorem settleEntry_cases (s : State) : ∃ l k, settleEntry s = { s with link := l, cache := k }
    ∨ ∃ p, s.pwr.entry = some (p, 0) ∧ settleEntry s = entered p { s with link := l, cache := k } := by
  unfold settleEntry
  split
  · next p hentry =>
    split
    · extract_lets sent
      split
      · exact ⟨s.link, s.cache, .inl rfl⟩
      · split
        · exact enteredIf_cases hentry _ _ _
        · exact ⟨_, s.cache, .inr ⟨p, hentry, rfl⟩⟩
    · exact enteredIf_cases hentry (sweepsDone s) s.link s.cache
  · exact ⟨s.link, s.cache, .inl rfl⟩

theorem settleEntry_only (s : State) : OnlyIn [.pwr, .link, .cache] s (settleEntry s) := by
  obtain ⟨l, k, h⟩ := settleEntry_cases s
  have hprepared : OnlyIn [.link, .cache] s { s with link := l, cache := k } := by
    intro r hr; cases r <;> simp_all [sameIn]
  rcases h with h | ⟨p, -, h⟩
  · exact h ▸ hprepared.mono (by decide)
  · exact h ▸ hprepared.trans (entered_only _ _) (by decide) (by decide)

end Sys2Proof.Machine
end

section
/-! SUPPORT. FAULT_INJECT, FAULT_CLEAR, POWER_STATE and HOLDUP_TEST: what each leaves where its checks pass; and the statement on them. -/
namespace Sys2Proof.Machine
open Sys2Proof

variable {s t s2 : State} {opc : BitVec 16} {x : CmdIn} {c : Ctx} {cmd : Ctx → Nat → State → Verdict} {b : Ctx → Bool}

/-! ## Commands that are barriers by their parameters (R255) -/

/-- A command carries out the packets of an opcode, and its parameters say whether it is a barrier, whoever owned the device at arrival. -/
def BarrierBy (opc : BitVec 16) (cmd : Ctx → Nat → State → Verdict) (b : Ctx → Bool) : Prop :=
  ∀ c o q s, c.pkt.opc = opc → isBarrier { c with owner := o } = b c ∧ dispatch { c with owner := o } q s = cmd c q s

theorem exec_of_fin_free {i : Instr} (hrow : exec i s = .next (arrive opc x s)) (hcmd : BarrierBy opc cmd b) (h : Admitted opc x c s s2)
    (hb : b c = false) (hd : cmd c x.qid.toNat s2 = .fin t) : exec i s = .next (leftQueue opc x c t) := by
  obtain ⟨hbar, hdisp⟩ := hcmd c (s.vtf.owner.getD []) x.qid.toNat s2 (congrArg Packet.opc (admittedState_of h).pkt)
  rw [hrow, arrive_of_dispatch h (hbar.trans hb) (hdisp.trans hd)]

theorem exec_of_fin_alone {i : Instr} (hrow : exec i s = .next (arrive opc x s)) (hcmd : BarrierBy opc cmd b)
    (h : AdmittedAlone opc x c s s2) (hstream : streamOpc opc.toNat = false) (hb : b c = true) (hd : cmd c x.qid.toNat s2 = .fin t) :
    exec i s = .next (leftQueue opc x c { t with eng.barQ := none }) := by
  have hopc : c.pkt.opc = opc := by
    obtain ⟨⟨v, hv, -⟩, -, -⟩ := h
    exact congrArg Packet.opc (admittedState_of hv).pkt
  obtain ⟨hbar, hdisp⟩ := hcmd c (s.vtf.owner.getD []) x.qid.toNat s2 hopc
  rw [hrow, arrive_of_alone h hstream (hbar.trans hb) (hdisp.trans hd)]

theorem faultInject_carriedOut : CarriedOutBy 0x0062 fun c _ => cmdFaultInject c :=
  fun _ _ _ _ h => by simp only [isBarrier, dispatch, h]; exact ⟨rfl, rfl⟩

theorem faultClear_carriedOut : CarriedOutBy 0x0061 fun c _ => cmdFaultClear c :=
  fun _ _ _ _ h => by simp only [isBarrier, dispatch, h]; exact ⟨rfl, rfl⟩

theorem powerState_barrierBy : BarrierBy 0x0070 (fun c _ => cmdPower c) fun c => decide (pf c 0 1 ≠ 0) :=
  fun _ _ _ _ h => by simp only [isBarrier, dispatch, h]; exact ⟨rfl, rfl⟩

theorem holdupTest_barrierBy : BarrierBy 0x0071 (fun c _ => cmdHoldup c) fun c => decide (pf c 0 1 = 1) :=
  fun _ _ _ _ h => by simp only [isBarrier, dispatch, h]; exact ⟨rfl, rfl⟩

/-- The state in which a barrier acts is an admitted command's, with admission held for the barrier. -/
theorem alone_awake (h : AdmittedAlone opc x c s s2) : Awake s2 := by
  obtain ⟨⟨v, hv, rfl⟩, -, -⟩ := h
  obtain ⟨hr, hq, hp⟩ := admitted_awake hv
  exact ⟨hr, hq, hp⟩

theorem alone_queue (h : AdmittedAlone opc x c s s2) : x.qid.toNat < 64 ∧ queueOf s2 x.qid.toNat = [admittedPkt opc x c s] := by
  obtain ⟨⟨v, hv, rfl⟩, -, -⟩ := h
  have hqueue := (admittedState_of hv).queue
  obtain ⟨-, hq, -⟩ := hv
  exact ⟨hq, hqueue⟩

theorem leftQueue_alone_only {p : QPkt} (hq : x.qid.toNat < 64) (h : queueOf t x.qid.toNat = [p]) :
    OnlyIn [.pwr, .link, .cache, .eng] t (leftQueue opc x c t) := by
  rw [leftQueue_alone hq h]
  have hdrop := (dropHead_only x.qid.toNat (passedPkt opc x c) t).trans (served_only x.qid.toNat (fUrg (hostPkt opc x).pkt) _)
    (n := [.link, .eng]) (by decide) (by decide)
  exact hdrop.trans (settleEntry_only _) (by decide) (by decide)

/-! ## FAULT_INJECT (R282, R510) -/

theorem cmdFaultInject_bad (h : pf c 0 1 = 0 ∨ 95 < pf c 0 1) : cmdFaultInject c s = answer c .badParam 0 [] s := by
  simp only [cmdFaultInject, if_pos h]
  rfl

theorem cmdFaultInject_latches (hmin : 1 ≤ pf c 0 1) (hmax : pf c 0 1 ≤ 95) :
    cmdFaultInject c s = answer c .ok 0 [] (latchFault (pf c 0 1) (BitVec.ofNat 32 (pf c 4 4)) s) := by
  have hok : ¬(pf c 0 1 = 0 ∨ 95 < pf c 0 1) := by omega
  simp only [cmdFaultInject, if_neg hok]

/-- A source that is latched already is counted (R499). -/
theorem latchFault_again (src : Nat) (det : BitVec 32) (hon : collectorOn s = true) (hl : s.flt.latch.getLsbD src = true) :
    latchFault src det s = { s with flt.dup := satInc s.flt.dup } := by
  simp only [latchFault, hon, hl, Bool.not_true, Bool.false_eq_true, if_false, if_true]

theorem startTimers_hist (f : Faults) (src now : Nat) : (startTimers f src now).hist = f.hist := by
  simp only [startTimers]
  split
  · rfl
  · split <;> rfl

/-- A fault joins a history that has room (R499). -/
theorem latchRegs_hist (f : Faults) (src : Nat) (det : BitVec 32) (dt now : Nat) (h : f.hist.length < 32) :
    (latchRegs f src det dt now).hist = f.hist ++ [{ ets := dt, src := src, cls := srcClass src, det := det }] := by
  have hroom (e : HistEntry) : (addHist f.hist e).1 = f.hist ++ [e] := by simp only [addHist, if_pos h]
  simp only [latchRegs]
  split
  · rw [startTimers_hist, hroom]
  · exact hroom _

/-- A source that was not latched: latch, history, and the reaction under its policy (R498, R499, R505, R507). -/
structure NewlyLatched (src : Nat) (det : BitVec 32) (s t : State) : Prop where
  latch : ∀ n, t.flt.latch.getLsbD n = (decide (n = src) || s.flt.latch.getLsbD n)
  hist : s.flt.hist.length < 32 → t.flt.hist = s.flt.hist ++ [{ ets := s.dtime, src := src, cls := srcClass src, det := det }]
  halts : vAt s.flt.pol src = 2 → t.pwr.seq = .manifest ∧ t.pwr.fatal = true ∧ t.pwr.phase = .halt
  stays : vAt s.flt.pol src ≠ 2 → t.pwr = s.pwr

theorem latchFault_newly {src : Nat} (det : BitVec 32) (h : Awake s) (hsrc : src < 96) (hl : s.flt.latch.getLsbD src = false) :
    NewlyLatched src det s (latchFault src det s) := by
  obtain ⟨m, hm, heq⟩ := latchFault_new det h.collectorOn hl
  have hmpwr : m.pwr = s.pwr := hm .pwr (by decide)
  have hmflt : m.flt = latchRegs s.flt src det s.dtime s.tick := hm .flt (by decide)
  have hflt : (latchFault src det s).flt = latchRegs s.flt src det s.dtime s.tick := by
    rw [heq]
    split
    · exact (lossBegin_only true m .flt (by decide)).trans hmflt
    · exact hmflt
  refine ⟨fun n => ?_, fun hroom => ?_, fun hp => ?_, fun hp => ?_⟩
  · rw [hflt, latchRegs_latch, setBit96_getLsbD _ _ _ _ hsrc]
    by_cases hn : n = src <;> simp [hn]
  · rw [hflt, latchRegs_hist _ _ _ _ _ hroom]
  · have hloss := (lossBegin_begins (s := m) true (hmpwr ▸ h.calm) (hmpwr ▸ h.on)).pwr
    rw [heq, if_pos hp, hloss]
    exact ⟨rfl, rfl, rfl⟩
  · rw [heq, if_neg hp, hmpwr]

/-! ## FAULT_CLEAR (R282, R498, R501) -/

/-- Whether a source shows the collector a fault state, which latches it again when it is cleared (R498). -/
def shown (f : Faults) (n : Nat) : Bool := (f.present.getLsbD n || (f.force.getLsbD n && decide (n < 80))) && !f.masked.getLsbD n

theorem shown_of_inputs {f g : Faults} (h : inputsOf f = inputsOf g) (n : Nat) : shown f n = shown g n := by
  simp only [inputsOf, Prod.mk.injEq] at h
  obtain ⟨hp, hf, hm⟩ := h
  simp only [shown, hp, hf, hm]

/-- The state with a latch and its acknowledgement gone, before its source is seen again. -/
def unlatched (src : Nat) (s : State) : State :=
  { s with flt := settleTimers { s.flt with latch := setBit96 s.flt.latch src false, ack := setBit96 s.flt.ack src false } }

theorem clearLatch_latched {src : Nat} (hl : s.flt.latch.getLsbD src = true) : clearLatch s src =
    if shown s.flt src then raiseFault src (if s.flt.present.getLsbD src then (look src s.flt.detail).getD 0 else 0) (unlatched src s)
    else unlatched src s := by
  simp only [clearLatch, hl, Bool.not_true, Bool.false_eq_true, if_false]
  rfl

/-- Clearing a latch reaches no other; the latch stays where its fault state persists. -/
theorem clearLatch_latch {src : Nat} (hon : collectorOn s = true) (hsrc : src < 96) (n : Nat) :
    (clearLatch s src).flt.latch.getLsbD n = (s.flt.latch.getLsbD n && (decide (n ≠ src) || shown s.flt src)) := by
  cases hl : s.flt.latch.getLsbD src with
  | false =>
    simp only [clearLatch, hl, Bool.not_false, if_true]
    by_cases hn : n = src
    · simp [hn, hl]
    · simp [hn]
  | true =>
    have hlatch : (unlatched src s).flt.latch = setBit96 s.flt.latch src false := rfl
    have hgone : (unlatched src s).flt.latch.getLsbD src = false := by rw [hlatch, setBit96_getLsbD _ _ _ _ hsrc, if_pos rfl]
    rw [clearLatch_latched hl]
    cases hs : shown s.flt src with
    | false =>
      rw [if_neg Bool.false_ne_true, hlatch, setBit96_getLsbD _ _ _ _ hsrc]
      by_cases hn : n = src <;> simp [hn]
    | true =>
      have hseen : ¬(unlatched src s).flt.masked.getLsbD src = true := by
        have : s.flt.masked.getLsbD src = false := by simp_all [shown]
        exact ne_true_of_eq_false this
      have hon' : collectorOn (unlatched src s) = true := hon
      rw [if_pos rfl, raiseFault, if_neg hseen, latchFault_latch, if_pos ⟨hon', hgone⟩, hlatch, setBit96_getLsbD _ _ _ _ hsrc,
        setBit96_getLsbD _ _ _ _ hsrc]
      by_cases hn : n = src <;> simp [hn, hl]

theorem clearLatch_reacted (s : State) (src : Nat) : Reacted s (clearLatch s src) := by
  have hgone : Reacted s (unlatched src s) := ⟨rfl, id, id, rfl, rfl⟩
  cases hl : s.flt.latch.getLsbD src with
  | false =>
    simp only [clearLatch, hl, Bool.not_false, if_true]
    exact .refl s
  | true =>
    rw [clearLatch_latched hl]
    split
    · exact .after (raiseFault_reacted _ _ _) hgone
    · exact hgone

theorem foldl_clearLatch_latch (l : List Nat) (hl : ∀ m ∈ l, m < 96) (hon : collectorOn s = true) (n : Nat) :
    (l.foldl clearLatch s).flt.latch.getLsbD n = (s.flt.latch.getLsbD n && (decide (n ∉ l) || shown s.flt n)) := by
  induction l generalizing s with
  | nil => simp
  | cons m l ih =>
    have hreact := clearLatch_reacted s m
    have hrest := ih (s := clearLatch s m) (fun k hk => hl k (List.mem_cons_of_mem _ hk)) (hreact.collectorOn.trans hon)
    rw [List.foldl_cons, hrest, clearLatch_latch hon (hl m List.mem_cons_self), shown_of_inputs hreact.inputs]
    by_cases hn : n = m
    · subst hn
      cases shown s.flt n <;> simp
    · simp [hn]

/-- Of a set, the latches go whose sources show no fault state (R501). -/
theorem clearLatches_latch (set : BitVec 96) (hon : collectorOn s = true) (n : Nat) :
    (clearLatches s set).flt.latch.getLsbD n = (s.flt.latch.getLsbD n && (!set.getLsbD n || shown s.flt n)) := by
  have hmem : n ∈ (List.range 96).filter (fun k => set.getLsbD k) ↔ set.getLsbD n = true := by
    rw [List.mem_filter, List.mem_range]
    exact ⟨And.right, fun h => ⟨BitVec.lt_of_getLsbD h, h⟩⟩
  have hall : ∀ m ∈ (List.range 96).filter (fun k => set.getLsbD k), m < 96 := fun m hm => List.mem_range.1 (List.mem_filter.1 hm).1
  rw [clearLatches, foldl_clearLatch_latch _ hall hon]
  simp only [hmem, Bool.not_eq_true, Bool.decide_eq_false]

theorem clearLatches_zero (s : State) : clearLatches s 0 = s := by
  have hnone : (List.range 96).filter (fun n => (0 : BitVec 96).getLsbD n) = [] := by simp
  rw [clearLatches, hnone]
  rfl

/-- The history emptied as asked leaves latches and inputs alone. -/
theorem emptyHist_fields (hist first : Bool) (f : Faults) : (emptyHist hist first f).latch = f.latch
    ∧ inputsOf (emptyHist hist first f) = inputsOf f ∧ (emptyHist hist first f).hist = (if hist then [] else f.hist)
    ∧ (emptyHist hist first f).first = if first then none else f.first := by
  cases hist <;> cases first <;> exact ⟨rfl, rfl, rfl, rfl⟩

/-- The state in which FAULT_CLEAR clears latches. -/
def histEmptied (c : Ctx) (s : State) : State :=
  { s with flt := emptyHist ((pf c 12 1).testBit 0) ((pf c 12 1).testBit 1) s.flt }

theorem cmdFaultClear_answer (c : Ctx) (s : State) :
    cmdFaultClear c s = answer c .ok 0 [] (clearLatches (histEmptied c s) (BitVec.ofNat 96 (pf c 0 12))) := rfl

theorem faultClear_latch (c : Ctx) (h : Awake s) (set : BitVec 96) (n : Nat) : (clearLatches (histEmptied c s) set).flt.latch.getLsbD n =
    (s.flt.latch.getLsbD n && (!set.getLsbD n || shown s.flt n)) := by
  obtain ⟨hlatch, hinputs, -, -⟩ := emptyHist_fields ((pf c 12 1).testBit 0) ((pf c 12 1).testBit 1) s.flt
  have hon : collectorOn (histEmptied c s) = true := h.collectorOn
  have hlatch' : (histEmptied c s).flt.latch = s.flt.latch := hlatch
  have hinputs' : inputsOf (histEmptied c s).flt = inputsOf s.flt := hinputs
  rw [clearLatches_latch set hon, hlatch', shown_of_inputs hinputs']

/-! ## POWER_STATE (R283, R535 to R538) -/

theorem cmdPower_run (h : pf c 0 1 = 0) : cmdPower c s = answer c .ok 0 [] s := by
  simp only [cmdPower, h]
  rfl

theorem cmdPower_bad (h : 3 < pf c 0 1) : cmdPower c s = answer c .badParam 0 [] s := by
  simp only [cmdPower, if_pos h]
  rfl

/-- DOZE is reached, or its entry goes on after the reply; no wake is held against it. -/
def DozeDue (p : Pwr) : Prop := p.heldWake = none ∧ ((p.pstate = .doze ∧ p.entry = none) ∨ p.entry = some (.doze, 0))

theorem entered_unheld (p : PState) (h : s.pwr.heldWake = none) :
    entered p s = { s with pwr := { s.pwr with pstate := p, entry := none } } := by
  simp only [entered, h]

theorem settleEntry_dozeDue (h : DozeDue s.pwr) : DozeDue (settleEntry s).pwr := by
  obtain ⟨l, k, hs | ⟨p, hentry, hs⟩⟩ := settleEntry_cases s
  · rw [hs]
    exact h
  · obtain ⟨hheld, ⟨-, hnone⟩ | hdoze⟩ := h
    · simp [hnone] at hentry
    · have hp : p = .doze := by simpa [hentry] using hdoze
      rw [hs, entered_unheld (s := { s with link := l, cache := k }) p hheld, hp]
      exact ⟨hheld, .inl ⟨rfl, rfl⟩⟩

/-- The entry into DOZE as POWER_STATE begins it, answered (R535). -/
def dozeBegun (c : Ctx) (s : State) : State :=
  { formReply (ctxReply c .ok 0 []) s with
    pwr := { (formReply (ctxReply c .ok 0 []) s).pwr with entry := some (.doze, 0) }
    link := { (formReply (ctxReply c .ok 0 []) s).link with eiosAfter := true } }

theorem cmdPower_doze (h : pf c 0 1 = 1) : cmdPower c s = .fin (settleEntry (dozeBegun c s)) := by
  simp only [cmdPower, h]
  rfl

theorem dozeBegun_dozeDue (c : Ctx) (h : s.pwr.heldWake = none) : DozeDue (dozeBegun c s).pwr := by
  have hpwr : (formReply (ctxReply c .ok 0 []) s).pwr = s.pwr := formReply_only _ _ .pwr (by decide)
  exact ⟨(congrArg Pwr.heldWake hpwr).trans h, .inr rfl⟩

theorem leftQueue_dozeDue {p : QPkt} (hq : x.qid.toNat < 64) (hqueue : queueOf t x.qid.toNat = [p]) (h : DozeDue t.pwr) :
    DozeDue (leftQueue opc x c t).pwr := by
  rw [leftQueue_alone hq hqueue]
  have only := (dropHead_only x.qid.toNat (passedPkt opc x c) t).trans (served_only x.qid.toNat (fUrg (hostPkt opc x).pkt) _)
    (n := [.link, .eng]) (by decide) (by decide)
  refine settleEntry_dozeDue ?_
  rwa [show (served _ _ _).pwr = t.pwr from only .pwr (by decide)]

/-- The entry into REST or OFF as POWER_STATE begins it: a barrier job holds the reply until the device is drained (R536, R537). -/
def entryBegun (c : Ctx) (s : State) : State :=
  { (newJob 1 [ctxReply c .ok 0 []] true (.power (pf c 0 1)) s).2 with
    pwr.entry := some (if pf c 0 1 = 2 then .rest else .off, s.eng.nextId + 1) }

theorem cmdPower_drains (h : pf c 0 1 = 2 ∨ pf c 0 1 = 3) : cmdPower c s = .fin (entryBegun c s) := by
  have hmax : ¬3 < pf c 0 1 := by omega
  have hrun : ¬pf c 0 1 = 0 := by omega
  have hdoze : ¬pf c 0 1 = 1 := by omega
  simp only [cmdPower, if_neg hmax, if_neg hrun, if_neg hdoze]
  rfl

/-! ## HOLDUP_TEST (R102) -/

theorem cmdHoldup_bad (h : 1 < pf c 0 1) : cmdHoldup c s = answer c .badParam 0 [] s := by
  simp only [cmdHoldup, if_pos h]
  rfl

/-- The job of a HOLDUP_TEST, which waits. -/
def testWaits (c : Ctx) (mode1 : Bool) (s : State) : State := (newJob 1 [ctxReply c .ok 0 []] mode1 (.holdup mode1) s).2

theorem cmdHoldup_fin (h : pf c 0 1 ≤ 1) : cmdHoldup c s = .fin (holdupNext (testWaits c (decide (pf c 0 1 = 1)) s)) := by
  simp only [cmdHoldup, if_neg (Nat.not_lt.2 h)]
  rfl

/-- A HOLDUP_TEST taken up, before the window follows. -/
def testTaken (j : Nat) (mode1 : Bool) (s : State) : State :=
  { s with
    oas.meas := { s.oas.meas with job := some j, mode1 := mode1, want := some .command, wantAt := s.tick, rechStart := none, chgt := 0 }
    oas.ederate := if mode1 then none else s.oas.ederate }

/-- Nothing keeps a HOLDUP_TEST from being taken up at once: no WARN, no measurement and no other test. -/
structure TestFree (s : State) : Prop where
  warn : s.oas.warn = false
  running : s.oas.meas.running = false
  job : s.oas.meas.job = none
  jobs : ∀ j ∈ s.eng.jobs, ∀ b, j.kind ≠ .holdup b

theorem holdupNext_testWaits (c : Ctx) (mode1 : Bool) (h : TestFree s) (hawake : Awake s) :
    holdupNext (testWaits c mode1 s) = recomputeW (testTaken s.eng.nextId mode1 (testWaits c mode1 s)) := by
  have hcalm : oasisCalm (testWaits c mode1 s) = true := hawake.oasisCalm
  have hgo : ((testWaits c mode1 s).oas.warn || (testWaits c mode1 s).oas.meas.running || (testWaits c mode1 s).oas.meas.job.isSome
      || !oasisCalm (testWaits c mode1 s)) = false := by
    have hwarn : (testWaits c mode1 s).oas.warn = false := h.warn
    have hrun : (testWaits c mode1 s).oas.meas.running = false := h.running
    have hjob : (testWaits c mode1 s).oas.meas.job = none := h.job
    rw [hwarn, hrun, hjob, hcalm]
    rfl
  have hfind : ∃ y, (testWaits c mode1 s).eng.jobs.find? isHoldup = some y ∧ y.id = s.eng.nextId ∧ y.kind = .holdup mode1 := by
    have hjobs : ∃ y : Job, (testWaits c mode1 s).eng.jobs = s.eng.jobs ++ [y] ∧ y.id = s.eng.nextId ∧ y.kind = .holdup mode1 :=
      ⟨_, rfl, rfl, rfl⟩
    obtain ⟨y, hy, hid, hkind⟩ := hjobs
    refine ⟨y, ?_, hid, hkind⟩
    rw [hy, List.find?_append, find_isHoldup_none h.jobs]
    simp [isHoldup, hkind]
  obtain ⟨y, hy, hid, hkind⟩ := hfind
  unfold holdupNext
  rw [if_neg (ne_true_of_eq_false hgo)]
  split
  · next hnone => exact absurd (hy.symm.trans hnone) (by simp)
  · next z hz =>
    obtain rfl : y = z := Option.some.inj (hy.symm.trans hz)
    simp only [hkind, hid]
    rfl

/-- The measurement of a test that was taken up. -/
theorem recomputeW_testTaken (j : Nat) (mode1 : Bool) (s : State) : (recomputeW (testTaken j mode1 s)).oas.meas.job = some j
    ∧ (recomputeW (testTaken j mode1 s)).oas.meas.want = some .command ∧ (recomputeW (testTaken j mode1 s)).oas.meas.mode1 = mode1 :=
  ⟨recomputeW_oasis (·.meas.job) _, recomputeW_oasis (·.meas.want) _, recomputeW_oasis (·.meas.mode1) _⟩

/-- In MODE 1 the window is held at 0 (R102). -/
theorem recomputeW_testTaken_win (j : Nat) (s : State) : (recomputeW (testTaken j true s)).oas.win = 0 := by
  have hzero : winBytesNow (testTaken j true s).oas = 0 := if_pos rfl
  rw [(recomputeW_win _).2, hzero]

/-! ## The obligation -/

/-- Settles O46: an admitted packet is carried out by its command, alone where it is a barrier, and what the command leaves is read off its
own case. -/
theorem faultAndPowerCommands : Obligations.FaultAndPowerCommands := by
  intro s s2 x c src
  refine ⟨fun h => ⟨?badSource, ?duplicate, ?injects⟩, ?clears, ?run, fun h => ⟨?badState, ?doze, ?drains⟩,
    fun hwarn hrun hjob hjobs => ⟨?measures, ?discharges⟩, ?badMode⟩
  case badSource => exact fun hbad => exec_of_answer rfl faultInject_carriedOut h (cmdFaultInject_bad hbad)
  case duplicate =>
    intro hmin hmax hl
    refine exec_of_answer rfl faultInject_carriedOut h ((cmdFaultInject_latches hmin hmax).trans ?_)
    rw [latchFault_again _ _ (admitted_awake h).collectorOn hl]
  case injects =>
    intro hmin hmax hl
    obtain ⟨hlatch, hhist, hhalts, hstays⟩ := latchFault_newly (BitVec.ofNat 32 (pf c 4 4)) (admitted_awake h) (Nat.lt_succ_of_le hmax) hl
    exact ⟨_, exec_of_answer rfl faultInject_carriedOut h (cmdFaultInject_latches hmin hmax), hlatch, hhist, hhalts, hstays⟩
  case clears =>
    intro h mask
    have hlatch := faultClear_latch c (admitted_awake h) mask
    refine ⟨_, exec_of_answer rfl faultClear_carriedOut h (cmdFaultClear_answer c s2), fun n hp hf => ?_, fun n hp hm => ?_, fun hzero => ?_⟩
    · rw [hlatch, shown, hp, hf, Bool.false_and, Bool.or_false, Bool.false_and, Bool.or_false]
    · rw [hlatch, shown, hp, hm, Bool.true_or, Bool.not_false, Bool.and_true, Bool.or_true, Bool.and_true]
    · obtain ⟨-, -, hhist, hfirst⟩ := emptyHist_fields ((pf c 12 1).testBit 0) ((pf c 12 1).testBit 1) s2.flt
      rw [show BitVec.ofNat 96 (pf c 0 12) = 0 from hzero, clearLatches_zero]
      exact ⟨hhist, hfirst⟩
  case run => exact fun h hst => exec_of_fin_free rfl powerState_barrierBy h (by simp [hst]) (cmdPower_run hst)
  case badState =>
    exact fun hst => exec_of_fin_alone rfl powerState_barrierBy h rfl (decide_eq_true (by omega)) (cmdPower_bad hst)
  case doze =>
    intro hst hheld
    obtain ⟨hq, hqueue⟩ := alone_queue h
    have hheld2 : s2.pwr.heldWake = none := by
      obtain ⟨⟨v, hv, rfl⟩, -, -⟩ := h
      exact (congrArg Pwr.heldWake (admitted_pwr hv)).trans hheld
    have hqueue' : queueOf { settleEntry (dozeBegun c s2) with eng.barQ := none } x.qid.toNat = [admittedPkt 0x0070 x c s] := by
      have heng : (settleEntry (dozeBegun c s2)).eng = (formReply (ctxReply c .ok 0 []) s2).eng := settleEntry_only _ .eng (by decide)
      exact (congrArg (fun e : Engine => vAt e.queues x.qid.toNat) heng).trans ((queueOf_formReply _ s2 _).trans hqueue)
    exact ⟨_, exec_of_fin_alone rfl powerState_barrierBy h rfl (decide_eq_true (by omega)) (cmdPower_doze hst),
      (leftQueue_dozeDue hq hqueue' (settleEntry_dozeDue (dozeBegun_dozeDue c hheld2))).2⟩
  case drains =>
    intro hst
    exact ⟨_, _, exec_of_fin_alone rfl powerState_barrierBy h rfl (decide_eq_true (by omega)) (cmdPower_drains hst), rfl, rfl,
      List.mem_append.2 (.inr (List.mem_singleton.2 rfl)), rfl, rfl, rfl, rfl⟩
  case measures =>
    intro h hst
    have htaken := holdupNext_testWaits c false ⟨hwarn, hrun, hjob, hjobs⟩ (admitted_awake h)
    have hcmd : cmdHoldup c s2 = .fin (holdupNext (testWaits c false s2)) := (cmdHoldup_fin (by omega)).trans (by rw [hst]; rfl)
    exact ⟨_, exec_of_fin_free rfl holdupTest_barrierBy h (by simp [hst]) (hcmd.trans (by rw [htaken])), recomputeW_testTaken _ false _⟩
  case discharges =>
    intro h hst
    let t := recomputeW (testTaken s2.eng.nextId true (testWaits c true s2))
    obtain ⟨hq, hqueue⟩ := alone_queue h
    have htaken := holdupNext_testWaits c true ⟨hwarn, hrun, hjob, hjobs⟩ (alone_awake h)
    have hcmd : cmdHoldup c s2 = .fin t := (cmdHoldup_fin (by omega)).trans (by rw [hst]; exact congrArg Verdict.fin htaken)
    have hqueue' : queueOf { t with eng.barQ := none } x.qid.toNat = [admittedPkt 0x0071 x c s] := by
      have heng : t.eng = (testWaits c true s2).eng := recomputeW_only _ .eng (by decide)
      exact (congrArg (fun e : Engine => vAt e.queues x.qid.toNat) heng).trans hqueue
    have hoas : (leftQueue 0x0071 x c { t with eng.barQ := none }).oas = t.oas := leftQueue_alone_only hq hqueue' .oas (by decide)
    refine ⟨_, exec_of_fin_alone rfl holdupTest_barrierBy h rfl (decide_eq_true hst) hcmd, ?_⟩
    rw [hoas]
    obtain ⟨hjob', hwant, hmode⟩ := recomputeW_testTaken s2.eng.nextId true (testWaits c true s2)
    exact ⟨hjob', hwant, hmode, recomputeW_testTaken_win _ _⟩
  case badMode =>
    exact fun h hst => exec_of_fin_free rfl holdupTest_barrierBy h (decide_eq_false (by omega)) (cmdHoldup_bad hst)

end Sys2Proof.Machine
end

section
/-! SUPPORT. Codewords read and acted on by the margin table, patrols, refreshes and recalibrations; and the statement on them. -/
namespace Sys2Proof.Machine
open Sys2Proof

variable {s t u : State} {g n : Nat} {e : MapEntry}

/-! ## Dies and maps that an operation leaves -/

/-- What is read off a die that a change of one die leaves. -/
theorem dieOf_updDie_reads {α : Type} (p : Die → α) (f : Die → Die) (s : State) (d k : Nat) (hp : ∀ x, p (f x) = p x) :
    p (dieOf (updDie s d f) k) = p (dieOf s k) := by
  by_cases hd : d < 8
  · rw [dieOf_updDie s d k f hd]
    split
    · next h => rw [hp, h]
    · rfl
  · have hsame : vUpd s.arr.dies d f = s.arr.dies := by simp [vUpd, vSet, Vector.setIfInBounds_eq_of_size_le, Nat.le_of_not_lt hd]
    simp only [dieOf, updDie, hsame]

/-- Two changes of a die that agree on it as it stands. -/
theorem updDie_congr {f h : Die → Die} (s : State) (d : Nat) (hf : f (dieOf s d) = h (dieOf s d)) : updDie s d f = updDie s d h := by
  simp only [dieOf] at hf
  simp only [updDie, vUpd, hf]

/-- What `p` reads off every die is the same in two states, and so are the segment map and the metadata map. -/
structure DiesKept {α : Type} (p : Die → α) (s t : State) : Prop where
  dies : ∀ d, p (dieOf t d) = p (dieOf s d)
  map : t.arr.map = s.arr.map
  gone : t.arr.metaGone = s.arr.metaGone

section
variable {α : Type} {p : Die → α}

theorem DiesKept.refl (s : State) : DiesKept p s s := ⟨fun _ => rfl, rfl, rfl⟩

/-- The steps in the order of the terms: the later one first. -/
theorem DiesKept.after (k : DiesKept p t u) (h : DiesKept p s t) : DiesKept p s u :=
  ⟨fun d => (k.dies d).trans (h.dies d), k.map.trans h.map, k.gone.trans h.gone⟩

theorem DiesKept.of_only {l : List Region} (h : OnlyIn l s t) (ha : Region.arr ∉ l) : DiesKept p s t := by
  have e : t.arr = s.arr := h .arr ha
  exact ⟨fun d => by simp only [dieOf, e], by rw [e], by rw [e]⟩

theorem updDie_diesKept (s : State) (d : Nat) (f : Die → Die) (hp : ∀ x, p (f x) = p x) : DiesKept p s (updDie s d f) :=
  ⟨fun k => dieOf_updDie_reads p f s d k hp, rfl, rfl⟩

theorem raiseFault_diesKept (src : Nat) (det : BitVec 32) (s : State) : DiesKept p s (raiseFault src det s) :=
  .of_only (raiseFault_only src det s) (by decide)

theorem updSeg_diesKept (s : State) (g : Nat) (f : SegSt → SegSt) : DiesKept p s (updSeg s g f) := by
  simp only [updSeg]
  split
  · exact .refl s
  · exact ⟨fun _ => rfl, rfl, rfl⟩

theorem markFailing_diesKept (n : Nat) (s : State) : DiesKept p s (markFailing n s) := by
  simp only [markFailing]
  split
  · exact .refl s
  · exact ⟨fun _ => rfl, rfl, rfl⟩

theorem mediaTest_diesKept (s : State) : DiesKept p s (mediaTest s) := by
  obtain ⟨m, hm⟩ := mediaTest_arr s
  exact ⟨fun d => by simp only [dieOf, hm], by rw [hm], by rw [hm]⟩

end

theorem shellOn_iff (s : State) (d : Nat) : shellOn s d = true ↔
    s.pwr.released = true ∧ inLoss s = false ∧ s.pwr.pstate ≠ .off ∧ dieHung s d = false := by
  simp [shellOn, and_assoc]

theorem collectorOn_of_shellOn {d : Nat} (h : shellOn s d = true) : collectorOn s = true := by
  obtain ⟨hrel, -, hoff, -⟩ := (shellOn_iff s d).1 h
  simp [collectorOn, hrel, hoff]

theorem mapLook_of_look (h : look g s.arr.map = some e) : mapLook s g = some e := by simp only [mapLook, h]

theorem readSlot_of_look (h : look g s.arr.map = some e) : readSlot s g = some e.slot := by simp only [readSlot, mapLook_of_look h]

theorem mappedDie_of_look (h : look g s.arr.map = some e) : mappedDie s g = slotDie e.slot := by
  simp only [mappedDie, readSlot_of_look h]

/-! ## A codeword read (R120, R121, R150, R151) -/

/-- A die that has read a codeword of slot `n`: its margin counted, and what the margin table asks for queued; `deep` where the codeword
needed more than a first read at a good margin. -/
def marginNoted (g cw n : Nat) (m : BitVec 6) (deep : Bool) (x : Die) : Die :=
  { x with
    hist := vUpd x.hist (m.toNat / 8) satInc
    refresh := if (decide (m < x.scrubThr) || deep) && !x.refresh.contains (g, cw) then x.refresh ++ [(g, cw)] else x.refresh
    recal := if deep && !x.recal.contains (slotBank n, slotRegion n) then x.recal ++ [(slotBank n, slotRegion n)] else x.recal }

/-- Whether a read needs more of its codeword than a refresh: its margin is below the recalibration threshold, or a first decoding was not
enough (R121). -/
def deepRead (m : BitVec 6) (sf rr uc : Bool) (x : Die) : Bool := decide (m < x.recalThr) || sf || (rr || uc)

theorem deepRead_iff (m : BitVec 6) (sf rr uc : Bool) (x : Die) :
    deepRead m sf rr uc x = true ↔ m < x.recalThr ∨ sf = true ∨ rr = true ∨ uc = true := by
  simp [deepRead, or_assoc]

/-- A second read of a codeword reported (R121, R150). -/
def rereadRaised (n cw : Nat) (s : State) : State :=
  raiseFault (52 + slotDie n) (cwDetail n cw)
    { updDie s (slotDie n) (fun x => { x with ceCnt := satInc x.ceCnt }) with arr.ceTotal := s.arr.ceTotal + 1 }

/-- A codeword that could not be corrected, reported (R121, R123, R150). -/
def uncorrRaised (g n cw : Nat) (s : State) : State :=
  raiseFault (60 + slotDie n) (cwDetail n cw)
    { updDie (markUncorr g cw s) (slotDie n) (fun x => { x with ucCnt := satInc x.ucCnt }) with
      arr.ucTotal := (markUncorr g cw s).arr.ucTotal + 1 }

/-- A codeword read and its margin noted; a second read reported where there was one. -/
def readNoted (g cw n : Nat) (m : BitVec 6) (sf rr uc : Bool) (s : State) : State :=
  let s1 := updDie s (slotDie n) (marginNoted g cw n m (deepRead m sf rr uc (dieOf s (slotDie n))))
  if rr || uc then rereadRaised n cw s1 else s1

theorem codewordRead_eq (cw : Nat) (m : BitVec 6) (sf rr uc : Bool) (h : readSlot s g = some n) :
    codewordRead g cw m sf rr uc s =
      if uc then markFailing n (uncorrRaised g n cw (readNoted g cw n m sf rr uc s)) else readNoted g cw n m sf rr uc s := by
  simp only [codewordRead, h]
  rfl

theorem mem_queued {α : Type} [BEq α] [LawfulBEq α] (a : α) (l : List α) (b : Bool) (h : b = true) :
    a ∈ if b && !l.contains a then l ++ [a] else l := by
  subst h
  by_cases ha : a ∈ l <;> simp [ha]

theorem marginNoted_refresh (cw n : Nat) (m : BitVec 6) (deep : Bool) (x : Die) (h : m < x.scrubThr ∨ deep = true) :
    (g, cw) ∈ (marginNoted g cw n m deep x).refresh := mem_queued _ _ _ (by simpa using h)

theorem marginNoted_recal (cw n : Nat) (m : BitVec 6) (x : Die) :
    (slotBank n, slotRegion n) ∈ (marginNoted g cw n m true x).recal := mem_queued _ _ _ rfl

/-- At a good margin, a first read that needs no more only counts its margin. -/
theorem codewordRead_calm (cw : Nat) (m : BitVec 6) (h : readSlot s g = some n) (hs : (dieOf s (slotDie n)).scrubThr ≤ m)
    (hr : (dieOf s (slotDie n)).recalThr ≤ m) : codewordRead g cw m false false false s =
      updDie s (slotDie n) fun y => { y with hist := vUpd y.hist (m.toNat / 8) satInc } := by
  have hs' : ¬ m < (dieOf s (slotDie n)).scrubThr := BitVec.not_lt.2 hs
  have hr' : ¬ m < (dieOf s (slotDie n)).recalThr := BitVec.not_lt.2 hr
  rw [codewordRead_eq cw m false false false h]
  exact updDie_congr s _ (by simp [marginNoted, deepRead, hs', hr'])

section
variable {α : Type} {p : Die → α}

theorem rereadRaised_diesKept (cw : Nat) (s : State) (hp : ∀ x c, p { x with ceCnt := c } = p x) :
    DiesKept p s (rereadRaised n cw s) :=
  .after (raiseFault_diesKept _ _ _) (.after (t := updDie s (slotDie n) fun x => { x with ceCnt := satInc x.ceCnt })
    ⟨fun _ => rfl, rfl, rfl⟩ (updDie_diesKept s _ _ fun x => hp x _))

theorem markUncorr_diesKept (cw : Nat) (s : State) : DiesKept p s (markUncorr g cw s) := by
  simp only [markUncorr]
  split
  · exact updSeg_diesKept _ _ _
  · exact ⟨fun _ => rfl, rfl, rfl⟩

theorem uncorrRaised_diesKept (cw : Nat) (s : State) (hp : ∀ x c, p { x with ucCnt := c } = p x) :
    DiesKept p s (uncorrRaised g n cw s) :=
  .after (raiseFault_diesKept _ _ _) (.after (t := updDie (markUncorr g cw s) (slotDie n) fun x => { x with ucCnt := satInc x.ucCnt })
    ⟨fun _ => rfl, rfl, rfl⟩ (.after (updDie_diesKept _ _ _ fun x => hp x _) (markUncorr_diesKept cw s)))

/-- What no report of a read counts reads as it did once the margin was noted. -/
theorem codewordRead_reports_diesKept (cw : Nat) (m : BitVec 6) (sf rr uc : Bool) (h : readSlot s g = some n)
    (hc : ∀ x c, p { x with ceCnt := c } = p x) (hu : ∀ x c, p { x with ucCnt := c } = p x) :
    DiesKept p (updDie s (slotDie n) (marginNoted g cw n m (deepRead m sf rr uc (dieOf s (slotDie n)))))
      (codewordRead g cw m sf rr uc s) := by
  have hnoted : DiesKept p (updDie s (slotDie n) (marginNoted g cw n m (deepRead m sf rr uc (dieOf s (slotDie n)))))
      (readNoted g cw n m sf rr uc s) := by
    simp only [readNoted]
    split
    · exact rereadRaised_diesKept cw _ hc
    · exact .refl _
  rw [codewordRead_eq cw m sf rr uc h]
  split
  · exact .after (markFailing_diesKept _ _) (.after (uncorrRaised_diesKept cw _ hu) hnoted)
  · exact hnoted

end

/-- The parts of the state that a report of a codeword can change. -/
abbrev reportRegions : List Region := [.arr, .flt, .link, .pwr, .oas, .cores, .prev]

theorem arr_only (s : State) (a : ArraySt) : OnlyIn [.arr] s { s with arr := a } := by
  intro r hr; cases r <;> simp_all [sameIn]

theorem rereadRaised_only (cw : Nat) (s : State) : OnlyIn reportRegions s (rereadRaised n cw s) :=
  (arr_only s _).trans (raiseFault_only _ _ _) (by decide) (by decide)

theorem markUncorr_only (cw : Nat) (s : State) : OnlyIn [.arr] s (markUncorr g cw s) := by
  simp only [markUncorr]
  split
  · exact updSeg_only _ _ _
  · exact arr_only s _

theorem uncorrRaised_only (cw : Nat) (s : State) : OnlyIn reportRegions s (uncorrRaised g n cw s) :=
  ((markUncorr_only cw s).trans (arr_only _ _) (n := [.arr]) (by decide) (by decide)).trans (raiseFault_only _ _ _) (by decide) (by decide)

theorem markFailing_only (n : Nat) (s : State) : OnlyIn [.arr] s (markFailing n s) := by
  simp only [markFailing]
  split
  · exact OnlyIn.refl _ _
  · exact arr_only s _

theorem readNoted_only (cw : Nat) (m : BitVec 6) (sf rr uc : Bool) (s : State) :
    OnlyIn (if rr || uc then reportRegions else [.arr]) s (readNoted g cw n m sf rr uc s) := by
  simp only [readNoted]
  split
  · exact (updDie_only _ _ _).trans (rereadRaised_only cw _) (by decide) (by decide)
  · exact updDie_only _ _ _

theorem codewordRead_only (cw : Nat) (m : BitVec 6) (sf rr uc : Bool) (h : readSlot s g = some n) :
    OnlyIn (if rr || uc then reportRegions else [.arr]) s (codewordRead g cw m sf rr uc s) := by
  rw [codewordRead_eq cw m sf rr uc h]
  have hnoted := readNoted_only (g := g) (n := n) cw m sf rr uc s
  cases uc with
  | false => exact hnoted
  | true =>
    simp only [Bool.or_true, if_true] at hnoted ⊢
    exact (hnoted.trans (uncorrRaised_only cw _) (n := reportRegions) (fun _ h => h) (fun _ h => h)).trans (markFailing_only n _)
      (fun _ h => h) (by decide)


theorem rereadRaised_ceTotal (cw : Nat) (s : State) : (rereadRaised n cw s).arr.ceTotal = s.arr.ceTotal + 1 :=
  congrArg ArraySt.ceTotal (raiseFault_only _ _ _ .arr (by decide))

theorem rereadRaised_latches (cw : Nat) (s : State) (hd : slotDie n < 8) (hm : s.flt.masked.getLsbD (52 + slotDie n) = false)
    (hon : collectorOn s = true) : (rereadRaised n cw s).flt.latch.getLsbD (52 + slotDie n) = true :=
  raiseFault_latches _ _ _ (by omega) hm hon

theorem rereadRaised_reacted (cw : Nat) (s : State) : Reacted s (rereadRaised n cw s) :=
  .after (raiseFault_reacted _ _ _) ⟨rfl, id, id, rfl, rfl⟩

theorem uncorrRaised_arr (cw : Nat) (s : State) : (uncorrRaised g n cw s).arr =
    { updDie (markUncorr g cw s) (slotDie n) (fun x => { x with ucCnt := satInc x.ucCnt }) with
      arr.ucTotal := (markUncorr g cw s).arr.ucTotal + 1 }.arr :=
  raiseFault_only _ _ _ .arr (by decide)

theorem markUncorr_parts (g cw : Nat) (s : State) : (markUncorr g cw s).arr.ceTotal = s.arr.ceTotal
    ∧ (markUncorr g cw s).arr.ucTotal = s.arr.ucTotal ∧ (markUncorr g cw s).arr.slots = s.arr.slots ∧ (markUncorr g cw s).flt = s.flt
    ∧ (markUncorr g cw s).pwr = s.pwr := by
  simp only [markUncorr]
  split
  · next x hx =>
    simp only [segOf] at hx
    simp [updSeg, hx]
  · exact ⟨rfl, rfl, rfl, rfl, rfl⟩

/-- The codeword is among those of its segment that could not be corrected. -/
theorem markUncorr_mem (g cw : Nat) (s : State) (z : SegSt) (hz : segOf (markUncorr g cw s) g = some z) : cw ∈ z.uncorr := by
  simp only [markUncorr] at hz
  split at hz
  · rw [segOf_updSeg_same] at hz
    obtain ⟨x, -, rfl⟩ := Option.map_eq_some_iff.1 hz
    by_cases hx : cw ∈ x.uncorr <;> simp [hx]
  · next hnone => exact absurd hz (by simp [segOf] at hnone ⊢; simp [hnone])

theorem uncorrRaised_latches (cw : Nat) (s : State) (hd : slotDie n < 8) (hm : s.flt.masked.getLsbD (60 + slotDie n) = false)
    (hon : collectorOn s = true) : (uncorrRaised g n cw s).flt.latch.getLsbD (60 + slotDie n) = true := by
  obtain ⟨-, -, -, hflt, hpwr⟩ := markUncorr_parts g cw s
  refine raiseFault_latches _ _ _ (by omega) ?_ ?_
  · show (markUncorr g cw s).flt.masked.getLsbD _ = false
    rwa [hflt]
  · show collectorOn (markUncorr g cw s) = true
    simpa only [collectorOn, hpwr] using hon

theorem uncorrRaised_keeps_latch (cw i : Nat) (s : State) (h : s.flt.latch.getLsbD i = true) :
    (uncorrRaised g n cw s).flt.latch.getLsbD i = true := by
  obtain ⟨-, -, -, hflt, -⟩ := markUncorr_parts g cw s
  refine (raiseFault_runs (F := fun _ => False) (W := False) _ _ _).wear.latch i ?_
  show (markUncorr g cw s).flt.latch.getLsbD i = true
  rwa [hflt]

theorem markFailing_arr (n : Nat) (s : State) : (markFailing n s).arr.ceTotal = s.arr.ceTotal
    ∧ (markFailing n s).arr.ucTotal = s.arr.ucTotal ∧ (markFailing n s).arr.segs = s.arr.segs := by
  simp only [markFailing]
  split <;> exact ⟨rfl, rfl, rfl⟩

theorem readNoted_parts (cw : Nat) (m : BitVec 6) (sf rr uc : Bool) (s : State) :
    (readNoted g cw n m sf rr uc s).arr.ucTotal = s.arr.ucTotal ∧ (readNoted g cw n m sf rr uc s).arr.slots = s.arr.slots
      ∧ (readNoted g cw n m sf rr uc s).arr.ceTotal = s.arr.ceTotal + (if rr || uc then 1 else 0)
      ∧ Reacted s (readNoted g cw n m sf rr uc s) := by
  simp only [readNoted]
  split
  · have harr (x : State) : (rereadRaised n cw x).arr =
        { updDie x (slotDie n) (fun y => { y with ceCnt := satInc y.ceCnt }) with arr.ceTotal := x.arr.ceTotal + 1 }.arr :=
      raiseFault_only _ _ _ .arr (by decide)
    exact ⟨by rw [harr]; rfl, by rw [harr]; rfl, by rw [harr]; rfl, .after (rereadRaised_reacted cw _) ⟨rfl, id, id, rfl, rfl⟩⟩
  · exact ⟨rfl, rfl, rfl, ⟨rfl, id, id, rfl, rfl⟩⟩

/-- A codeword that needed a second read is counted, and ARY_CE latched where it is not masked (R121, R150). -/
theorem codewordRead_reread (cw : Nat) (m : BitVec 6) (sf rr uc : Bool) (h : readSlot s g = some n) (hd : slotDie n < 8)
    (hon : collectorOn s = true) (hr : rr = true ∨ uc = true) :
    let t := codewordRead g cw m sf rr uc s
    (s.flt.masked.getLsbD (52 + slotDie n) = false → t.flt.latch.getLsbD (52 + slotDie n) = true) ∧ t.arr.ceTotal = s.arr.ceTotal + 1 := by
  intro t
  have hboth : (rr || uc) = true := by simpa using hr
  let v := readNoted g cw n m sf rr uc s
  obtain ⟨-, -, hce, -⟩ := readNoted_parts (g := g) (n := n) cw m sf rr uc s
  rw [hboth, if_pos rfl] at hce
  have hlatch (hm : s.flt.masked.getLsbD (52 + slotDie n) = false) : v.flt.latch.getLsbD (52 + slotDie n) = true := by
    simp only [v, readNoted, hboth, if_true]
    exact rereadRaised_latches cw _ hd hm hon
  have ht : t = if uc then markFailing n (uncorrRaised g n cw v) else v := codewordRead_eq cw m sf rr uc h
  rw [ht]
  split
  · refine ⟨fun hm => ?_, ?_⟩
    · rw [markFailing_flt]
      exact uncorrRaised_keeps_latch cw _ _ (hlatch hm)
    · rw [(markFailing_arr _ _).1, uncorrRaised_arr]
      exact (markUncorr_parts g cw v).1.trans hce
  · exact ⟨hlatch, hce⟩

/-- A codeword that could not be corrected is counted and listed, ARY_UNCORR latched where it is not masked, and its slot failing or retired
(R121, R123, R137, R150). -/
theorem codewordRead_uncorr (cw : Nat) (m : BitVec 6) (sf rr : Bool) (h : readSlot s g = some n) (hd : slotDie n < 8)
    (hon : collectorOn s = true) :
    let t := codewordRead g cw m sf rr true s
    (s.flt.masked.getLsbD (60 + slotDie n) = false → t.flt.latch.getLsbD (60 + slotDie n) = true) ∧ t.arr.ucTotal = s.arr.ucTotal + 1
      ∧ (metaSlot n = false → (slotOf t n).failing = true ∨ (slotOf s n).retired = true) ∧ ∀ z, segOf t g = some z → cw ∈ z.uncorr := by
  intro t
  let v := readNoted g cw n m sf rr true s
  obtain ⟨huc, hslots, -, hreact⟩ := readNoted_parts (g := g) (n := n) cw m sf rr true s
  have ht : t = markFailing n (uncorrRaised g n cw v) := codewordRead_eq cw m sf rr true h
  have harr : (uncorrRaised g n cw v).arr.slots = s.arr.slots := by
    rw [uncorrRaised_arr]
    exact (markUncorr_parts g cw v).2.2.1.trans hslots
  rw [ht]
  refine ⟨fun hm => ?_, ?_, fun hmeta => ?_, fun z hz => ?_⟩
  · rw [markFailing_flt]
    have hmask : v.flt.masked = s.flt.masked := congrArg (·.2.2) hreact.inputs
    exact uncorrRaised_latches cw v hd (by rwa [hmask]) (hreact.collectorOn.trans hon)
  · rw [(markFailing_arr _ _).2.1, uncorrRaised_arr]
    show (markUncorr g cw v).arr.ucTotal + 1 = _
    rw [(markUncorr_parts g cw v).2.1, huc]
  · have hslot : slotOf (uncorrRaised g n cw v) n = slotOf s n := by simp only [slotOf, harr]
    rw [← hslot]
    exact markFailing_failing n _ hmeta
  · have hsegs : (markFailing n (uncorrRaised g n cw v)).arr.segs = (markUncorr g cw v).arr.segs := by
      rw [(markFailing_arr _ _).2.2, uncorrRaised_arr]
      rfl
    exact markUncorr_mem g cw v z (by simpa only [segOf, hsegs] using hz)

theorem exec_codewordRead (cw : Fin 64) (m : BitVec 6) (sf rr uc : Bool) (h : look g s.arr.map = some e)
    (hon : shellOn s (slotDie e.slot) = true) : exec (.codewordRead g cw m sf rr uc) s = .next (codewordRead g cw.val m sf rr uc s) := by
  show execCodewordRead g cw m sf rr uc s = _
  simp only [execCodewordRead, whenDue, mappedDie_of_look h, hon, if_true]

/-! ## A patrol (R125, R145) -/

/-- A patrol's read of a codeword of slot `n`, noted and acted on. -/
def patrolStep (g n cw : Nat) (m : BitVec 6) (sf rr uc : Bool) (s : State) : State :=
  prioDone (slotDie n) n (codewordRead g cw m sf rr uc (patrolNote (slotDie n) g cw m s))

theorem exec_patrolRead (cw : Fin 64) (m : BitVec 6) (sf rr uc last : Bool) (h : readSlot s g = some n) (hmay : patrolMay s n = true)
    (hprio : prioOk (dieOf s (slotDie n)) n = true) (hp : (dieOf s (slotDie n)).patrol = true) :
    exec (.patrolRead g cw m sf rr uc last) s = .next (
      let s1 := patrolStep g n cw.val m sf rr uc s
      if last && patrolRead (dieOf s1 (slotDie n)) (patrolled s1 (slotDie n)) then
        updDie s1 (slotDie n) fun y => { y with patrol := false, lastPatrolMin := y.margMin }
      else s1) := by
  show execPatrolRead g cw m sf rr uc last s = _
  simp only [execPatrolRead, h, hmay, hprio, hp, Bool.not_true, Bool.true_or, Bool.false_or, Bool.false_eq_true, if_false, if_true]
  rfl

theorem marginNoted_patrol (cw : Nat) (m : BitVec 6) (deep : Bool) (x : Die) :
    ((marginNoted g cw n m deep x).patrol, (marginNoted g cw n m deep x).margMin, (marginNoted g cw n m deep x).patDone)
      = (x.patrol, x.margMin, x.patDone) := rfl

/-- After it has noted a codeword, a patrol's read leaves its marks and the maps. -/
theorem patrolStep_diesKept (cw : Nat) (m : BitVec 6) (sf rr uc : Bool) (h : readSlot s g = some n) :
    DiesKept (fun x => (x.patrol, x.margMin, x.patDone)) (patrolNote (slotDie n) g cw m s) (patrolStep g n cw m sf rr uc s) := by
  have hread : readSlot (patrolNote (slotDie n) g cw m s) g = some n := h
  exact .after (updDie_diesKept _ _ _ fun _ => rfl) (.after
    (codewordRead_reports_diesKept cw m sf rr uc hread (fun _ _ => rfl) fun _ _ => rfl)
    (updDie_diesKept _ _ _ (marginNoted_patrol cw m _)))

/-- A codeword noted: its margin is in the least of the patrol, and its bit among those read. -/
theorem patrolNote_die {d : Nat} (cw : Nat) (m : BitVec 6) (s : State) (hd : d < 8) (hcw : cw < 64) :
    let x := dieOf s d
    let y := dieOf (patrolNote d g cw m s) d
    y.patrol = x.patrol ∧ y.margMin = (if m < x.margMin then m else x.margMin) ∧ ∃ v, look g y.patDone = some v ∧ v.getLsbD cw = true := by
  intro x y
  have hy : y = { x with
      margMin := if m < x.margMin then m else x.margMin
      patDone := put g ((look g x.patDone).getD 0 ||| BitVec.ofNat 64 (2 ^ cw)) x.patDone } :=
    (dieOf_updDie s d d _ hd).trans (if_pos rfl)
  rw [hy]
  refine ⟨rfl, rfl, _, look_put_same _ _ _, ?_⟩
  rw [BitVec.getLsbD_or, BitVec.getLsbD_ofNat, Nat.testBit_two_pow_self]
  simp [hcw]

/-- The segments that a patrol reads are those of the maps. -/
theorem patrolled_congr {d : Nat} (hmap : t.arr.map = s.arr.map) (hgone : t.arr.metaGone = s.arr.metaGone) :
    patrolled t d = patrolled s d := by
  have hlook : mapLook t = mapLook s := by
    funext g
    simp only [mapLook, hmap, hgone]
  have hdie : mappedDie t = mappedDie s := by
    funext g
    simp only [mappedDie, readSlot, hlook]
  simp only [patrolled, hmap, hdie]

theorem patrolRead_congr {x y : Die} (gs : List Nat) (h : x.patDone = y.patDone) : patrolRead x gs = patrolRead y gs := by
  simp only [patrolRead, h]

/-- A patrol goes on where the read is not its last (R125). -/
theorem exec_patrolRead_on (cw : Fin 64) (m : BitVec 6) (sf rr uc : Bool) (h : readSlot s g = some n) (hd : slotDie n < 8)
    (hmay : patrolMay s n = true) (hprio : prioOk (dieOf s (slotDie n)) n = true) (hp : (dieOf s (slotDie n)).patrol = true) :
    let x := dieOf s (slotDie n)
    ∃ t, exec (.patrolRead g cw m sf rr uc false) s = .next t ∧ (dieOf t (slotDie n)).patrol = true
      ∧ (dieOf t (slotDie n)).margMin = (if m < x.margMin then m else x.margMin)
      ∧ ∃ v, look g (dieOf t (slotDie n)).patDone = some v ∧ v.getLsbD cw.val = true := by
  intro x
  obtain ⟨hpat, hmin, hdone⟩ := patrolNote_die (g := g) cw.val m s hd cw.isLt
  obtain ⟨h1, h2, h3⟩ : _ ∧ _ ∧ _ := by
    simpa only [Prod.mk.injEq] using (patrolStep_diesKept cw.val m sf rr uc h).dies (slotDie n)
  exact ⟨_, exec_patrolRead cw m sf rr uc false h hmay hprio hp, h1.trans (hpat.trans hp), h2.trans hmin, by
    simpa only [Bool.false_and, Bool.false_eq_true, if_false, h3] using hdone⟩

/-- A patrol that has read every codeword ends, with its least margin (R125, R143). -/
theorem exec_patrolRead_last (cw : Fin 64) (m : BitVec 6) (sf rr uc : Bool) (h : readSlot s g = some n) (hd : slotDie n < 8)
    (hmay : patrolMay s n = true) (hprio : prioOk (dieOf s (slotDie n)) n = true) (hp : (dieOf s (slotDie n)).patrol = true)
    (hall : patrolRead (dieOf (patrolNote (slotDie n) g cw.val m s) (slotDie n)) (patrolled s (slotDie n)) = true) :
    let x := dieOf s (slotDie n)
    ∃ t, exec (.patrolRead g cw m sf rr uc true) s = .next t ∧ (dieOf t (slotDie n)).patrol = false
      ∧ (dieOf t (slotDie n)).lastPatrolMin = (if m < x.margMin then m else x.margMin) := by
  intro x
  have hk := patrolStep_diesKept cw.val m sf rr uc h
  obtain ⟨-, hmin, -⟩ := patrolNote_die (g := g) cw.val m s hd cw.isLt
  obtain ⟨-, h2, h3⟩ : _ ∧ _ ∧ _ := by
    simpa only [Prod.mk.injEq] using hk.dies (slotDie n)
  have hgs : patrolled (patrolStep g n cw.val m sf rr uc s) (slotDie n) = patrolled s (slotDie n) := patrolled_congr hk.map hk.gone
  have hread : patrolRead (dieOf (patrolStep g n cw.val m sf rr uc s) (slotDie n))
      (patrolled (patrolStep g n cw.val m sf rr uc s) (slotDie n)) = true := by
    rw [hgs, patrolRead_congr _ h3]
    exact hall
  refine ⟨_, exec_patrolRead cw m sf rr uc true h hmay hprio hp, ?_⟩
  simp only [hread, Bool.and_self, if_true, dieOf_updDie _ _ _ _ hd]
  exact ⟨trivial, h2.trans hmin⟩

theorem exec_patrolStart (d : Fin 8) (hon : shellOn s d.val = true) : exec (.patrolStart d) s =
    .next (if (dieOf s d.val).patrol then s else startPatrol d.val s) := by
  show execPatrolStart d s = _
  simp only [execPatrolStart, whenDue, hon, Bool.true_and]
  cases (dieOf s d.val).patrol <;> rfl

/-! ## A codeword refreshed (R116, R122) -/

/-- The first queued codeword of a die taken, and written to the tail ring (R117, R122). -/
def refreshPushed (d g cw : Nat) (rest : List (Nat × Nat)) (s : State) : State :=
  let key := 65 * slotBank (segSlot s g) + slotRegion (segSlot s g)
  updDie (updDie s d fun x => { x with refresh := rest }) d fun x =>
    tailPush g cw { x with regRef := put key ((look key x.regRef).getD 0 + 1) x.regRef }

/-- The row of a refreshed codeword failed: it is back home in a spare row, or stays in the tail ring (R116). -/
def refreshFailed (g cw : Nat) (s : State) : State :=
  match rowFailed (segSlot s g) cw s with
  | (true, t) => mediaTest (tailClear g cw t)
  | (false, t) => t

theorem exec_codewordRefresh (d : Fin 8) (ok : Bool) {cw : Nat} {rest : List (Nat × Nat)} (hon : shellOn s d.val = true)
    (hw : s.oas.warn = false) (ho : s.oas.overV = false) (hq : (dieOf s d.val).refresh = (g, cw) :: rest) :
    exec (.codewordRefresh ⟨d, ok⟩) s = .next (
      let u := refreshPushed d.val g cw rest s
      if !atHome s g cw then u else if ok then tailClear g cw u else refreshFailed g cw u) := by
  show execCodewordRefresh ⟨d, ok⟩ s = _
  simp only [execCodewordRefresh, hon, hw, ho, hq, Bool.not_true, Bool.or_false, Bool.false_eq_true, if_false]
  rfl

theorem tailPush_tailPos (g cw : Nat) (x : Die) (h : x.tailLive = []) : (tailPush g cw x).tailPos = (x.tailPos + 1) % 32768 := by
  simp [tailPush, tailRoom, h, iter]

theorem refreshPushed_die {d : Nat} (g cw : Nat) (rest : List (Nat × Nat)) (s : State) (hd : d < 8) :
    let x := dieOf s d
    let y := dieOf (refreshPushed d g cw rest s) d
    y.refresh = rest ∧ (x.tailLive = [] → y.tailPos = (x.tailPos + 1) % 32768) ∧ ∃ v ∈ y.tailLive, v.segno = g ∧ v.cw = cw := by
  intro x y
  obtain ⟨c, hy⟩ : ∃ c, y = tailPush g cw { x with refresh := rest, regRef := c } := by
    simp only [y, refreshPushed, dieOf_updDie _ _ _ _ hd, if_true]
    exact ⟨_, rfl⟩
  rw [hy]
  exact ⟨rfl, fun hx => tailPush_tailPos g cw _ hx, tailPush_mem g cw _⟩

theorem refreshPushed_only (d g cw : Nat) (rest : List (Nat × Nat)) (s : State) : OnlyIn [.arr] s (refreshPushed d g cw rest s) :=
  (updDie_only _ _ _).trans (updDie_only _ _ _) (fun _ h => h) (fun _ h => h)

theorem tailClear_only (g cw : Nat) (s : State) : OnlyIn [.arr] s (tailClear g cw s) := arr_only s _

theorem tailClear_no_entry (g cw : Nat) (s : State) {d : Nat} (hd : d < 8) (v : TailEntry) (hv : v ∈ (dieOf (tailClear g cw s) d).tailLive) :
    ¬ (v.segno = g ∧ v.cw = cw) := by
  simp only [tailClear, dieOf, vAt_vMap _ _ d hd] at hv
  exact not_and_or.2 (by simpa using (List.mem_filter.1 hv).2)

section
variable {α : Type} {p : Die → α}

theorem dieOf_vMap_reads (f : Die → Die) (s : State) (hp : ∀ x, p (f x) = p x) (d : Nat) :
    p (dieOf { s with arr.dies := vMap f s.arr.dies } d) = p (dieOf s d) := by
  by_cases hd : d < 8
  · simp only [dieOf, vAt_vMap f s.arr.dies d hd, hp]
  · have hout (v : Vector Die 8) : vAt v d = default := by
      simp [vAt, Vector.getElem?_eq_none (Nat.le_of_not_lt hd)]
    simp only [dieOf, hout]

theorem tailClear_diesKept (g cw : Nat) (s : State) (hp : ∀ x l, p { x with tailLive := l } = p x) : DiesKept p s (tailClear g cw s) :=
  ⟨dieOf_vMap_reads _ s fun x => hp x _, rfl, rfl⟩

theorem rowFailed_diesKept (n k : Nat) (s : State) (hp : ∀ x v, p { x with bankRows := v } = p x) : DiesKept p s (rowFailed n k s).2 := by
  have hmark (f : SlotInfo → SlotInfo) (x : State) : DiesKept p x (updSlot x n f) := ⟨fun _ => rfl, rfl, rfl⟩
  simp only [rowFailed]
  split
  · exact .after (updDie_diesKept _ _ _ fun x => hp x _) (.after (hmark _ _) (raiseFault_diesKept _ _ s))
  · exact .after (markFailing_diesKept _ _) (.after (hmark _ _) (raiseFault_diesKept _ _ s))

theorem refreshFailed_diesKept (g cw : Nat) (s : State) (hr : ∀ x v, p { x with bankRows := v } = p x)
    (ht : ∀ x l, p { x with tailLive := l } = p x) : DiesKept p s (refreshFailed g cw s) := by
  have hrow := rowFailed_diesKept (segSlot s g) cw s hr
  simp only [refreshFailed]
  split
  · next u h =>
    rw [h] at hrow
    exact .after (mediaTest_diesKept _) (.after (tailClear_diesKept g cw u ht) hrow)
  · next u h => rwa [h] at hrow

end

theorem rowFailed_flt (n k : Nat) (s : State) :
    (rowFailed n k s).2.flt = (raiseFault (44 + slotDie n) (BitVec.ofNat 32 (slotDetail n)) s).flt := by
  simp only [rowFailed]
  split
  · rfl
  · exact markFailing_flt _ _

/-- A refreshed codeword whose row failed: ARY_WVFAIL is latched where it is not masked (R116). -/
theorem refreshFailed_latches (cw : Nat) (s : State) (hd : slotDie (segSlot s g) < 8)
    (hm : s.flt.masked.getLsbD (44 + slotDie (segSlot s g)) = false) (hon : collectorOn s = true) :
    (refreshFailed g cw s).flt.latch.getLsbD (44 + slotDie (segSlot s g)) = true := by
  have hrow : (rowFailed (segSlot s g) cw s).2.flt.latch.getLsbD (44 + slotDie (segSlot s g)) = true := by
    rw [rowFailed_flt]
    exact raiseFault_latches _ _ s (by omega) hm hon
  simp only [refreshFailed]
  split
  · next u h =>
    rw [h] at hrow
    exact (mediaTest_runs (F := fun _ => False) (W := False) _).wear.latch _ hrow
  · next u h => rwa [h] at hrow

/-- What every refresh leaves of its die, whatever becomes of the codeword's home position. -/
theorem exec_codewordRefresh_die (d : Fin 8) (ok : Bool) {cw : Nat} {rest : List (Nat × Nat)} (hon : shellOn s d.val = true)
    (hw : s.oas.warn = false) (ho : s.oas.overV = false) (hq : (dieOf s d.val).refresh = (g, cw) :: rest) :
    let x := dieOf s d.val
    ∃ t, exec (.codewordRefresh ⟨d, ok⟩) s = .next t ∧ (dieOf t d.val).refresh = rest
      ∧ (x.tailLive = [] → (dieOf t d.val).tailPos = (x.tailPos + 1) % 32768)
      ∧ (ok = true → OnlyIn [.arr] s t)
      ∧ (ok = true → atHome s g cw = true → ∀ v ∈ (dieOf t d.val).tailLive, ¬(v.segno = g ∧ v.cw = cw))
      ∧ (atHome s g cw = false → ∃ v ∈ (dieOf t d.val).tailLive, v.segno = g ∧ v.cw = cw)
      ∧ (ok = false → atHome s g cw = true → slotDie (segSlot s g) = d.val → s.flt.masked.getLsbD (44 + d.val) = false →
        t.flt.latch.getLsbD (44 + d.val) = true) := by
  intro x
  let u := refreshPushed d.val g cw rest s
  obtain ⟨hrest, hpos, hentry⟩ := refreshPushed_die g cw rest s d.isLt
  have hu := refreshPushed_only d.val g cw rest s
  have kept {t : State} (k : DiesKept (fun y => (y.refresh, y.tailPos)) u t) : (dieOf t d.val).refresh = rest
      ∧ (x.tailLive = [] → (dieOf t d.val).tailPos = (x.tailPos + 1) % 32768) := by
    obtain ⟨h1, h2⟩ : _ ∧ _ := by simpa only [Prod.mk.injEq] using k.dies d.val
    exact ⟨h1.trans hrest, fun hx => h2.trans (hpos hx)⟩
  refine ⟨_, exec_codewordRefresh d ok hon hw ho hq, ?_⟩
  cases hhome : atHome s g cw with
  | false => exact ⟨hrest, hpos, fun _ => hu, by simp, fun _ => hentry, by simp⟩
  | true =>
    cases ok with
    | true =>
      obtain ⟨h1, h2⟩ := kept (tailClear_diesKept g cw u fun _ _ => rfl)
      exact ⟨h1, h2, fun _ => hu.trans (tailClear_only g cw u) (fun _ h => h) (fun _ h => h),
        fun _ _ v hv => tailClear_no_entry g cw u d.isLt v hv, by simp, by simp⟩
    | false =>
      obtain ⟨h1, h2⟩ := kept (refreshFailed_diesKept g cw u (fun _ _ => rfl) fun _ _ => rfl)
      refine ⟨h1, h2, by simp, by simp, by simp, fun _ _ hdie hm => ?_⟩
      have hdie' : slotDie (segSlot u g) = d.val := hdie
      have hlatch := refreshFailed_latches (g := g) cw u (hdie' ▸ d.isLt) (by rwa [hdie']) (collectorOn_of_shellOn hon)
      rwa [hdie'] at hlatch

/-! ## Recalibration (R124, R146) -/

theorem exec_arrayRecalibrateStart (d : Fin 8) (hon : shellOn s d.val = true) : exec (.arrayRecalibrateStart d) s =
    .next (if (dieOf s d.val).cal then s else startRecal d.val s) := by
  show execArrayRecalibrateStart d s = _
  simp only [execArrayRecalibrateStart, whenDue, hon, Bool.true_and]
  cases (dieOf s d.val).cal <;> rfl

theorem exec_temperatureRecalibrationTrigger (d : Fin 8) (hon : shellOn s d.val = true) (ha : (dieOf s d.val).auto = true)
    (hc : (dieOf s d.val).cal = false) (ht : 10 ≤ (s.oas.temp - (dieOf s d.val).calTemp).natAbs) :
    exec (.temperatureRecalibrationTrigger d) s = .next (startRecal d.val s) := by
  show execTemperatureRecalibrationTrigger d s = _
  simp [execTemperatureRecalibrationTrigger, whenDue, hon, ha, hc, ht]

/-- The next region of a full recalibration (R124). -/
theorem exec_regionRecalibration_full (d : Fin 8) (hon : shellOn s d.val = true) (h : 0 < (dieOf s d.val).calLeft) :
    exec (.regionRecalibration d) s = .next (updDie s d.val fun x => { x with
      calLeft := x.calLeft - 1
      cal := decide (1 < x.calLeft)
      lastReg := BitVec.ofNat 7 ((1040 - x.calLeft) % 65)
      calTemp := if x.calLeft = 1 then s.oas.temp else x.calTemp }) := by
  show execRegionRecalibration d s = _
  simp only [execRegionRecalibration, hon, Bool.not_true, Bool.false_eq_true, if_false]
  exact congrArg Host.Outcome.next (updDie_congr s d.val (by simp only [h, if_true]))

/-- The first queued region, where no full recalibration runs (R121, R124). -/
theorem exec_regionRecalibration_queued (d : Fin 8) {b r : Nat} {rest : List (Nat × Nat)} (hon : shellOn s d.val = true)
    (h : (dieOf s d.val).calLeft = 0) (hq : (dieOf s d.val).recal = (b, r) :: rest) :
    exec (.regionRecalibration d) s = .next (updDie s d.val fun y => { y with recal := rest, lastReg := BitVec.ofNat 7 r }) := by
  show execRegionRecalibration d s = _
  simp only [execRegionRecalibration, hon, Bool.not_true, Bool.false_eq_true, if_false]
  exact congrArg Host.Outcome.next (updDie_congr s d.val (by simp [h, hq]))

/-- Settles O32, row by row: a read's reports leave what its margin queued, the actions of the margin table adding up (log 66); a patrol's
read leaves what the patrol noted; and a refresh takes its place in the tail ring. -/
theorem arrayReadsAndScrub : Obligations.ArrayReadsAndScrub := by
  intro s d g cw m sf rr uc e x reads full hon
  refine ⟨?calm, ?read, ?patrol, fun h => ?patrolStarts, fun h => ?patrolRuns,
    fun hw ho ok rest hq => exec_codewordRefresh_die d ok hon hw ho hq, fun h => ?recalStarts, fun h => ?recalRuns,
    fun ha hc ht => exec_temperatureRecalibrationTrigger d hon ha hc ht, fun h => ?region,
    fun b r rest h hq => exec_regionRecalibration_queued d hon h hq⟩
  case calm =>
    rintro ⟨hlook, hdie⟩ rfl rfl rfl hs hr
    simp only [x, ← hdie] at hon hs hr ⊢
    rw [exec_codewordRead cw m _ _ _ hlook hon, codewordRead_calm cw.val m (readSlot_of_look hlook) hs hr]
  case read =>
    rintro ⟨hlook, hdie⟩
    have hslot := readSlot_of_look hlook
    have hcol := collectorOn_of_shellOn hon
    have hd : slotDie e.slot < 8 := hdie ▸ d.isLt
    have hkept := codewordRead_reports_diesKept (p := fun y => (y.refresh, y.recal)) cw.val m sf rr uc hslot (fun _ _ => rfl) fun _ _ => rfl
    obtain ⟨hrefresh, hrecal⟩ : _ ∧ _ := by simpa only [Prod.mk.injEq] using hkept.dies (slotDie e.slot)
    rw [dieOf_updDie _ _ _ _ hd, if_pos rfl] at hrefresh hrecal
    simp only [x, ← hdie] at hon ⊢
    refine ⟨_, exec_codewordRead cw m sf rr uc hlook hon, fun h => ?_, fun h => ?_, codewordRead_reread cw.val m sf rr uc hslot hd hcol, ?_,
      codewordRead_only cw.val m sf rr uc hslot⟩
    · rw [hrefresh]
      exact marginNoted_refresh _ _ _ _ _ (h.imp_right (deepRead_iff m sf rr uc _).2)
    · rw [hrecal, (deepRead_iff m sf rr uc _).2 h]
      exact marginNoted_recal _ _ _ _
    · rintro rfl
      exact codewordRead_uncorr cw.val m sf rr hslot hd hcol
  case patrol =>
    rintro ⟨hlook, hdie⟩ hmay hprio hp
    have hslot := readSlot_of_look hlook
    have hd : slotDie e.slot < 8 := hdie ▸ d.isLt
    simp only [x, ← hdie] at hprio hp ⊢
    exact ⟨exec_patrolRead_on cw m sf rr uc hslot hd hmay hprio hp, exec_patrolRead_last cw m sf rr uc hslot hd hmay hprio hp⟩
  case region =>
    refine ⟨_, exec_regionRecalibration_full d hon h, ?_⟩
    rw [dieOf_updDie _ _ _ _ d.isLt, if_pos rfl]
    exact ⟨rfl, by simp [x], fun h1 => if_pos h1, updDie_only _ _ _⟩
  case patrolStarts =>
    rw [exec_patrolStart d hon, if_neg (by simpa using h)]
    rfl
  case patrolRuns => rw [exec_patrolStart d hon, if_pos h]
  case recalStarts =>
    rw [exec_arrayRecalibrateStart d hon, if_neg (by simpa using h)]
    rfl
  case recalRuns => rw [exec_arrayRecalibrateStart d hon, if_pos h]

end Sys2Proof.Machine
end

section
/-! SUPPORT. What faults and the media state leave of the cores' TLBs, and of the moves of the Barchan engines. -/
namespace Sys2Proof.Machine
open Sys2Proof

variable {s t u : State}

/-! ## Translations (R455) -/

/-- Every core's TLB is the same in two states. -/
def TlbKept (s t : State) : Prop := ∀ c, (coreOf t c).tlb = (coreOf s c).tlb

theorem TlbKept.refl (s : State) : TlbKept s s := fun _ => rfl

/-- The steps in the order of the terms: the later one first. -/
theorem TlbKept.after (k : TlbKept t u) (h : TlbKept s t) : TlbKept s u := fun c => (k c).trans (h c)

theorem TlbKept.of_only {l : List Region} (h : OnlyIn l s t) (hc : Region.cores ∉ l) : TlbKept s t := by
  have e : t.cores = s.cores := h .cores hc
  exact fun c => by simp only [coreOf, e]

theorem coreOf_of_le {c : Nat} (s : State) (h : 16 ≤ c) : coreOf s c = default := by
  simp [coreOf, vAt, Vector.getElem?_eq_none h]

/-- A change of every core that leaves its TLB. -/
theorem tlbKept_of_cores {f : Core → Core} (h : t.cores = vMap f s.cores) (hf : ∀ x, (f x).tlb = x.tlb) : TlbKept s t := by
  intro c
  by_cases hc : c < 16
  · simp only [coreOf, h, vAt_vMap f s.cores c hc, hf]
  · rw [coreOf_of_le t (Nat.le_of_not_lt hc), coreOf_of_le s (Nat.le_of_not_lt hc)]

theorem lossBegin_tlbKept (fatal : Bool) (s : State) : TlbKept s (lossBegin fatal s) := by
  simp only [lossBegin]
  split
  · exact .refl s
  · exact tlbKept_of_cores rfl fun x => by split <;> rfl

theorem raiseFault_tlbKept (src : Nat) (det : BitVec 32) (s : State) : TlbKept s (raiseFault src det s) := by
  simp only [raiseFault]
  split
  · exact .refl s
  · simp only [latchFault]
    split
    · exact .refl s
    · split
      · exact .refl s
      · have hmsg (b : Bool) (body : List Byte) (x : State) : TlbKept x (if b then formMsg 3 body x else x) := by
          split
          · exact .of_only (formMsg_only _ _ _) (by decide)
          · exact .refl x
        split
        · exact .after (lossBegin_tlbKept true _) (hmsg _ _ _)
        · exact hmsg _ _ _

theorem mediaTo_tlbKept (dst : Media) (cause subj : Nat) (s : State) : TlbKept s (mediaTo dst cause subj s) := by
  unfold mediaTo
  extract_lets arr s1 body pay j s2 s3
  have h2 : TlbKept s1 s2 := by
    dsimp only [s2]
    split
    · exact .refl s1
    · exact .after (.of_only (writeDev_only _ _ _) (by decide)) (.of_only (newJob_only _ _ _ _ s1) (by decide))
  have h3 : TlbKept s2 s3 := by
    dsimp only [s3]
    split
    · exact raiseFault_tlbKept _ _ _
    · exact raiseFault_tlbKept _ _ _
    · exact .refl s2
  exact .after (.of_only (formMsg_only _ _ s3) (by decide)) (.after h3 (.after h2 fun _ => rfl))

theorem mediaTest_tlbKept (s : State) : TlbKept s (mediaTest s) := by
  rcases mediaTest_cases s with h | ⟨c, -, h⟩
  · exact h.symm ▸ .refl s
  · exact h.symm ▸ mediaTo_tlbKept _ _ _ s

/-- No entry that is taken out is left in any TLB. -/
theorem tlbDrop_gone (p : TlbEntry → Bool) (s : State) (c : Nat) (y : TlbEntry) (hy : y ∈ (coreOf (tlbDrop p s) c).tlb) : p y = false := by
  by_cases hc : c < 16
  · simp only [tlbDrop, updCores, coreOf, vAt_vMap _ s.cores c hc] at hy
    simpa using (List.mem_filter.1 hy).2
  · rw [coreOf_of_le _ (Nat.le_of_not_lt hc)] at hy
    simp [default, instInhabitedCore.default] at hy

/-! ## Slots -/

/-- The record of a slot after its change, where the list of slots is in order. -/
theorem slotOf_updSlot_rise (s : State) (n : Nat) (f : SlotInfo → SlotInfo) (h : keysRise s.arr.slots = true) :
    slotOf (updSlot s n f) n = f (slotOf s n) := by
  by_cases hf : f (slotOf s n) = SlotInfo.reset
  · show (look n (memSet SlotInfo.reset s.arr.slots n (f (slotOf s n)))).getD SlotInfo.reset = _
    rw [memSet, if_pos hf, look_del_same n _ h, hf, Option.getD_none]
  · exact slotOf_updSlot_same s n f hf

theorem updSlot_rise (s : State) (n : Nat) (f : SlotInfo → SlotInfo) (h : keysRise s.arr.slots = true) :
    keysRise (updSlot s n f).arr.slots = true := by
  simp only [updSlot, memSet]
  split
  · exact keysRise_del _ _ h
  · exact keysRise_put _ _ _ h

theorem slotInfo_ne_reset_of_used {i : SlotInfo} (h : i.used = true) : i ≠ SlotInfo.reset := by
  rintro rfl
  exact absurd h (by decide)

theorem slotInfo_ne_reset_of_retired {i : SlotInfo} (h : i.retired = true) : i ≠ SlotInfo.reset := by
  rintro rfl
  exact absurd h (by decide)

theorem slotInfo_ne_reset_of_seg {i : SlotInfo} {g : Nat} (h : i.seg = some g) : i ≠ SlotInfo.reset := by
  rintro rfl
  exact absurd h (by simp [SlotInfo.reset])

/-! ## Moves -/

/-- The segment map and the moves of the Barchan engines are the same in two states. -/
structure MovesKept (s t : State) : Prop where
  map : t.arr.map = s.arr.map
  moves : t.arr.moves = s.arr.moves

theorem MovesKept.refl (s : State) : MovesKept s s := ⟨rfl, rfl⟩

/-- The steps in the order of the terms: the later one first. -/
theorem MovesKept.after (k : MovesKept t u) (h : MovesKept s t) : MovesKept s u := ⟨k.map.trans h.map, k.moves.trans h.moves⟩

theorem MovesKept.of_only {l : List Region} (h : OnlyIn l s t) (ha : Region.arr ∉ l) : MovesKept s t := by
  have e : t.arr = s.arr := h .arr ha
  exact ⟨by rw [e], by rw [e]⟩

theorem updSeg_movesKept (s : State) (g : Nat) (f : SegSt → SegSt) : MovesKept s (updSeg s g f) := by
  simp only [updSeg]
  split
  · exact .refl s
  · exact ⟨rfl, rfl⟩

theorem mediaTest_movesKept (s : State) : MovesKept s (mediaTest s) := by
  obtain ⟨m, hm⟩ := mediaTest_arr s
  exact ⟨by rw [hm], by rw [hm]⟩

theorem repack_only (g : Nat) (order : List (Nat × Nat × Nat × Nat)) (s : State) : OnlyIn [.store] s (repack g order s).1 := by
  have hfold (f : State × Nat → Nat × Nat × Nat × Nat → State × Nat) (hf : ∀ p e, OnlyIn [.store] p.1 (f p e).1) (p : State × Nat) :
      OnlyIn [.store] p.1 (order.foldl f p).1 := by
    induction order generalizing p with
    | nil => exact OnlyIn.refl _ _
    | cons e l ih => exact (hf p e).trans (ih (f p e)) (fun _ h => h) (fun _ h => h)
  exact hfold _ (fun p e => updStream_only _ _ _) (s, 64)

/-- A compaction rewrites records, a seal and keys, and neither the segment map nor a move (R134). -/
theorem compactSeg_movesKept (g : Nat) (x : SegSt) (s : State) : MovesKept s (compactSeg g x s) := by
  unfold compactSeg
  extract_lets gone order s1 s2 v entries info s3 s4
  have h1 : OnlyIn [.store] s s1 := by
    refine OnlyIn.foldl _ (fun t sid => ?_) _ s
    split
    · exact OnlyIn.refl _ _
    · exact updStream_only _ _ _
  have h2 : OnlyIn [.store, .vtf] s v.2 :=
    (h1.trans (repack_only g order s1) (fun _ h => h) (fun _ h => h)).trans (issueSeal_only s2.1) (by decide) (by decide)
  have h4 : OnlyIn [.store, .oas] s3 s4 := by
    refine OnlyIn.foldl _ (fun t sid => ?_) _ s3
    split
    · exact OnlyIn.refl _ _
    · exact (updStream_only _ _ _).trans (writeDev_only _ _ _) (by decide) (by decide)
  have h5 := OnlyIn.foldl _ (fun t sid => pruneKeys_only sid t) x.sids s4
  exact .after (.of_only h5 (by decide)) (.after (.of_only h4 (by decide)) (.after (updSeg_movesKept v.2 g _) (.of_only h2 (by decide))))

end Sys2Proof.Machine
end

section
/-! SUPPORT. Segment moves, evacuations and compactions, row by row; and the statement on them. -/
namespace Sys2Proof.Machine
open Sys2Proof

variable {s t u : State} {g k : Nat} {e : MapEntry} {m : MoveSt}

/-! ## A move started (R128) -/

/-- Engine `k` moves segment `g`: its entry is MIG, and its target is used and programmed once more. -/
def MoveStarted (k g : Nat) (e : MapEntry) (v : MoveSt) (s t : State) : Prop :=
  vAt t.arr.moves k = some v ∧ look g t.arr.map = some { e with mig := true }
    ∧ (slotOf t v.dst).used = true ∧ (slotOf t v.dst).prog = (slotOf s v.dst).prog + 1

theorem startMove_started (v : MoveSt) (hk : k < 4) (h : look v.segno s.arr.map = some e) : MoveStarted k v.segno e v s (startMove k v s) := by
  have hslot : slotOf (startMove k v s) v.dst = { slotOf s v.dst with used := true, prog := (slotOf s v.dst).prog + 1 } :=
    slotOf_updSlot_same s v.dst (fun i => { i with used := true, prog := i.prog + 1 }) (slotInfo_ne_reset_of_used rfl)
  have hmap : (startMove k v s).arr.map = put v.segno { e with mig := true } s.arr.map := by
    have hlook : mapLook (updSlot s v.dst fun i => { i with used := true, prog := i.prog + 1 }) v.segno = some e := mapLook_of_look h
    simp only [startMove, hlook]
    rfl
  refine ⟨vAt_vSet_same _ _ _ hk, ?_, ?_, ?_⟩
  · rw [hmap, look_put_same]
  · rw [hslot]
  · rw [hslot]

theorem startMove_only (k : Nat) (v : MoveSt) (s : State) : OnlyIn [.arr] s (startMove k v s) := arr_only s _

theorem MoveStarted.mediaTest {v : MoveSt} (h : MoveStarted k g e v s t) : MoveStarted k g e v s (mediaTest t) := by
  obtain ⟨m, hm⟩ := mediaTest_arr t
  simpa only [MoveStarted, slotOf, hm] using h

theorem freeEngine_lt (h : freeEngine s = some k) : k < 4 := List.mem_range.1 (List.mem_of_find?_eq_some h)

theorem segGen_of_look (h : look g s.arr.map = some e) : segGen s g = e.gen := by simp only [segGen, mapLook_of_look h]

theorem exec_wearLevelMoveStart (d : Fin 8) {a b : Nat} (hon : shellOn s d.val = true) (hs : barchanSusp s = false)
    (hm : s.store.mounted = true) (hk : freeEngine s = some k) (hp : wearPick s d.val = some (g, a, b)) :
    exec (.wearLevelMoveStart d) s =
      .next (startMove k { MoveSt.reset with segno := g, src := a, dst := b, gen := (slotOf s a).gen } s) := by
  show execWearLevelMoveStart d s = _
  simp only [execWearLevelMoveStart, hon, hs, hm, hk, hp, Bool.not_true, Bool.or_false, Bool.false_eq_true, if_false]

theorem exec_sharedSegmentCompaction {d b : Nat} {x : SegSt} (hon : alive s = true) (hs : barchanSusp s = false) (hm : s.store.mounted = true)
    (hx : segOf s g = some x) (hk : freeEngine s = some k) (hd : chooseDie s .floor = some d) (hc : compactable s g x = true)
    (hmov : moveable s g = true) (hb : allocOnDie s d .floor = some b) :
    exec (.sharedSegmentCompaction g) s =
      .next (startMove k { MoveSt.reset with segno := g, src := segSlot s g, dst := b, gen := segGen s g, compact := true } s) := by
  show execSharedSegmentCompaction g s = _
  simp only [execSharedSegmentCompaction, hon, hs, hm, hx, hk, hd, hc, hmov, hb, Bool.not_true, Bool.or_false, Bool.and_self,
    Bool.false_eq_true, if_false, if_true]

/-! ## Evacuations (R137) -/

/-- A slot taken from those that wait for evacuation. -/
def evacTaken (n : Nat) (s : State) : State := { s with arr.evacPending := s.arr.evacPending.filter (· != n) }

theorem evacTaken_gone (n : Nat) (s : State) : n ∉ (evacTaken n s).arr.evacPending := by simp [evacTaken]

theorem exec_slotEvacuationStart {a : Nat} {rest : List Nat} (hrel : s.pwr.released = true) (hloss : inLoss s = false)
    (hw : s.oas.warn = false) (hoff : s.pwr.pstate ≠ .off) (hm : s.store.mounted = true) (hk : freeEngine s = some k) (hp : s.arr.evacPending = a :: rest)
    (hr : evacReady s a = true) : exec .slotEvacuationStart s = .next (evacuate k a s) := by
  show execSlotEvacuationStart s = _
  simp only [execSlotEvacuationStart, hrel, hloss, hw, hoff, hm, hk, hp, List.find?_cons, hr, Bool.not_true, Bool.or_false, decide_false,
    Bool.false_eq_true, if_false]

/-- A failing slot's segment goes to a reserved spare slot where one is left. -/
theorem evacuate_spare {a b : Nat} (hseg : slotSeg s a = some g) (hb : evacSpare s (slotDie a) (slotBank a) = some b) :
    evacuate k a s = mediaTest (startMove k
      { MoveSt.reset with segno := g, src := a, dst := b, gen := segGen s g, evac := true, spare := true } (evacTaken a (takeSpare b s))) := by
  simp only [evacuate, hseg, hb]
  rfl

theorem evacuate_empty {a : Nat} (hseg : slotSeg s a = none) : evacuate k a s = mediaTest (retireSlot a (evacTaken a s)) := by
  simp only [evacuate, hseg]
  rfl

theorem evacuate_started {a b : Nat} (hk : k < 4) (hlook : look g s.arr.map = some e) (hseg : slotSeg s a = some g)
    (hb : evacSpare s (slotDie a) (slotBank a) = some b) :
    MoveStarted k g e { MoveSt.reset with segno := g, src := a, dst := b, gen := e.gen, evac := true, spare := true } s (evacuate k a s)
      ∧ a ∉ (evacuate k a s).arr.evacPending := by
  rw [evacuate_spare hseg hb, segGen_of_look hlook]
  let v : MoveSt := { MoveSt.reset with segno := g, src := a, dst := b, gen := e.gen, evac := true, spare := true }
  let w := evacTaken a (takeSpare b s)
  obtain ⟨m, hm⟩ := mediaTest_arr (startMove k v w)
  refine ⟨MoveStarted.mediaTest (startMove_started (s := w) v hk hlook), ?_⟩
  rw [hm]
  exact evacTaken_gone a (takeSpare b s)

/-- The record of a slot that is retired. -/
def slotRetired (i : SlotInfo) : SlotInfo := { i with used := false, failing := false, retired := true, seg := none }

theorem retireSlot_arr (n : Nat) (s : State) :
    (retireSlot n s).arr = { (updSlot s n slotRetired).arr with retired := s.arr.retired + 1 } :=
  raiseFault_only _ _ _ .arr (by decide)

theorem retireSlot_slot (n : Nat) (s : State) : slotOf (retireSlot n s) n = slotRetired (slotOf s n) := by
  have hslots : slotOf (retireSlot n s) n = slotOf (updSlot s n slotRetired) n := by simp only [slotOf, retireSlot_arr]
  exact hslots.trans (slotOf_updSlot_same s n slotRetired (slotInfo_ne_reset_of_retired rfl))

/-- A failing slot that holds no segment is retired: the over-provisioning is one slot less, and ARY_SLOTRET is latched where it is not
masked (R136, R137). -/
theorem evacuate_retires {a : Nat} (hon : collectorOn s = true) (hseg : slotSeg s a = none) (hd : slotDie a < 8) :
    let t := evacuate k a s
    (slotOf t a).retired = true ∧ (slotOf t a).failing = false ∧ t.arr.retired = s.arr.retired + 1 ∧ overProv t = overProv s - 1
      ∧ (s.flt.masked.getLsbD (68 + slotDie a) = false → t.flt.latch.getLsbD (68 + slotDie a) = true) := by
  intro t
  let v := retireSlot a (evacTaken a s)
  obtain ⟨m, hm⟩ := mediaTest_arr v
  have ht : t = mediaTest v := evacuate_empty hseg
  have hslot : slotOf t a = slotOf v a := by simp only [ht, slotOf, hm]
  have hret : t.arr.retired = s.arr.retired + 1 := by
    rw [ht, hm]
    exact congrArg ArraySt.retired (retireSlot_arr a (evacTaken a s))
  have hdies : v.arr.dies = s.arr.dies := by
    rw [retireSlot_arr]
    rfl
  have hspare : dieSpare t = dieSpare s := by
    funext d
    simp only [dieSpare, dieOf, ht, hm, hdies]
  have hslot' := hslot.trans (retireSlot_slot a (evacTaken a s))
  refine ⟨hslot' ▸ rfl, hslot' ▸ rfl, hret, ?_, fun hmask => ?_⟩
  · simp only [overProv, hret, hspare]
    push_cast
    ring
  · have hlatch : v.flt.latch.getLsbD (68 + slotDie a) = true := raiseFault_latches _ _ _ (by omega) hmask hon
    rw [ht]
    exact (mediaTest_runs (F := fun _ => False) (W := False) v).wear.latch _ hlatch

/-! ## A copy pass, and the commit (R128, R129) -/

/-- Both slots of a move taken as bank operations of its engine (R132). -/
def banksTook (m : MoveSt) (s : State) : State := barchanTook m.dst (barchanTook m.src s)

theorem exec_segmentMoveCopyPassComplete (q : Fin 4) (hm : vAt s.arr.moves q.val = some m) (hs : m.sealed = false) (hmay : moveMay s m = true)
    (hsrc : barchanBank s m.src = true) (hdst : barchanBank s m.dst = true) :
    exec (.segmentMoveCopyPassComplete ⟨q, none⟩) s = .next (
      if m.dirty.isEmpty then moveCommit q.val m (banksTook m s)
      else { banksTook m s with
        arr.moves := vSet s.arr.moves q.val (some { m with dirty := [], passes := m.passes + 1, hold := decide (4 ≤ m.passes + 1) }) }) := by
  show execSegmentMoveCopyPassComplete ⟨q, none⟩ s = _
  simp only [execSegmentMoveCopyPassComplete, hm, hs, hmay, hsrc, hdst, Bool.not_true, Bool.or_false, Bool.false_eq_true, if_false]
  rfl

/-- A move committed: the slot holds the segment with a new GEN, and so does its map entry (R127, R129). -/
def moveCommitted (k : Nat) (m : MoveSt) (e : MapEntry) (s : State) : State :=
  let gen := (e.gen + 1) % 4096
  let s2 := updSlot s m.dst fun i => { i with seg := some m.segno, gen := gen }
  { s2 with
    arr.map := put m.segno { e with mig := false, gen := gen, slot := m.dst } s2.arr.map
    arr.moves := vSet s2.arr.moves k (some { m with sealed := true }) }

/-- A commit, after the new image of a compaction where the move is one (R134). -/
theorem moveCommit_committed (k : Nat) (m : MoveSt) (h : look m.segno s.arr.map = some e) :
    ∃ u, MovesKept s u ∧ (m.compact = false → u = s) ∧ moveCommit k m s = moveCommitted k m e u := by
  unfold moveCommit
  extract_lets s1
  have hkept : MovesKept s s1 := by
    dsimp only [s1]
    split
    · exact compactSeg_movesKept _ _ _
    · exact .refl s
  refine ⟨s1, hkept, fun hc => ?_, ?_⟩
  · dsimp only [s1]
    split
    · next hcompact _ => simp [hc] at hcompact
    · rfl
  · rw [show look m.segno s1.arr.map = some e by rw [hkept.map, h]]
    rfl

theorem moveCommitted_parts (k : Nat) (m : MoveSt) (e : MapEntry) (s : State) (hk : k < 4) :
    look m.segno (moveCommitted k m e s).arr.map = some { e with mig := false, gen := (e.gen + 1) % 4096, slot := m.dst }
      ∧ (slotOf (moveCommitted k m e s) m.dst).seg = some m.segno
      ∧ vAt (moveCommitted k m e s).arr.moves k = some { m with sealed := true } := by
  have hslot : slotOf (moveCommitted k m e s) m.dst = { slotOf s m.dst with seg := some m.segno, gen := (e.gen + 1) % 4096 } :=
    slotOf_updSlot_same s m.dst (fun i => { i with seg := some m.segno, gen := (e.gen + 1) % 4096 }) (slotInfo_ne_reset_of_seg rfl)
  exact ⟨look_put_same _ _ _, by rw [hslot], vAt_vSet_same _ _ _ hk⟩

theorem moveCommitted_only (k : Nat) (m : MoveSt) (e : MapEntry) (s : State) : OnlyIn [.arr] s (moveCommitted k m e s) :=
  (updSlot_only _ _ _).trans (arr_only _ _) (fun _ h => h) (fun _ h => h)

theorem banksTook_only (m : MoveSt) (s : State) : OnlyIn [.arr] s (banksTook m s) :=
  (updDie_only _ _ _).trans (updDie_only _ _ _) (fun _ h => h) (fun _ h => h)

/-! ## The end of a move (R128 steps 6 to 8, R137) -/

theorem exec_segmentMoveInvalidationAck (q : Fin 4) (hm : vAt s.arr.moves q.val = some m) (hs : m.sealed = true) (hmay : moveMay s m = true) :
    exec (.segmentMoveInvalidationAck q) s = .next (moveDone q.val m s) := by
  show execSegmentMoveInvalidationAck q s = _
  simp only [execSegmentMoveInvalidationAck, hm, hs, hmay, Bool.and_self, if_true]

theorem leaveSlot_movesKept (m : MoveSt) (s : State) : MovesKept s (leaveSlot m s) := by
  have hupd (x : State) (f : SlotInfo → SlotInfo) : MovesKept x (updSlot x m.src f) := ⟨rfl, rfl⟩
  have hretire : MovesKept s (retireSlot m.src s) := ⟨by rw [retireSlot_arr]; rfl, by rw [retireSlot_arr]; rfl⟩
  unfold leaveSlot
  extract_lets held s1
  have h1 : MovesKept s s1 := by
    dsimp only [s1]
    split
    · exact hretire
    · exact hupd s _
  split
  · exact .after (hupd s1 _) h1
  · exact h1

/-- The slot a move leaves is unused and holds no segment; after an evacuation it is retired. -/
theorem leaveSlot_slot (m : MoveSt) (s : State) (h : keysRise s.arr.slots = true) :
    let i := slotOf (leaveSlot m s) m.src
    i.used = false ∧ i.seg = none ∧ (m.evac = true → i.retired = true) := by
  unfold leaveSlot
  extract_lets held s1 i
  have h1 : ((slotOf s1 m.src).used = false ∧ (slotOf s1 m.src).seg = none ∧ (m.evac = true → (slotOf s1 m.src).retired = true))
      ∧ keysRise s1.arr.slots = true := by
    dsimp only [s1]
    split
    · rw [retireSlot_slot, congrArg ArraySt.slots (retireSlot_arr m.src s)]
      exact ⟨⟨rfl, rfl, fun _ => rfl⟩, updSlot_rise s m.src slotRetired h⟩
    · next hevac =>
      rw [slotOf_updSlot_rise s m.src _ h]
      exact ⟨⟨rfl, rfl, fun he => absurd he hevac⟩, updSlot_rise s m.src _ h⟩
  dsimp only [i]
  split
  · rw [slotOf_updSlot_rise s1 m.src _ h1.2]
    exact h1.1
  · exact h1.1

theorem leaveSlot_tlbKept (m : MoveSt) (s : State) : TlbKept s (leaveSlot m s) := by
  have hupd (x : State) (f : SlotInfo → SlotInfo) : TlbKept x (updSlot x m.src f) := fun _ => rfl
  unfold leaveSlot
  extract_lets held s1
  have h1 : TlbKept s s1 := by
    dsimp only [s1]
    split
    · exact .after (raiseFault_tlbKept _ _ _) fun _ => rfl
    · exact hupd s _
  split
  · exact .after (hupd s1 _) h1
  · exact h1

/-- The engine idle again and the translations of its segment gone (R128 step 6). -/
def moveDropped (k : Nat) (m : MoveSt) (s : State) : State := tlbDrop (tlbHits m.segno) { s with arr.moves := vSet s.arr.moves k none }

/-- The held writes of a moved segment issued to its new slot's die (R128 step 7). -/
def writesMoved (m : MoveSt) (s : State) : State :=
  { s with arr.writes := s.arr.writes.map fun w =>
    if w.segno = m.segno ∧ w.tail = false then { w with die := slotDie m.dst, gen := segGen s m.segno } else w }

theorem moveDone_eq (k : Nat) (m : MoveSt) (s : State) :
    moveDone k m s = mediaTest (writesMoved m (leaveSlot m (moveDropped k m s))) := rfl

theorem writesMoved_die (m : MoveSt) (s : State) (w : CwWrite) (hw : w ∈ (writesMoved m s).arr.writes) (hs : w.segno = m.segno)
    (ht : w.tail = false) : w.die = slotDie m.dst := by
  obtain ⟨w0, -, rfl⟩ := List.mem_map.1 hw
  by_cases h : w0.segno = m.segno ∧ w0.tail = false
  · rw [if_pos h]
  · rw [if_neg h] at hs ht
    exact absurd ⟨hs, ht⟩ h

theorem moveDone_parts (m : MoveSt) (s : State) (hk : k < 4) (hrise : keysRise s.arr.slots = true) :
    let t := moveDone k m s
    vAt t.arr.moves k = none ∧ (∀ c : Nat, ∀ y ∈ (coreOf t c).tlb, tlbHits m.segno y = false)
      ∧ (slotOf t m.src).used = false ∧ (slotOf t m.src).seg = none ∧ (m.evac = true → (slotOf t m.src).retired = true)
      ∧ ∀ w ∈ t.arr.writes, w.segno = m.segno → w.tail = false → w.die = slotDie m.dst := by
  intro t
  let v := leaveSlot m (moveDropped k m s)
  have ht : t = mediaTest (writesMoved m v) := moveDone_eq k m s
  obtain ⟨x, hx⟩ := mediaTest_arr (writesMoved m v)
  have hmoves : t.arr.moves = vSet s.arr.moves k none := by
    rw [ht, hx]
    exact (leaveSlot_movesKept m (moveDropped k m s)).moves
  have htlb : TlbKept (moveDropped k m s) t := by
    rw [ht]
    exact .after (mediaTest_tlbKept _) (.after (t := v) (fun _ => rfl) (leaveSlot_tlbKept m _))
  have hslot : slotOf t m.src = slotOf v m.src := by
    simp only [ht, slotOf, hx]
    rfl
  refine ⟨?_, fun c y hy => ?_, ?_⟩
  · rw [hmoves, vAt_vSet_same _ _ _ hk]
  · rw [htlb c] at hy
    exact tlbDrop_gone _ _ c y hy
  · obtain ⟨hused, hseg, hevac⟩ := leaveSlot_slot m (moveDropped k m s) hrise
    rw [hslot]
    refine ⟨hused, hseg, hevac, fun w hw => writesMoved_die m v w ?_⟩
    rwa [ht, hx] at hw

/-- Settles O33, row by row: each start is one `startMove` or a slot retired, a copy pass repeats or commits, and the acknowledgement ends the
move; the media state tested behind it changes nothing of these. -/
theorem segmentMoves : Obligations.SegmentMoves := by
  intro s k d g a b e q m x starts idle took
  refine ⟨?wear, ?evac, ?retired, ?compact, fun hm hs hmay hsrc hdst => ?pass, fun hm hs hmay hrise => ?ack⟩
  case wear =>
    rintro ⟨hlook, hk, hmount, hrel, hloss, hoff, -⟩ d hung hs hp
    have hon := (shellOn_iff s d.val).2 ⟨hrel, hloss, hoff, hung⟩
    exact ⟨_, exec_wearLevelMoveStart d hon hs hmount hk hp, startMove_started (s := s) _ (freeEngine_lt hk) hlook, startMove_only _ _ _⟩
  case evac =>
    rintro ⟨hlook, hk, hmount, hrel, hloss, hoff, -⟩ rest hw hp hr hseg hb
    exact ⟨_, exec_slotEvacuationStart hrel hloss hw hoff hmount hk hp hr, evacuate_started (freeEngine_lt hk) hlook hseg hb⟩
  case retired =>
    rintro ⟨-, hk, hmount, hrel, hloss, hoff, -⟩ rest hw hp hr hseg hd
    exact ⟨_, exec_slotEvacuationStart hrel hloss hw hoff hmount hk hp hr, evacuate_retires (by simp [collectorOn, hrel, hoff]) hseg hd⟩
  case compact =>
    rintro ⟨hlook, hk, hmount, hrel, hloss, -, hhalt⟩ hs hx hc hmov hd hb
    have hon : alive s = true := by simp [alive, hrel, hloss, hhalt]
    have hexec := exec_sharedSegmentCompaction hon hs hmount hx hk hd hc hmov hb
    rw [segGen_of_look hlook] at hexec
    exact ⟨_, hexec, startMove_started (s := s) _ (freeEngine_lt hk) hlook, startMove_only _ _ _⟩
  case pass =>
    have hexec := exec_segmentMoveCopyPassComplete q hm hs hmay hsrc hdst
    refine ⟨fun hdirty => ?_, fun hclean hplain hlook => ?_, fun hclean _ hlook => ?_⟩
    · rw [hexec, if_neg (by simpa using hdirty)]
      rfl
    · obtain ⟨u, -, hu, hcommit⟩ := moveCommit_committed (s := banksTook m s) q.val m hlook
      rw [hexec, if_pos (List.isEmpty_iff.2 hclean), hcommit, hu hplain]
      obtain ⟨hmap, hslot, hmoves⟩ := moveCommitted_parts q.val m e (banksTook m s) q.isLt
      exact ⟨_, rfl, hmap, hslot, hmoves, (banksTook_only m s).trans (moveCommitted_only _ _ _ _) (fun _ h => h) (fun _ h => h)⟩
    · obtain ⟨u, -, -, hcommit⟩ := moveCommit_committed (s := banksTook m s) q.val m hlook
      rw [hexec, if_pos (List.isEmpty_iff.2 hclean), hcommit]
      obtain ⟨hmap, -, hmoves⟩ := moveCommitted_parts q.val m e u q.isLt
      exact ⟨_, _, rfl, hmoves, hmap, rfl, rfl⟩
  case ack =>
    exact ⟨_, exec_segmentMoveInvalidationAck q hm hs hmay, moveDone_parts m s q.isLt hrise⟩

end Sys2Proof.Machine
end

section
/-! SUPPORT. Objects moved and cards scanned in heap segments, and the Sirocco level; and the statement on them. -/
namespace Sys2Proof.Machine
open Sys2Proof

variable {s t u : State}

/-! ## Objects moved (R135, R353, R459) -/

/-- The heap segment whose objects an engine moves. -/
def heapBusy (n : Nat) (v : Option Nat) (s : State) : State := { s with arr.heapEng := vSet s.arr.heapEng n v }

/-- A power-on device in no loss sequence, whose heap holds the whole of an object. -/
structure HeapObject (src : Nat) (s : State) : Prop where
  released : s.pwr.released = true
  noLoss : inLoss s = false
  mapped : inHeap src s = true
  fits : src % 131072 + objLen (heapRead src s) ≤ 65536

theorem exec_heapObjectMove_marks (q : Fin 4) (src dst : Nat) (da : BitVec 32) (last : Bool) (hu : drainCores s = u) (h : HeapObject src u)
    (htag : (heapRead src u).tag = 6) (hs : barchanSusp u = false) (hidle : vAt u.arr.moves q.val = none) :
    exec (.heapObjectMove q src dst da false last) s =
      .next (heapBusy q.val (some (src / 131072)) (heapWrite q.val src { heapRead src u with tag := 0xD } u)) := by
  show execHeapObjectMove q src dst da false last s = _
  simp only [execHeapObjectMove, hu, h.released, h.noLoss, h.mapped, decide_eq_false (Nat.not_lt.2 h.fits), htag, hs, hidle, Bool.not_true,
    Bool.or_false, Option.isNone_none, and_self, Bool.false_eq_true, if_false, if_true]
  rfl

/-- A marked object copied and forwarded; its source waits for its scan after the last object. -/
theorem exec_heapObjectMove_copies (q : Fin 4) (src dst : Nat) (da : BitVec 32) (last : Bool) (hu : drainCores s = u) (h : HeapObject src u)
    (htag : (heapRead src u).tag = 0xD) (hdst : inHeap dst u = true) (hroom : dst % 131072 + objLen (heapRead src u) ≤ 65536)
    (hlen : 3 ≤ objLen (heapRead src u)) :
    exec (.heapObjectMove q src dst da true last) s = .next (
      let t := heapBusy q.val (if last then none else some (src / 131072)) (finishMove q.val src dst da u)
      if last = true ∧ t.arr.heapDone.contains (src / 131072) = false then { t with arr.heapDone := t.arr.heapDone ++ [src / 131072] }
      else t) := by
  show execHeapObjectMove q src dst da true last s = _
  simp only [execHeapObjectMove, hu, h.released, h.noLoss, h.mapped, decide_eq_false (Nat.not_lt.2 h.fits), htag, hdst, hroom, hlen,
    Bool.not_true, Bool.or_false, and_self, Bool.false_eq_true, if_false, if_true]
  rfl

/-- The copy's header and words, then the pair that forwards to it, and last the forwarding header. -/
theorem finishMove_eq (n src dst : Nat) (da : BitVec 32) (s : State) : finishMove n src dst da s =
    heapWrite n src { tag := 7, data := 0 } (heapWrite n (src + 2) { tag := 5, data := da.setWidth 16 }
      (heapWrite n (src + 1) { tag := 4, data := (da >>> 16).setWidth 16 }
        (heapCopy n (src + 1) (dst + 1) (objLen (heapRead src s) - 1) (heapWrite n dst { heapRead src s with tag := 6 } s)))) := by
  have hhigh : BitVec.ofNat 16 (da.toNat / 65536) = (da >>> 16).setWidth 16 :=
    BitVec.eq_of_toNat_eq (by simp [Nat.shiftRight_eq_div_pow])
  have hlow : BitVec.ofNat 16 da.toNat = da.setWidth 16 := BitVec.eq_of_toNat_eq (by simp)
  simp only [finishMove, hhigh, hlow]

theorem heapBusy_vAt (n : Nat) (v : Option Nat) (s : State) (h : n < 4) : vAt (heapBusy n v s).arr.heapEng n = v := vAt_vSet_same _ _ _ h

/-- After the last object of a source the source waits for its scan, and the engine is idle. -/
theorem exec_heapObjectMove_last (q : Fin 4) (src dst : Nat) (da : BitVec 32) (hu : drainCores s = u) (h : HeapObject src u)
    (htag : (heapRead src u).tag = 0xD) (hdst : inHeap dst u = true) (hroom : dst % 131072 + objLen (heapRead src u) ≤ 65536)
    (hlen : 3 ≤ objLen (heapRead src u)) :
    ∃ t, exec (.heapObjectMove q src dst da true true) s = .next t ∧ src / 131072 ∈ t.arr.heapDone ∧ vAt t.arr.heapEng q.val = none := by
  refine ⟨_, exec_heapObjectMove_copies q src dst da true hu h htag hdst hroom hlen, ?_⟩
  let v := heapBusy q.val none (finishMove q.val src dst da u)
  have heng : vAt v.arr.heapEng q.val = none := heapBusy_vAt _ _ _ q.isLt
  by_cases hin : src / 131072 ∈ v.arr.heapDone
  · have hcond : ¬ (true = true ∧ v.arr.heapDone.contains (src / 131072) = false) := by simp [hin]
    exact (if_neg hcond).symm ▸ ⟨hin, heng⟩
  · have hcond : true = true ∧ v.arr.heapDone.contains (src / 131072) = false := by simp [hin]
    exact (if_pos hcond).symm ▸ ⟨List.mem_append_right _ (List.mem_singleton.2 rfl), heng⟩

/-! ## Cards scanned (R135, R460) -/

/-- The translations of every heap segment gone. -/
def heapUntranslated (s : State) : State := tlbDrop (fun e => (heapSegs s).any fun g => maps g e) s

theorem heapUntranslated_gone (s : State) (c : Nat) (y : TlbEntry) (hy : y ∈ (coreOf (heapUntranslated s) c).tlb) (g : Nat)
    (hg : g ∈ heapSegs s) : maps g y = false := by
  have hany := tlbDrop_gone _ _ c y hy
  rw [List.any_eq_false] at hany
  simpa using hany g hg

/-- Whether a marked card holds a reference into a segment. -/
def markedInto (src : Nat) (s : State) : Bool := (s.arr.cards.map (·.1)).any fun k => cardInto src k s

/-- A finished source to which nothing refers given back, and nothing remembered (R135). -/
def sourceFreed (src : Nat) (s : State) : State :=
  let v := unmapSeg (heapUntranslated s) src
  mediaTest { v with arr := { v.arr with remembered := [], heapDone := v.arr.heapDone.filter (· != src) } }

theorem exec_cardScan (src : Nat) (q : Fin 4) (hu : drainCores s = u) (hrel : u.pwr.released = true) (hloss : inLoss u = false)
    (hs : barchanSusp u = false) (hidle : vAt u.arr.moves q.val = none) (hsrc : src ∈ heapSegs u) :
    exec (.cardScan src q) s = .next (
      if !u.arr.remembered.contains src then { heapUntranslated u with arr.remembered := heapSegs u }
      else if !markedInto src u && u.arr.heapDone.contains src then sourceFreed src { u with arr.cards := [] }
      else { u with arr.cards := [] }) := by
  have hin : (heapSegs u).contains src = true := by simpa using hsrc
  show execCardScan src q s = _
  simp only [execCardScan, hu, hrel, hloss, hs, hidle, hin, Bool.not_true, Bool.or_false, Option.isSome_none, Bool.false_eq_true, if_false]
  rfl

theorem dropMoves_cards (g : Nat) (s : State) : (dropMoves g s).arr.cards = s.arr.cards := by
  have hmove (m : MoveSt) (x : State) : (dropMove m x).arr.cards = x.arr.cards := by
    simp only [dropMove]
    split <;> split <;> rfl
  refine List.foldlRecOn (motive := fun x : State => x.arr.cards = s.arr.cards) s.arr.moves.toList _ rfl fun x hx m _ => ?_
  split
  · split
    · exact (hmove _ x).trans hx
    · exact hx
  · exact hx

theorem unmapSeg_cards (g : Nat) (s : State) : (unmapSeg s g).arr.cards = s.arr.cards := by
  rw [← dropMoves_cards g s]
  unfold unmapSeg
  extract_lets s1
  split <;> rfl

/-- A source given back leaves the segment map and the sources that wait; nothing is remembered, and no card marked. -/
theorem sourceFreed_parts (src : Nat) (s : State) : (sourceFreed src s).arr.map = del src s.arr.map ∧ (sourceFreed src s).arr.remembered = []
    ∧ src ∉ (sourceFreed src s).arr.heapDone ∧ (sourceFreed src s).arr.cards = s.arr.cards := by
  unfold sourceFreed
  extract_lets v
  obtain ⟨m, hm⟩ := mediaTest_arr { v with arr := { v.arr with remembered := [], heapDone := v.arr.heapDone.filter (· != src) } }
  rw [hm]
  exact ⟨(unmapSeg_maps src (heapUntranslated s)).2, rfl, by simp, unmapSeg_cards src (heapUntranslated s)⟩

/-! ## Sirocco (R142) -/

theorem siroccoNext_cases (l : Nat) (temp : Int) :
    (105 ≤ temp → siroccoNext l temp = 2) ∧ (100 < temp → temp < 105 → siroccoNext l temp = if l = 2 then 2 else 1)
      ∧ (temp = 100 → siroccoNext l temp = 1) ∧ (95 < temp → temp < 100 → siroccoNext l temp = if l = 0 then 0 else 1)
      ∧ (temp ≤ 95 → siroccoNext l temp = 0) := by
  refine ⟨fun h => ?_, fun h h' => ?_, fun h => ?_, fun h h' => ?_, fun h => ?_⟩ <;> simp only [siroccoNext] <;> split_ifs <;> omega

/-- Whether the junction is at its limit, or was and is not yet 5 °C below it (R497). -/
def thermHot (temp : Int) (s : State) : Bool := decide (110 ≤ temp) || (s.flt.present.getLsbD 7 && decide (105 < temp))

/-- The temperature and the level taken over, and a change of the level reported (R142, R311). -/
def siroccoTaken (temp : Int) (s : State) : State :=
  let lvl := siroccoNext s.arr.sirocco temp
  let s1 := { s with oas.temp := temp, arr.sirocco := lvl }
  if lvl = s.arr.sirocco then s1 else mediaMsg s1

/-- The state of the thermal limit as the collector's input shows it. -/
def thermShown (temp : Int) (hot : Bool) (s : State) : State :=
  { s with
    flt.present := setBit96 s.flt.present 7 hot
    flt.detail := if hot then put 7 (BitVec.ofInt 32 temp) s.flt.detail else del 7 s.flt.detail }

theorem exec_siroccoSample (temp : Int) (hrel : s.pwr.released = true) (hloss : inLoss s = false) (hoff : s.pwr.pstate ≠ .off) :
    exec (.siroccoSample temp) s = .next (
      let v := thermShown temp (thermHot temp s) (siroccoTaken temp s)
      if thermHot temp s && !s.flt.present.getLsbD 7 then raiseFault 7 (BitVec.ofInt 32 temp) v else v) := by
  show execSiroccoSample temp s = _
  simp only [execSiroccoSample, hrel, hloss, hoff, Bool.not_true, Bool.or_false, decide_false, Bool.false_eq_true, if_false]
  rfl

/-- A report of the media state is all that follows the temperature and the level. -/
theorem siroccoTaken_only (temp : Int) (s : State) :
    OnlyIn [.link] { s with oas.temp := temp, arr.sirocco := siroccoNext s.arr.sirocco temp } (siroccoTaken temp s) := by
  simp only [siroccoTaken]
  split
  · exact OnlyIn.refl _ _
  · exact formMsg_only _ _ _

theorem thermShown_parts (temp : Int) (hot : Bool) (s : State) :
    let v := thermShown temp hot (siroccoTaken temp s)
    v.oas.temp = temp ∧ v.arr.sirocco = siroccoNext s.arr.sirocco temp ∧ v.flt.masked = s.flt.masked ∧ collectorOn v = collectorOn s := by
  have h := siroccoTaken_only temp s
  have hoas : (siroccoTaken temp s).oas = { s.oas with temp := temp } := h .oas (by decide)
  have harr : (siroccoTaken temp s).arr = { s.arr with sirocco := siroccoNext s.arr.sirocco temp } := h .arr (by decide)
  have hflt : (siroccoTaken temp s).flt = s.flt := h .flt (by decide)
  have hpwr : (siroccoTaken temp s).pwr = s.pwr := h .pwr (by decide)
  refine ⟨?_, ?_, ?_, ?_⟩
  · exact congrArg Oasis.temp hoas
  · exact congrArg ArraySt.sirocco harr
  · show (siroccoTaken temp s).flt.masked = _
    rw [hflt]
  · simp only [collectorOn, thermShown, hpwr]

/-- A sample is taken over with its level; at the limit THERM_HALT is latched where it is not masked (R142, R497). -/
theorem exec_siroccoSample_parts (temp : Int) (hrel : s.pwr.released = true) (hloss : inLoss s = false) (hoff : s.pwr.pstate ≠ .off) :
    ∃ t, exec (.siroccoSample temp) s = .next t ∧ t.oas.temp = temp ∧ t.arr.sirocco = siroccoNext s.arr.sirocco temp
      ∧ (110 ≤ temp → s.flt.present.getLsbD 7 = false → s.flt.masked.getLsbD 7 = false → t.flt.latch.getLsbD 7 = true) := by
  have hexec := exec_siroccoSample temp hrel hloss hoff
  obtain ⟨htemp, hlvl, hmasked, hcol⟩ := thermShown_parts temp (thermHot temp s) s
  dsimp only at hexec
  split at hexec
  · refine ⟨_, hexec, ?_, ?_, fun _ _ hm => ?_⟩
    · rw [(raiseFault_reacted 7 _ _).oasis (·.temp), htemp]
    · rw [show (raiseFault 7 _ _).arr = _ from raiseFault_only 7 _ _ .arr (by decide), hlvl]
    · exact raiseFault_latches 7 _ _ (by decide) (by rwa [hmasked]) (hcol.trans (by simp [collectorOn, hrel, hoff]))
  · next hcool =>
    exact ⟨_, hexec, htemp, hlvl, fun hhot hp _ => absurd (by rw [thermHot, decide_eq_true hhot, hp]; rfl) hcool⟩

/-- Settles O34: an object is marked, copied and forwarded by single writes to the heap; a scan remembers, clears cards or frees its source;
the level of Sirocco is read off its thresholds. -/
theorem heapCompactionAndSirocco : Obligations.HeapCompactionAndSirocco := by
  intro s q src dst da last temp u h len wr busy runs lies found l
  have hu : drainCores s = u := rfl
  clear_value u
  have object (hl : lies) : HeapObject src u := by
    obtain ⟨⟨hrel, hloss⟩, hin, hfit⟩ := hl
    exact ⟨hrel, hloss, hin, hfit⟩
  refine ⟨fun hl htag hs hidle => exec_heapObjectMove_marks q src dst da last hu (object hl) htag hs hidle,
    fun hl htag hdst hroom hlen => ⟨?copy,
    exec_heapObjectMove_last q src dst da hu (object hl) htag hdst hroom hlen⟩, ?scan, fun hrel hloss hoff => ?sirocco⟩
  case copy =>
    rw [exec_heapObjectMove_copies q src dst da false hu (object hl) htag hdst hroom hlen, finishMove_eq]
    simp only [Bool.false_eq_true, false_and, if_false]
    rfl
  case scan =>
    rintro ⟨hrel, hloss⟩ hs hidle hsrc
    have hexec := exec_cardScan src q hu hrel hloss hs hidle hsrc
    refine ⟨fun hnew => ?_, fun hold hkeep => ?_, fun hold hnone hdone => ?_⟩
    · rw [if_pos (by simpa using hnew)] at hexec
      exact ⟨_, hexec, rfl, fun c y hy g hg => heapUntranslated_gone u c y hy g hg, rfl, rfl⟩
    · have hkept : ¬ (!markedInto src u && u.arr.heapDone.contains src) = true := by
        rcases hkeep with hf | hn
        · simp [show markedInto src u = true from hf]
        · simp [hn]
      rw [hexec, if_neg (by simpa using hold), if_neg hkept]
    · have hfreed : (!markedInto src u && u.arr.heapDone.contains src) = true := by
        simp [show markedInto src u = false from hnone, hdone]
      rw [if_neg (by simpa using hold), if_pos hfreed] at hexec
      exact ⟨_, hexec, sourceFreed_parts src { u with arr.cards := [] }⟩
  case sirocco =>
    obtain ⟨t, ht, htemp, hlvl, hlimit⟩ := exec_siroccoSample_parts temp hrel hloss hoff
    obtain ⟨h105, h100, heq, h95, hlow⟩ := siroccoNext_cases l temp
    rw [← hlvl] at h105 h100 heq h95 hlow
    exact ⟨t, ht, htemp, h105, h100, heq, h95, hlow, hlimit⟩

end Sys2Proof.Machine
end

section
/-! SUPPORT. The three slots of an instruction that act together: when one acts, and what each operation leaves. -/
namespace Sys2Proof.Machine
open Sys2Proof

variable {s t : State} {r r1 : Run} {p : Part} {d sid : Nat}

/-! ## Slot words (R159) -/

theorem slotWord_toNat {op : Nat} (w : SlotArgs) (h : op < 256) :
    (slotWord op w).toNat = op * 2 ^ 24 + w.a.toNat * 2 ^ 20 + w.b.toNat * 2 ^ 16 + w.imm.toNat := by
  have ha := w.a.isLt
  have hb := w.b.isLt
  have hi := w.imm.isLt
  rw [slotWord, BitVec.toNat_ofNat]
  omega

theorem slotWord_fields {op : Nat} (w : SlotArgs) (h : op < 256) : slotOp (slotWord op w) = op ∧ slotA (slotWord op w) = w.a.toNat
    ∧ slotB (slotWord op w) = w.b.toNat ∧ slotImm (slotWord op w) = w.imm.toNat := by
  have ha := w.a.isLt
  have hb := w.b.isLt
  have hi := w.imm.isLt
  simp only [slotOp, slotA, slotB, slotImm, bits, slotWord_toNat w h]
  omega

theorem slotOp_slotWord {op : Nat} (w : SlotArgs) (h : op < 256) : slotOp (slotWord op w) = op := (slotWord_fields w h).1

theorem slotA_slotWord {op : Nat} (w : SlotArgs) (h : op < 256) : slotA (slotWord op w) = w.a.toNat := (slotWord_fields w h).2.1

theorem slotB_slotWord {op : Nat} (w : SlotArgs) (h : op < 256) : slotB (slotWord op w) = w.b.toNat := (slotWord_fields w h).2.2.1

theorem slotImm_slotWord {op : Nat} (w : SlotArgs) (h : op < 256) : slotImm (slotWord op w) = w.imm.toNat := (slotWord_fields w h).2.2.2

/-! ## A slot acts (R156) -/

theorem runOf_setRun (s : State) (o : Option Run) (h : d < 8) : runOf (setRun s d o) d = o := vAt_vSet_same _ _ _ h

/-- A slot that is ready and has its effect leaves it, complete. -/
theorem slotStep_acts {w : BitVec 32} {f : State → Run → SlotOut} (h : slotReady p d w s r) (hf : f s r = some (t, r1))
    (hrun : (runOf t d).isSome = true) : slotStep p d w f s = setRun t d (some (markPart p r1)) := by
  obtain ⟨hr, ⟨i, hi, hw⟩, hdone, hmay⟩ := h
  simp only [slotStep, hr, hi, hw, hdone, hmay, hf, hrun]
  simp

/-- A slot that waits leaves everything as it is. -/
theorem slotStep_waits {w : BitVec 32} {f : State → Run → SlotOut} (h : slotReady p d w s r) (hf : f s r = none) :
    slotStep p d w f s = s := by
  obtain ⟨hr, ⟨i, hi, hw⟩, hdone, hmay⟩ := h
  simp only [slotStep, hr, hi, hw, hdone, hmay, hf]
  simp

/-- The row of a slot that is ready leaves its effect (R156). -/
theorem exec_slotActs {c : Instr} {w : BitVec 32} {f : State → Run → SlotOut} (hrow : exec c s = .next (slotStep p d w f s))
    (h : slotReady p d w s r) (hf : f s r = some (t, r1)) (hrun : runOf t d = some r) :
    exec c s = .next (setRun t d (some (markPart p r1))) := by
  rw [hrow, slotStep_acts h hf (by rw [hrun]; rfl)]

theorem exec_slotDone {c : Instr} {w : BitVec 32} {f : State → Run → SlotOut} (hrow : exec c s = .next (slotStep p d w f s))
    (h : slotReady p d w s r) (hf : f s r = some (s, r1)) : exec c s = .next (slotDone p d r1 s) := exec_slotActs hrow h hf h.1

theorem exec_slotWaits {c : Instr} {w : BitVec 32} {f : State → Run → SlotOut} (hrow : exec c s = .next (slotStep p d w f s))
    (h : slotReady p d w s r) (hf : f s r = none) : exec c s = .next s := by
  rw [hrow, slotStep_waits h hf]

/-! ## What each operation leaves (R160) -/

/-- A read gives at most what was asked for. -/
theorem cursorRead_length_le (s : State) (sid n seq off : Nat) (rs : List Rec) : (cursorRead s sid n seq off rs).1.length ≤ n := by
  induction rs generalizing n seq off with
  | nil => simp [cursorRead]
  | cons y rs ih =>
    simp only [cursorRead]
    split
    · exact ih n seq off
    · split
      · simp
      · generalize ho : (if y.seq = seq then off else 0) = o
        have htake : (((recRead s sid y).drop o).take n).length ≤ n := List.length_take_le _ _
        split
        · exact htake
        · rw [List.length_append]
          have := ih (n - (((recRead s sid y).drop o).take n).length) (y.seq + 1) 0
          omega

theorem doAseek_slot (w : SlotArgs) (n : Nat) (s : State) (r : Run) : doAseek (slotWord 1 w) n s r =
    let sid := (handleOf s r w.a.toNat).getD 0
    let snap := vAt r.pend.snaps w.a.toNat
    some (s, meter { r with
      cur.curSeq := vSet r.cur.curSeq w.a.toNat (seekPos (w.imm.toNat * 1024) (sourceRecs s sid snap) snap)
      cur.cur := vSet r.cur.cur w.a.toNat 0 } (1280 + 640 * n)) := by
  simp only [doAseek, arrCost, slotOp_slotWord, slotA_slotWord, slotImm_slotWord, Nat.reduceLT]

theorem doArdr_slot (w : SlotArgs) (n : Nat) (s : State) (r : Run) : doArdr (slotWord 2 w) n s r =
    let a := w.a.toNat
    let sid := (handleOf s r a).getD 0
    let t := cursorRead s sid 4096 (vAt r.base.curSeq a) (vAt r.base.cur a) (sourceRecs s sid (vAt r.pend.snaps a))
    some (s, meter (setX (updBuf { r with cur.curSeq := vSet r.cur.curSeq a t.2.1, cur.cur := vSet r.cur.cur a t.2.2 } w.b.toNat
      fun b => { b with bytes := t.1 }) w.imm.toNat t.1.length) (960 + 640 * n)) := by
  simp only [doArdr, arrCost, slotOp_slotWord, slotA_slotWord, slotB_slotWord, slotImm_slotWord, Nat.reduceLT]

theorem doSrec_slot {st : Stream} (w : SlotArgs) (h : streamOf s ((handleOf s r w.a.toNat).getD 0) = some st) : doSrec (slotWord 1 w) s r =
    let b := baseBuf r w.b.toNat
    let head := padTo 20 b.hdr
    let crc := crcBytes (head ++ b.bytes)
    let v := (Config.sha256 ((atStart r ((handleOf s r w.a.toNat).getD 0) st).2 ++ head ++ crc ++ b.bytes)).toList
    some (s, meter (updBuf r w.b.toNat fun y => { y with hdr := head ++ crc ++ v.take 8, hdl := w.a.toNat, chain := v })
      (20 * ((32 + b.bytes.length + 511) / 512))) := by
  simp only [doSrec, seaCost, slotOp_slotWord, slotA_slotWord, slotB_slotWord, Nat.reduceLT, h, ceilDiv]
  rfl

theorem doScrc_slot (w : SlotArgs) (s : State) (r : Run) : doScrc (slotWord 2 w) s r =
    let b := baseBuf r w.b.toNat
    some (s, meter { r with cur.x := vSet r.cur.x w.imm.toNat ((crc32c b.bytes).setWidth 48) } (5 * ((b.bytes.length + 511) / 512))) := by
  simp only [doScrc, seaCost, setX, slotOp_slotWord, slotB_slotWord, slotImm_slotWord, Nat.reduceLT, ceilDiv, BitVec.ofNat_toNat]
  rfl

/-- MHDR of a stream that no open train and no other execution holds (R160, R172). -/
theorem doMhdr_slot {st : Stream} (w : SlotArgs) (hsid : (handleOf s r w.a.toNat).getD 0 = sid) (h : streamOf s sid = some st)
    (htrain : trainHolding s sid = none) (hheld : st.heldBy = none ∨ st.heldBy = some d) : doMhdr d (slotWord 1 w) s r =
    some (updStream s sid fun x => { x with heldBy := some d }, meter (updBuf r w.b.toNat fun y => { y with
      hdr := leB 4 (sid + w.imm.toNat * 2 ^ 25) ++ leB 6 (atStart r sid st).1 ++ leB 2 (((baseBuf r w.b.toNat).bytes.length + 65535) % 65536)
        ++ leB 8 s.dtime
      hdl := w.a.toNat, chain := [] }) 20) := by
  have hfree : ¬((trainHolding s sid).isSome ∨ (st.heldBy.isSome ∧ st.heldBy ≠ some d)) := by
    rw [htrain]
    rcases hheld with h | h <;> simp [h]
  simp only [doMhdr, slotA_slotWord, slotB_slotWord, slotImm_slotWord, Nat.reduceLT, hsid, h, if_neg hfree]

/-- MHDR waits while another execution holds the stream (R172). -/
theorem doMhdr_held {st : Stream} {e : Nat} (w : SlotArgs) (h : streamOf s ((handleOf s r w.a.toNat).getD 0) = some st)
    (hheld : st.heldBy = some e) (he : e ≠ d) : doMhdr d (slotWord 1 w) s r = none := by
  simp only [doMhdr, slotA_slotWord, Nat.reduceLT, h]
  exact if_pos (.inr (by simp [hheld, he]))

theorem doMcpy_slot (w : SlotArgs) (s : State) (r : Run) : doMcpy (slotWord 2 w) s r =
    let b := baseBuf r w.a.toNat
    some (s, meter (updBuf r w.b.toNat fun y => { y with bytes := b.bytes }) (10 * ((b.bytes.length + 511) / 512))) := by
  simp only [doMcpy, movCost, slotOp_slotWord, slotA_slotWord, slotB_slotWord, Nat.reduceLT, ceilDiv]
  rfl

theorem doMtrg_slot {y : Rec} (w : SlotArgs) (h : recAt s r.pend.sid r.pend.seq = some y) : doMtrg (slotWord 3 w) s r =
    some (s, meter (updBuf r w.b.toNat fun b => { b with bytes := padTo 32 (recHead24 r.pend.sid y ++ y.chain.take 8) }) 10) := by
  simp only [doMtrg, slotB_slotWord, Nat.reduceLT, h]

theorem doMset_slot (w : SlotArgs) (s : State) (r : Run) : doMset (slotWord 4 w) s r =
    some (s, meter { r with cur.x := vSet r.cur.x w.a.toNat (w.imm.setWidth 48) } 1) := by
  simp only [doMset, setX, slotA_slotWord, slotImm_slotWord, Nat.reduceLT, BitVec.ofNat_toNat]

end Sys2Proof.Machine
end

section
/-! SUPPORT. A record that AAPP appends: staged, placed with its stream's records, and metered; and the statement on the slots. -/
namespace Sys2Proof.Machine
open Sys2Proof

variable {s t u : State} {r : Run} {d sid : Nat}

/-! ## Records placed -/

/-- What an append gives a stream, and nothing that places its records changes: the next number, and of each record number, payload and mode. -/
def contentOf (st : Stream) : Nat × List (Nat × List Byte × Bool) := (st.next, st.recs.map fun y => (y.seq, y.payload, y.array))

theorem contentOf_map (st v : Stream) (f : Rec → Rec) (hnext : v.next = st.next) (hrecs : v.recs = st.recs.map f)
    (hf : ∀ y, ((f y).seq, (f y).payload, (f y).array) = (y.seq, y.payload, y.array)) : contentOf v = contentOf st := by
  rw [contentOf, contentOf, hnext, hrecs, List.map_map]
  exact congrArg _ (List.map_congr_left fun y _ => hf y)

/-- The content of a stream is the same in two states, which differ in store, array, seal counter and engine alone. -/
structure ContentKept (sid : Nat) (s t : State) : Prop where
  content : ReadsSame contentOf sid s t
  only : OnlyIn [.store, .arr, .vtf, .eng] s t

theorem ContentKept.refl (sid : Nat) (s : State) : ContentKept sid s s := ⟨.refl _ _ _, OnlyIn.refl _ _⟩

/-- The steps in the order of the terms: the later one first. -/
theorem ContentKept.after (k : ContentKept sid t u) (h : ContentKept sid s t) : ContentKept sid s u :=
  ⟨k.content.after h.content, h.only.trans k.only (fun _ hr => hr) (fun _ hr => hr)⟩

theorem ContentKept.of_only {l : List Region} (h : OnlyIn l s t) (hs : Region.store ∉ l)
    (hl : ∀ r ∈ l, r ∈ [Region.store, .arr, .vtf, .eng]) : ContentKept sid s t := ⟨.of_only h hs, h.mono hl⟩

theorem ContentKept.foldl {α : Type} (f : State → α → State) (h : ∀ t a, ContentKept sid t (f t a)) (as : List α) (s : State) :
    ContentKept sid s (as.foldl f s) :=
  ⟨.foldl f (fun t a => (h t a).content) as s, OnlyIn.foldl f (fun t a => (h t a).only) as s⟩

theorem ContentKept.iter (f : State → State) (h : ∀ t, ContentKept sid t (f t)) (n : Nat) (s : State) : ContentKept sid s (iter f n s) := by
  induction n generalizing s with
  | zero => exact .refl sid s
  | succ n ih => exact .after (ih (f s)) (h s)

theorem updStream_contentKept (k : Nat) (f : Stream → Stream) (s : State) (hf : ∀ st, contentOf (f st) = contentOf st) :
    ContentKept sid s (updStream s k f) := ⟨updStream_readsSame k f s hf, (updStream_only s k f).mono (by decide)⟩

theorem updSeg_contentKept (g : Nat) (f : SegSt → SegSt) (s : State) : ContentKept sid s (updSeg s g f) :=
  .of_only (updSeg_only s g f) (by decide) (by decide)

theorem issueWrites_contentKept (g : Nat) (tail : Bool) (job : Option Nat) (cws : List Nat) (s : State) :
    ContentKept sid s (cws.foldl (fun t k => issueWrite g k tail job t) s) :=
  .foldl _ (fun t k => .of_only (issueWrite_only g k tail job t) (by decide) (by decide)) cws s

theorem arr_contentKept (a : ArraySt) (s : State) : ContentKept sid s { s with arr := a } :=
  .of_only (arr_only s a) (by decide) (by decide)

theorem sealSegment_contentKept (g cause : Nat) (job : Option Nat) (s : State) : ContentKept sid s (sealSegment g cause job s).2 := by
  unfold sealSegment
  split
  · exact .refl sid s
  · split
    · exact .refl sid s
    · extract_lets v base info s1 arr s2 s3 cws
      have h1 : ContentKept sid s s1 := .after (updSeg_contentKept _ _ _) (.of_only (issueSeal_only s) (by decide) (by decide))
      have h3 : ContentKept sid s2 s3 := by
        dsimp only [s3]
        split
        · exact updStream_contentKept _ _ _ fun _ => rfl
        · exact .refl sid s2
      exact .after (issueWrites_contentKept g false job cws s3) (h3.after ((arr_contentKept _ s1).after h1))

theorem placeIn_contentKept (g k : Nat) (y : Rec) (s : State) : ContentKept sid s (placeIn g k y s) := by
  unfold placeIn
  split
  case h_2 => exact .refl sid s
  extract_lets size off fill first last cws prev s1 s2 s3 s4
  have h2 : ContentKept sid s s2 := .after (updStream_contentKept _ _ _ fun _ => rfl) (updSeg_contentKept g _ s)
  have h3 : ContentKept sid s2 s3 :=
    updStream_contentKept _ _ _ fun st => contentOf_map st _ _ rfl rfl fun z => by split <;> rfl
  have h4 : ContentKept sid s s4 := .after (issueWrites_contentKept g false none _ s3) (h3.after h2)
  split
  · exact .after (.of_only (issueWrite_only g last true none s4) (by decide) (by decide)) h4
  · exact h4

theorem openSegOn_contentKept {k e g : Nat} {st : Stream} {w : Draw} (h : openSegOn s k st e w = some (g, t)) : ContentKept sid s t := by
  simp only [openSegOn] at h
  split at h
  · simp at h
  · obtain ⟨-, rfl⟩ := Prod.mk.inj (Option.some.inj h)
    split
    · exact arr_contentKept _ s
    · exact .after (updStream_contentKept _ _ _ fun _ => rfl) (arr_contentKept _ s)

theorem placeNext_contentKept (k : Nat) (y : Rec) (o : Option Nat) (e : Nat) (s : State) : ContentKept sid s (placeNext k y o e s) := by
  simp only [placeNext]
  split
  · exact placeIn_contentKept _ k y s
  · split
    · exact .refl sid s
    · next st _ =>
      have hseal : ContentKept sid s (match openSegOf s st with | some old => (sealSegment old 1 none s).2 | none => s) := by
        split
        · exact sealSegment_contentKept _ _ _ s
        · exact .refl sid s
      split
      · exact .refl sid s
      · next hopen => exact .after (placeIn_contentKept _ k y _) (.after (openSegOn_contentKept hopen) hseal)

theorem placeStream_contentKept (k : Nat) (s : State) : ContentKept sid s (placeStream k s) := by
  refine .iter _ (fun t => ?_) _ s
  split
  · exact .refl sid t
  · split
    · exact .refl sid t
    · exact placeNext_contentKept _ _ _ _ t

theorem makeSealed_contentKept (k : Nat) (s : State) : ContentKept sid s (makeSealed k s) := by
  have hsealed : ContentKept sid s (updStream s k fun st => { st with st := .sealed }) := updStream_contentKept _ _ _ fun _ => rfl
  have hlist (v : State) (l : List (Nat × Bool)) : ContentKept sid v { v with store.earlyList := l } :=
    ⟨.of_streamOf rfl, fun r hr => by cases r <;> simp_all [sameIn]⟩
  exact .after (.of_only (holdCtx_only k false _) (by decide) (by decide)) ((hlist _ _).after hsealed)

theorem sealIfLast_contentKept (k : Nat) (s : State) : ContentKept sid s (sealIfLast k s) := by
  simp only [sealIfLast]
  split
  · exact .refl sid s
  · split
    · exact .after (.of_only (newJob_only _ _ _ _ _) (by decide) (by decide)) (makeSealed_contentKept k s)
    · exact .refl sid s

/-! ## A record appended by AAPP (R160, R172) -/

/-- The record that AAPP makes of a buffer: its header's HOSTF and TS where it has a header (R160). -/
def aappRec (b : WBuf) (s : State) : Rec :=
  { Rec.reset with
    sidf := fieldAt b.hdr 3 1 / 2 % 8 * 0x20, ts := if b.hdr.isEmpty then s.dtime else fieldAt b.hdr 12 8
    payload := b.bytes, array := true, byRule := true }

/-- The record of a buffer staged in a stream, its hold credits given back at once (R172). -/
def aappStaged (sid : Nat) (b : WBuf) (s : State) : State :=
  let t := addRec sid (aappRec b s) s
  updRec { t with oas.outst := t.oas.outst - creditsFor b.bytes.length } sid (lastSeq s sid + 1) fun y => { y with credits := 0 }

theorem aappStaged_wadi (b : WBuf) (s : State) : (aappStaged sid b s).wadi = s.wadi :=
  (updStream_only _ _ _ .wadi (by decide)).trans (addRec_only sid _ s .wadi (by decide))

theorem aappStaged_outst {st : Stream} (b : WBuf) (h : streamOf s sid = some st) : (aappStaged sid b s).oas.outst = s.oas.outst := by
  refine (congrArg Oasis.outst (updStream_only _ _ _ .oas (by decide))).trans ?_
  show (addRec sid (aappRec b s) s).oas.outst - creditsFor b.bytes.length = _
  rw [addRec_outst _ h, creditsFor_eq]
  exact Nat.add_sub_cancel _ _

theorem aappStaged_content {st : Stream} (b : WBuf) (h : streamOf s sid = some st) :
    ∃ v, streamOf (aappStaged sid b s) sid = some v ∧ (contentOf v).1 = st.next + 1 ∧ (st.next, b.bytes, true) ∈ (contentOf v).2 := by
  obtain ⟨v, y, hv, hnext, hy, hseq, hpay, -, -, -, -, -, harr, -⟩ := addRec_staged (aappRec b s) h rfl rfl
  have hkept : ReadsSame contentOf sid (addRec sid (aappRec b s) s) (aappStaged sid b s) :=
    .after (updStream_readsSame _ _ _ fun st => contentOf_map st _ _ rfl rfl fun z => by split <;> rfl) (.of_streamOf rfl)
  obtain ⟨v', hv', hc⟩ := hkept.entry hv
  refine ⟨v', hv', hc ▸ hnext, hc ▸ List.mem_map.2 ⟨y, hy, ?_⟩⟩
  rw [hseq, hpay, harr]
  rfl

/-- What an execution has metered, and what it awaits, after it appended a record with a payload of `n` bytes to a stream (R160, R174). -/
structure AppendMetered (n sid : Nat) (r r1 : Run) : Prop where
  recs : r1.mRecs = r.mRecs + 1
  bytes : r1.mBytes = r.mBytes + 32 + n
  energy : r1.mEu = r.mEu + 45 * ((32 + n + 63) / 64)
  awaited : r1.aapps.length = r.aapps.length + 1
  stream : r1.ostream = some sid

/-- AAPP of a buffer that its stream takes: the record is staged and placed, and metered (R160, R172). -/
theorem doAapp_appends {w : BitVec 32} {b : WBuf} {st : Stream} (hop : slotOp w = 3) (hsid : (handleOf s r (slotA w)).getD 0 = sid)
    (hb : baseBuf r (slotB w) = b) (hst : streamOf s sid = some st) (hopen : st.st ≠ .sealed) (hbytes : b.bytes ≠ []) (hnext : st.next ≤ seqMax)
    (htrain : trainHolding s sid = none) (hheld : st.heldBy = none ∨ st.heldBy = some d)
    (hfits : spaceFor s sid st (storedSize b.bytes.length) = .fits) :
    ∃ r1, doAapp d w s r = some (sealIfLast sid (placeStream sid (aappStaged sid b s)), r1) ∧ AppendMetered b.bytes.length sid r r1 := by
  have hgo : ¬(st.st = .sealed ∨ b.bytes.length = 0 ∨ seqMax < st.next) := by
    rintro (h | h | h)
    · exact hopen h
    · exact hbytes (List.length_eq_zero_iff.1 h)
    · omega
  have hfree : ¬((trainHolding s sid).isSome ∨ (st.heldBy.isSome ∧ st.heldBy ≠ some d)) := by
    rw [htrain]
    rcases hheld with h | h <;> simp [h]
  simp only [doAapp, hsid, hb, hst, if_neg hgo, if_neg hfree, hfits]
  refine ⟨_, rfl, ⟨rfl, rfl, ?_, ?_, rfl⟩⟩
  · simp only [meter, arrCost, hop, ceilDiv]
    omega
  · simp [meter]

/-- AAPP of a buffer that its stream takes, on the sequencer that stands at it (R156, R160). -/
theorem slotStep_aapp {w : BitVec 32} {b : WBuf} {st : Stream} (h : slotReady .arr d w s r) (hd : d < 8) (hop : slotOp w = 3)
    (hsid : (handleOf s r (slotA w)).getD 0 = sid) (hb : baseBuf r (slotB w) = b) (hst : streamOf s sid = some st)
    (hopen : st.st ≠ .sealed) (hbytes : b.bytes ≠ []) (hnext : st.next ≤ seqMax) (htrain : trainHolding s sid = none)
    (hheld : st.heldBy = none ∨ st.heldBy = some d) (hfits : spaceFor s sid st (storedSize b.bytes.length) = .fits) :
    ∃ t r1 v, slotStep .arr d w (doAapp d w) s = t ∧ runOf t d = some r1 ∧ r1.doneA = true ∧ AppendMetered b.bytes.length sid r r1
      ∧ streamOf t sid = some v ∧ (contentOf v).1 = st.next + 1 ∧ (st.next, b.bytes, true) ∈ (contentOf v).2
      ∧ t.oas.outst = s.oas.outst := by
  obtain ⟨r1, heff, hmet⟩ := doAapp_appends hop hsid hb hst hopen hbytes hnext htrain hheld hfits
  have hplaced := (sealIfLast_contentKept (sid := sid) sid _).after (placeStream_contentKept (sid := sid) sid (aappStaged sid b s))
  have hrun : runOf (sealIfLast sid (placeStream sid (aappStaged sid b s))) d = some r :=
    (congrArg (fun x : Wadi => vAt x.seqs d) ((hplaced.only .wadi (by decide)).trans (aappStaged_wadi b s))).trans h.1
  obtain ⟨v, hv, hn, hmem⟩ := aappStaged_content b hst
  obtain ⟨v', hv', hc⟩ := hplaced.content.entry hv
  refine ⟨_, markPart .arr r1, v', slotStep_acts h heff (by rw [hrun]; rfl), runOf_setRun _ _ hd, rfl, ?_, hv', hc ▸ hn, hc ▸ hmem, ?_⟩
  · exact ⟨hmet.recs, hmet.bytes, hmet.energy, hmet.awaited, hmet.stream⟩
  · exact (congrArg Oasis.outst (hplaced.only .oas (by decide))).trans (aappStaged_outst b hst)

/-! ## The obligation -/

/-- Settles O35: a slot that is ready acts once, and each operation's effect is read off its operands; AAPP is staged and placed, which leaves
its content. -/
theorem ruleSlotOperations : Obligations.RuleSlotOperations := by
  intro s d w n r rdy out A B X src sid snap buf idx cost seek rd
  refine ⟨fun h => exec_slotDone rfl h rfl, fun h => exec_slotDone rfl h rfl, fun h => exec_slotDone rfl h rfl,
    fun h => exec_slotDone rfl h (doAseek_slot w n s r), fun h => ⟨exec_slotDone rfl h (doArdr_slot w n s r), cursorRead_length_le _ _ _ _ _ _⟩,
    fun h st hst hopen hbytes hnext htrain hheld hfits => ?aapp, fun h st hst => exec_slotDone rfl h (doSrec_slot w hst),
    fun h => exec_slotDone rfl h (doScrc_slot w s r), fun h st hst htrain hheld => ?mhdr, fun h st e hst hheld he => ?held,
    fun h => exec_slotDone rfl h (doMcpy_slot w s r), fun h y hy => exec_slotDone rfl h (doMtrg_slot w hy),
    fun h => exec_slotDone rfl h (doMset_slot w s r)⟩
  case aapp =>
    have hsid : (handleOf s r (slotA (slotWord 3 w))).getD 0 = sid := by rw [slotA_slotWord w (by decide)]
    have hbuf : baseBuf r (slotB (slotWord 3 w)) = src := by rw [slotB_slotWord w (by decide)]; rfl
    rw [← storedSize_eq] at hfits
    obtain ⟨t, r1, v, hstep, hrun, hdone, hmet, hv, hn, hmem, hout⟩ := slotStep_aapp h d.isLt (slotOp_slotWord w (by decide)) hsid hbuf hst
      hopen hbytes hnext htrain hheld hfits
    obtain ⟨y, hy, hrec⟩ := List.mem_map.1 hmem
    obtain ⟨hseq, hpay, harr⟩ : y.seq = st.next ∧ y.payload = src.bytes ∧ y.array = true := by simpa using hrec
    exact ⟨t, r1, v, y, congrArg Host.Outcome.next hstep, hrun, hdone, hmet.recs, hmet.bytes, hmet.energy, hmet.awaited, hmet.stream, hv, hn, hy, hseq, hpay,
      harr, hout⟩
  case mhdr =>
    have heff := doMhdr_slot (r := r) w rfl hst htrain hheld
    have hrun : runOf (updStream s sid fun x => { x with heldBy := some d.val }) d = some r :=
      (congrArg (fun x : Wadi => vAt x.seqs d) (updStream_only _ _ _ .wadi (by decide))).trans h.1
    refine ⟨_, _, exec_slotActs rfl h heff hrun, ?_, rfl, runOf_setRun _ _ d.isLt⟩
    exact (streamOf_updStream_same s sid _).trans (by rw [hst]; rfl)
  case held => exact exec_slotWaits rfl h (doMhdr_held w hst hheld he)

end Sys2Proof.Machine
end

section
/-! SUPPORT. The control slot: where a step goes, and what its end leaves. -/
namespace Sys2Proof.Machine
open Sys2Proof

variable {s : State} {r : Run} {b : Binding} {d cost : Nat} {w : BitVec 32}

/-! ## Where a step goes (R160) -/

theorem loopNext_inside {idx x y n : Nat} {l : List (Nat × Nat × Nat)} (h : idx ≠ y) :
    loopNext idx ((x, y, n) :: l) = (idx + 1, (x, y, n) :: l) := if_neg h

theorem loopNext_again {idx x y n : Nat} {l : List (Nat × Nat × Nat)} (h : idx = y) (hn : 1 < n) :
    loopNext idx ((x, y, n) :: l) = (x, (x, y, n - 1) :: l) := (if_pos h).trans (if_pos hn)

theorem loopNext_last {idx x y n : Nat} {l : List (Nat × Nat × Nat)} (h : idx = y) (hn : n ≤ 1) :
    loopNext idx ((x, y, n) :: l) = loopNext idx l := (if_pos h).trans (if_neg (Nat.not_lt.2 hn))

theorem ctlCost_slotWord {op : Nat} (w : SlotArgs) (h : op < 256) : ctlCost (slotWord op w) = if op = 0 then 0 else 1 := by
  rw [ctlCost, slotOp_slotWord w h]

theorem ctlNext_cnop (w : SlotArgs) (r : Run) : ctlNext (slotWord 0 w) r = some (loopNext r.idx r.loops) := by
  simp only [ctlNext, slotOp_slotWord, Nat.reduceLT]

theorem ctlNext_cwait (w : SlotArgs) (r : Run) : ctlNext (slotWord 4 w) r = some (loopNext r.idx r.loops) := by
  simp only [ctlNext, slotOp_slotWord, Nat.reduceLT]

theorem ctlNext_cloop (w : SlotArgs) (r : Run) :
    ctlNext (slotWord 2 w) r = some (r.idx + 1, (r.idx + 1, r.idx + w.a.toNat, w.imm.toNat) :: r.loops) := by
  simp only [ctlNext, slotOp_slotWord, slotA_slotWord, slotImm_slotWord, Nat.reduceLT]

theorem ctlNext_cbrz (w : SlotArgs) (r : Run) : ctlNext (slotWord 3 w) r = some (if vAt r.cur.x w.a.toNat = 0 then
      (w.imm.toNat, r.loops.filter fun q => decide (q.1 ≤ w.imm.toNat) && decide (w.imm.toNat ≤ q.2.1))
    else loopNext r.idx r.loops) := by
  simp only [ctlNext, slotOp_slotWord, slotA_slotWord, slotImm_slotWord, Nat.reduceLT, apply_ite some]

/-! ## The end of a step (R156, R174) -/

/-- An execution with the step of a control word counted. -/
def stepMetered (w : BitVec 32) (r : Run) : Run := { meter r (ctlCost w) with mSteps := r.mSteps + 1 }

/-- The state with the sequencer's next turn given to its die's drain (R171). -/
def drainTurn (d : Nat) (s : State) : State := { s with wadi.drainNext := vSet s.wadi.drainNext d true }

theorem overMeter_within {v : Bundle} {x : Run} (hsteps : x.mSteps ≤ v.steps) (heu : x.mEu ≤ v.eu * 1000) (hbytes : x.mBytes ≤ v.arrayBytes)
    (hrecs : x.mRecs ≤ v.maxRec) : overMeter v x = none := by
  rw [overMeter, if_neg (Nat.not_lt.2 hsteps), if_neg (Nat.not_lt.2 heu), if_neg (Nat.not_lt.2 hbytes), if_neg (Nat.not_lt.2 hrecs)]

theorem overMeter_passed {v : Bundle} {x : Run} (h : v.eu * 1000 < x.mEu ∨ v.steps < x.mSteps) : ∃ m, overMeter v x = some m := by
  simp only [overMeter]
  split
  · exact ⟨_, rfl⟩
  · next hsteps => exact ⟨_, if_pos (h.resolve_right hsteps)⟩

/-- Whether a control word waits for the records that its execution appends: CEND and CWAIT (R160). -/
abbrev AwaitsAapps (w : BitVec 32) : Prop := slotOp w = 1 ∨ slotOp w = 4

/-- A sequencer stands at a control word whose step may end: the other slots have completed. -/
structure CtlDue (d : Nat) (w : BitVec 32) (s : State) (r : Run) (b : Binding) : Prop where
  run : runOf s d = some r
  binding : look r.pend.binding s.wadi.bindings = some b
  word : ∃ i, insnAt s r = some i ∧ i.ctl = w
  slots : (r.doneA && r.doneS && r.doneM) = true
  may : seqMay s d = true

theorem ctlDue_of_ready (h : ctlReady d w s r b cost) : CtlDue d w s r b := by
  obtain ⟨hrun, hb, hword, ha, hs, hm, hmay, -⟩ := h
  exact ⟨hrun, hb, hword, by simp [ha, hs, hm], hmay⟩

theorem ctlStep_waits (h : CtlDue d w s r b) (hop : AwaitsAapps w) (hnot : aappsDone s r = false) : ctlStep d w s = s := by
  obtain ⟨hrun, hb, ⟨i, hi, rfl⟩, hslots, hmay⟩ := h
  have hwaits : (decide (slotOp i.ctl = 1) || decide (slotOp i.ctl = 4)) = true := by simpa using hop
  simp only [ctlStep, hrun, hi, hb, hwaits, hnot, Bool.not_false, Bool.and_self, or_true, if_true]

/-- A step that is due and waits for nothing is metered: a breach, the end of the execution, or the next instruction (R156, R160, R174). -/
theorem ctlStep_due (h : CtlDue d w s r b) (haapps : AwaitsAapps w → aappsDone s r = true) : ctlStep d w s =
    match overMeter (bundleOf s b.bundle) (stepMetered w r) with
    | some m => breachRun d (stepMetered w r) b m (drainTurn d s)
    | none =>
      match ctlNext w (stepMetered w r) with
      | none => endRun d (noteRan (contractPayload s (stepMetered w r) 5 (b2n (inLoss s)) 0 0 (stepMetered w r).mEu b) r.pend.train (drainTurn d s))
      | some (k, l) => stepDone d r (ctlCost w) k l s := by
  obtain ⟨hrun, hb, ⟨i, hi, rfl⟩, hslots, hmay⟩ := h
  have hgo : ((decide (slotOp i.ctl = 1) || decide (slotOp i.ctl = 4)) && !aappsDone s r) = false := by
    simp only [Bool.and_eq_false_iff, Bool.or_eq_false_iff, decide_eq_false_iff_not, Bool.not_eq_false']
    by_cases hop : AwaitsAapps i.ctl
    · exact .inr (haapps hop)
    · exact .inl (not_or.1 hop)
  simp only [ctlStep, hrun, hi, hb, hslots, hmay, hgo, ne_eq, not_true_eq_false, Bool.not_true, Bool.false_eq_true, or_self, if_false]
  rfl

theorem overMeter_of_ready (h : ctlReady d w s r b (ctlCost w)) : overMeter (bundleOf s b.bundle) (stepMetered w r) = none := by
  obtain ⟨-, -, -, -, -, -, -, hsteps, heu, hbytes, hrecs⟩ := h
  exact overMeter_within hsteps heu hbytes hrecs

/-- A step within every declared quantity goes on where its control word says. -/
theorem ctlStep_goes {k : Nat} {l : List (Nat × Nat × Nat)} (h : ctlReady d w s r b (ctlCost w)) (haapps : AwaitsAapps w → aappsDone s r = true)
    (hnext : ctlNext w r = some (k, l)) : ctlStep d w s = stepDone d r (ctlCost w) k l s := by
  have hnext' : ctlNext w (stepMetered w r) = some (k, l) := hnext
  rw [ctlStep_due (ctlDue_of_ready h) haapps, overMeter_of_ready h, hnext']

/-- CEND within every declared quantity ends the execution (R160). -/
theorem ctlStep_ends (h : ctlReady d w s r b (ctlCost w)) (hop : slotOp w = 1) (haapps : aappsDone s r = true) :
    ∃ pay, ctlStep d w s = endRun d (noteRan pay r.pend.train (drainTurn d s)) := by
  have hnext : ctlNext w (stepMetered w r) = none := by simp only [ctlNext, hop]
  rw [ctlStep_due (ctlDue_of_ready h) fun _ => haapps, overMeter_of_ready h, hnext]
  exact ⟨_, rfl⟩

/-- A step that passes the declared steps or energy breaches its contract (R174). -/
theorem ctlStep_breaches (h : CtlDue d w s r b) (haapps : AwaitsAapps w → aappsDone s r = true)
    (hover : (bundleOf s b.bundle).eu * 1000 < r.mEu ∨ (bundleOf s b.bundle).steps ≤ r.mSteps) :
    ∃ m, ctlStep d w s = breachRun d (stepMetered w r) b m (drainTurn d s) := by
  obtain ⟨m, hm⟩ := overMeter_passed (v := bundleOf s b.bundle) (x := stepMetered w r)
    (hover.imp (fun h => Nat.lt_of_lt_of_le h (Nat.le_add_right _ _)) Nat.lt_succ_of_le)
  exact ⟨m, by rw [ctlStep_due h haapps, hm]⟩

end Sys2Proof.Machine
end

section
/-! SUPPORT. How an execution ends, breaches its contract and starts; and the statement on the control of executions. -/
namespace Sys2Proof.Machine
open Sys2Proof

variable {s t u : State} {r : Run} {b : Binding} {d cost : Nat}

/-! ## What goes on behind the end of an execution (R170, R172, R174) -/

/-- What completed unloads keep: every sequencer's execution and each stream's holder; no latch is cleared, and no rule is added. -/
structure RulesKept (s t : State) : Prop where
  seqs : t.wadi.seqs = s.wadi.seqs
  bindings : t.wadi.bindings ⊆ s.wadi.bindings
  bundles : t.wadi.bundles ⊆ s.wadi.bundles
  holders : ∀ e ∈ t.store.streams, ∃ y ∈ s.store.streams, e.2.heldBy = y.2.heldBy
  latch : ∀ i, s.flt.latch.getLsbD i = true → t.flt.latch.getLsbD i = true

theorem RulesKept.refl (s : State) : RulesKept s s := ⟨rfl, fun _ h => h, fun _ h => h, fun e h => ⟨e, h, rfl⟩, fun _ h => h⟩

/-- The steps in the order of the terms: the later one first. -/
theorem RulesKept.after (k : RulesKept t u) (h : RulesKept s t) : RulesKept s u where
  seqs := k.seqs.trans h.seqs
  bindings := fun _ hm => h.bindings (k.bindings hm)
  bundles := fun _ hm => h.bundles (k.bundles hm)
  holders := fun e he => by
    obtain ⟨y, hy, hey⟩ := k.holders e he
    obtain ⟨z, hz, hyz⟩ := h.holders y hy
    exact ⟨z, hz, hey.trans hyz⟩
  latch := fun i hi => k.latch i (h.latch i hi)

theorem RulesKept.foldl {α : Type} (f : State → α → State) (h : ∀ t a, RulesKept t (f t a)) (as : List α) (s : State) :
    RulesKept s (as.foldl f s) := by
  induction as generalizing s with
  | nil => exact .refl s
  | cons a as ih => exact .after (ih (f s a)) (h s a)

/-- An operation that touches neither rules nor streams, and clears no latch. -/
theorem RulesKept.of_only {l : List Region} (h : OnlyIn l s t) (hw : Region.wadi ∉ l) (hs : Region.store ∉ l)
    (hl : ∀ i, s.flt.latch.getLsbD i = true → t.flt.latch.getLsbD i = true) : RulesKept s t := by
  have hwadi : t.wadi = s.wadi := h .wadi hw
  have hstore : t.store = s.store := h .store hs
  exact ⟨by rw [hwadi], by rw [hwadi]; exact fun _ h => h, by rw [hwadi]; exact fun _ h => h, by rw [hstore]; exact fun e h => ⟨e, h, rfl⟩, hl⟩

theorem recomputeW_rulesKept (s : State) : RulesKept s (recomputeW s) := by
  have hreported : Runs (fun _ => False) False s (windowReported s) := by
    simp only [windowReported]
    split
    · exact .after (windowMsg_runs _) (.of_only (oas_only s _) (by decide) (by decide) (by decide))
    · exact .of_only (oas_only s _) (by decide) (by decide) (by decide)
  have hruns : Runs (fun _ => False) False s (recomputeW s) := recomputeW_eq s ▸ .after (checkOver_runs _) hreported
  exact .of_only (recomputeW_only s) (by decide) (by decide) hruns.wear.latch

theorem mem_of_look {α : Type} {k : Nat} {a : α} {m : List (Nat × α)} (h : look k m = some a) : (k, a) ∈ m := by
  induction m with
  | nil => simp [look] at h
  | cons e m ih =>
    obtain ⟨j, x⟩ := e
    simp only [look] at h
    split at h
    · next hj => simp [hj, Option.some.inj h]
    · exact List.mem_cons_of_mem _ (ih h)

/-- A change of a stream's entry that keeps its holder. -/
theorem updStream_holders (sid : Nat) (f : Stream → Stream) (s : State) (hf : ∀ st, (f st).heldBy = st.heldBy) :
    ∀ e ∈ (updStream s sid f).store.streams, ∃ y ∈ s.store.streams, e.2.heldBy = y.2.heldBy := by
  simp only [updStream]
  split
  · exact fun e he => ⟨e, he, rfl⟩
  · next st hst =>
    intro e he
    rcases mem_put _ _ _ _ he with rfl | he
    · exact ⟨(sid, st), mem_of_look hst, hf st⟩
    · exact ⟨e, he, rfl⟩

theorem ackRec_rulesKept (sid seq : Nat) (s : State) : RulesKept s (ackRec sid seq s) := by
  simp only [ackRec]
  split
  · exact .refl s
  · split
    · exact .refl s
    · have hwadi : (updRec s sid seq fun x => { x with acked := true }).wadi = s.wadi := updStream_only _ _ _ .wadi (by decide)
      have hflt : (updRec s sid seq fun x => { x with acked := true }).flt = s.flt := updStream_only _ _ _ .flt (by decide)
      exact ⟨congrArg _ hwadi, hwadi ▸ fun _ h => h, hwadi ▸ fun _ h => h, updStream_holders sid _ s fun _ => rfl, hflt ▸ fun _ h => h⟩

theorem finishJob_rulesKept (j : Nat) (s : State) : RulesKept s (finishJob j s) := by
  simp only [finishJob]
  split
  · exact .refl s
  · next x _ =>
    have hack : RulesKept s (if x.kind = .append then ackJob j s else s) := by
      split
      · exact .foldl _ (fun t (e : Nat × Nat) => ackRec_rulesKept e.1 e.2 t) _ s
      · exact .refl s
    have hreplies : ∀ v : State, RulesKept v (x.replies.foldl (fun t r => formReply r t) v) := .foldl _ (fun t r =>
      .of_only (formReply_only r t) (by decide) (by decide) (formReply_runs (F := fun _ => False) (W := False) r t).wear.latch) _
    exact .after (hreplies _) ⟨hack.seqs, hack.bindings, hack.bundles, hack.holders, hack.latch⟩

theorem unloadNow_rulesKept (j : Job) (num : Nat) (bundle shrink : Bool) (s : State) : RulesKept s (unloadNow j num bundle shrink s) := by
  unfold unloadNow
  extract_lets set wadi s1 oas s2
  have h1 : RulesKept s s1 := by
    refine ⟨rfl, List.filter_subset_self _, fun e he => ?_, fun e he => ⟨e, he, rfl⟩, fun _ h => h⟩
    have he' : e ∈ if bundle then del num s.wadi.bundles else s.wadi.bundles := he
    split at he'
    · exact mem_del _ _ _ he'
    · exact he'
  have h2 : RulesKept s1 s2 := by
    dsimp only [s2]
    split
    · exact .after (recomputeW_rulesKept _) (.of_only (oas_only s1 _) (by decide) (by decide) fun _ h => h)
    · exact .refl s1
  exact .after (finishJob_rulesKept j.id s2) (h2.after h1)

theorem settleUnloads_rulesKept (s : State) : RulesKept s (settleUnloads s) := by
  refine .foldl _ (fun t j => ?_) _ s
  split
  · split
    · exact unloadNow_rulesKept _ _ _ _ t
    · exact .refl t
  · exact .refl t

/-! ## The end of an execution (R172, R174) -/

/-- What ends executions leaves: the sequencers that were free are free, no rule is added, and no latch is cleared. -/
structure RunsEnded (s t : State) : Prop where
  idle : ∀ e, runOf s e = none → runOf t e = none
  bindings : t.wadi.bindings ⊆ s.wadi.bindings
  bundles : t.wadi.bundles ⊆ s.wadi.bundles
  latch : ∀ i, s.flt.latch.getLsbD i = true → t.flt.latch.getLsbD i = true

theorem RunsEnded.refl (s : State) : RunsEnded s s := ⟨fun _ h => h, fun _ h => h, fun _ h => h, fun _ h => h⟩

/-- The steps in the order of the terms: the later one first. -/
theorem RunsEnded.after (k : RunsEnded t u) (h : RunsEnded s t) : RunsEnded s u :=
  ⟨fun e he => k.idle e (h.idle e he), fun _ hm => h.bindings (k.bindings hm), fun _ hm => h.bundles (k.bundles hm),
    fun i hi => k.latch i (h.latch i hi)⟩

theorem RulesKept.ended (h : RulesKept s t) : RunsEnded s t :=
  ⟨fun e he => (congrArg (vAt · e) h.seqs).trans he, h.bindings, h.bundles, h.latch⟩

/-- An execution ended, before what waited for it goes on: its sequencer free and the streams it held let go (R172). -/
def runFreed (d : Nat) (s : State) : State :=
  let t := setRun s d none
  { t with store.streams := t.store.streams.map fun e => if e.2.heldBy = some d then (e.1, { e.2 with heldBy := none }) else e }

theorem endRun_eq (d : Nat) (s : State) : endRun d s = settleUnloads (runFreed d s) := rfl

theorem endRun_free (hd : d < 8) (s : State) : runOf (endRun d s) d = none := by
  rw [endRun_eq]
  exact (congrArg (vAt · d) (settleUnloads_rulesKept _).seqs).trans (vAt_vSet_same _ _ _ hd)

theorem endRun_holds_nothing (d : Nat) (s : State) : ∀ e ∈ (endRun d s).store.streams, e.2.heldBy ≠ some d := by
  intro e he
  obtain ⟨y, hy, hey⟩ := (settleUnloads_rulesKept (runFreed d s)).holders e he
  obtain ⟨z, -, rfl⟩ := List.mem_map.1 hy
  rw [hey]
  split
  · simp
  · assumption

theorem endRun_ended (hd : d < 8) (s : State) : RunsEnded s (endRun d s) := by
  have hfreed : RunsEnded s (runFreed d s) := by
    refine ⟨fun e he => ?_, fun _ h => h, fun _ h => h, fun _ h => h⟩
    by_cases hde : d = e
    · subst hde; exact vAt_vSet_same _ _ _ hd
    · exact (vAt_vSet_other _ _ _ _ hde).trans he
  exact (settleUnloads_rulesKept _).ended.after hfreed

theorem endRuns_ended (l : List Nat) (hl : ∀ e ∈ l, e < 8) (s : State) : RunsEnded s (l.foldl (fun t e => endRun e t) s) := by
  induction l generalizing s with
  | nil => exact .refl s
  | cons e l ih =>
    exact .after (ih (fun x hx => hl x (List.mem_cons_of_mem _ hx)) _) (endRun_ended (hl e List.mem_cons_self) s)

theorem ownRec_only (pay : List Byte) (s : State) : OnlyIn [.store, .oas] s (ownRec pay s) := by
  simp only [ownRec]
  split
  · intro r hr; cases r <;> simp_all [sameIn]
  · exact writeDev_only pay none s

/-- A breach of contract ends the execution, unbinds the bundle and marks it, and latches WADI_BREACH where that is not masked (R174). -/
theorem breachRun_breaches (hd : d < 8) (x : Run) (b : Binding) (m : Nat × Nat × Nat) (s : State) (hm : s.flt.masked.getLsbD 15 = false)
    (hon : collectorOn s = true) : ∃ t, breachRun d x b m s = t ∧ runOf t d = none ∧ t.flt.latch.getLsbD 15 = true
      ∧ (∀ e ∈ t.wadi.bindings, e.2.bundle ≠ b.bundle) ∧ ∀ z, look b.bundle t.wadi.bundles = some z → z.breached = true := by
  refine ⟨_, rfl, ?_⟩
  unfold breachRun
  extract_lets set others discard pay s1 w2 s2 s3 w4 s4
  have hlatched : s2.flt.latch.getLsbD 15 = true := raiseFault_latches 15 _ s (by decide) hm hon
  have hraised : s1.wadi = s.wadi := raiseFault_only 15 _ s .wadi (by decide)
  have hbindings : s2.wadi.bindings = s.wadi.bindings := by
    show s1.wadi.bindings = _
    rw [hraised]
  have hothers : ∀ e ∈ others, e < 8 := fun e he => List.mem_range.1 (List.mem_of_mem_filter he)
  have hended : RunsEnded (endRun d s2) s3 := endRuns_ended others hothers _
  have h3 : RunsEnded s2 s3 := hended.after (endRun_ended hd s2)
  have hkept := settleUnloads_rulesKept s4
  have hown := ownRec_only pay (settleUnloads s4)
  have hwadi : (ownRec pay (settleUnloads s4)).wadi = (settleUnloads s4).wadi := hown .wadi (by decide)
  have hflt : (ownRec pay (settleUnloads s4)).flt = (settleUnloads s4).flt := hown .flt (by decide)
  rw [runOf, hwadi, hflt]
  refine ⟨(congrArg (vAt · d) hkept.seqs).trans (hended.idle d (endRun_free hd s2)), hkept.latch 15 (h3.latch 15 hlatched),
    fun e he hbundle => ?_, fun z hz => ?_⟩
  · obtain ⟨hmem, hset⟩ := List.mem_filter.1 (hkept.bindings he)
    have hin : e ∈ s.wadi.bindings := hbindings ▸ h3.bindings hmem
    have hunloaded : e.1 ∈ set := List.mem_map.2 ⟨e, List.mem_filter.2 ⟨hin, by simpa using hbundle⟩, rfl⟩
    simp [hunloaded] at hset
  · obtain ⟨y, -, hy⟩ := List.mem_map.1 (hkept.bundles (mem_of_look hz))
    split at hy
    · exact congrArg (Bundle.breached ∘ Prod.snd) hy.symm
    · next hne => exact absurd (congrArg Prod.fst hy) hne

/-! ## Executions start (R158, R171) -/

theorem wadi_only (s : State) (v : Wadi) : OnlyIn [.wadi] s { s with wadi := v } := by
  intro r hr; cases r <;> simp_all [sameIn]

theorem exec_ruleExecutionStart_due {e : Fin 8} {p : Pend} (hidle : runOf s e = none) (hpend : nextPend (markIssued s) e = some p)
    (hmay : seqMay (markIssued s) e = true) : exec (.ruleExecutionStart e) s =
      .next (setRun { markIssued s with wadi.pend := (markIssued s).wadi.pend.filter (· ≠ p) } e (some { Run.reset with pend := p })) := by
  show execRuleExecutionStart e s = _
  simp only [execRuleExecutionStart, hidle, hpend, hmay, if_true]

theorem wctxReset_empty : (∀ k, (vAt WCtx.reset.buf k).bytes = []) ∧ ∀ k, vAt WCtx.reset.x k = 0 :=
  ⟨fun k => congrArg WBuf.bytes (vAt_replicate_default 8 k), fun k => vAt_replicate_default 8 k⟩

/-! ## The obligation -/

/-- The row of a control slot that is due and waits for nothing ends the step (R156). -/
theorem exec_stepDone {c : Instr} {op k : Nat} {a : SlotArgs} {l : List (Nat × Nat × Nat)} (hrow : exec c s = .next (ctlStep d (slotWord op a) s))
    (hop : op < 256) (hcost : cost = if op = 0 then 0 else 1) (h : ctlReady d (slotWord op a) s r b cost)
    (haapps : op = 1 ∨ op = 4 → aappsDone s r = true) (hnext : ctlNext (slotWord op a) r = some (k, l)) :
    exec c s = .next (stepDone d r cost k l s) := by
  obtain rfl : cost = ctlCost (slotWord op a) := hcost.trans (ctlCost_slotWord a hop).symm
  rw [hrow, ctlStep_goes h (fun ha => haapps (slotOp_slotWord a hop ▸ ha)) hnext]

/-- Settles O36: a step that is due is metered and goes where its control word says; its end and a breach let go what the execution held. -/
theorem ruleControlOperations : Obligations.RuleControlOperations := by
  intro s d w r b l x y n p A go out plain
  have plain_of {c : Instr} {cost : Nat} (h : out c cost (loopNext r.idx r.loops).1 (loopNext r.idx r.loops).2) : plain c cost := by
    refine ⟨fun hl => ?_, fun hl hne => ?_, fun hl he hn => ?_, fun hl he hn => ?_⟩ <;> rw [hl] at h
    · exact h
    · rw [loopNext_inside hne] at h
      rwa [hl]
    · rwa [loopNext_again he hn] at h
    · rwa [loopNext_last he hn] at h
  refine ⟨fun h => plain_of (exec_stepDone rfl (by decide) rfl h (by simp) (ctlNext_cnop w r)),
    fun h => ⟨fun ha => plain_of (exec_stepDone rfl (by decide) rfl h (fun _ => ha) (ctlNext_cwait w r)), fun ha => ?cwait⟩,
    fun h => exec_stepDone rfl (by decide) rfl h (by simp) (ctlNext_cloop w r),
    fun h hx => plain_of (exec_stepDone rfl (by decide) rfl h (by simp) ((ctlNext_cbrz w r).trans (congrArg some (if_neg hx)))),
    fun h hx => exec_stepDone rfl (by decide) rfl h (by simp) ((ctlNext_cbrz w r).trans (congrArg some (if_pos hx))),
    fun h ha => ?cendWaits, fun h ha => ?cendEnds, fun hrun hb hword hdA hdS hdM hmay hoff hmask hover => ?breach,
    fun hidle hpend hmay => ?start⟩
  case cwait =>
    exact congrArg Host.Outcome.next (ctlStep_waits (ctlDue_of_ready h) (.inr (slotOp_slotWord w (by decide))) ha)
  case cendWaits =>
    exact congrArg Host.Outcome.next (ctlStep_waits (ctlDue_of_ready h) (.inl (slotOp_slotWord w (by decide))) ha)
  case cendEnds =>
    have h' : ctlReady d.val (slotWord 1 w) s r b (ctlCost (slotWord 1 w)) := (ctlCost_slotWord (op := 1) w (by decide)).symm ▸ h
    obtain ⟨pay, hend⟩ := ctlStep_ends h' (slotOp_slotWord w (by decide)) ha
    exact ⟨_, congrArg Host.Outcome.next hend, endRun_free d.isLt _, endRun_holds_nothing _ _⟩
  case breach =>
    have hdue : CtlDue d.val (slotWord 0 w) s r b := ⟨hrun, hb, hword, by simp [hdA, hdS, hdM], hmay⟩
    obtain ⟨m, hbr⟩ := ctlStep_breaches hdue (by simp [AwaitsAapps, slotOp_slotWord]) hover
    have hrel : s.pwr.released = true := by
      simp only [seqMay, Bool.and_eq_true] at hmay
      exact hmay.1
    have hon : collectorOn (drainTurn d.val s) = true := by simp [collectorOn, drainTurn, hrel, hoff]
    obtain ⟨t, ht, hleft⟩ := breachRun_breaches d.isLt (stepMetered (slotWord 0 w) r) b m (drainTurn d.val s) hmask hon
    exact ⟨t, congrArg Host.Outcome.next (hbr.trans ht), hleft⟩
  case start =>
    refine ⟨_, _, exec_ruleExecutionStart_due hidle hpend hmay, runOf_setRun _ _ d.isLt, rfl, rfl, rfl, wctxReset_empty.1, wctxReset_empty.2,
      fun hmem => ?_, ?_⟩
    · simpa using List.of_mem_filter hmem
    · exact (markIssued_only s).trans (wadi_only _ _) (fun _ h => h) (fun _ h => h)

end Sys2Proof.Machine
end

section
/-! SUPPORT. A bundle whose NHANDLE exceeds the four handles of RULE_BIND, in a state where stream 0 is sealed; and the refutation of the
statement on rules and loads. -/
namespace Sys2Proof.Machine
open Sys2Proof

/-! ## RULE_BIND of a bundle with a fifth handle (R165, R166, R278) -/

/-- HKIND's bit of a fifth handle stands for stream 0: a bundle that has it is refused where stream 0 is sealed (R278). -/
theorem cmdRuleBind_fifthHandle {c : Ctx} {s : State} {b : Bundle} {st : Stream} (hb : look (pf c 0 1) s.wadi.bundles = some b)
    (hmore : 3 < b.nhandle) (hkind : b.hkind.testBit 3 = true) (hst : streamOf s 0 = some st) (hseal : st.st = .sealed)
    (hlive : ∀ h ∈ bindHandles c, (liveStream s h).isSome = true) : cmdRuleBind c s = answer c .badParam 0 [] s := by
  have hused : ((bindHandles c).take (b.nhandle + 1)).any (fun h => (liveStream s h).isNone) = false :=
    List.any_eq_false.2 fun h hh => by simpa using Option.isSome_iff_ne_none.1 (hlive h (List.mem_of_mem_take hh))
  have hfifth : (List.range b.nhandle).any (fun k => b.hkind.testBit k &&
      (match streamOf s (((bindHandles c)[k + 1]?).getD 0) with | some st => decide (st.st = .sealed) | none => false)) = true :=
    List.any_eq_true.2 ⟨3, List.mem_range.2 hmore, by
      have hzero : ((bindHandles c)[3 + 1]?).getD 0 = 0 := rfl
      rw [hkind, hzero, hst]
      simp [hseal]⟩
  simp only [cmdRuleBind, hb, hused, Bool.false_eq_true, if_false]
  split
  · rfl
  · exact if_pos (.inr (.inr hfifth))

theorem ruleBind_carriedOut : CarriedOutBy 0x0041 fun c _ => cmdRuleBind c :=
  fun _ _ _ _ h => by simp only [isBarrier, dispatch, h]; exact ⟨rfl, rfl⟩

/-! ## What an answer leaves of the rules -/

/-- The rules of a command that was alone in its queue stay as they are when it is answered. -/
theorem replied_wadi {opc : BitVec 16} {x : CmdIn} {c : Ctx} {t : State} {p : QPkt} (sts : Status) (res : Nat) (data : List Byte)
    (hq : x.qid.toNat < 64) (h : queueOf t x.qid.toNat = [p]) : (replied opc x c sts res data t).wadi = t.wadi := by
  have hqueue : queueOf (formReply (ctxReply c sts res data) t) x.qid.toNat = [p] := (queueOf_formReply _ _ _).trans h
  exact (leftQueue_alone_only hq hqueue .wadi (by decide)).trans (formReply_only _ t .wadi (by decide))

/-! ## The state and the packet -/

/-- A bundle with four handles beside H0, the fourth of them an output. -/
def fourOutputs : Bundle := { Bundle.reset with nhandle := 4, hkind := 8 }

/-- An owner's session with keys of zeros. -/
def ownerSession : Session := { Session.reset with ses := 1, role := .owner, keys := zeros 72 }

/-- A mounted device with that bundle and session, stream 0 sealed and streams 1 to 4 closed. -/
def sealedZero : State :=
  { State.reset with
    pwr := { Pwr.reset with released := true, phase := .service }
    store := { StoreSt.reset with
      mounted := true
      streams := [(0, { Stream.reset with st := .sealed }), (1, Stream.reset), (2, Stream.reset), (3, Stream.reset), (4, Stream.reset)] }
    wadi := { Wadi.reset with bundles := [(1, fourOutputs)] }
    vtf := { Trust.reset with life := .owned, sessions := [ownerSession] } }

/-- RULE_BIND's parameters: bundle 1, DEPTH 1, H0 to H3 streams 1 to 4. -/
def bindParams : List Byte := [1, 0, 1, 0] ++ leB 4 1 ++ leB 4 2 ++ leB 4 3 ++ leB 4 4 ++ zeros 4

/-- The header of its packet, SEQ 1 of the session. -/
def bindHead : CmdIn := { chan := .host, flg := 1, qid := 0, tag := 0, ses := 1, plen := 24, seq := 1, body := [] }

/-- The parameters enciphered under the session. -/
def bindCipher : List Byte := gcmXor (bytesAt ownerSession.keys 0 32) (gcmNonce (bytesAt ownerSession.keys 64 4) 1) bindParams

/-- The packet, with its tag. -/
def bindCmd : CmdIn :=
  { bindHead with body := bindCipher ++ (Config.gcmTag (bytesAt ownerSession.keys 0 32) (gcmNonce (bytesAt ownerSession.keys 64 4) 1)
      (packetHeader (hostPkt 0x0041 bindHead).pkt) bindCipher).toList }

/-- The command that it spells. -/
def bindCtx : Ctx := { pkt := (hostPkt 0x0041 bindCmd).pkt, plain := bindParams, keys := ownerSession.keys, role := some .owner, owner := [] }

/-- The state that its checks leave: the packet in its queue, its SEQ taken. -/
def bindChecked : State := { joined 0x0041 bindCmd sealedZero with vtf.sessions := [seqTaken ownerSession 1] }

/-- The state that the command acts on. -/
def bindAt : State := setHead 0 { passedPkt 0x0041 bindCmd bindCtx with owner := [] } bindChecked

theorem bindCipher_length : bindCipher.length = 24 := (gcmXor_length _ _ _).trans rfl

theorem bindCipher_plain : gcmXor (bytesAt ownerSession.keys 0 32) (gcmNonce (bytesAt ownerSession.keys 64 4) 1) bindCipher = bindParams :=
  gcmXor_gcmXor _ _ _

theorem bindCmd_checked : checkPacket (hostPkt 0x0041 bindCmd).pkt false (joined 0x0041 bindCmd sealedZero) = .passed bindCtx bindChecked := by
  have hlate : checkLate bindCtx bindChecked = .passed bindCtx bindChecked :=
    checkLate_passes _ _ (by decide +kernel) (by decide +kernel) (by decide +kernel) (by decide +kernel)
  have hlen : bindCmd.body.length = 40 := by simp [bindCmd, bindCipher_length]
  rw [checkPacket_session _ ⟨24, 0, 0, false⟩ _ (by decide) (by decide) rfl rfl (by decide) (by decide) (by decide) hlen (by decide) (by decide)]
  refine checkSession_sealed _ _ bindChecked _ ownerSession bindCipher rfl (by decide) rfl rfl ?_ ?_ (by decide) ?_ rfl hlate
  · exact List.take_left' bindCipher_length
  · exact List.drop_left' bindCipher_length
  · show bindCtx = { pkt := _, plain := gcmXor _ (gcmNonce _ 1) bindCipher, keys := _, role := _, owner := [] }
    rw [bindCipher_plain]
    rfl

theorem bindCmd_admitted : Admitted 0x0041 bindCmd bindCtx sealedZero bindAt := by
  have hjobs : sealedZero.eng.jobs = [] := rfl
  have hbarrier : barrierAt bindAt = none := by decide +kernel
  exact ⟨rfl, by decide, rfl, by decide, rfl, rfl, .inl rfl, by decide, by simp [hjobs], rfl, rfl, ⟨_, bindCmd_checked, rfl⟩, by decide +kernel,
    by simp [hbarrier]⟩

/-! ## The refutation -/

theorem bindAt_only : OnlyIn [.pwr, .eng, .vtf] sealedZero bindAt := (admittedState_of bindCmd_admitted).only

theorem bindHandles_bindCtx : bindHandles bindCtx = [1, 2, 3, 4] := by decide +kernel

/-- Every handle that the packet names is a live stream that is not sealed. -/
theorem bindHandles_live : ∀ h ∈ bindHandles bindCtx, h ≠ noSubj ∧ h ≠ 0 ∧ ∃ st, liveStream bindAt h = some st ∧ st.st ≠ .sealed := by
  have hlive : ∀ h ∈ [1, 2, 3, 4], h ≠ noSubj ∧ h ≠ 0 ∧ liveStream sealedZero h = some Stream.reset := by decide +kernel
  have hstore : bindAt.store = sealedZero.store := bindAt_only .store (by decide)
  intro h hh
  obtain ⟨hsubj, hzero, hst⟩ := hlive h (bindHandles_bindCtx ▸ hh)
  exact ⟨hsubj, hzero, Stream.reset, by simpa only [liveStream, streamOf, hstore] using hst, by decide⟩

theorem exec_bindCmd : exec (.ruleBind bindCmd) sealedZero = .next (replied 0x0041 bindCmd bindCtx .badParam 0 [] bindAt) := by
  have hstore : bindAt.store = sealedZero.store := bindAt_only .store (by decide)
  have hwadi : bindAt.wadi = sealedZero.wadi := bindAt_only .wadi (by decide)
  have hb : look (pf bindCtx 0 1) bindAt.wadi.bundles = some fourOutputs := by rw [hwadi]; rfl
  have hzero : streamOf bindAt 0 = some { Stream.reset with st := .sealed } := by rw [streamOf, hstore]; rfl
  refine exec_of_answer rfl ruleBind_carriedOut bindCmd_admitted
    (cmdRuleBind_fifthHandle hb (by decide) (by decide) hzero rfl fun h hh => ?_)
  obtain ⟨-, -, st, hst, -⟩ := bindHandles_live h hh
  exact hst ▸ rfl

/-- Refutes O45: RULE_BIND of a bundle that declares four handles beside H0, the fourth an output, names in that handle's place stream 0; where
stream 0 is sealed the bundle is refused with BADPARAM although every handle it is given is live and the budget admits it. -/
theorem not_rulesAndLoads : ¬ Obligations.RulesAndLoads := by
  intro h
  obtain ⟨-, hbind, -⟩ := h sealedZero bindAt bindCmd bindCtx default fourOutputs default 0
  have hwadi : bindAt.wadi = sealedZero.wadi := bindAt_only .wadi (by decide)
  have hqueue : queueOf bindAt 0 = [admittedPkt 0x0041 bindCmd bindCtx sealedZero] := (admittedState_of bindCmd_admitted).queue
  have hbudget : committed bindAt + fourOutputs.eu * pf bindCtx 2 1 = 0 := by decide +kernel
  have hbound := (hbind bindCmd_admitted (by rw [hwadi]; rfl) rfl (by decide +kernel) (by simp [fourOutputs])
    (fun k hk => bindHandles_live k (List.mem_of_mem_take hk)) (by decide +kernel) (by decide +kernel)).1
  obtain ⟨v, num, y, hok, hy, -, -, -, -, hv⟩ := hbound (by omega)
  have hv_queue : queueOf v 0 = [admittedPkt 0x0041 bindCmd bindCtx sealedZero] :=
    (congrArg (fun e : Engine => vAt e.queues 0) (hv .eng (by decide))).trans hqueue
  have hq : bindCmd.qid.toNat < 64 := by decide
  have hsame : replied 0x0041 bindCmd bindCtx .badParam 0 [] bindAt = replied 0x0041 bindCmd bindCtx .ok num [] v :=
    Host.Outcome.next.inj (exec_bindCmd.symm.trans hok)
  have hrules : v.wadi = sealedZero.wadi := by
    rw [← hwadi, ← replied_wadi .badParam 0 [] hq hqueue, hsame, replied_wadi .ok num [] hq hv_queue]
  have hnone : look num v.wadi.bindings = none := by rw [hrules]; rfl
  exact absurd (hy.symm.trans hnone) (by simp)

end Sys2Proof.Machine
end

section
/-! SUPPORT. A bound under every monotonic counter (R205), and what a result, a fold and a choice keep of it. In
what follows, `counters_f` says that `f` leaves the counters as they stood, and `f_above` that it keeps a bound under them. -/
namespace Sys2Proof.Machine
open Sys2Proof

/-- Every counter of a bank stands at or above a bound (R205). -/
def Above (v : Nat → Nat) (c : Vector Nat 32) : Prop := ∀ i : Fin 32, v i.val ≤ vAt c i.val

theorem countersAtLeast_iff (v : Nat → Nat) (s : State) : CountersAtLeast v s ↔ Above v s.vtf.counters := Iff.rfl

/-- Every state that a part of an instruction can end in has its counters at or above a bound. -/
def Res.Above {α : Type} (v : Nat → Nat) : Res α → Prop
  | .ok _ s => Machine.Above v s.vtf.counters
  | .exc _ s => Machine.Above v s.vtf.counters
  | .check _ s => Machine.Above v s.vtf.counters
  | .wait _ s => Machine.Above v s.vtf.counters

/-- A command's verdict keeps the bound; one that waits leaves the state to its caller. -/
def Verdict.Above (v : Nat → Nat) : Verdict → Prop
  | .fin s => Machine.Above v s.vtf.counters
  | .wait _ => True
  | .stay _ s => Machine.Above v s.vtf.counters

/-- A command's checks keep the bound, refused or passed. -/
def Checked.Above (v : Nat → Nat) : Checked → Prop
  | .refused _ s => Machine.Above v s.vtf.counters
  | .passed _ s => Machine.Above v s.vtf.counters

/-- An operation of the sealing engine keeps the bound. -/
def SealOut.Above {α : Type} (v : Nat → Nat) : SealOut α → Prop
  | .ok _ s => Machine.Above v s.vtf.counters
  | .err _ s => Machine.Above v s.vtf.counters
  | .wait => True

/-- A merge of an early record keeps the bound. -/
def MergeOut.Above (v : Nat → Nat) : MergeOut → Prop
  | .merged s => Machine.Above v s.vtf.counters
  | .dropped | .stays | .waits => True

/-- The state that a command leads to has its counters at or above a bound. -/
def OutAbove (v : Nat → Nat) (o : Host.Outcome State Fault Refusal) : Prop := ∀ t, o = .next t → Above v t.vtf.counters

variable {v : Nat → Nat}

theorem counters_foldl {α : Type} {f : State → α → State} (h : ∀ t a, (f t a).vtf.counters = t.vtf.counters) (l : List α) (s : State) :
    (l.foldl f s).vtf.counters = s.vtf.counters := by
  induction l generalizing s with
  | nil => rfl
  | cons a l ih => exact (ih (f s a)).trans (h s a)

theorem foldl_above {α : Type} {f : State → α → State} (h : ∀ t a, Above v t.vtf.counters → Above v (f t a).vtf.counters) (l : List α)
    (s : State) (hs : Above v s.vtf.counters) : Above v (l.foldl f s).vtf.counters := by
  induction l generalizing s with
  | nil => exact hs
  | cons a l ih => exact ih (f s a) (h s a hs)

theorem counters_iter {f : State → State} (h : ∀ t, (f t).vtf.counters = t.vtf.counters) (n : Nat) (s : State) :
    (iter f n s).vtf.counters = s.vtf.counters := by
  induction n generalizing s with
  | zero => rfl
  | succ n ih => exact (ih (f s)).trans (h s)

theorem iter_above {f : State → State} (h : ∀ t, Above v t.vtf.counters → Above v (f t).vtf.counters) (n : Nat) (s : State)
    (hs : Above v s.vtf.counters) : Above v (iter f n s).vtf.counters := by
  induction n generalizing s with
  | zero => exact hs
  | succ n ih => exact ih (f s) (h s hs)

theorem OnlyIn.counters_eq {l : List Region} {s t : State} (h : OnlyIn l s t) (hv : Region.vtf ∉ l) : t.vtf.counters = s.vtf.counters :=
  congrArg Trust.counters (h .vtf hv)

theorem Verdict.Above.ite {p : Prop} [Decidable p] {a b : Verdict} (ha : a.Above v) (hb : b.Above v) : (if p then a else b).Above v := by
  split
  · exact ha
  · exact hb

theorem Res.Above.andThen {α β : Type} {r : Res α} {f : α → State → Res β} (hr : r.Above v)
    (hf : ∀ {a t}, Machine.Above v t.vtf.counters → (f a t).Above v) : (r.andThen f).Above v := by
  cases r with
  | ok a t => exact hf hr
  | exc e t => exact hr
  | check d t => exact hr
  | wait da t => exact hr

theorem above_ite {p : Prop} [Decidable p] {s t : State} (hs : Above v s.vtf.counters) (ht : Above v t.vtf.counters) :
    Above v (if p then s else t).vtf.counters := by
  split
  · exact hs
  · exact ht

theorem Res.Above.ite {α : Type} {p : Prop} [Decidable p] {a b : Res α} (ha : a.Above v) (hb : b.Above v) : (if p then a else b).Above v
    := by
  split
  · exact ha
  · exact hb

end Sys2Proof.Machine
end

section
/-! SUPPORT. The counters through the operations on records of the state, the link's messages, faults and the media. -/
namespace Sys2Proof.Machine
open Sys2Proof

variable {v : Nat → Nat}

theorem whenDue_above {c : Bool} {s t : State} (hs : Above v s.vtf.counters) (ht : Above v t.vtf.counters) :
    OutAbove v (whenDue c s t) := by
  intro u hu
  simp only [whenDue, Host.Outcome.next.injEq] at hu
  subst hu
  split <;> assumption

theorem counters_takeFresh (s : State) :
    (takeFresh s).2.vtf.counters = s.vtf.counters := by
  grind [takeFresh]

theorem counters_freeTicks (s : State) :
    (freeTicks s).2.vtf.counters = s.vtf.counters := by
  grind [freeTicks, counters_takeFresh]

theorem counters_updDie (s : State) (d : Nat) (f : Die → Die) :
    (updDie s d f).vtf.counters = s.vtf.counters := by
  grind [updDie]

theorem counters_updCore (s : State) (c : Nat) (f : Core → Core) :
    (updCore s c f).vtf.counters = s.vtf.counters := by
  grind [updCore]

theorem counters_updCores (s : State) (f : Core → Core) :
    (updCores s f).vtf.counters = s.vtf.counters := by
  grind [updCores]

theorem counters_updStream (s : State) (sid : Nat) (f : Stream → Stream) :
    (updStream s sid f).vtf.counters = s.vtf.counters := by
  grind [updStream]

theorem counters_putStream (s : State) (sid : Nat) (st : Stream) :
    (putStream s sid st).vtf.counters = s.vtf.counters := by
  grind [putStream]

theorem counters_updSeg (s : State) (g : Nat) (f : SegSt → SegSt) :
    (updSeg s g f).vtf.counters = s.vtf.counters := by
  grind [updSeg]

theorem counters_updSlot (s : State) (n : Nat) (f : SlotInfo → SlotInfo) :
    (updSlot s n f).vtf.counters = s.vtf.counters := by
  grind [updSlot]

theorem counters_setQueue (s : State) (q : Nat) (l : List QPkt) :
    (setQueue s q l).vtf.counters = s.vtf.counters := by
  grind [setQueue]

theorem counters_pump (s : State) :
    (pump s).vtf.counters = s.vtf.counters := by
  grind [pump]

theorem counters_formMsg (typ : Nat) (body : List Byte) (s : State) :
    (formMsg typ body s).vtf.counters = s.vtf.counters := by
  grind [formMsg, counters_pump]

theorem counters_readyMsg (s : State) (earlyOk : Bool) :
    (readyMsg s earlyOk).vtf.counters = s.vtf.counters := by
  grind [readyMsg, counters_formMsg]

theorem counters_formReply (r : Reply) (s : State) :
    (formReply r s).vtf.counters = s.vtf.counters := by
  grind [formReply, counters_pump]

theorem counters_lossBegin (fatal : Bool) (s : State) :
    (lossBegin fatal s).vtf.counters = s.vtf.counters := by
  grind [lossBegin]

theorem counters_escalate (src : Nat) (s : State) :
    (escalate src s).vtf.counters = s.vtf.counters := by
  grind [escalate, counters_lossBegin]

theorem counters_latchFault (src : Nat) (det : BitVec 32) (s : State) :
    (latchFault src det s).vtf.counters = s.vtf.counters := by
  grind [latchFault, counters_formMsg, counters_lossBegin]

theorem counters_raiseFault (src : Nat) (det : BitVec 32) (s : State) :
    (raiseFault src det s).vtf.counters = s.vtf.counters := by
  grind [raiseFault, counters_latchFault]

theorem counters_clearLatch (s : State) (src : Nat) :
    (clearLatch s src).vtf.counters = s.vtf.counters := by
  grind [clearLatch, counters_raiseFault]

theorem counters_clearLatches (s : State) (set : BitVec 96) :
    (clearLatches s set).vtf.counters = s.vtf.counters :=
  counters_foldl (fun t n => by grind [counters_clearLatch]) _ s

theorem counters_faultStateBegin (src : Nat) (det : BitVec 32) (s : State) :
    (faultStateBegin src det s).vtf.counters = s.vtf.counters := by
  grind [faultStateBegin, counters_raiseFault]

theorem counters_faultStateEnd (src : Nat) (s : State) :
    (faultStateEnd src s).vtf.counters = s.vtf.counters := by
  grind [faultStateEnd]

theorem counters_windowMsg (s : State) :
    (windowMsg s).vtf.counters = s.vtf.counters := by
  grind [windowMsg, counters_formMsg]

theorem counters_checkOver (s : State) :
    (checkOver s).vtf.counters = s.vtf.counters := by
  grind [checkOver, counters_windowMsg, counters_raiseFault]

theorem counters_recomputeW (s : State) :
    (recomputeW s).vtf.counters = s.vtf.counters := by
  grind [recomputeW, counters_windowMsg, counters_checkOver]

theorem counters_chargeCredits (n : Nat) (s : State) :
    (chargeCredits n s).vtf.counters = s.vtf.counters := by
  grind [chargeCredits]

theorem counters_returnCredits (n : Nat) (s : State) :
    (returnCredits n s).vtf.counters = s.vtf.counters := by
  grind [returnCredits, counters_checkOver]

theorem counters_mediaMsg (s : State) :
    (mediaMsg s).vtf.counters = s.vtf.counters := by
  grind [mediaMsg, counters_formMsg]

theorem counters_mapSeg (s : State) (g : Nat) (slot : Nat) (kind : Nat) :
    (mapSeg s g slot kind).vtf.counters = s.vtf.counters := by
  grind [mapSeg, counters_updSlot]

theorem counters_dropMove (m : MoveSt) (s : State) :
    (dropMove m s).vtf.counters = s.vtf.counters := by
  grind [dropMove, counters_updSlot, counters_updDie]

theorem counters_dropMoves (g : Nat) (s : State) :
    (dropMoves g s).vtf.counters = s.vtf.counters :=
  counters_foldl (fun t m => by grind [counters_dropMove]) _ s

theorem counters_unmapSeg (s0 : State) (g : Nat) :
    (unmapSeg s0 g).vtf.counters = s0.vtf.counters := by
  grind [unmapSeg, counters_dropMoves, counters_updSlot]

theorem bumpCounter_above (i : Nat) (s : State) (hs : Above v s.vtf.counters) :
    Above v (bumpCounter i s).vtf.counters := bumpCounter_counters v i s hs

theorem issueSeal_above (s : State) (hs : Above v s.vtf.counters) :
    Above v (issueSeal s).2.vtf.counters := issueSeal_counters v s hs

end Sys2Proof.Machine
end

section
/-! SUPPORT. The counters through the device's records, a command's checks and its answers. -/
namespace Sys2Proof.Machine
open Sys2Proof

variable {v : Nat → Nat}

theorem counters_addRec (sid : Nat) (r : Rec) (s : State) :
    (addRec sid r s).vtf.counters = s.vtf.counters := by
  grind [addRec, counters_chargeCredits]

theorem counters_updRec (s : State) (sid : Nat) (seq : Nat) (f : Rec → Rec) :
    (updRec s sid seq f).vtf.counters = s.vtf.counters := by
  grind [updRec, counters_updStream]

theorem counters_writeDev (payload : List Byte) (job : Option Nat) (s : State) :
    (writeDev payload job s).vtf.counters = s.vtf.counters := by
  grind [writeDev, counters_addRec]

theorem counters_releaseWaiting_writeDev (t : State) (j : Option Nat) (p : List Byte) (rest : List (Option Nat × List Byte)) :
    (releaseWaiting.writeDev' t j p rest).vtf.counters = t.vtf.counters := by
  grind [releaseWaiting.writeDev', counters_writeDev]

theorem counters_releaseWaiting (s : State) :
    (releaseWaiting s).vtf.counters = s.vtf.counters :=
  counters_iter (fun t => by grind [counters_releaseWaiting_writeDev]) _ s

theorem counters_openSegOn (s : State) (sid : Nat) (st : Stream) (d : Nat) (w : Draw) :
    ∀ a u, openSegOn s sid st d w = some (a, u) → u.vtf.counters = s.vtf.counters := by
  grind [openSegOn, counters_mapSeg, counters_updStream]

theorem counters_issueWrite (g : Nat) (cw : Nat) (tail : Bool) (job : Option Nat) (s : State) :
    (issueWrite g cw tail job s).vtf.counters = s.vtf.counters := by
  grind [issueWrite]

theorem sealSegment_above (g : Nat) (cause : Nat) (job : Option Nat) (s : State) (hs : Above v s.vtf.counters) :
    Above v (sealSegment g cause job s).2.vtf.counters := by
  have hw (l : List Nat) (t : State) : (l.foldl (fun t k => issueWrite g k false job t) t).vtf.counters = t.vtf.counters :=
    counters_foldl (fun t k => counters_issueWrite g k false job t) l t
  grind [sealSegment, issueSeal_above, counters_updSeg, counters_updStream]

theorem counters_placeIn (g : Nat) (sid : Nat) (r : Rec) (s : State) :
    (placeIn g sid r s).vtf.counters = s.vtf.counters := by
  have hw (l : List Nat) (t : State) : (l.foldl (fun t k => issueWrite g k false none t) t).vtf.counters = t.vtf.counters :=
    counters_foldl (fun t k => counters_issueWrite g k false none t) l t
  grind [placeIn, counters_issueWrite, counters_updSeg, counters_updStream, counters_updRec]

theorem placeNext_above (sid : Nat) (r : Rec) (g : Option Nat) (d : Nat) (s : State) (hs : Above v s.vtf.counters) :
    Above v (placeNext sid r g d s).vtf.counters := by
  cases g <;> grind [placeNext, counters_placeIn, sealSegment_above, → counters_openSegOn]

theorem counters_updJob (s : State) (j : Nat) (f : Job → Job) :
    (updJob s j f).vtf.counters = s.vtf.counters := by
  grind [updJob]

theorem counters_newJob (waits : Nat) (replies : List Reply) (barrier : Bool) (kind : JobKind) (s : State) :
    (newJob waits replies barrier kind s).2.vtf.counters = s.vtf.counters := by
  grind [newJob]

theorem counters_ackRec (sid : Nat) (seq : Nat) (s : State) :
    (ackRec sid seq s).vtf.counters = s.vtf.counters := by
  grind [ackRec, counters_updRec]

theorem counters_ackJob (j : Nat) (s : State) :
    (ackJob j s).vtf.counters = s.vtf.counters :=
  counters_foldl (f := fun t (x : Nat × Nat) => ackRec x.1 x.2 t) (fun t x => counters_ackRec x.1 x.2 t) _ s

theorem counters_finishJob (j : Nat) (s : State) :
    (finishJob j s).vtf.counters = s.vtf.counters := by
  have hr (l : List Reply) (t : State) : (l.foldl (fun t r => formReply r t) t).vtf.counters = t.vtf.counters :=
    counters_foldl (fun t r => counters_formReply r t) l t
  grind [finishJob, counters_ackJob]

theorem counters_jobWrite (j : Option Nat) (s : State) :
    (jobWrite j s).vtf.counters = s.vtf.counters := by
  cases j <;> grind [jobWrite, counters_finishJob, counters_updJob]

theorem counters_settleTrain (x : Option Nat) (s : State) :
    (settleTrain x s).vtf.counters = s.vtf.counters := by
  cases x <;> grind [settleTrain, counters_returnCredits]

theorem counters_finishHalf (h : Nat) (s : State) :
    (finishHalf h s).vtf.counters = s.vtf.counters := by
  grind [finishHalf, counters_writeDev]

theorem counters_earlyMerged (e : Option (Nat × Nat)) (s : State) :
    (earlyMerged e s).vtf.counters = s.vtf.counters := by
  rcases e with _ | ⟨h, i⟩ <;> grind [earlyMerged, counters_finishHalf]

theorem counters_recWritten (sid : Nat) (r : Rec) (s : State) :
    (recWritten sid r s).vtf.counters = s.vtf.counters := by
  grind [recWritten, counters_updStream, counters_updRec, counters_earlyMerged, counters_returnCredits, counters_releaseWaiting,
    counters_settleTrain, counters_jobWrite]

theorem counters_settleStream (sid : Nat) (s : State) :
    (settleStream sid s).vtf.counters = s.vtf.counters :=
  counters_iter (fun t => by grind [counters_recWritten]) _ s

theorem settleSeals_above (s : State) (hs : Above v s.vtf.counters) :
    Above v (settleSeals s).vtf.counters :=
  foldl_above (fun t j ht => by grind [sealSegment_above, counters_finishJob, counters_updJob]) _ s hs

theorem counters_tailClear (g : Nat) (cw : Nat) (s : State) :
    (tailClear g cw s).vtf.counters = s.vtf.counters := by
  grind [tailClear]

theorem tailRule2_above (d : Nat) (s : State) (hs : Above v s.vtf.counters) :
    Above v (tailRule2 d s).vtf.counters := by
  simp only [tailRule2]
  split
  · exact hs
  · exact iter_above (fun t ht => by grind [sealSegment_above]) _ s hs

theorem writeVerified_above (w : CwWrite) (s : State) (hs : Above v s.vtf.counters) :
    Above v (writeVerified w s).vtf.counters := by
  have hc (l : List Nat) (t : State) : (l.foldl (fun t sid => settleStream sid t) t).vtf.counters = t.vtf.counters :=
    counters_foldl (fun t sid => counters_settleStream sid t) l t
  simp only [writeVerified]
  refine settleSeals_above _ ?_
  rw [counters_jobWrite, hc]
  refine foldl_above (fun t e ht => by simpa only [counters_updRec] using ht) _ _ ?_
  split
  · exact tailRule2_above _ _ (by simpa only [counters_updDie] using hs)
  · simpa only [counters_updSeg, counters_tailClear] using hs

theorem counters_markFailing (n : Nat) (s : State) :
    (markFailing n s).vtf.counters = s.vtf.counters := by
  grind [markFailing, counters_updSlot]

theorem counters_rowFailed (n : Nat) (k : Nat) (s : State) :
    (rowFailed n k s).2.vtf.counters = s.vtf.counters := by
  grind [rowFailed, counters_updSlot, counters_raiseFault, counters_updDie, counters_markFailing]

theorem writeFailed_above (w : CwWrite) (s : State) (hs : Above v s.vtf.counters) :
    Above v (writeFailed w s).vtf.counters := by
  grind [writeFailed, counters_rowFailed, writeVerified_above]

theorem drainAll_above (s : State) (hs : Above v s.vtf.counters) :
    Above v (drainAll s).vtf.counters :=
  iter_above (fun t ht => by grind [writeVerified_above]) _ _ (iter_above (fun t ht => by grind [placeNext_above]) _ s hs)

theorem answer_above (c : Ctx) (sts : Status) (res : Nat) (data : List Byte) (s : State) (hs : Above v s.vtf.counters) :
    (answer c sts res data s).Above v := by
  grind [answer, counters_formReply, Verdict.Above]

theorem reject_above (c : Ctx) (sts : Status) (s : State) (hs : Above v s.vtf.counters) :
    (reject c sts s).Above v := by
  grind [reject, answer_above, Verdict.Above]

theorem counters_countAuth (s : State) :
    (countAuth s).vtf.counters = s.vtf.counters := by
  grind [countAuth]

theorem rejectAuth_above (c : Ctx) (s : State) (hs : Above v s.vtf.counters) :
    (rejectAuth c s).Above v := by
  grind [rejectAuth, reject_above, counters_countAuth, Verdict.Above]

theorem checkLate_above (c : Ctx) (s : State) (hs : Above v s.vtf.counters) :
    (checkLate c s).Above v := by
  grind [checkLate, Checked.Above]

theorem checkSession_above (p : Packet) (s : State) (hs : Above v s.vtf.counters) :
    (checkSession p s).Above v := by
  grind [checkSession, counters_countAuth, checkLate_above, Checked.Above]

theorem checkPacket_above (p : Packet) (train : Bool) (s : State) (hs : Above v s.vtf.counters) :
    (checkPacket p train s).Above v := by
  grind [checkPacket, checkSession_above, Checked.Above]

end Sys2Proof.Machine
end

section
/-! SUPPORT. The counters through streams, appends and the commands on streams. -/
namespace Sys2Proof.Machine
open Sys2Proof

variable {v : Nat → Nat}

theorem counters_loadCtx (sid : Nat) (s : State) :
    ∀ u, loadCtx sid s = some u → u.vtf.counters = s.vtf.counters := by
  grind [loadCtx]

theorem counters_holdCtx (sid : Nat) (b : Bool) (s : State) :
    (holdCtx sid b s).vtf.counters = s.vtf.counters := by
  grind [holdCtx]

theorem counters_makeSealed (sid : Nat) (s : State) :
    (makeSealed sid s).vtf.counters = s.vtf.counters := by
  grind [makeSealed, counters_updStream, counters_holdCtx]

theorem counters_dropKeys (p : KeyEntry → Bool) (s : State) :
    (dropKeys p s).vtf.counters = s.vtf.counters := by
  grind [dropKeys]

theorem counters_newKey (owner : Option Nat) (s : State) :
    (newKey owner s).2.vtf.counters = s.vtf.counters := by
  grind [newKey, counters_takeFresh]

theorem mediaTo_above (dst : Media) (cause : Nat) (subj : Nat) (s : State) (hs : Above v s.vtf.counters) :
    Above v (mediaTo dst cause subj s).vtf.counters := by
  have hb : Above v (bumpCounter 2 { s with arr.media := dst }).vtf.counters := bumpCounter_above 2 _ hs
  simp only [mediaTo, counters_mediaMsg]
  cases dst <;> dsimp only <;> (try rw [counters_raiseFault]) <;> split <;> simpa only [counters_writeDev, counters_newJob] using hb

theorem mediaTest_above (s : State) (hs : Above v s.vtf.counters) :
    Above v (mediaTest s).vtf.counters := by
  grind [mediaTest, mediaTo_above]

theorem counters_trimRec (sid : Nat) (first : Nat) (cause : Nat) (job : Option Nat) (s : State) :
    (trimRec sid first cause job s).vtf.counters = s.vtf.counters := by
  grind [trimRec, counters_writeDev]

theorem counters_pruneKeys (sid : Nat) (s : State) :
    (pruneKeys sid s).vtf.counters = s.vtf.counters := by
  grind [pruneKeys, counters_dropKeys, counters_updStream]

theorem freeSeg_above (g : Nat) (s : State) (hs : Above v s.vtf.counters) :
    Above v (freeSeg g s).vtf.counters := by
  have hd (l : List Nat) (t : State) : (l.foldl (fun t sid => updStream t sid (dropSegRecs g)) t).vtf.counters = t.vtf.counters :=
    counters_foldl (fun t sid => counters_updStream t sid _) l t
  have hp (l : List Nat) (t : State) : (l.foldl (fun t sid => pruneKeys sid t) t).vtf.counters = t.vtf.counters :=
    counters_foldl (fun t sid => counters_pruneKeys sid t) l t
  grind [freeSeg, mediaTest_above, counters_unmapSeg]

theorem reclaim_above (sid : Nat) (s : State) (hs : Above v s.vtf.counters) :
    Above v (reclaim sid s).vtf.counters := by
  simp only [reclaim]
  split
  · exact hs
  · exact foldl_above (fun t g ht => freeSeg_above g t ht) _ s hs

theorem reclaimAll_above (s : State) (hs : Above v s.vtf.counters) :
    Above v (reclaimAll s).vtf.counters := foldl_above (fun t g ht => freeSeg_above g t ht) _ s hs

theorem evictSeg_above (sid : Nat) (g : Nat) (cause : Nat) (job : Option Nat) (s : State) (hs : Above v s.vtf.counters) :
    Above v (evictSeg sid g cause job s).vtf.counters := by
  grind [evictSeg, freeSeg_above, counters_updStream, counters_trimRec]

theorem counters_addPend (sid : Nat) (sidf : Nat) (seq : Nat) (train : Option Nat) (s : State) :
    (addPend sid sidf seq train s).vtf.counters = s.vtf.counters := by
  grind [addPend]

theorem counters_sealIfLast (sid : Nat) (s : State) :
    (sealIfLast sid s).vtf.counters = s.vtf.counters := by
  grind [sealIfLast, counters_newJob, counters_makeSealed]

theorem counters_admitAppend (c : Ctx) (sid : Nat) (st : Stream) (trim : Option Nat) (s : State) :
    (admitAppend c sid st trim s).vtf.counters = s.vtf.counters := by
  simp only [admitAppend]
  split <;> split <;> simp only [counters_sealIfLast, counters_addPend, counters_addRec, counters_newJob, counters_updJob,
    counters_formReply, counters_ackRec]

theorem makeSpace_above (s : State) (sid : Nat) (st : Stream) (size : Nat) (n : Nat) (hs : Above v s.vtf.counters) :
    ∀ u a, makeSpace s sid st size n = .ok (u, a) → Above v u.vtf.counters := by
  grind [makeSpace, counters_newJob, evictSeg_above]

theorem appendOne_above (c : Ctx) (s : State) (hs : Above v s.vtf.counters) :
    (appendOne c s).Above v := by
  simp only [appendOne]
  repeat' split
  all_goals grind [reject_above, → counters_loadCtx, → makeSpace_above, counters_admitAppend, Verdict.Above]

theorem sealEarly_above (h : Nat) (cause : Nat) (s : State) (hs : Above v s.vtf.counters) :
    Above v (sealEarly h cause s).vtf.counters := by
  grind [sealEarly, issueSeal_above]

theorem counters_earlyRoom_fresh (h : Nat) (s : State) :
    (earlyRoom.fresh h s).2.vtf.counters = s.vtf.counters := by
  grind [earlyRoom.fresh, counters_takeFresh]

theorem earlyRoom_above (h : Nat) (sid : Nat) (size : Nat) (s : State) (hs : Above v s.vtf.counters) :
    Above v (earlyRoom h sid size s).2.vtf.counters := by
  grind [earlyRoom, counters_earlyRoom_fresh, sealEarly_above]

theorem appendEarly_above (c : Ctx) (s : State) (hs : Above v s.vtf.counters) :
    (appendEarly c s).Above v := by
  grind [appendEarly, reject_above, counters_newJob, earlyRoom_above, counters_chargeCredits, counters_formReply, Verdict.Above]

theorem counters_lowerSeals (sid : Nat) (last : Nat) (s : State) :
    (lowerSeals sid last s).vtf.counters = s.vtf.counters := by
  grind [lowerSeals]

theorem counters_unloadNow (j : Job) (num : Nat) (bundle : Bool) (shrink : Bool) (s : State) :
    (unloadNow j num bundle shrink s).vtf.counters = s.vtf.counters := by
  grind [unloadNow, counters_recomputeW, counters_finishJob]

theorem counters_settleUnloads (s : State) :
    (settleUnloads s).vtf.counters = s.vtf.counters :=
  counters_foldl (fun t j => by grind [counters_unloadNow]) _ s

theorem counters_unwindTrain (x : Train) (s : State) :
    (unwindTrain x s).vtf.counters = s.vtf.counters := by
  simp only [unwindTrain]
  rw [counters_foldl (fun t b => counters_lowerSeals _ _ t), counters_returnCredits]
  exact counters_foldl (fun t b => counters_updStream t _ _) _ s

theorem counters_dropOpenTrains (s : State) :
    (dropOpenTrains s).vtf.counters = s.vtf.counters := by
  have h (l : List Train) : (l.foldr unwindTrain s).vtf.counters = s.vtf.counters := by
    induction l with
    | nil => rfl
    | cons x l ih => exact (counters_unwindTrain x _).trans ih
  exact h _

theorem abortTrain_above (x : Train) (cause : Nat) (sts : Status) (index : Nat) (more : Bool) (s : State) (hs : Above v s.vtf.counters) :
    Above v (abortTrain x cause sts index more s).vtf.counters := by
  simp only [abortTrain, counters_settleUnloads]
  refine settleSeals_above _ ?_
  rw [counters_releaseWaiting, counters_foldl (fun t m => counters_formReply _ t), counters_unwindTrain]
  exact hs

theorem abortWith_above (c : Ctx) (t : Train) (cause : Nat) (sts : Status) (s : State) (hs : Above v s.vtf.counters) :
    (abortWith c t cause sts s).Above v := by
  grind [abortWith, answer_above, abortTrain_above, Verdict.Above]

theorem counters_commitTrain (x : Train) (s : State) :
    (commitTrain x s).vtf.counters = s.vtf.counters := by
  unfold commitTrain
  extract_lets arr _ replies _ s1 s2 _ waits _ j s3
  have h2 : s2.vtf.counters = s.vtf.counters := counters_chargeCredits _ s1
  have hj : j.2.vtf.counters = s2.vtf.counters := by
    simp only [j]
    split
    · exact counters_updJob _ _ _
    · exact counters_newJob _ _ _ _ _
  have h3 : s3.vtf.counters = s2.vtf.counters := by
    simp only [s3]
    split
    · rw [counters_foldl (fun t r => counters_formReply r t), counters_foldl (fun t m => counters_ackRec _ _ t)]
    · rw [counters_foldl (fun t m => counters_updRec t _ _ _), hj]
  rw [counters_releaseWaiting, counters_foldl (fun t m => counters_sealIfLast _ t), h3, h2]

theorem counters_admitMember (c : Ctx) (t : Train) (sid : Nat) (st : Stream) (s : State) :
    (admitMember c t sid st s).vtf.counters = s.vtf.counters := by
  grind [admitMember, counters_addPend, counters_addRec, counters_commitTrain]

theorem counters_trainTrim (t : Train) (s : State) :
    (trainTrim t s).2.2.vtf.counters = s.vtf.counters := by
  grind [trainTrim, counters_updJob, counters_newJob]

theorem trainMember_above (c : Ctx) (x : Train) (s : State) (hs : Above v s.vtf.counters) :
    (trainMember c x s).Above v := by
  have hadmit (y : Train) (sid : Nat) (st : Stream) (t : State) (ht : Above v t.vtf.counters) :
      (Verdict.fin (admitMember c y sid st t)).Above v := by simpa only [Verdict.Above, counters_admitMember] using ht
  unfold trainMember
  extract_lets sid n _ fail need held openSum latest short
  have hfail (cause : Nat) (e : Status) : (fail cause e).Above v := by
    simp only [fail]
    split
    · exact answer_above _ _ _ _ _ hs
    · exact abortWith_above _ _ _ _ s hs
  split; · exact hfail _ _
  split; · exact hfail _ _
  split; · exact hfail _ _
  split; · exact hfail _ _
  split; · exact hfail _ _
  clear_value held
  split
  · split
    · exact hfail _ _
    · trivial
  · split; · trivial
    split; · exact hfail _ _
    next s1 h1 =>
    have hs1 : Above v s1.vtf.counters := counters_loadCtx _ _ _ h1 ▸ hs
    have hshort : short.Above v := by
      clear_value latest
      simp only [short]
      split
      · cases latest with
        | none => trivial
        | some y =>
          dsimp only
          split
          · exact hfail _ _
          · exact abortTrain_above _ _ _ _ _ s hs
      · trivial
    split; · trivial
    split; · exact hshort
    split
    · exact hfail _ _
    · trivial
    · split; · exact hfail _ _
      split; · exact hshort
      extract_lets j s2
      split
      · exact hadmit _ _ _ _ (evictSeg_above _ _ _ _ _ (by simpa only [j, counters_trainTrim] using hs1))
      · exact hfail _ _
    · exact hadmit _ _ _ _ hs1

theorem chainAppend_above (c : Ctx) (q : Nat) (s : State) (hs : Above v s.vtf.counters) :
    (chainAppend c q s).Above v := by
  grind [chainAppend, answer_above, trainMember_above, Verdict.Above]

theorem cmdAppend_above (c : Ctx) (q : Nat) (s : State) (hs : Above v s.vtf.counters) :
    (cmdAppend c q s).Above v := by
  grind [cmdAppend, appendEarly_above, chainAppend_above, appendOne_above, Verdict.Above]

theorem counters_createRec (sid : Nat) (gen : Nat) (a : Attr) (job : Option Nat) (s : State) :
    (createRec sid gen a job s).vtf.counters = s.vtf.counters := by
  grind [createRec, counters_writeDev]

theorem counters_makeStream (sid : Nat) (a : Attr) (s : State) :
    (makeStream sid a s).vtf.counters = s.vtf.counters := by
  grind [makeStream, counters_newKey, counters_putStream]

theorem cmdCreate_above (c : Ctx) (s : State) (hs : Above v s.vtf.counters) :
    (cmdCreate c s).Above v := by
  grind [cmdCreate, reject_above, counters_makeStream, counters_newJob, counters_createRec, Verdict.Above]

theorem cmdOpen_above (c : Ctx) (s : State) (hs : Above v s.vtf.counters) :
    (cmdOpen c s).Above v := by
  grind [cmdOpen, reject_above, → counters_loadCtx, answer_above, counters_holdCtx, counters_updStream, Verdict.Above]

theorem cmdClose_above (c : Ctx) (s : State) (hs : Above v s.vtf.counters) :
    (cmdClose c s).Above v := by
  grind [cmdClose, reject_above, → counters_loadCtx, answer_above, counters_holdCtx, counters_updStream, Verdict.Above]

theorem readRecords_above (c : Ctx) (sid : Nat) (st : Stream) (s : State) (hs : Above v s.vtf.counters) :
    (readRecords c sid st s).Above v := by
  grind [readRecords, answer_above, Verdict.Above]

theorem counters_keepCipher (p : Nat → Bool) (g : Nat) (s : State) :
    (keepCipher p g s).vtf.counters = s.vtf.counters := by
  grind [keepCipher, counters_updSeg]

theorem readImage_above (c : Ctx) (st : Stream) (s : State) (hs : Above v s.vtf.counters) :
    (readImage c st s).Above v := by
  grind [readImage, reject_above, answer_above, Verdict.Above]

theorem cmdRead_above (c : Ctx) (s : State) (hs : Above v s.vtf.counters) :
    (cmdRead c s).Above v := by
  grind [cmdRead, reject_above, → counters_loadCtx, readImage_above, readRecords_above, Verdict.Above]

theorem cmdSeal_above (c : Ctx) (s : State) (hs : Above v s.vtf.counters) :
    (cmdSeal c s).Above v := by
  grind [cmdSeal, reject_above, → counters_loadCtx, counters_newJob, settleSeals_above, counters_makeSealed, Verdict.Above]

theorem cmdTrim_above (c : Ctx) (s : State) (hs : Above v s.vtf.counters) :
    (cmdTrim c s).Above v := by
  grind [cmdTrim, reject_above, → counters_loadCtx, answer_above, counters_newJob, counters_updStream, reclaim_above, counters_trimRec,
    Verdict.Above]

theorem cmdInfo_above (c : Ctx) (s : State) (hs : Above v s.vtf.counters) :
    (cmdInfo c s).Above v := by
  grind [cmdInfo, reject_above, → counters_loadCtx, answer_above, Verdict.Above]

theorem placeStream_above (sid : Nat) (s : State) (hs : Above v s.vtf.counters) :
    Above v (placeStream sid s).vtf.counters :=
  iter_above (fun t ht => by grind [placeNext_above]) _ s hs

theorem cmdDelete_above (c : Ctx) (s : State) (hs : Above v s.vtf.counters) :
    (cmdDelete c s).Above v := by
  have hcipher (p : Nat → Bool) (l : List Nat) (t : State) : (l.foldl (fun t g => keepCipher p g t) t).vtf.counters = t.vtf.counters :=
    counters_foldl (fun t g => counters_keepCipher p g t) l t
  have hdead (f : SegSt → SegSt) (l : List Nat) (t : State) : (l.foldl (fun t g => updSeg t g f) t).vtf.counters = t.vtf.counters :=
    counters_foldl (fun t g => counters_updSeg t g f) l t
  unfold cmdDelete
  extract_lets sid
  split; · exact reject_above _ _ s hs
  split; · exact reject_above _ _ s hs
  split; · exact reject_above _ _ s hs
  split; · exact reject_above _ _ s hs
  split; · exact reject_above _ _ s hs
  next s0 h0 =>
  split; · exact reject_above _ _ s hs
  have hs0 : Above v s0.vtf.counters := counters_loadCtx _ _ _ h0 ▸ hs
  extract_lets s1 segs gone s2 _ s3 s4 j s5
  have hs1 : Above v s1.vtf.counters := by
    simp only [s1]
    split
    · exact placeStream_above _ _ hs0
    · exact hs0
  have hs3 : Above v s3.vtf.counters := by simpa only [s3, s2, counters_dropKeys, counters_updStream, hcipher] using hs1
  have hj : Above v j.2.vtf.counters := by
    simp only [j, s4, counters_newJob]
    split
    · rwa [hdead]
    · exact hs3
  have hs5 : Above v s5.vtf.counters := by
    simp only [s5]
    split
    · exact foldl_above (fun t g ht => by simpa only [counters_updJob] using sealSegment_above g 2 _ t ht) _ _ hj
    · exact hj
  simpa only [Verdict.Above, counters_writeDev] using hs5

theorem deletionDone_above (sid : Nat) (st : Stream) (s : State) (hs : Above v s.vtf.counters) :
    Above v (deletionDone sid st s).vtf.counters := by
  have hf (l : List Nat) (t : State) (ht : Above v t.vtf.counters) : Above v (l.foldl (fun t g => freeSeg g t) t).vtf.counters :=
    foldl_above (fun t g ht => freeSeg_above g t ht) l t ht
  simp only [deletionDone]
  split
  · exact hf _ _ (foldl_above (fun t g ht => sealSegment_above _ _ _ _ (by simpa only [counters_updSeg] using ht)) _ s hs)
  · exact hf _ _ hs

end Sys2Proof.Machine
end

section
/-! SUPPORT. The counters through the boot window and the rules. -/
namespace Sys2Proof.Machine
open Sys2Proof

variable {v : Nat → Nat}

theorem counters_updBslot (s : State) (k : Nat) (f : BSlot → BSlot) :
    (updBslot s k f).vtf.counters = s.vtf.counters := by
  grind [updBslot]

theorem releaseHeldSlots_above (s : State) (hs : Above v s.vtf.counters) :
    Above v (releaseHeldSlots s).vtf.counters := by
  grind [releaseHeldSlots, mediaTest_above]

theorem bootChoose_above (s : State) (hs : Above v s.vtf.counters) :
    Above v (bootChoose s).vtf.counters := by
  grind [bootChoose, counters_updBslot, releaseHeldSlots_above, counters_raiseFault]

theorem counters_bootDrive (f : State → State × List Byte) (s : State) (hf : (f s).1.vtf.counters = s.vtf.counters) :
    (bootDrive f s).vtf.counters = s.vtf.counters := by
  simp only [bootDrive]
  split
  · exact hf
  · rfl

theorem counters_blockFailed (k : Nat) (s : State) :
    (blockFailed k s).vtf.counters = s.vtf.counters := by
  grind [blockFailed, counters_raiseFault]

theorem counters_blockVerified (fetched : Bool) (k : Nat) (s : State) :
    (blockVerified fetched k s).vtf.counters = s.vtf.counters := by
  grind [blockVerified, counters_blockFailed]

theorem counters_verifyNext (fetched : Bool) (s : State) :
    (verifyNext fetched s).vtf.counters = s.vtf.counters := by
  grind [verifyNext, counters_blockVerified]

theorem counters_readEarly (k : Nat) (s : State) :
    (readEarly k s).vtf.counters = s.vtf.counters := by
  grind [readEarly]

theorem counters_readByte (a : Nat) (p : Reading) : (readByte a p).1.vtf.counters = p.1.vtf.counters := by
  simp only [readByte]
  repeat' split
  all_goals simp only [counters_blockFailed, counters_readEarly]

theorem counters_readBytes (r : BootRead) (s : State) : (readBytes r s).1.vtf.counters = s.vtf.counters := by
  have h (l : List Nat) (p : Reading) : (l.foldl (fun p i =>
      readByte (bootAddr p.1.boot r i)
        (iter (verifyNext true) (i * r.during / r.len - (i - 1) * r.during / r.len) p.1, p.2)) p).1.vtf.counters = p.1.vtf.counters := by
    induction l generalizing p with
    | nil => rfl
    | cons i l ih => rw [List.foldl_cons, ih, counters_readByte, counters_iter (counters_verifyNext true)]
  exact h _ _

theorem counters_bootRead (r : BootRead) (s : State) :
    (bootRead r s).vtf.counters = s.vtf.counters :=
  counters_bootDrive _ s (by grind [counters_readBytes])

theorem counters_windowReady (s : State) :
    (windowReady s).vtf.counters = s.vtf.counters := by
  grind [windowReady]

theorem bootClose_above (s : State) (hs : Above v s.vtf.counters) :
    Above v (bootClose s).vtf.counters := by
  grind [bootClose, releaseHeldSlots_above]

theorem bootKeep_above (w' : Bool) (s : State) (hs : Above v s.vtf.counters) :
    Above v (bootKeep w' s).vtf.counters := by
  grind [bootKeep, bootClose_above]

theorem cmdBootStage_above (c : Ctx) (s : State) (hs : Above v s.vtf.counters) :
    (cmdBootStage c s).Above v := by
  grind [cmdBootStage, reject_above, answer_above, counters_updBslot, Verdict.Above]

theorem cmdBootCommit_above (c : Ctx) (s : State) (hs : Above v s.vtf.counters) :
    (cmdBootCommit c s).Above v := by
  grind [cmdBootCommit, reject_above, answer_above, counters_countAuth, counters_updBslot, Verdict.Above]

theorem raiseFloor_above (n : Nat) (s : State) (hs : Above v s.vtf.counters) :
    Above v (raiseFloor n s).vtf.counters := raiseFloor_counters v n s hs

theorem cmdBootActivate_above (c : Ctx) (s : State) (hs : Above v s.vtf.counters) :
    (cmdBootActivate c s).Above v := by
  grind [cmdBootActivate, raiseFloor_above, answer_above, reject_above, Verdict.Above]

theorem cmdRuleLoad_above (c : Ctx) (s : State) (hs : Above v s.vtf.counters) :
    (cmdRuleLoad c s).Above v := by
  have ha (sts : Status) (res : Nat) (data : List Byte) (b : List (Nat × Bundle)) :
      (answer c sts res data { s with wadi.bundles := b }).Above v := answer_above c sts res data _ hs
  unfold cmdRuleLoad
  extract_lets f body n is bad w
  clear_value w
  split
  · exact rejectAuth_above c s hs
  · split; · exact ha _ _ _ _
    split; · exact ha _ _ _ _
    split; · exact ha _ _ _ _
    split; · exact ha _ _ _ _
    split
    · split; · exact ha _ _ _ _
      split; · exact ha _ _ _ _
      split; · exact ha _ _ _ _
      exact ha _ _ _ _
    · exact ha _ _ _ _

theorem counters_setRun (s : State) (d : Nat) (r : Option Run) :
    (setRun s d r).vtf.counters = s.vtf.counters := by
  grind [setRun]

theorem cmdRuleBind_above (c : Ctx) (s : State) (hs : Above v s.vtf.counters) :
    (cmdRuleBind c s).Above v := by
  grind [cmdRuleBind, reject_above, counters_recomputeW, answer_above, Verdict.Above]

theorem cmdRuleUnload_above (c : Ctx) (s : State) (hs : Above v s.vtf.counters) :
    (cmdRuleUnload c s).Above v := by
  grind [cmdRuleUnload, reject_above, counters_newJob, counters_settleUnloads, Verdict.Above]

theorem counters_markIssued (s : State) :
    (markIssued s).vtf.counters = s.vtf.counters := by
  grind [markIssued]

theorem counters_doAseek (w : BitVec 32) (rereads : Nat) (s : State) (r : Run) :
    ∀ u a, doAseek w rereads s r = some (u, a) → u.vtf.counters = s.vtf.counters := by
  grind [doAseek]

theorem counters_doArdr (w : BitVec 32) (rereads : Nat) (s : State) (r : Run) :
    ∀ u a, doArdr w rereads s r = some (u, a) → u.vtf.counters = s.vtf.counters := by
  grind [doArdr]

theorem counters_ownRec (payload : List Byte) (s : State) :
    (ownRec payload s).vtf.counters = s.vtf.counters := by
  grind [ownRec, counters_writeDev]

theorem counters_endRun (d : Nat) (s : State) :
    (endRun d s).vtf.counters = s.vtf.counters := by
  grind [endRun, counters_setRun, counters_settleUnloads]

theorem counters_refuseRun (d : Nat) (out : Nat) (r : Run) (s : State) :
    (refuseRun d out r s).vtf.counters = s.vtf.counters := by
  grind [refuseRun, counters_endRun, counters_ownRec, counters_raiseFault]

theorem doAapp_above (d : Nat) (w : BitVec 32) (s : State) (r : Run) (hs : Above v s.vtf.counters) :
    ∀ u a, doAapp d w s r = some (u, a) → Above v u.vtf.counters := by
  grind [doAapp, counters_refuseRun, counters_addRec, counters_updRec, counters_sealIfLast, placeStream_above, evictSeg_above]

theorem counters_doSrec (w : BitVec 32) (s : State) (r : Run) :
    ∀ u a, doSrec w s r = some (u, a) → u.vtf.counters = s.vtf.counters := by
  grind [doSrec]

theorem counters_doScrc (w : BitVec 32) (s : State) (r : Run) :
    ∀ u a, doScrc w s r = some (u, a) → u.vtf.counters = s.vtf.counters := by
  grind [doScrc]

theorem counters_doMhdr (d : Nat) (w : BitVec 32) (s : State) (r : Run) :
    ∀ u a, doMhdr d w s r = some (u, a) → u.vtf.counters = s.vtf.counters := by
  grind [doMhdr, counters_updStream]

theorem counters_doMcpy (w : BitVec 32) (s : State) (r : Run) :
    ∀ u a, doMcpy w s r = some (u, a) → u.vtf.counters = s.vtf.counters := by
  grind [doMcpy]

theorem counters_doMtrg (w : BitVec 32) (s : State) (r : Run) :
    ∀ u a, doMtrg w s r = some (u, a) → u.vtf.counters = s.vtf.counters := by
  grind [doMtrg]

theorem counters_doMset (w : BitVec 32) (s : State) (r : Run) :
    ∀ u a, doMset w s r = some (u, a) → u.vtf.counters = s.vtf.counters := by
  grind [doMset]

theorem slotStep_above (p : Part) (d : Nat) (w : BitVec 32) (f : State → Run → SlotOut) (s : State) (hs : Above v s.vtf.counters)
    (hf : ∀ r t a, f s r = some (t, a) → Above v t.vtf.counters) : Above v (slotStep p d w f s).vtf.counters := by
  grind [slotStep, counters_setRun]

theorem counters_doNothing (s : State) (r : Run) :
    ∀ u a, doNothing s r = some (u, a) → u.vtf.counters = s.vtf.counters := by
  grind [doNothing]

theorem counters_breachRun (d : Nat) (r : Run) (b : Binding) (m : Nat × Nat × Nat) (s : State) :
    (breachRun d r b m s).vtf.counters = s.vtf.counters := by
  have he (l : List Nat) (t : State) : (l.foldl (fun t e => endRun e t) t).vtf.counters = t.vtf.counters :=
    counters_foldl (fun t e => counters_endRun e t) l t
  simp only [breachRun, counters_ownRec, counters_settleUnloads, he, counters_raiseFault]

theorem counters_noteRan (pay : List Byte) (train : Option Nat) (s : State) :
    (noteRan pay train s).vtf.counters = s.vtf.counters := by
  grind [noteRan]

theorem counters_ctlStep (d : Nat) (w : BitVec 32) (s : State) :
    (ctlStep d w s).vtf.counters = s.vtf.counters := by
  simp only [ctlStep]
  repeat' split
  all_goals simp only [counters_breachRun, counters_endRun, counters_noteRan, counters_setRun]

theorem counters_budgetWrite (w' : Nat) (s : State) :
    (budgetWrite w' s).vtf.counters = s.vtf.counters := by
  grind [budgetWrite, counters_recomputeW]

end Sys2Proof.Machine
end

section
/-! SUPPORT. The counters through the early log, the drain and the moves of segments. -/
namespace Sys2Proof.Machine
open Sys2Proof

variable {v : Nat → Nat}

theorem counters_earlyWritten (h : Nat) (idx : Nat) (s : State) :
    (earlyWritten h idx s).vtf.counters = s.vtf.counters := by
  grind [earlyWritten, counters_releaseWaiting, counters_jobWrite, counters_returnCredits]

theorem counters_earlyRowFailed (d : Nat) (s : State) :
    (earlyRowFailed d s).vtf.counters = s.vtf.counters := by
  grind [earlyRowFailed, counters_takeFresh, counters_updDie, counters_raiseFault]

theorem counters_mergeAdd (h : Nat) (sid : Nat) (e : EarlyRec) (s : State) :
    (mergeAdd h sid e s).vtf.counters = s.vtf.counters := by
  grind [mergeAdd, counters_addRec, counters_updRec, counters_sealIfLast]

theorem mergeOne_above (h : Nat) (e : EarlyRec) (s : State) (hs : Above v s.vtf.counters) :
    (mergeOne h e s).Above v := by
  have hadd (t : State) (ht : Above v t.vtf.counters) :
      (match loadCtx e.sid t with | some u => MergeOut.merged (mergeAdd h e.sid e u) | none => .stays).Above v := by
    grind [MergeOut.Above, counters_loadCtx, counters_mergeAdd]
  simp only [mergeOne]
  split
  · trivial
  · split; · trivial
    split; · trivial
    split; · trivial
    split
    · exact hadd s hs
    · exact hadd _ (evictSeg_above _ _ _ _ s hs)
    · trivial
    · split
      · exact hadd s hs
      · trivial

theorem mergeRecs_above (f : State → State) (hf : ∀ t, Above v t.vtf.counters → Above v (f t).vtf.counters) (h : Nat) (kept : List Nat)
    (es : List EarlyRec) (s : State) (hs : Above v s.vtf.counters) : Above v (mergeRecs f h kept es s).vtf.counters := by
  induction es generalizing kept s with
  | nil => exact hs
  | cons e es ih =>
    have hm := mergeOne_above h e s hs
    simp only [mergeRecs]
    split
    · exact ih _ s hs
    · split
      · exact ih _ _ hs
      · exact ih _ _ hs
      · exact ih _ _ hs
      · next t ht =>
        rw [ht] at hm
        refine ih _ _ ?_
        split
        · exact hs
        · exact hf t hm

theorem mergeHalf_above (f : State → State) (hf : ∀ t, Above v t.vtf.counters → Above v (f t).vtf.counters) (h : Nat) (s : State)
    (hs : Above v s.vtf.counters) : Above v (mergeHalf f h s).vtf.counters := by
  grind [mergeHalf, mergeRecs_above, sealEarly_above, counters_finishHalf]

theorem counters_flushHome (d : Nat) (s : State) :
    (flushHome d s).vtf.counters = s.vtf.counters := by
  grind [flushHome]

theorem counters_flushPartials (s : State) :
    (flushPartials s).vtf.counters = s.vtf.counters := by
  refine counters_foldl (fun t e => ?_) _ s
  split
  · rfl
  · split
    · rfl
    · exact counters_foldl (fun u k => by grind [counters_flushHome, counters_issueWrite]) _ t

theorem counters_markDirty (w : CwWrite) (s : State) :
    (markDirty w s).vtf.counters = s.vtf.counters := by
  grind [markDirty]

theorem counters_surcharge (w : CwWrite) (loops : Nat) (s : State) :
    (surcharge w loops s).vtf.counters = s.vtf.counters := by
  grind [surcharge]

theorem counters_retryWrite (w : CwWrite) (s : State) :
    (retryWrite w s).vtf.counters = s.vtf.counters := by
  grind [retryWrite]

theorem counters_expireSeg (g : Nat) (x : SegSt) (s : State) :
    (expireSeg g x s).vtf.counters = s.vtf.counters :=
  (counters_foldl (fun t sid => by grind [counters_trimRec, counters_updStream]) _ _).trans (counters_updSeg s g _)

theorem counters_markUncorr (g : Nat) (cw : Nat) (s : State) :
    (markUncorr g cw s).vtf.counters = s.vtf.counters := by
  grind [markUncorr, counters_updSeg]

theorem counters_codewordRead (g : Nat) (cw : Nat) (margin : BitVec 6) (soft : Bool) (reread : Bool) (uncorr : Bool) (s : State) :
    (codewordRead g cw margin soft reread uncorr s).vtf.counters = s.vtf.counters := by
  grind [codewordRead, counters_updDie, counters_raiseFault, counters_markUncorr, counters_markFailing]

theorem refreshCw_above (d : Nat) (g : Nat) (cw : Nat) (ok : Bool) (s : State) (hs : Above v s.vtf.counters) :
    Above v (refreshCw d g cw ok s).vtf.counters := by
  grind [refreshCw, counters_updDie, counters_tailClear, counters_rowFailed, mediaTest_above]

theorem counters_startRecal (d : Nat) (s : State) :
    (startRecal d s).vtf.counters = s.vtf.counters := by
  grind [startRecal, counters_updDie]

theorem counters_startPatrol (d : Nat) (s : State) :
    (startPatrol d s).vtf.counters = s.vtf.counters := by
  grind [startPatrol, counters_updDie]

theorem counters_patrolNote (d : Nat) (g : Nat) (cw : Nat) (margin : BitVec 6) (s : State) :
    (patrolNote d g cw margin s).vtf.counters = s.vtf.counters := by
  grind [patrolNote, counters_updDie]

theorem counters_prioDone (d : Nat) (n : Nat) (s : State) :
    (prioDone d n s).vtf.counters = s.vtf.counters := by
  grind [prioDone, counters_updDie]

theorem counters_barchanTook (n : Nat) (s : State) :
    (barchanTook n s).vtf.counters = s.vtf.counters := by
  grind [barchanTook, counters_updDie]

theorem counters_startMove (k : Nat) (m : MoveSt) (s : State) :
    (startMove k m s).vtf.counters = s.vtf.counters := by
  grind [startMove, counters_updSlot]

theorem counters_retireSlot (n : Nat) (s : State) :
    (retireSlot n s).vtf.counters = s.vtf.counters := by
  grind [retireSlot, counters_updSlot, counters_raiseFault]

theorem counters_takeSpare (n : Nat) (s : State) :
    (takeSpare n s).vtf.counters = s.vtf.counters := by
  grind [takeSpare, counters_updDie]

theorem evacuate_above (k : Nat) (n : Nat) (s : State) (hs : Above v s.vtf.counters) :
    Above v (evacuate k n s).vtf.counters := by
  simp only [evacuate]
  repeat' split
  all_goals grind [mediaTest_above, counters_retireSlot, counters_startMove, counters_takeSpare, evictSeg_above, mediaTo_above]

theorem counters_repack (g : Nat) (order : List (Nat × Nat × Nat × Nat)) (s : State) :
    (repack g order s).1.vtf.counters = s.vtf.counters := (repack_only g order s).counters_eq (by decide)

theorem compactSeg_above (g : Nat) (x : SegSt) (s : State) (hs : Above v s.vtf.counters) :
    Above v (compactSeg g x s).vtf.counters := by
  have hp (l : List Nat) (t : State) : (l.foldl (fun t sid => pruneKeys sid t) t).vtf.counters = t.vtf.counters :=
    counters_foldl (fun t sid => counters_pruneKeys sid t) l t
  simp only [compactSeg, hp]
  refine foldl_above (fun t sid ht => by grind [counters_trimRec, counters_updStream]) _ _ ?_
  rw [counters_updSeg]
  refine issueSeal_above _ ?_
  rw [counters_repack]
  exact foldl_above (fun t sid ht => by grind [counters_updStream]) _ s hs

theorem moveCommit_above (k : Nat) (m : MoveSt) (s : State) (hs : Above v s.vtf.counters) :
    Above v (moveCommit k m s).vtf.counters := by
  grind [moveCommit, compactSeg_above, counters_updSlot]

theorem copyFailed_above (m : MoveSt) (cw : Nat) (s : State) (hs : Above v s.vtf.counters) :
    Above v (copyFailed m cw s).vtf.counters := by
  grind [copyFailed, counters_rowFailed, mediaTest_above, counters_updDie]

theorem counters_leaveSlot (m : MoveSt) (s : State) :
    (leaveSlot m s).vtf.counters = s.vtf.counters := by
  grind [leaveSlot, counters_retireSlot, counters_updSlot]

theorem moveDone_above (k : Nat) (m : MoveSt) (s : State) (hs : Above v s.vtf.counters) :
    Above v (moveDone k m s).vtf.counters := by
  grind [moveDone, counters_updCores, counters_leaveSlot, mediaTest_above]

theorem recoverMove_above (k : Nat) (s : State) (hs : Above v s.vtf.counters) :
    Above v (recoverMove k s).vtf.counters := by
  grind [recoverMove, moveDone_above, counters_updSlot, counters_updDie]

end Sys2Proof.Machine
end

section
/-! SUPPORT. The counters through resets, release, mount and the end of a power loss. -/
namespace Sys2Proof.Machine
open Sys2Proof

variable {v : Nat → Nat}

theorem counters_noteLoss (k : Kind) (s : State) :
    (noteLoss k s).vtf.counters = s.vtf.counters := by
  grind [noteLoss]

theorem counters_resetVtf (k : Kind) (cold : Bool) (x : Trust) : (resetVtf k cold x).counters = x.counters := by
  simp only [resetVtf]
  split <;> rfl

theorem counters_applyReset (k : Kind) (s0 : State) :
    (applyReset k s0).vtf.counters = s0.vtf.counters := by
  simp only [applyReset, counters_resetVtf, counters_noteLoss, counters_dropOpenTrains]

theorem linkReset_above (s0 : State) (hs : Above v s0.vtf.counters) :
    Above v (linkReset s0).vtf.counters := by
  grind [linkReset, counters_releaseWaiting, counters_settleUnloads, settleSeals_above, counters_dropOpenTrains]

theorem counters_startHalf (s : State) :
    (startHalf s).vtf.counters = s.vtf.counters := by
  grind [startHalf]

theorem counters_collectorStart (s : State) :
    (collectorStart s).vtf.counters = s.vtf.counters := by
  have hr (l : List Nat) (t : State) : (l.foldl (fun t n => raiseFault n ((look n t.flt.detail).getD 0) t) t).vtf.counters = t.vtf.counters :=
    counters_foldl (fun t n => counters_raiseFault n _ t) l t
  simp only [collectorStart]
  split <;> exact hr _ _

theorem counters_startCommon (s : State) :
    (startCommon s).vtf.counters = s.vtf.counters := by
  grind [startCommon, counters_startHalf]

theorem release_above (straps : BitVec 4) (dnu : Bool) (s : State) (hs : Above v s.vtf.counters) :
    Above v (release straps dnu s).vtf.counters := by
  grind [release, counters_collectorStart, counters_startCommon, bootChoose_above]

theorem counters_stripSeg (g : Nat) (s : State) :
    (stripSeg g s).vtf.counters = s.vtf.counters := by
  simp only [stripSeg]
  split
  · rfl
  · exact (counters_foldl (fun t sid => counters_updStream t sid _) _ _).trans (counters_updSeg s g _)

theorem mendSeg_above (g : Nat) (lost : List (Nat × Nat × Bool)) (s : State) (hs : Above v s.vtf.counters) :
    Above v (mendSeg g lost s).vtf.counters := by
  grind [mendSeg, counters_stripSeg, counters_updSeg, sealSegment_above]

theorem reopenSeg_above (g : Nat) (s : State) (hs : Above v s.vtf.counters) :
    Above v (reopenSeg g s).vtf.counters := by
  grind [reopenSeg, counters_updStream, freeSeg_above, sealSegment_above]

theorem counters_reissueTrailers (s : State) :
    (reissueTrailers s).vtf.counters = s.vtf.counters := by
  refine counters_foldl (fun t e => ?_) _ s
  split
  · exact counters_foldl (fun u k => counters_issueWrite e.1 k false none u) _ t
  · rfl

theorem counters_dropLost (r : LostRange) (s : State) :
    (dropLost r s).vtf.counters = s.vtf.counters := by
  grind [dropLost, counters_updStream]

theorem counters_withdrawTrain (x : Train) (s : State) :
    (withdrawTrain x s).vtf.counters = s.vtf.counters := by
  simp only [withdrawTrain]
  rw [counters_foldl (fun t p => counters_writeDev p none t), counters_writeDev]
  exact counters_foldl (fun t m => counters_updRec t _ _ _) _ s

theorem writeBreach_above (rs : List LostRange) (s : State) (hs : Above v s.vtf.counters) :
    Above v (writeBreach rs s).vtf.counters := by
  simp only [writeBreach]
  split
  · exact hs
  · rw [counters_windowMsg]
    exact foldl_above (fun t p ht => by simpa only [counters_writeDev] using ht) _ _ (bumpCounter_above 1 s hs)

theorem acceptLoss_above (s : State) (hs : Above v s.vtf.counters) :
    Above v (acceptLoss s).vtf.counters := by
  simp only [acceptLoss]
  refine writeBreach_above _ _ ?_
  refine foldl_above (fun t e ht => by simpa only [counters_writeDev] using ht) _ _ ?_
  refine foldl_above (fun t x ht => by simpa only [counters_withdrawTrain] using ht) _ _ ?_
  refine foldl_above (fun t e ht => sealSegment_above _ _ _ t ht) _ _ ?_
  rw [counters_reissueTrailers]
  refine foldl_above (fun t e ht => reopenSeg_above _ t ht) _ _ ?_
  refine foldl_above (fun t e ht => mendSeg_above _ _ t ht) _ _ ?_
  refine foldl_above (fun t r ht => by simpa only [counters_dropLost] using ht) _ _ ?_
  simpa only [counters_dropOpenTrains] using hs

theorem counters_drainEarly (s : State) :
    (drainEarly s).vtf.counters = s.vtf.counters :=
  have one (h : Nat) (l : List Nat) (t : State) : (l.foldl (fun u i => earlyWritten h i u) t).vtf.counters = t.vtf.counters :=
    counters_foldl (fun u i => counters_earlyWritten h i u) l t
  (one 1 _ _).trans (one 0 _ s)

theorem settleAll_above (s : State) (hs : Above v s.vtf.counters) :
    Above v (settleAll s).vtf.counters := iter_above (fun t ht => drainAll_above t ht) _ s hs

theorem counters_startExt (k : Nat) (e : Ext) (s : State) :
    (startExt k e s).vtf.counters = s.vtf.counters := by
  grind [startExt, counters_takeFresh, counters_updCore]

theorem counters_recalAll (s : State) :
    (recalAll s).vtf.counters = s.vtf.counters := by
  grind [recalAll]

theorem counters_mountPilots (s : State) :
    (mountPilots s).vtf.counters = s.vtf.counters :=
  counters_foldl (fun t d => by simp only [counters_updDie, counters_takeFresh]) _ s

theorem mountRecovered_above (s : State) (hs : Above v s.vtf.counters) :
    Above v (settleAll (drainEarly (releaseWaiting s))).vtf.counters := by
  apply settleAll_above
  rw [counters_drainEarly, counters_releaseWaiting]
  exact hs

theorem mountMerged_above (s : State) (hs : Above v s.vtf.counters) :
    Above v (mediaTest (settleAll ((halvesByAge s).foldl (fun t h => mergeHalf drainAll h t) s))).vtf.counters := by
  apply mediaTest_above
  apply settleAll_above
  exact foldl_above (fun t h ht => mergeHalf_above drainAll drainAll_above h t ht) _ s hs

theorem mountRead_above (s : State) (hs : Above v s.vtf.counters) :
    Above v (recalAll ((List.range 4).foldl (fun t k => recoverMove k t) s)).vtf.counters := by
  rw [counters_recalAll]
  exact foldl_above (fun t k ht => recoverMove_above k t ht) _ s hs

theorem mountWritten_above (j : Option Nat) (p : List Byte) (s : State) (hs : Above v s.vtf.counters) :
    Above v (settleAll (writeDev p j s)).vtf.counters := by
  apply settleAll_above
  rw [counters_writeDev]
  exact hs

theorem mountCounted_above (s : State) (hs : Above v s.vtf.counters) :
    Above v (mountPilots (bumpCounter 8 s)).vtf.counters := by
  rw [counters_mountPilots]
  exact bumpCounter_above 8 s hs

theorem mountNow_above (s0 : State) (hs : Above v s0.vtf.counters) :
    Above v (mountNow s0).vtf.counters := by
  simp only [mountNow]
  rw [counters_readyMsg, counters_foldl (f := fun (t : State) (e : Nat × Ext) => startExt e.1 e.2 t) fun t e => counters_startExt e.1 e.2 t]
  dsimp only
  apply mountWritten_above
  dsimp only
  apply mountCounted_above
  apply mountMerged_above
  apply mountRecovered_above
  exact above_ite (acceptLoss_above _ (mountRead_above s0 hs)) (mountRead_above s0 hs)

end Sys2Proof.Machine
end

section
/-! SUPPORT. The counters through the caches, the supply, loads and the commands on faults. -/
namespace Sys2Proof.Machine
open Sys2Proof

variable {v : Nat → Nat}

theorem counters_backPut (la : LAddr) (off : Nat) (w : Word) (s : State) :
    (backPut la off w s).vtf.counters = s.vtf.counters := (backPut_only la off w s).counters_eq (by decide)

theorem counters_updTile (s : State) (t : Nat) (f : Tile → Tile) :
    (updTile s t f).vtf.counters = s.vtf.counters := by
  grind [updTile]

theorem counters_backPutAll (la : LAddr) (ws : List (Nat × Word)) (s : State) :
    (backPutAll la ws s).vtf.counters = s.vtf.counters := (backPutAll_only la ws s).counters_eq (by decide)

theorem counters_putLine (t : Nat) (l : CLine) (s : State) :
    (putLine t l s).vtf.counters = s.vtf.counters := by
  grind [putLine, counters_updTile]

theorem counters_dropLine (t : Nat) (la : LAddr) (s : State) :
    (dropLine t la s).vtf.counters = s.vtf.counters := by
  grind [dropLine, counters_updTile]

theorem counters_cleanLine (t : Nat) (l : CLine) (s : State) :
    (cleanLine t l s).vtf.counters = s.vtf.counters := by
  grind [cleanLine, counters_putLine, counters_backPutAll]

theorem counters_fillLine (x : Nat) (req : Nat) (cold : Bool) (la : LAddr) (s : State) :
    (fillLine x req cold la s).vtf.counters = s.vtf.counters := (fillLine_only x req cold la s).counters_eq (by decide)

theorem counters_stealLine (x : Nat) (la : LAddr) (s : State) :
    (stealLine x la s).2.vtf.counters = s.vtf.counters := (stealLine_only x la s).counters_eq (by decide)

theorem counters_storeWord (a : Agent) (cold : Bool) (la : LAddr) (off : Nat) (da : Nat) (w : Word) (s : State) :
    (storeWord a cold la off da w s).vtf.counters = s.vtf.counters := (storeWord_only a cold la off da w s).counters_eq (by decide)

theorem counters_storeUncached (la : LAddr) (off : Nat) (w : Word) (s : State) :
    (storeUncached la off w s).vtf.counters = s.vtf.counters := by
  grind [storeUncached, counters_stealLine, counters_backPut, counters_backPutAll]

theorem counters_drainOne (c : Nat) (s : State) :
    (drainOne c s).vtf.counters = s.vtf.counters := by
  grind [drainOne, counters_storeWord, counters_updCore]

theorem counters_drainCore (c : Nat) (s : State) :
    (drainCore c s).vtf.counters = s.vtf.counters := counters_iter (counters_drainOne c) _ s

theorem counters_drainCores (s : State) :
    (drainCores s).vtf.counters = s.vtf.counters := (drainCores_only s).counters_eq (by decide)

theorem counters_drainForLine (la : LAddr) (s : State) :
    (drainForLine la s).vtf.counters = s.vtf.counters := by
  unfold drainForLine
  exact counters_foldl (fun t c => by grind [counters_drainCore]) _ s

theorem counters_maintainLine (op : Nat) (t : Nat) (la : LAddr) (s : State) :
    (maintainLine op t la s).vtf.counters = s.vtf.counters := by
  grind [maintainLine, counters_cleanLine, counters_dropLine]

theorem counters_maintainAll (op : Nat) (la : LAddr) (s : State) :
    (maintainAll op la s).vtf.counters = s.vtf.counters := by
  unfold maintainAll
  rw [counters_foldl (fun t k => counters_maintainLine op k la t)]
  split
  · rfl
  · exact counters_drainForLine la s

theorem counters_sweepWays (x : Nat) (ways : BitVec 8) (drop : Bool) (s : State) :
    (sweepWays x ways drop s).vtf.counters = s.vtf.counters := by
  unfold sweepWays
  exact counters_foldl (fun t l => counters_maintainLine _ _ _ t) _ s

theorem counters_cleanCaches (drop : Bool) (s : State) :
    (cleanCaches drop s).vtf.counters = s.vtf.counters := by
  unfold cleanCaches
  rw [counters_foldl (fun t k => counters_sweepWays k 0xFF drop t)]
  exact counters_drainCores s

theorem writeCkpt_above (s : State) (hs : Above v s.vtf.counters) :
    Above v (writeCkpt s).vtf.counters := by
  grind [writeCkpt, bumpCounter_above]

theorem closeOut_above (stoppedAtRes : Bool) (s : State) (hs : Above v s.vtf.counters) :
    Above v (closeOut stoppedAtRes s).vtf.counters := by
  grind [closeOut, writeCkpt_above]

theorem counters_stopRuns (s : State) :
    (stopRuns s).vtf.counters = s.vtf.counters :=
  counters_foldl (fun t r => by grind [counters_ownRec]) _ s

theorem counters_holdupNext (s : State) :
    (holdupNext s).vtf.counters = s.vtf.counters := by
  grind [holdupNext, counters_recomputeW]

theorem counters_measEnd (s : State) :
    (measEnd s).vtf.counters = s.vtf.counters := by
  grind [measEnd, counters_recomputeW, counters_finishJob, counters_updJob, counters_holdupNext]

theorem counters_wantMeas (w : MeasWhy) (s : State) : (wantMeas w s).vtf.counters = s.vtf.counters := rfl

theorem counters_takeMeas (cNf : Nat) (esrMohm : Nat) (s : State) :
    (takeMeas cNf esrMohm s).vtf.counters = s.vtf.counters := by
  grind [takeMeas, counters_raiseFault]

theorem cmdHoldup_above (c : Ctx) (s : State) (hs : Above v s.vtf.counters) :
    (cmdHoldup c s).Above v := by
  grind [cmdHoldup, reject_above, counters_holdupNext, counters_newJob, Verdict.Above]

theorem counters_dropExt (pid : List Byte) (s : State) :
    (dropExt pid s).vtf.counters = s.vtf.counters := by
  grind [dropExt, counters_updCore]

theorem extFinish_above (c : Ctx) (f : List Byte) (s : State) (hs : Above v s.vtf.counters) :
    (extFinish c f s).Above v := by
  grind [extFinish, rejectAuth_above, answer_above, counters_dropExt, counters_startExt, Verdict.Above]

theorem cmdExtLoad_above (c : Ctx) (s : State) (hs : Above v s.vtf.counters) :
    (cmdExtLoad c s).Above v := by
  grind [cmdExtLoad, reject_above, extFinish_above, answer_above, Verdict.Above]

theorem cmdUopLoad_above (c : Ctx) (s : State) (hs : Above v s.vtf.counters) :
    (cmdUopLoad c s).Above v := by
  unfold cmdUopLoad
  extract_lets _ _ _ _ _ _ _ bad _ j _ _
  have hbad (n : Nat) : (bad n).Above v := answer_above _ _ _ _ s hs
  split; · trivial
  split; · exact rejectAuth_above _ s hs
  split; · exact hbad _
  split; · exact hbad _
  split; · exact hbad _
  split; · exact hbad _
  split; · exact hbad _
  split; · exact answer_above _ _ _ _ s hs
  have hj : j.2.vtf.counters = s.vtf.counters := counters_newJob _ _ _ _ s
  show Above v j.2.vtf.counters
  rwa [hj]

theorem cmdFaultRead_above (c : Ctx) (s : State) (hs : Above v s.vtf.counters) :
    (cmdFaultRead c s).Above v := by
  grind [cmdFaultRead, answer_above, reject_above, Verdict.Above]

theorem cmdFaultClear_above (c : Ctx) (s : State) (hs : Above v s.vtf.counters) :
    (cmdFaultClear c s).Above v := by
  grind [cmdFaultClear, answer_above, counters_clearLatches, Verdict.Above]

theorem cmdFaultInject_above (c : Ctx) (s : State) (hs : Above v s.vtf.counters) :
    (cmdFaultInject c s).Above v := by
  grind [cmdFaultInject, reject_above, answer_above, counters_latchFault, Verdict.Above]

theorem counters_ackWrite (w' : BitVec 16) (s : State) :
    (ackWrite w' s).vtf.counters = s.vtf.counters := by
  grind [ackWrite]

theorem counters_latchWrite (k : Nat) (w' : BitVec 16) (s : State) :
    (latchWrite k w' s).vtf.counters = s.vtf.counters := by
  grind [latchWrite, counters_clearLatches]

theorem counters_hselWrite (w' : BitVec 16) (s : State) :
    (hselWrite w' s).vtf.counters = s.vtf.counters := by
  grind [hselWrite]

theorem counters_forceWrite (k : Nat) (w : BitVec 16) (s : State) :
    (forceWrite k w s).vtf.counters = s.vtf.counters :=
  counters_foldl (fun t n => counters_raiseFault n 0 t) _ _

end Sys2Proof.Machine
end

section
/-! SUPPORT. The counters through sessions, keys, SANITIZE and the command engine. -/
namespace Sys2Proof.Machine
open Sys2Proof

variable {v : Nat → Nat}

theorem cmdSessionOpen_above (c : Ctx) (s : State) (hs : Above v s.vtf.counters) :
    (cmdSessionOpen c s).Above v := by
  grind [cmdSessionOpen, reject_above, rejectAuth_above, counters_takeFresh, answer_above, Verdict.Above]

theorem counters_endSessions (p : Session → Bool) (s : State) :
    (endSessions p s).vtf.counters = s.vtf.counters := by
  grind [endSessions]

theorem cmdSessionClose_above (c : Ctx) (s : State) (hs : Above v s.vtf.counters) :
    (cmdSessionClose c s).Above v := by
  grind [cmdSessionClose, reject_above, answer_above, counters_endSessions, Verdict.Above]

theorem cmdAttest_above (c : Ctx) (s : State) (hs : Above v s.vtf.counters) :
    (cmdAttest c s).Above v := by
  grind [cmdAttest, answer_above, reject_above, Verdict.Above]

theorem counters_ownKey (s : State) :
    (ownKey s).vtf.counters = s.vtf.counters := by
  grind [ownKey, counters_newKey]

theorem cmdProvision_above (c : Ctx) (s : State) (hs : Above v s.vtf.counters) :
    (cmdProvision c s).Above v := by
  unfold cmdProvision
  extract_lets _ _ _ f _ _ _ s1 s2 s3
  split; · exact reject_above _ _ s hs
  split; · exact reject_above _ _ s hs
  split; · exact reject_above _ _ s hs
  split; · exact rejectAuth_above _ s hs
  split; · exact reject_above _ _ s hs
  split; · trivial
  refine answer_above _ _ _ _ _ (mountNow_above _ ?_)
  have h1 : s1.vtf.counters = s.vtf.counters := counters_takeFresh s
  have h3 : s3.vtf.counters = s.vtf.counters := by
    rw [counters_startHalf, counters_createRec, counters_makeStream, counters_iter counters_ownKey, h1]
  rwa [h3]

theorem rotateStream_above (c : Ctx) (s : State) (hs : Above v s.vtf.counters) :
    (rotateStream c s).Above v := by
  grind [rotateStream, reject_above, placeStream_above, counters_newKey, counters_newJob, sealSegment_above, counters_updStream,
    counters_pruneKeys, counters_updJob, counters_finishJob, Verdict.Above]

theorem cmdKeyRotate_above (c : Ctx) (s : State) (hs : Above v s.vtf.counters) :
    (cmdKeyRotate c s).Above v := by
  grind [cmdKeyRotate, rotateStream_above, reject_above, rejectAuth_above, bumpCounter_above, answer_above, counters_endSessions,
    Verdict.Above]

theorem cmdCounterBump_above (c : Ctx) (s : State) (hs : Above v s.vtf.counters) :
    (cmdCounterBump c s).Above v := by
  grind [cmdCounterBump, reject_above, bumpCounter_above, answer_above, Verdict.Above]

theorem settleJobs_above (s : State) (hs : Above v s.vtf.counters) :
    Above v (settleJobs s).vtf.counters := by
  simp only [settleJobs]
  split
  · refine foldl_above (fun t j ht => by simpa only [counters_finishJob] using ht) _ _ (settleAll_above _ ?_)
    exact foldl_above (fun t x ht => abortTrain_above x _ _ _ _ t ht) _ s hs
  · exact hs

theorem sanitizeNow_above (boot : Bool) (debug : Nat) (s0 : State) (hs : Above v s0.vtf.counters) :
    Above v (sanitizeNow boot debug s0).vtf.counters := by
  unfold sanitizeNow
  extract_lets s s1 _ _ _ _ _ _ _ _ _ s2 s3 _ s4 s5
  have h1 : Above v s1.vtf.counters :=
    bumpCounter_above 5 _ (foldl_above (fun t k ht => recoverMove_above k t ht) _ _ (settleJobs_above s0 hs))
  have h3 : Above v s3.vtf.counters := by
    have he : s3.vtf.counters = s2.vtf.counters := counters_foldl (fun t e => by grind [counters_updCore]) _ s2
    rw [he]
    exact h1
  have h4 : Above v s4.vtf.counters := by
    simp only [s4]
    split
    · exact bootClose_above _ h3
    · exact h3
  have h5 : Above v s5.vtf.counters := by rwa [counters_recomputeW, counters_returnCredits]
  split
  · rwa [counters_readyMsg]
  · exact h5

theorem cmdSanitize_above (c : Ctx) (s : State) (hs : Above v s.vtf.counters) :
    (cmdSanitize c s).Above v := by
  grind [cmdSanitize, reject_above, answer_above, sanitizeNow_above, Verdict.Above]

theorem cmdDebugUnlock_above (c : Ctx) (s : State) (hs : Above v s.vtf.counters) :
    (cmdDebugUnlock c s).Above v := by
  grind [cmdDebugUnlock, reject_above, answer_above, counters_takeFresh, rejectAuth_above, bumpCounter_above, sanitizeNow_above,
    Verdict.Above]

theorem cmdIdentify_above (c : Ctx) (s : State) (hs : Above v s.vtf.counters) :
    (cmdIdentify c s).Above v := by
  grind [cmdIdentify, answer_above, Verdict.Above]

theorem cmdGetStatus_above (c : Ctx) (q : Nat) (s : State) (hs : Above v s.vtf.counters) :
    (cmdGetStatus c q s).Above v := by
  grind [cmdGetStatus, counters_takeFresh, answer_above, counters_setQueue, reject_above, Verdict.Above]

theorem counters_wakeNow (cause : Nat) (s : State) :
    (wakeNow cause s).vtf.counters = s.vtf.counters := by
  grind [wakeNow]

theorem counters_wake (cause : Nat) (s : State) :
    (wake cause s).vtf.counters = s.vtf.counters := by
  grind [wake, counters_wakeNow]

theorem counters_entered (p : PState) (s : State) :
    (entered p s).vtf.counters = s.vtf.counters := by
  grind [entered, counters_wakeNow]

theorem counters_settleEntry (s : State) :
    (settleEntry s).vtf.counters = s.vtf.counters := by
  grind [settleEntry, counters_entered]

theorem cmdPower_above (c : Ctx) (s : State) (hs : Above v s.vtf.counters) :
    (cmdPower c s).Above v := by
  grind [cmdPower, reject_above, answer_above, counters_formReply, counters_settleEntry, counters_newJob, Verdict.Above]

theorem dispatch_above (c : Ctx) (q : Nat) (s : State) (hs : Above v s.vtf.counters) :
    (dispatch c q s).Above v := by
  grind [dispatch, cmdIdentify_above, cmdGetStatus_above, cmdSessionOpen_above, cmdSessionClose_above, cmdAttest_above, cmdCreate_above,
    cmdOpen_above, cmdClose_above, cmdAppend_above, cmdRead_above, cmdSeal_above, cmdTrim_above, cmdInfo_above, cmdDelete_above,
    cmdBootStage_above, cmdBootCommit_above, cmdBootActivate_above, cmdRuleLoad_above, cmdRuleBind_above, cmdRuleUnload_above,
    cmdExtLoad_above, cmdUopLoad_above, cmdFaultRead_above, cmdFaultClear_above, cmdFaultInject_above, cmdPower_above, cmdHoldup_above,
    cmdProvision_above, cmdKeyRotate_above, cmdCounterBump_above, cmdSanitize_above, cmdDebugUnlock_above, Verdict.Above]

theorem admitPassed_above (c : Ctx) (q : Nat) (s : State) (hs : Above v s.vtf.counters) :
    (admitPassed c q s).Above v := by
  unfold admitPassed
  extract_lets opc busy _ s1
  have hd : (dispatch c q s1).Above v := dispatch_above c q s1 hs
  refine .ite (by simpa only [Verdict.Above, counters_formReply] using hs) (.ite trivial (.ite (reject_above _ _ s hs) (.ite trivial
    (.ite trivial (.ite (.ite hs ?_) (dispatch_above c q s hs))))))
  split
  · next h => rw [h] at hd; exact hd
  · exact hs
  · exact hd

theorem counters_setHead (q : Nat) (p : QPkt) (s : State) :
    (setHead q p s).vtf.counters = s.vtf.counters := by
  grind [setHead, counters_setQueue]

theorem counters_dropHead (q : Nat) (p : QPkt) (s : State) :
    (dropHead q p s).vtf.counters = s.vtf.counters := by
  grind [dropHead, counters_setQueue, counters_pump]

theorem counters_headWaits (q : Nat) (cause : Nat) (p : QPkt) (s : State) :
    (headWaits q cause p s).vtf.counters = s.vtf.counters := by
  grind [headWaits, counters_setHead]

theorem counters_answerAs (r : Reply) (sts : Status) (res : Nat) (s : State) :
    (answerAs r sts res s).vtf.counters = s.vtf.counters := by
  grind [answerAs, counters_formReply]

theorem failMember_above (q : Nat) (r : Reply) (last : Bool) (s : State) (hs : Above v s.vtf.counters) :
    Above v (failMember q r last s).vtf.counters := by
  grind [failMember, counters_answerAs, abortTrain_above]

theorem headPassed_above (q : Nat) (p : QPkt) (s : State) (hs : Above v s.vtf.counters) :
    Above v (headPassed q p s).2.vtf.counters := by
  have ha := admitPassed_above (ctxOf p) q s hs
  simp only [headPassed]
  split
  · next h => rw [h] at ha; rw [counters_dropHead]; exact ha
  · rwa [counters_headWaits]
  · next h => rw [h] at ha; rw [counters_headWaits]; exact ha

theorem checkHead_above (q : Nat) (s0 : State) (hs : Above v s0.vtf.counters) :
    Above v (checkHead q s0).2.vtf.counters := by
  unfold checkHead
  split; · exact hs
  extract_lets member r breaks s
  split
  · split
    · rw [counters_dropHead]
      split
      · exact failMember_above _ _ _ _ (by rwa [counters_countAuth])
      · rwa [counters_formReply, counters_countAuth]
    · exact hs
  · have h : Above v s.vtf.counters := by
      simp only [s]
      split
      · split
        · exact abortTrain_above _ _ _ _ _ s0 hs
        · exact hs
      · exact hs
    split; · rwa [counters_dropHead, counters_formReply]
    split
    · next r t heq =>
      have ht : (Checked.refused r t).Above v := heq ▸ checkPacket_above _ _ s h
      split
      · split
        · split
          · rw [counters_dropHead, counters_answerAs]; exact ht
          · rw [counters_dropHead]; exact failMember_above _ _ _ _ ht
          · rw [counters_dropHead, counters_formReply]; exact ht
        · rw [counters_dropHead]; exact failMember_above _ _ _ _ ht
      · rw [counters_dropHead, counters_formReply]; exact ht
    · next c t heq =>
      have ht : (Checked.passed c t).Above v := heq ▸ checkPacket_above _ _ s h
      rw [counters_setHead]
      exact ht

theorem admitHead_above (q : Nat) (s : State) (hs : Above v s.vtf.counters) :
    Above v (admitHead q s).2.vtf.counters := by
  grind [admitHead, checkHead_above, headPassed_above]

theorem newHead_above (q : Nat) (n : Nat) (s : State) (hs : Above v s.vtf.counters) :
    Above v (newHead q n s).vtf.counters := by
  induction n generalizing s with
  | zero => exact hs
  | succ n ih =>
    have hc := checkHead_above q s hs
    simp only [newHead]
    split <;> next t ht => rw [ht] at hc; first | exact ih t hc | exact hc

theorem headLeft_above (q : Nat) (s : State) (hs : Above v s.vtf.counters) :
    Above v (headLeft q s).vtf.counters := by
  grind [headLeft, newHead_above]

theorem counters_served (q : Nat) (urg : Bool) (s : State) :
    (served q urg s).vtf.counters = s.vtf.counters := by
  grind [served]

theorem grant_above (l : List Nat) (s : State) (hs : Above v s.vtf.counters) :
    Above v (grant l s).2.vtf.counters := by
  induction l generalizing s with
  | nil => exact hs
  | cons q l ih =>
    have hc := admitHead_above q s hs
    grind [grant, counters_served, headLeft_above]

theorem takeTurn_above (q : Nat) (n : Nat) (s : State) (hs : Above v s.vtf.counters) :
    Above v (takeTurn q n s).vtf.counters := by
  induction n generalizing s with
  | zero => exact hs
  | succ n ih => grind [takeTurn, grant_above]

theorem counters_noteRequest (s : State) :
    (noteRequest s).vtf.counters = s.vtf.counters := by
  grind [noteRequest]

theorem counters_renewAbort (q : Nat) (p : QPkt) (s : State) :
    (renewAbort q p s).vtf.counters = s.vtf.counters := by
  grind [renewAbort]

theorem deliver_above (p : QPkt) (s0 : State) (hs : Above v s0.vtf.counters) :
    Above v (deliver p s0).vtf.counters := by
  grind [deliver, counters_noteRequest, counters_formReply, counters_pump, checkHead_above, counters_setQueue, counters_renewAbort,
    counters_settleEntry, counters_served, takeTurn_above]

theorem counters_sideArrives (s : State) :
    (sideArrives s).vtf.counters = s.vtf.counters := by
  grind [sideArrives, counters_wake]

theorem arrive_above (opc : BitVec 16) (c : CmdIn) (s : State) (hs : Above v s.vtf.counters) :
    Above v (arrive opc c s).vtf.counters := by
  grind [arrive, deliver_above, counters_sideArrives]

theorem deliverBytes_above (chan : Chan) (b : List Byte) (ch : Nat) (cd : Nat) (s : State) (hs : Above v s.vtf.counters) :
    Above v (deliverBytes chan b ch cd s).vtf.counters := by
  grind [deliverBytes, deliver_above]

theorem expireCredit_above (q : Nat) (s : State) (hs : Above v s.vtf.counters) :
    Above v (expireCredit q s).vtf.counters := by
  have hd (p : QPkt) (t : State) (ht : Above v t.vtf.counters) : Above v (headLeft q (dropHead q p t)).vtf.counters :=
    headLeft_above q _ (by rwa [counters_dropHead])
  unfold expireCredit
  split
  · split
    · split
      · split
        · split
          · exact hd _ _ (by rw [counters_answerAs]; exact abortTrain_above _ _ _ _ _ s hs)
          · exact hd _ _ (by rw [counters_answerAs]; exact hs)
        · exact hd _ _ (by rwa [counters_formReply])
      · exact hs
    · exact hs
  · exact hs

end Sys2Proof.Machine
end

section
/-! SUPPORT. The counters through the link, the translation and the sealing engine. -/
namespace Sys2Proof.Machine
open Sys2Proof

variable {v : Nat → Nat}

theorem counters_linkUp (s : State) :
    (linkUp s).vtf.counters = s.vtf.counters := by
  grind [linkUp, counters_settleEntry, counters_pump]

theorem counters_toRecovery (s : State) :
    (toRecovery s).vtf.counters = s.vtf.counters := by
  grind [toRecovery]

theorem counters_configDone (lanes : BitVec 4) (peer : BitVec 3) (s : State) :
    (configDone lanes peer s).vtf.counters = s.vtf.counters := by
  grind [configDone, counters_linkUp]

theorem counters_ctrlWrite (w' : BitVec 32) (s : State) :
    (ctrlWrite w' s).vtf.counters = s.vtf.counters := by
  grind [ctrlWrite, counters_toRecovery]

theorem counters_hwWrite (ofs : Nat) (w : BitVec 32) (s : State) :
    (hwWrite ofs w s).vtf.counters = s.vtf.counters := by
  simp only [hwWrite]
  split
  case h_2 => exact counters_ctrlWrite w s
  all_goals rfl

theorem counters_linkProto (typ : Byte) (s : State) :
    (linkProto typ s).vtf.counters = s.vtf.counters := by
  grind [linkProto, counters_raiseFault]

theorem counters_regAccess (ofs : Nat) (xtag : BitVec 16) (data : Option (BitVec 32)) (s : State) :
    (regAccess ofs xtag data s).vtf.counters = s.vtf.counters := by
  cases data with
  | none => simp only [regAccess, counters_pump]
  | some d =>
    simp only [regAccess, counters_pump]
    split
    · rfl
    · exact counters_hwWrite ofs d s

theorem closeAssembly_above (s : State) (hs : Above v s.vtf.counters) :
    Above v (closeAssembly s).vtf.counters := by
  grind [closeAssembly, deliverBytes_above]

theorem cmdLink_above (first : Bool) (last : Bool) (payload : List Byte) (s0 : State) (hs : Above v s0.vtf.counters) :
    Above v (cmdLink first last payload s0).vtf.counters := by
  grind [cmdLink, closeAssembly_above, counters_pump, counters_linkProto, counters_formReply]

theorem counters_badData (typ : Byte) (lfl : Byte) (len : Nat) (s : State) :
    (badData typ lfl len s).vtf.counters = s.vtf.counters := by
  grind [badData, counters_pump, counters_linkProto]

theorem takeData_above (xtag : BitVec 16) (typ : Byte) (lfl : Byte) (payload : List Byte) (s0 : State) (hs : Above v s0.vtf.counters) :
    Above v (takeData xtag typ lfl payload s0).vtf.counters := by
  grind [takeData, counters_noteRequest, counters_regAccess, counters_badData, cmdLink_above]

theorem rxData_above (good : Bool) (lseq : BitVec 16) (xtag : BitVec 16) (typ : Byte) (lfl : Byte) (payload : List Byte) (s : State) (hs :
    Above v s.vtf.counters) :
    Above v (rxData good lseq xtag typ lfl payload s).vtf.counters := by
  grind [rxData, counters_settleEntry, takeData_above]

theorem counters_resend (s : State) :
    (resend s).vtf.counters = s.vtf.counters := by
  grind [resend, counters_raiseFault, counters_toRecovery]

theorem counters_takeAck (n : Nat) (s : State) :
    (takeAck n s).vtf.counters = s.vtf.counters := by
  grind [takeAck, counters_settleEntry, counters_pump]

theorem counters_takeNak (n : Nat) (s : State) :
    (takeNak n s).vtf.counters = s.vtf.counters := by
  grind [takeNak, counters_settleEntry, counters_pump, counters_resend]

theorem counters_takeCredit (rdl : Nat) (rhl : Nat) (msl : Nat) (cfl : Nat) (s : State) :
    (takeCredit rdl rhl msl cfl s).vtf.counters = s.vtf.counters := by
  grind [takeCredit, counters_settleEntry, counters_pump]

theorem counters_takeControl (lseq : BitVec 16) (xtag : BitVec 16) (typ : Byte) (lfl : Byte) (payload : List Byte) (s : State) :
    (takeControl lseq xtag typ lfl payload s).vtf.counters = s.vtf.counters := by
  grind [takeControl, counters_takeAck, counters_takeNak, counters_takeCredit]

theorem counters_sideReject (s : State) :
    (sideReject s).vtf.counters = s.vtf.counters := by
  grind [sideReject]

theorem counters_mapFill (g : Nat) (s : State) :
    (mapFill g s).vtf.counters = s.vtf.counters := by
  grind [mapFill, counters_takeFresh]

theorem counters_copyBad (copy : Nat) (s : State) :
    (copyBad copy s).vtf.counters = s.vtf.counters := by
  grind [copyBad, counters_takeFresh, counters_codewordRead]

theorem counters_mapReport (det : Nat) (s : State) :
    (mapReport det s).vtf.counters = s.vtf.counters := by
  grind [mapReport, counters_copyBad]

theorem counters_stage2 (g : Nat) (s : State) :
    ∀ a u, stage2 g s = .ok (a, u) → u.vtf.counters = s.vtf.counters := by
  grind [stage2, counters_mapFill]

theorem counters_readEntry (c : Nat) (lvl : Nat) (idx : Nat) (tab : Phys) (s : State) :
    ∀ a u, readEntry c lvl idx tab s = .ok (a, u) → u.vtf.counters = s.vtf.counters := by
  cases tab <;> grind [readEntry, counters_fillLine, → counters_stage2]

theorem counters_walkFrom (c : Nat) (da : Nat) (n : Nat) (tab : Phys) (s : State) :
    ∀ a t, walkFrom c da n tab s = .ok (a, t) → t.vtf.counters = s.vtf.counters := by
  induction n generalizing tab s with
  | zero => simp [walkFrom]
  | succ n ih => grind [walkFrom, counters_readEntry]

theorem counters_stage1 (c : Nat) (dom : Nat) (da : Nat) (s : State) :
    ∀ a u, stage1 c dom da s = .ok (a, u) → u.vtf.counters = s.vtf.counters := by
  grind [stage1, → counters_walkFrom]

theorem counters_tlbInsert (c : Nat) (e : TlbEntry) (s : State) :
    (tlbInsert c e s).vtf.counters = s.vtf.counters := by
  grind [tlbInsert, counters_updCore, counters_takeFresh]

theorem counters_settleTlb (c : Nat) (da : Nat) (store : Bool) (e : TlbEntry) (s : State) :
    ∀ a u, settleTlb c da store e s = .ok (a, u) → u.vtf.counters = s.vtf.counters := by
  intro a u h
  simp only [settleTlb] at h
  repeat' split at h
  all_goals grind [counters_tlbInsert, counters_stage2]

theorem counters_translate (c : Nat) (dom : Nat) (da : Nat) (store : Bool) (s : State) :
    ∀ a u, translate c dom da store s = .ok (a, u) → u.vtf.counters = s.vtf.counters := by
  grind [translate, → counters_settleTlb, → counters_stage1]

theorem counters_tlbDrop (p : TlbEntry → Bool) (s : State) :
    (tlbDrop p s).vtf.counters = s.vtf.counters := by
  grind [tlbDrop, counters_updCores]

theorem counters_invGo (op : Nat) (dom : Nat) (s : State) :
    (invGo op dom s).vtf.counters = s.vtf.counters := by
  grind [invGo, counters_tlbDrop]

theorem counters_invWrite (w' : BitVec 16) (s : State) :
    (invWrite w' s).vtf.counters = s.vtf.counters := by
  grind [invWrite, counters_invGo]

theorem counters_maintainDa (op : Nat) (c : Nat) (dom : Nat) (da : Nat) (s : State) :
    (maintainDa op c dom da s).vtf.counters = s.vtf.counters := by
  grind [maintainDa, → counters_translate, counters_mapReport, counters_maintainAll]

theorem counters_maintainWay (op : Nat) (tile : Nat) (set : Nat) (way : Nat) (s : State) :
    (maintainWay op tile set way s).vtf.counters = s.vtf.counters := by
  grind [maintainWay, counters_maintainLine, counters_drainForLine]

theorem counters_mopGo (c : Nat) (dom : Nat) (op : Nat) (mode : Nat) (tile : Nat) (s : State) :
    (mopGo c dom op mode tile s).vtf.counters = s.vtf.counters := by
  have hd (l : List Nat) (t : State) : (l.foldl (fun t x => maintainDa op c dom x t) t).vtf.counters = t.vtf.counters :=
    counters_foldl (fun t x => counters_maintainDa op c dom x t) l t
  grind [mopGo, counters_maintainDa, counters_maintainWay]

theorem counters_mopWrite (c : Nat) (dom : Nat) (w' : BitVec 16) (s : State) :
    (mopWrite c dom w' s).vtf.counters = s.vtf.counters := by
  grind [mopWrite, counters_mopGo]

theorem counters_sweepEnd (t : Nat) (s : State) :
    (sweepEnd t s).vtf.counters = s.vtf.counters := by
  grind [sweepEnd, counters_updTile, counters_sweepWays, counters_drainCores]

theorem counters_updSeal (s : State) (c : Nat) (f : SealRegs → SealRegs) :
    (updSeal s c f).vtf.counters = s.vtf.counters := by
  grind [updSeal, counters_updCore]

theorem counters_sealGo (c : Nat) (op : Nat) (s : State) :
    (sealGo c op s).vtf.counters = s.vtf.counters := by
  grind [sealGo, counters_updSeal]

theorem counters_sealCtlWrite (c : Nat) (w' : BitVec 16) (s : State) :
    (sealCtlWrite c w' s).vtf.counters = s.vtf.counters := by
  grind [sealCtlWrite, counters_sealGo, counters_updSeal]

theorem sealWord_above (c : Nat) (dom : Nat) (da : Nat) (s : State) (hs : Above v s.vtf.counters) :
    (sealWord c dom da s).Above v := by
  grind [sealWord, → counters_translate, counters_mapReport, counters_drainForLine, counters_fillLine, SealOut.Above]

theorem sealRead_above (c : Nat) (dom : Nat) (da : Nat) (n : Nat) (s : State) (hs : Above v s.vtf.counters) :
    (sealRead c dom da n s).Above v := by
  induction n generalizing da s with
  | zero => exact hs
  | succ n ih =>
    have hw := sealWord_above c dom da s hs
    simp only [sealRead]
    split
    · trivial
    · next h => rw [h] at hw; exact hw
    · next w t h =>
      rw [h] at hw
      split
      · have hr := ih (da + 1) t hw
        split
        · next h2 => rw [h2] at hr; exact hr
        · exact hr
      · exact hw

theorem sealPut_above (c : Nat) (dom : Nat) (da : Nat) (w' : BitVec 16) (s : State) (hs : Above v s.vtf.counters) :
    (sealPut c dom da w' s).Above v := by
  grind [sealPut, → counters_translate, counters_mapReport, counters_drainForLine, counters_storeUncached, counters_storeWord,
    SealOut.Above]

theorem sealWrite_above (c : Nat) (dom : Nat) (da : Nat) (bs : List Byte) (s : State) (hs : Above v s.vtf.counters) :
    (sealWrite c dom da bs s).Above v := by
  induction bs using List.twoStepInduction generalizing da s with
  | nil => exact hs
  | singleton a => exact hs
  | cons_cons a b rest ih _ =>
    have hp := sealPut_above c dom da (BitVec.ofNat 16 (a.toNat + 256 * b.toNat)) s hs
    simp only [sealWrite]
    split
    · next t h => rw [h] at hp; exact ih (da + 1) t hp
    · exact hp

theorem counters_sealEnd (c : Nat) (ok : Bool) (err : Nat) (s : State) :
    (sealEnd c ok err s).vtf.counters = s.vtf.counters := by
  grind [sealEnd, counters_updSeal]

theorem sealRun_above (c : Nat) (s : State) (hs : Above v s.vtf.counters) :
    Above v (sealRun c s).vtf.counters := by
  have hr (da n : Nat) (t : State) (ht : Above v t.vtf.counters) := sealRead_above c (sealOf s c).runDom.toNat da n t ht
  have hw (da : Nat) (bs : List Byte) (t : State) (ht : Above v t.vtf.counters) := sealWrite_above c (sealOf s c).runDom.toNat da bs t ht
  simp only [sealRun]
  repeat' split
  all_goals grind [counters_sealEnd, SealOut.Above]

end Sys2Proof.Machine
end

section
/-! SUPPORT. The counters through the ports and registers. -/
namespace Sys2Proof.Machine
open Sys2Proof

variable {v : Nat → Nat}

theorem counters_readEffect (c : Nat) (p : Nat) (s : State) :
    (readEffect c p s).vtf.counters = s.vtf.counters := by
  grind [readEffect, counters_updCore]

theorem counters_portRead (c : Nat) (p : Nat) (s : State) :
    (portRead c p s).2.vtf.counters = s.vtf.counters := by
  grind [portRead, counters_readEffect]

theorem counters_writeCore (c : Nat) (p : Nat) (w : BitVec 16) (s : State) :
    (writeCore c p w s).vtf.counters = s.vtf.counters := by
  unfold writeCore
  repeat' split
  all_goals rfl

theorem counters_writeCch (c : Nat) (dom : Nat) (p : Nat) (w : BitVec 16) (s : State) :
    (writeCch c dom p w s).vtf.counters = s.vtf.counters := by
  unfold writeCch
  repeat' split
  case h_1 => exact counters_mopWrite c dom w s
  all_goals rfl

theorem counters_writeMmu (p : Nat) (w : BitVec 16) (s : State) :
    (writeMmu p w s).vtf.counters = s.vtf.counters := by
  unfold writeMmu
  repeat' split
  case h_8 => exact counters_invWrite w s
  all_goals rfl

theorem counters_cselWrite (w' : BitVec 16) (s : State) :
    (cselWrite w' s).vtf.counters = s.vtf.counters := by
  grind [cselWrite]

theorem counters_writeEngines (c : Nat) (p : Nat) (w : BitVec 16) (s : State) :
    (writeEngines c p w s).vtf.counters = s.vtf.counters := by
  unfold writeEngines
  repeat' split
  case h_4 => exact counters_sealCtlWrite c w s
  all_goals rfl

theorem counters_writeAry (d : Nat) (o : Nat) (w : BitVec 16) (s : State) :
    (writeAry d o w s).vtf.counters = s.vtf.counters := by
  simp only [writeAry]
  repeat' split
  all_goals simp only [counters_startRecal, counters_startPatrol, counters_updDie]

theorem counters_writeOas (p : Nat) (w : BitVec 16) (s : State) :
    (writeOas p w s).vtf.counters = s.vtf.counters := by
  unfold writeOas
  split
  case h_3 => exact counters_budgetWrite w.toNat s
  all_goals rfl

theorem counters_polWrite (k : Nat) (w' : BitVec 16) (s : State) :
    (polWrite k w' s).vtf.counters = s.vtf.counters := by
  grind [polWrite]

theorem counters_writeFlt (p : Nat) (w : BitVec 16) (s : State) :
    (writeFlt p w s).vtf.counters = s.vtf.counters := by
  simp only [writeFlt]
  repeat' split
  all_goals simp only [counters_latchWrite, counters_forceWrite, counters_polWrite, counters_ackWrite, counters_hselWrite]

theorem counters_lockPatches (s : State) :
    (lockPatches s).vtf.counters = s.vtf.counters := by
  grind [lockPatches]

theorem counters_patchWord (lo : BitVec 16) (s : State) :
    (patchWord lo s).vtf.counters = s.vtf.counters := by
  grind [patchWord]

theorem counters_writeUcd (p : Nat) (w : BitVec 16) (s : State) :
    (writeUcd p w s).vtf.counters = s.vtf.counters := by
  simp only [writeUcd]
  repeat' split
  all_goals simp only [counters_lockPatches, counters_patchWord]

theorem counters_timeCapture (s : State) :
    (timeCapture s).vtf.counters = s.vtf.counters := by
  grind [timeCapture]

theorem counters_wdLoad (s : State) :
    (wdLoad s).vtf.counters = s.vtf.counters := by
  grind [wdLoad]

theorem counters_wdWrite (c : Nat) (w' : BitVec 16) (s : State) :
    (wdWrite c w' s).vtf.counters = s.vtf.counters := by
  grind [wdWrite, counters_wdLoad]

theorem writeRest_above (c : Nat) (p : Nat) (w : BitVec 16) (s : State) (hs : Above v s.vtf.counters) :
    Above v (writeRest c p w s).vtf.counters := by
  have hk := bootKeep_above (w.getLsbD 14) s hs
  simp only [writeRest]
  split
  case h_2 =>
    split
    · exact bootClose_above _ hk
    · exact hk
  case h_5 =>
    split
    · rwa [counters_timeCapture]
    · exact hs
  case h_9 => rwa [counters_wdWrite]
  all_goals exact hs

theorem portEffect_above (c : Nat) (dom : Nat) (p : Nat) (w : BitVec 16) (s : State) (hs : Above v s.vtf.counters) :
    Above v (portEffect c dom p w s).vtf.counters := by
  have keep {t : State} (h : t.vtf.counters = s.vtf.counters) : Above v t.vtf.counters := by rwa [h]
  exact above_ite hs <| above_ite (keep (counters_writeCore ..)) <| above_ite hs <| above_ite (keep (counters_writeCch ..)) <|
    above_ite (keep (counters_writeMmu ..)) <| above_ite (keep (counters_writeEngines ..)) <| above_ite (keep (counters_writeAry ..)) <|
    above_ite (keep (counters_writeOas ..)) <| above_ite (keep (counters_writeFlt ..)) <| above_ite hs <|
    above_ite (keep (counters_writeUcd ..)) <| above_ite (writeRest_above _ _ _ s hs) hs

theorem portWrite_above (c : Nat) (p : Nat) (w' : BitVec 16) (s : State) (hs : Above v s.vtf.counters) :
    Above v (portWrite c p w' s).vtf.counters := by
  grind [portWrite, counters_updCore, portEffect_above]

theorem applySync_above (c : Nat) (w : SyncW) (s : State) (hs : Above v s.vtf.counters) :
    Above v (applySync c w s).vtf.counters := by
  grind [applySync, portEffect_above]

theorem applySyncs_above (c : Nat) (s : State) (hs : Above v s.vtf.counters) :
    Above v (applySyncs c s).vtf.counters := foldl_above (fun t w ht => applySync_above c w t ht) _ _ hs

theorem countSyncs_above (c : Nat) (s : State) (hs : Above v s.vtf.counters) :
    Above v (countSyncs c s).vtf.counters := foldl_above (fun t w ht => applySync_above c w t ht) _ _ hs

end Sys2Proof.Machine
end

section
/-! SUPPORT. The counters through a core's data space, operands, traps and the frame of an instruction. -/
namespace Sys2Proof.Machine
open Sys2Proof

variable {v : Nat → Nat}

-- in head: skip

theorem counters_updLevel (s : State) (c : Nat) (f : LevelSt → LevelSt) :
    (updLevel s c f).vtf.counters = s.vtf.counters := by
  grind [updLevel, counters_updCore]

theorem readAt_above (c : Nat) (cold : Bool) (t : Trans) (s : State) (hs : Above v s.vtf.counters) :
    (readAt c cold t s).Above v := by
  grind [readAt, counters_portRead, counters_fillLine, Res.Above]

theorem readWord_above (c : Nat) (cold : Bool) (da : Nat) (s : State) (hs : Above v s.vtf.counters) :
    (readWord c cold da s).Above v := by
  grind [readWord, → counters_translate, readAt_above, Res.Above]

theorem barred_above (da : Nat) (w : Word) (s : State) (hs : Above v s.vtf.counters) :
    (barred da w s).Above v := by
  grind [barred, Res.Above]

theorem readBarred_above (c : Nat) (cold : Bool) (da : Nat) (s : State) (hs : Above v s.vtf.counters) :
    (readBarred c cold da s).Above v :=
  (readWord_above _ _ _ s hs).andThen fun ht => barred_above _ _ _ ht

theorem pushable_above (da : Nat) (w : Word) (s : State) (hs : Above v s.vtf.counters) :
    (pushable da w s).Above v := by
  grind [pushable, Res.Above]

theorem headerAt_above (c : Nat) (da : Nat) (s : State) (hs : Above v s.vtf.counters) :
    ∀ w u, headerAt c da s = some (w, u) → Above v u.vtf.counters := by
  intro w u h
  simp only [headerAt] at h
  split at h; · cases h
  next t s1 h1 =>
  have ht := readAt_above c false t s1 (counters_translate _ _ _ _ _ _ _ h1 ▸ hs)
  split at h
  · split at h
    · cases h
    · split at h
      · next h2 =>
        rw [h2] at ht
        cases h
        exact ht
      · cases h
  · cases h

theorem barrierBase_above (c : Nat) (base : Nat) (s : State) (hs : Above v s.vtf.counters) :
    (barrierBase c base s).Above v := by
  simp only [barrierBase]
  split; · exact hs
  next w t h =>
  have ht := headerAt_above _ _ s hs _ _ h
  refine .ite ht (.ite ?_ ht)
  refine (readWord_above _ _ _ t ht).andThen fun hu => (readWord_above _ _ _ _ hu).andThen fun hx => ?_
  split; · exact hx
  next h2 =>
  have hy := headerAt_above _ _ _ hx _ _ h2
  exact .ite hy (.ite hy hy)

theorem loadThrough_above (c : Nat) (base : Nat) (off : Nat) (s : State) (hs : Above v s.vtf.counters) :
    (loadThrough c base off s).Above v :=
  (barrierBase_above _ _ s hs).andThen fun ht => (readBarred_above _ _ _ _ ht).andThen fun hu => pushable_above _ _ _ hu

theorem outCheck_above (c : Nat) (p : Nat) (w : Word) (tt : Exc) (s : State) (hs : Above v s.vtf.counters) :
    (outCheck c p w tt s).Above v := by
  grind [outCheck, Res.Above]

theorem storeCheck_above (c : Nat) (cold : Bool) (da : Nat) (w : Word) (tt : Exc) (s : State) (hs : Above v s.vtf.counters) :
    (storeCheck c cold da w tt s).Above v := by
  simp only [storeCheck]
  split; · exact hs
  next t s1 h =>
  have h1 : Above v s1.vtf.counters := counters_translate _ _ _ _ _ _ _ h ▸ hs
  split
  · exact (outCheck_above _ _ _ _ s1 h1).andThen fun h2 => h2
  · exact (readAt_above _ _ _ s1 h1).andThen fun h2 => (barred_above _ _ _ h2).andThen fun h3 => h3
  · exact .ite (.ite h1 h1) <|
      (readAt_above _ _ _ s1 h1).andThen fun h2 => (barred_above _ _ _ h2).andThen fun h3 => h3

theorem counters_markCard (a : Nat) (t : Trans) (w : Word) (s : State) :
    (markCard a t w s).vtf.counters = s.vtf.counters := by
  grind [markCard]

theorem storeDo_above (c : Nat) (cold : Bool) (p : Plan) (s : State) (hs : Above v s.vtf.counters) :
    Above v (storeDo c cold p s).vtf.counters := by
  grind [storeDo, portWrite_above, counters_storeUncached, counters_storeWord, counters_markCard, counters_drainCore, counters_updCore]

theorem storeAt_above (c : Nat) (cold : Bool) (da : Nat) (w : Word) (tt : Exc) (s : State) (hs : Above v s.vtf.counters) :
    (storeAt c cold da w tt s).Above v :=
  (storeCheck_above _ _ _ _ _ s hs).andThen fun ht => storeDo_above _ _ _ _ ht

theorem spillOne_above (c : Nat) (s : State) (hs : Above v s.vtf.counters) :
    (spillOne c s).Above v := by
  simp only [spillOne]
  refine .ite hs ?_
  split; · exact hs
  next t s1 h =>
  have h1 : Above v s1.vtf.counters := counters_translate _ _ _ _ _ _ _ h ▸ hs
  exact .ite hs <| (readAt_above _ _ _ s1 h1).andThen fun h2 => (barred_above _ _ _ h2).andThen fun h3 =>
    storeDo_above _ _ _ _ h3

theorem spillDown_above (c : Nat) (keep : Nat) (n : Nat) (s : State) (hs : Above v s.vtf.counters) :
    (spillDown c keep n s).Above v := by
  induction n generalizing s with
  | zero => exact hs
  | succ n ih =>
    simp only [spillDown]
    split
    · exact hs
    · exact (spillOne_above c s hs).andThen fun ht => ih _ ht

theorem spillRun_above (c : Nat) (s : State) (hs : Above v s.vtf.counters) :
    (spillRun c s).Above v := by
  grind [spillRun, spillDown_above, Res.Above]

theorem refillOne_above (c : Nat) (s : State) (hs : Above v s.vtf.counters) :
    (refillOne c s).Above v := by
  simp only [refillOne]
  refine .ite hs ?_
  split; · exact hs
  next t s1 h =>
  have h1 : Above v s1.vtf.counters := counters_translate _ _ _ _ _ _ _ h ▸ hs
  exact .ite hs <| (readAt_above _ _ _ s1 h1).andThen fun h2 => (barred_above _ _ _ h2).andThen fun h3 => .ite hs h3

theorem refillUp_above (c : Nat) (n : Nat) (s : State) (hs : Above v s.vtf.counters) :
    (refillUp c n s).Above v := by
  induction n generalizing s with
  | zero => exact hs
  | succ n ih =>
    simp only [refillUp]
    split
    · exact hs
    · exact (refillOne_above c s hs).andThen fun ht => ih _ ht

theorem refillRun_above (c : Nat) (s : State) (hs : Above v s.vtf.counters) :
    (refillRun c s).Above v := by
  grind [refillRun, refillUp_above, Res.Above]

theorem need_above (c : Nat) (n : Nat) (s : State) (hs : Above v s.vtf.counters) :
    (need c n s).Above v :=
  .ite hs <| (refillRun_above c s hs).andThen fun ht => .ite ht ht

theorem room_above (c : Nat) (n : Nat) (news : Nat) (s : State) (hs : Above v s.vtf.counters) :
    (room c n news s).Above v :=
  .ite hs <| (spillRun_above c s hs).andThen fun ht => .ite ht ht

theorem counters_setTop (c : Nat) (n : Nat) (news : List Word) (s : State) :
    (setTop c n news s).vtf.counters = s.vtf.counters := by
  grind [setTop, counters_updLevel]

theorem replaceTop_above (c : Nat) (n : Nat) (news : List Word) (s : State) (hs : Above v s.vtf.counters) :
    (replaceTop c n news s).Above v :=
  (room_above c n _ s hs).andThen fun ht => ht

theorem inputs_above (c : Nat) (n : Nat) (tags : List Word → Bool) (s : State) (hs : Above v s.vtf.counters) :
    (inputs c n tags s).Above v :=
  (need_above c n s hs).andThen fun ht => .ite ht (.ite ht ht)

theorem counters_setFlags (c : Nat) (f : Flags) (s : State) :
    (setFlags c f s).vtf.counters = s.vtf.counters := by
  grind [setFlags, counters_updCore]

theorem counters_stopCore (c : Nat) (s : State) :
    (stopCore c s).vtf.counters = s.vtf.counters := by
  grind [stopCore, counters_raiseFault, counters_updCore]

theorem counters_machineCheck (c : Nat) (ra : BitVec 32) (ds : Bool) (opc : Nat) (det : Nat) (s : State) :
    (machineCheck c ra ds opc det s).vtf.counters = s.vtf.counters := by
  grind [machineCheck, counters_stopCore, counters_takeFresh, counters_updCore]

theorem counters_enterOrDouble (c : Nat) (e : EntryArgs) (s : State) :
    (enterOrDouble c e s).vtf.counters = s.vtf.counters := by
  grind [enterOrDouble, counters_machineCheck, counters_updCore]

theorem trapEntry_above (c : Nat) (ra : BitVec 32) (ds : Bool) (opc : Nat) (e : Exc) (s : State) (hs : Above v s.vtf.counters) :
    Above v (trapEntry c ra ds opc e s).vtf.counters := by
  have h1 := applySyncs_above c s hs
  have hr := spillRun_above c _ h1
  simp only [trapEntry]
  split
  · rwa [counters_enterOrDouble]
  · split <;> next heq =>
      rw [heq] at hr
      simp only [counters_enterOrDouble, counters_machineCheck]
      exact hr

theorem takeDue_above (c : Nat) (d : Due) (s : State) (hs : Above v s.vtf.counters) :
    Above v (takeDue c d s).vtf.counters := by
  have h1 := applySyncs_above c s hs
  cases d <;> simpa only [takeDue, counters_enterOrDouble, counters_machineCheck, counters_updCore] using h1

theorem applyDrained_above (c : Nat) (s : State) (hs : Above v s.vtf.counters) :
    Above v (applyDrained c s).vtf.counters := foldl_above (fun t w ht => applySync_above c w t ht) _ _ hs

theorem retl_above (c : Nat) (s : State) (hs : Above v s.vtf.counters) :
    Above v (retl c s).vtf.counters := by
  grind [retl, counters_updCore, applyDrained_above]

theorem counters_swlDown (c : Nat) (n : Nat) (next : BitVec 32) (s : State) :
    (swlDown c n next s).vtf.counters = s.vtf.counters := by
  grind [swlDown, counters_updCore]

theorem trapAt_above (c : Nat) (ia : Nat) (opc : Nat) (e : Exc) (s : State) (hs : Above v s.vtf.counters) :
    Above v (trapAt c ia opc e s).vtf.counters := by
  grind [trapAt, counters_mapReport, counters_updLevel, trapEntry_above]

theorem checkAt_above (c : Nat) (ia : Nat) (opc : Nat) (det : Nat) (s : State) (hs : Above v s.vtf.counters) :
    Above v (checkAt c ia opc det s).vtf.counters := by
  grind [checkAt, counters_updLevel, counters_machineCheck, applySyncs_above]

theorem retire_above (i : Ins) (bank : List Word) (ssp : BitVec 32) (fl : Flow) (s : State) (hs : Above v s.vtf.counters) :
    Above v (retire i bank ssp fl s).vtf.counters := by
  simp only [retire]
  split
  · exact hs
  · exact countSyncs_above _ _ hs
  · exact countSyncs_above _ _ (countSyncs_above _ _ hs)
  · exact hs
  · exact countSyncs_above _ _ hs
  · exact countSyncs_above _ _ hs

theorem runInsn_above (e : Enc) (f : Fetch) (body : Ins → State → Res Flow) (s0 : State) (hs : Above v s0.vtf.counters)
    (hb : ∀ i t, Above v t.vtf.counters → (body i t).Above v) : Above v (runInsn e f body s0).vtf.counters := by
  unfold runInsn
  extract_lets c s x l ilen imm ia i
  have h : Above v s.vtf.counters := hs
  have hbody := hb i s h
  split
  · exact trapAt_above _ _ _ _ s h
  · split
    · split
      · exact h
      · exact retire_above _ _ _ _ s h
    · split
      · next heq => exact retire_above _ _ _ _ _ (heq ▸ hbody : Res.Above v (.ok _ _))
      · next heq => exact trapAt_above _ _ _ _ _ (heq ▸ hbody : Res.Above v (.exc _ _))
      · next heq => exact checkAt_above _ _ _ _ _ (heq ▸ hbody : Res.Above v (.check _ _))
      · next heq => exact (heq ▸ hbody : Res.Above v (.wait _ _))

theorem insn_above {e : Enc} {mn : String} {f : Fetch} {body : Ins → State → Res Flow} {s : State} (hs : Above v s.vtf.counters)
    (hb : ∀ i t, Above v t.vtf.counters → (body i t).Above v) : OutAbove v (insn e mn f body s) := by
  unfold insn
  split
  · intro t h
    cases h
  · exact whenDue_above hs (runInsn_above e f body s hs hb)

theorem pureOp_above (n : Nat) (tags : List Word → Bool) (g : List Word → List Word) (i : Ins) (s : State) (hs : Above v s.vtf.counters) :
    (pureOp n tags g i s).Above v :=
  (inputs_above _ n tags s hs).andThen fun ht => (replaceTop_above _ n _ _ ht).andThen fun hu => hu

end Sys2Proof.Machine
end

section
/-! SUPPORT. The counters through the instructions on the stack, memory and words. -/
namespace Sys2Proof.Machine
open Sys2Proof

variable {v : Nat → Nat}

theorem permOp_above (n : Nat) (g : List Word → List Word) (i : Ins) (s : State) (hs : Above v s.vtf.counters) :
    (permOp n g i s).Above v :=
  (need_above _ n s hs).andThen fun ht => (replaceTop_above _ n _ _ ht).andThen fun hu => hu

theorem pushOp_above (g : Ins → List Word) (i : Ins) (s : State) (hs : Above v s.vtf.counters) :
    (pushOp g i s).Above v := by
  grind [pushOp, pureOp_above, Res.Above]

theorem spill8_above (i : Ins) (s : State) (hs : Above v s.vtf.counters) :
    (spill8 i s).Above v := by
  refine (need_above _ _ s hs).andThen fun {_ t} ht => .ite ht (.ite ht ?_)
  have hd := spillDown_above i.c ((curLevel (coreOf t i.c)).bank.length - 8) 8 _ ht
  split
  · next h => rw [h] at hd; exact hd
  all_goals exact ht

theorem anchorFault_above (cause : Nat) (da : Nat) (s : State) (hs : Above v s.vtf.counters) :
    (anchorFault cause da s).Above v := by
  grind [anchorFault, counters_takeFresh, Res.Above]

theorem anch_above (i : Ins) (s : State) (hs : Above v s.vtf.counters) :
    (anch i s).Above v := by
  refine (inputs_above _ _ _ s hs).andThen fun ht => ?_
  dsimp only
  split; · exact ht
  next r u h =>
  have hu : Above v u.vtf.counters := counters_translate _ _ _ _ _ _ _ h ▸ ht
  split
  · exact (replaceTop_above _ _ _ u hu).andThen fun hw => hw
  · exact anchorFault_above _ _ u hu

theorem ald_above (i : Ins) (s : State) (hs : Above v s.vtf.counters) :
    (ald i s).Above v := by
  refine (inputs_above _ _ _ s hs).andThen fun ht => .ite ht (.ite (anchorFault_above _ _ _ ht) ?_)
  split; · exact ht
  next r u h =>
  have hu : Above v u.vtf.counters := counters_translate _ _ _ _ _ _ _ h ▸ ht
  exact (replaceTop_above _ _ _ u hu).andThen fun hw => hw

theorem loadOp_above (i : Ins) (s : State) (hs : Above v s.vtf.counters) :
    (loadOp i s).Above v :=
  (inputs_above _ _ _ s hs).andThen fun ht => (loadThrough_above _ _ _ _ ht).andThen fun hu =>
    (replaceTop_above _ _ _ _ hu).andThen fun hw => hw

theorem storeOp_above (i : Ins) (s : State) (hs : Above v s.vtf.counters) :
    (storeOp i s).Above v := by
  refine (need_above _ _ s hs).andThen fun ht => ?_
  dsimp only
  split; · exact ht
  exact .ite ht <| (barrierBase_above _ _ _ ht).andThen fun hu => (storeAt_above _ _ _ _ _ _ hu).andThen fun hw => hw

theorem loadPair_above (i : Ins) (s : State) (hs : Above v s.vtf.counters) :
    (loadPair i s).Above v :=
  (inputs_above _ _ _ s hs).andThen fun ht => (barrierBase_above _ _ _ ht).andThen fun hu =>
    (readBarred_above _ _ _ _ hu).andThen fun hw => (readBarred_above _ _ _ _ hw).andThen fun hx => .ite hx hu

theorem storePair_above (i : Ins) (s : State) (hs : Above v s.vtf.counters) :
    (storePair i s).Above v := by
  refine (need_above _ _ s hs).andThen fun ht => ?_
  dsimp only
  split; · exact ht
  exact .ite ht <| (barrierBase_above _ _ _ ht).andThen fun hu => (storeCheck_above _ _ _ _ _ _ hu).andThen fun hw =>
    (storeCheck_above _ _ _ _ _ _ hw).andThen fun hx => storeDo_above _ _ _ _ (storeDo_above _ _ _ _ hx)

theorem loadCode_above (i : Ins) (s : State) (hs : Above v s.vtf.counters) :
    (loadCode i s).Above v :=
  (inputs_above _ _ _ s hs).andThen fun ht => .ite ht (.ite ht ((replaceTop_above _ _ _ _ ht).andThen fun hu => hu))

theorem istOp_above (i : Ins) (s : State) (hs : Above v s.vtf.counters) :
    (istOp i s).Above v :=
  (inputs_above _ _ _ s hs).andThen fun ht => .ite ht ht

theorem counters_clearMsk (c : Nat) (k : Nat) (s : State) :
    (clearMsk c k s).vtf.counters = s.vtf.counters := by
  grind [clearMsk, counters_updLevel]

theorem blockGo_above (c : Nat) {one : Nat → State → Res Unit} (h1 : ∀ k t, Above v t.vtf.counters → (one k t).Above v) (ks : List Nat)
    (lim : Option Nat) (s : State) (hs : Above v s.vtf.counters) : (blockGo c one ks lim s).Above v := by
  induction ks generalizing lim s with
  | nil => exact hs
  | cons k ks ih =>
    simp only [blockGo]
    split
    · split
      · exact hs
      · exact (h1 k s hs).andThen fun ht => ih _ _ (by rwa [counters_clearMsk])
    · exact ih _ s hs

theorem blockOp_above (pop : Nat → Nat) {one : Ins → Nat → Nat → State → Res Unit}
    (h1 : ∀ i a k t, Above v t.vtf.counters → (one i a k t).Above v) (i : Ins) (s : State) (hs : Above v s.vtf.counters) :
    (blockOp pop one i s).Above v := by
  simp only [blockOp]
  split; · exact hs
  refine (need_above _ _ s hs).andThen fun ht => ?_
  split; · exact ht
  split; · exact ht
  refine (blockGo_above _ (h1 i _) _ _ _ ht).andThen fun {_ u} hu => ?_
  split
  · show Above v (setTop i.c (pop i.imm) [] u).vtf.counters
    rwa [counters_setTop]
  · exact hu

theorem ldmOne_above (i : Ins) (base : Nat) (k : Nat) (s : State) (hs : Above v s.vtf.counters) :
    (ldmOne i base k s).Above v :=
  (loadThrough_above _ _ _ s hs).andThen fun ht => ht

theorem stmOne_above (i : Ins) (base : Nat) (k : Nat) (s : State) (hs : Above v s.vtf.counters) :
    (stmOne i base k s).Above v :=
  .ite hs <| (barrierBase_above _ _ s hs).andThen fun ht => storeAt_above _ _ _ _ _ _ ht

theorem portIn_above (i : Ins) (n : Nat) (p : Nat) (s : State) (hs : Above v s.vtf.counters) :
    (portIn i n p s).Above v := by
  refine .ite hs <| (room_above _ _ _ s hs).andThen fun {_ t} ht => ?_
  show Above v (portRead i.c p t).2.vtf.counters
  rwa [counters_portRead]

theorem portOut_above (i : Ins) (n : Nat) (p : Nat) (w : Word) (tt : Exc) (s : State) (hs : Above v s.vtf.counters) :
    (portOut i n p w tt s).Above v :=
  (outCheck_above _ _ _ _ s hs).andThen fun ht => portWrite_above _ _ _ _ ht

theorem withResult_above (c : Nat) (n : Nat) (news : List Word) (f : Flags) (s : State) (hs : Above v s.vtf.counters) :
    (withResult c n news f s).Above v :=
  (replaceTop_above _ _ _ s hs).andThen fun ht => ht

theorem genericOp_above (o : Gen2) (i : Ins) (s : State) (hs : Above v s.vtf.counters) :
    (genericOp o i s).Above v := by
  refine (inputs_above _ _ _ s hs).andThen fun ht => ?_
  split
  · exact ht
  · exact withResult_above _ _ _ _ _ ht

theorem negOp_above (i : Ins) (s : State) (hs : Above v s.vtf.counters) :
    (negOp i s).Above v := by
  refine (inputs_above _ _ _ s hs).andThen fun ht => ?_
  split
  · exact ht
  · exact withResult_above _ _ _ _ _ ht

theorem rawOp_above (g : BitVec 16 → BitVec 16 → Bool → BitVec 16 × Flags) (i : Ins) (s : State) (hs : Above v s.vtf.counters) :
    (rawOp g i s).Above v :=
  (inputs_above _ _ _ s hs).andThen fun ht => withResult_above _ _ _ _ _ ht

theorem rawOp1_above (g : BitVec 16 → BitVec 16 × Flags) (i : Ins) (s : State) (hs : Above v s.vtf.counters) :
    (rawOp1 g i s).Above v :=
  (inputs_above _ _ _ s hs).andThen fun ht => withResult_above _ _ _ _ _ ht

theorem mulOp_above (signed : Bool) (i : Ins) (s : State) (hs : Above v s.vtf.counters) :
    (mulOp signed i s).Above v :=
  (inputs_above _ _ _ s hs).andThen fun ht => withResult_above _ _ _ _ _ ht

theorem divwOp_above (i : Ins) (s : State) (hs : Above v s.vtf.counters) :
    (divwOp i s).Above v :=
  (inputs_above _ _ _ s hs).andThen fun ht => .ite ht (withResult_above _ _ _ _ _ ht)

theorem divuwOp_above (i : Ins) (s : State) (hs : Above v s.vtf.counters) :
    (divuwOp i s).Above v :=
  (inputs_above _ _ _ s hs).andThen fun ht => .ite ht (withResult_above _ _ _ _ _ ht)

theorem longOp_above (sub : Bool) (i : Ins) (s : State) (hs : Above v s.vtf.counters) :
    (longOp sub i s).Above v :=
  (inputs_above _ _ _ s hs).andThen fun ht => withResult_above _ _ _ _ _ ht

theorem crcOp_above (g : Bool → Nat → BitVec 16 → Nat) (i : Ins) (s : State) (hs : Above v s.vtf.counters) :
    (crcOp g i s).Above v := by
  grind [crcOp, pureOp_above, Res.Above]

theorem counters_setPreds (c : Nat) (imm : Nat) (r : Bool) (s : State) :
    (setPreds c imm r s).vtf.counters = s.vtf.counters := by
  grind [setPreds, counters_updLevel]

theorem cmpOp_above (tags : List Word → Bool) (g : Word → Word → Bool) (i : Ins) (s : State) (hs : Above v s.vtf.counters) :
    (cmpOp tags g i s).Above v :=
  (inputs_above _ _ _ s hs).andThen fun ht => ht

theorem ctagOp_above (i : Ins) (s : State) (hs : Above v s.vtf.counters) :
    (ctagOp i s).Above v :=
  (inputs_above _ _ _ s hs).andThen fun ht => ht

theorem callOp_above (len : Fin 8) (i : Ins) (s : State) (hs : Above v s.vtf.counters) :
    (callOp len i s).Above v :=
  (replaceTop_above _ _ _ s hs).andThen fun ht => ht

theorem jumpOp_above (i : Ins) (s : State) (hs : Above v s.vtf.counters) :
    (jumpOp i s).Above v :=
  (inputs_above _ _ _ s hs).andThen fun ht => ht

theorem calliOp_above (len : Fin 8) (i : Ins) (s : State) (hs : Above v s.vtf.counters) :
    (calliOp len i s).Above v :=
  (inputs_above _ _ _ s hs).andThen fun ht => ht

theorem loopOp_above (len : Fin 8) (i : Ins) (s : State) (hs : Above v s.vtf.counters) :
    (loopOp len i s).Above v :=
  (inputs_above _ _ _ s hs).andThen fun ht => ht

theorem repeatGo_above (i : Ins) {one : State → Res Bool} (h1 : ∀ t, Above v t.vtf.counters → (one t).Above v) (n : Nat) (lim : Option
    Nat)
    (s : State) (hs : Above v s.vtf.counters) : (repeatGo i one n lim s).Above v := by
  induction n generalizing lim s with
  | zero => exact hs
  | succ n ih =>
    simp only [repeatGo]
    split; · exact hs
    split; · exact hs
    refine (h1 s hs).andThen fun ht => ?_
    split
    · exact ht
    · exact ih _ _ ht

theorem stringOp_above {one : Ins → State → Res Bool} (h1 : ∀ i t, Above v t.vtf.counters → (one i t).Above v) (i : Ins) (s : State)
    (hs : Above v s.vtf.counters) : (stringOp one i s).Above v := by
  simp only [stringOp]
  split; · exact repeatGo_above i (h1 i) _ _ s hs
  split; · exact hs
  exact (h1 i s hs).andThen fun ht => ht

theorem movsOne_above (i : Ins) (s : State) (hs : Above v s.vtf.counters) :
    (movsOne i s).Above v :=
  (readBarred_above _ _ _ s hs).andThen fun ht => .ite ht <| (storeAt_above _ _ _ _ _ _ ht).andThen fun hu => hu

theorem stringWord_above (da : Nat) (w : Word) (s : State) (hs : Above v s.vtf.counters) :
    (stringWord da w s).Above v := by
  grind [stringWord, pushable_above, Res.Above]

theorem cmpsOne_above (i : Ins) (s : State) (hs : Above v s.vtf.counters) :
    (cmpsOne i s).Above v :=
  .ite hs <| ((readBarred_above _ _ _ s hs).andThen fun ht => stringWord_above _ _ _ ht).andThen fun ht =>
    (readBarred_above _ _ _ _ ht).andThen fun hu => (stringWord_above _ _ _ hu).andThen fun hw => hw

theorem fillOne_above (i : Ins) (s : State) (hs : Above v s.vtf.counters) :
    (fillOne i s).Above v :=
  .ite hs <| (storeAt_above _ _ _ _ _ s hs).andThen fun ht => ht

theorem stringWith_above (n : Nat) {one : Ins → State → Res Bool} (h1 : ∀ i t, Above v t.vtf.counters → (one i t).Above v) (i : Ins) (s :
    State)
    (hs : Above v s.vtf.counters) : (stringWith n one i s).Above v :=
  (need_above _ _ s hs).andThen fun ht => stringOp_above h1 i _ ht

theorem scanOne_above (i : Ins) (s : State) (hs : Above v s.vtf.counters) :
    (scanOne i s).Above v :=
  .ite hs <| (readBarred_above _ _ _ s hs).andThen fun ht => (stringWord_above _ _ _ ht).andThen fun hu => hu

theorem crcsOne_above (i : Ins) (s : State) (hs : Above v s.vtf.counters) :
    (crcsOne i s).Above v :=
  .ite hs <| .ite hs <| .ite hs <| ((readBarred_above _ _ _ s hs).andThen fun ht => stringWord_above _ _ _ ht).andThen fun ht => ht

end Sys2Proof.Machine
end

section
/-! SUPPORT. The counters through the instructions on levels and capabilities, and user microcode. -/
namespace Sys2Proof.Machine
open Sys2Proof

variable {v : Nat → Nat}

theorem swlOp_above (i : Ins) (s : State) (hs : Above v s.vtf.counters) :
    (swlOp i s).Above v := by
  grind [swlOp, counters_swlDown, counters_enterOrDouble, applySyncs_above, Res.Above]

theorem retlOp_above (i : Ins) (s : State) (hs : Above v s.vtf.counters) :
    (retlOp i s).Above v := by
  grind [retlOp, retl_above, Res.Above]

theorem nointOp_above (i : Ins) (s : State) (hs : Above v s.vtf.counters) :
    (nointOp i s).Above v := by
  grind [nointOp, counters_updCore, Res.Above]

theorem setdomOp_above (i : Ins) (s : State) (hs : Above v s.vtf.counters) :
    (setdomOp i s).Above v := by
  grind [setdomOp, counters_updLevel, Res.Above]

theorem rdcOp_above (i : Ins) (s : State) (hs : Above v s.vtf.counters) :
    (rdcOp i s).Above v :=
  (replaceTop_above _ _ _ s hs).andThen fun ht => ht

theorem wrcOp_above (i : Ins) (s : State) (hs : Above v s.vtf.counters) :
    (wrcOp i s).Above v :=
  (inputs_above _ _ _ s hs).andThen fun ht => ht

theorem popstOp_above (i : Ins) (s : State) (hs : Above v s.vtf.counters) :
    (popstOp i s).Above v :=
  (inputs_above _ _ _ s hs).andThen fun ht => ht

theorem synciOp_above (i : Ins) (s : State) (hs : Above v s.vtf.counters) :
    (synciOp i s).Above v :=
  (inputs_above _ _ _ s hs).andThen fun ht => .ite ht ht

theorem counters_putCap (c : Nat) (lvl : Nat) (k : Nat) (w' : Cap) (s : State) :
    (putCap c lvl k w' s).vtf.counters = s.vtf.counters := by
  grind [putCap, counters_updCore]

theorem cderiveOp_above (i : Ins) (s : State) (hs : Above v s.vtf.counters) :
    (cderiveOp i s).Above v :=
  (inputs_above _ _ _ s hs).andThen fun ht => .ite ht ht

theorem cxferOp_above (i : Ins) (s : State) (hs : Above v s.vtf.counters) :
    (cxferOp i s).Above v := by
  grind [cxferOp, counters_putCap, Res.Above]

theorem planFour_above (c : Nat) (tt : Exc) (w : Nat → Word) (base : Nat) (ks : List Nat) (s : State) (hs : Above v s.vtf.counters) :
    (planFour c tt w base ks s).Above v := by
  induction ks generalizing s with
  | nil => exact hs
  | cons k ks ih => exact (storeCheck_above _ _ _ _ _ s hs).andThen fun ht => (ih _ ht).andThen fun hu => hu

theorem cstoreOp_above (i : Ins) (s : State) (hs : Above v s.vtf.counters) :
    (cstoreOp i s).Above v :=
  (inputs_above _ _ _ s hs).andThen fun ht => (barrierBase_above _ _ _ ht).andThen fun hu =>
    (planFour_above _ _ _ _ _ _ hu).andThen fun hw => foldl_above (fun x p hx => storeDo_above _ _ p x hx) _ _ hw

theorem readFour_above (c : Nat) (base : Nat) (ks : List Nat) (s : State) (hs : Above v s.vtf.counters) :
    (readFour c base ks s).Above v := by
  induction ks generalizing s with
  | nil => exact hs
  | cons k ks ih => exact (readBarred_above _ _ _ s hs).andThen fun ht => (ih _ ht).andThen fun hu => hu

theorem cloadOp_above (i : Ins) (s : State) (hs : Above v s.vtf.counters) :
    (cloadOp i s).Above v := by
  refine (inputs_above _ _ _ s hs).andThen fun ht => (barrierBase_above _ _ _ ht).andThen fun hu =>
    (readFour_above _ _ _ _ hu).andThen fun hw => ?_
  dsimp only
  split
  · exact hu
  · exact .ite hw hu

theorem counters_noteUser (c : Nat) (opc : Nat) (cause : Nat) (s : State) :
    (noteUser c opc cause s).vtf.counters = s.vtf.counters := by
  grind [noteUser]

theorem counters_microStart (start : Nat) (s : State) :
    (microStart start s).2.vtf.counters = s.vtf.counters := by
  grind [microStart, counters_takeFresh]

theorem ldwStep_above (c : Nat) (m : Micro) (a : Nat) (b : Nat) (s : State) (hs : Above v s.vtf.counters) :
    (ldwStep c m a b s).Above v :=
  .ite hs <| .ite hs <| (loadThrough_above _ _ _ s hs).andThen fun ht => ht

theorem stwCheck_above (c : Nat) (l : List Word) (w : Word) (s : State) (hs : Above v s.vtf.counters) :
    (stwCheck c l w s).Above v :=
  .ite hs <| .ite hs <| .ite hs <| (barrierBase_above _ _ s hs).andThen fun ht => storeCheck_above _ _ _ _ _ _ ht

theorem stwStep_above (c : Nat) (m : Micro) (a : Nat) (b : Nat) (s : State) (hs : Above v s.vtf.counters) :
    (stwStep c m a b s).Above v :=
  (stwCheck_above _ _ _ s hs).andThen fun ht => ht

theorem inpStep_above (c : Nat) (m : Micro) (a : Nat) (b : Nat) (s : State) (hs : Above v s.vtf.counters) :
    (inpStep c m a b s).Above v := by
  grind [inpStep, counters_portRead, Res.Above]

theorem outpStep_above (c : Nat) (opc : Nat) (m : Micro) (a : Nat) (b : Nat) (s : State) (hs : Above v s.vtf.counters) :
    (outpStep c opc m a b s).Above v := by
  refine .ite hs (.ite ?_ ((outCheck_above _ _ _ _ s hs).andThen fun ht => ht))
  show Above v (noteUser c opc 2 s).vtf.counters
  rwa [counters_noteUser]

theorem peekStep_above (c : Nat) (m : Micro) (a : Nat) (d : Nat) (s : State) (hs : Above v s.vtf.counters) :
    (peekStep c m a d s).Above v :=
  (need_above _ _ s hs).andThen fun ht => .ite ht ht

theorem heldCheck_above (c : Nat) (h : Option HeldWrite) (s : State) (hs : Above v s.vtf.counters) : (heldCheck c h s).Above v := by
  simp only [heldCheck]
  split; · exact hs
  split
  · exact (outCheck_above _ _ _ _ s hs).andThen fun ht => ht
  · exact (stwCheck_above _ _ _ s hs).andThen fun ht => ht

/-- The held write of a microcode routine lowers no counter where it is done. -/
theorem heldCheck_write (c : Nat) (h : Option HeldWrite) (s t : State) (g : State → State) (hg : heldCheck c h s = .ok g t) (u : State)
    (hu : Above v u.vtf.counters) : Above v (g u).vtf.counters := by
  have ok {α : Type} {r : Res α} {f : α → State → State} (hf : ∀ a, Above v (f a u).vtf.counters)
      (h : (r.andThen fun a t => .ok (f a) t) = .ok g t) : Above v (g u).vtf.counters := by
    cases r with
    | ok a t => cases h; exact hf a
    | exc e t => cases h
    | check d t => cases h
    | wait da t => cases h
  simp only [heldCheck] at hg
  split at hg
  · cases hg; exact hu
  · split at hg
    · exact ok (fun _ => portWrite_above _ _ _ u hu) hg
    · exact ok (fun p => storeDo_above _ _ p u hu) hg

theorem endStep_above (c : Nat) (m : Micro) (imm : Nat) (s : State) (hs : Above v s.vtf.counters) :
    (endStep c m imm s).Above v := by
  refine (need_above _ _ s hs).andThen fun {_ t} ht => ?_
  have hc := heldCheck_above c m.held _ ht
  cases hg : heldCheck c m.held t with
  | ok act u =>
    rw [hg] at hc
    refine (replaceTop_above _ _ _ u hc).andThen fun hw => heldCheck_write c m.held t u act hg _ ?_
    rw [counters_updLevel]
    split
    · rwa [counters_setFlags]
    · exact hw
  | exc e u => rw [hg] at hc; exact hc
  | check d u => rw [hg] at hc; exact hc
  | wait da u => rw [hg] at hc; exact hc

theorem badMicro_above {α : Type} (c pc : Nat) (s : State) (hs : Above v s.vtf.counters) : (badMicro c pc s : Res α).Above v := by
  simpa only [badMicro, Res.Above, counters_raiseFault] using hs

theorem microStep_above (i : Ins) (opc : Nat) (w : BitVec 24) (m : Micro) (s : State) (hs : Above v s.vtf.counters) :
    (microStep i opc w m s).Above v := by
  simp only [microStep]
  split
  case h_2 => exact peekStep_above _ _ _ _ s hs
  case h_9 => exact ldwStep_above _ _ _ _ s hs
  case h_10 => exact stwStep_above _ _ _ _ s hs
  case h_11 => exact inpStep_above _ _ _ _ s hs
  case h_12 => exact outpStep_above _ _ _ _ _ s hs
  case h_13 => exact badMicro_above _ _ s hs
  all_goals exact hs

theorem microRun_above (i : Ins) (opc : Nat) (n : Nat) (lim : Option Nat) (m : Micro) (s : State) (hs : Above v s.vtf.counters) :
    (microRun i opc n lim m s).Above v := by
  induction n generalizing lim m s with
  | zero => simpa only [microRun, Res.Above, counters_noteUser] using hs
  | succ n ih =>
    simp only [microRun]
    split; · exact hs
    split; · exact badMicro_above _ _ s hs
    split; · exact hs
    split; · exact endStep_above _ _ _ s hs
    exact (microStep_above _ _ _ _ s hs).andThen fun ht => ih _ _ _ ht

theorem userBody_above (opc : Nat) (e : UEntry) (i : Ins) (s : State) (hs : Above v s.vtf.counters) :
    (userBody opc e i s).Above v := by
  grind [userBody, microRun_above, counters_microStart, Res.Above]

theorem counters_noteInvalid (c : Nat) (opc : Nat) (e : UEntry) (f : Fetch) (s : State) :
    (noteInvalid c opc e f s).vtf.counters = s.vtf.counters := by
  grind [noteInvalid, counters_noteUser]

end Sys2Proof.Machine
end

section
/-! SUPPORT. The counters through a core's events, the heap, the test port and a tick. -/
namespace Sys2Proof.Machine
open Sys2Proof

variable {v : Nat → Nat}

theorem counters_assertReq (c : Nat) (req : BitVec 8) (s : State) :
    (assertReq c req s).vtf.counters = s.vtf.counters := by
  grind [assertReq, counters_updCore]

theorem microFail_above (c : Nat) (a : BitVec 15) (s : State) (hs : Above v s.vtf.counters) :
    Above v (microFail c a s).vtf.counters := by
  grind [microFail, checkAt_above, counters_raiseFault]

theorem counters_storeFails (c : Nat) (fail : StoreFail) (s : State) :
    (storeFails c fail s).vtf.counters = s.vtf.counters := by
  simp only [storeFails]
  repeat' split
  all_goals simp only [counters_updCore, counters_dropLine]

theorem engineRun_above (c : Nat) (r : Res Unit) (s : State) (hr : r.Above v) (hs : Above v s.vtf.counters) :
    Above v (engineRun c r s).vtf.counters := by
  simp only [engineRun]
  split; · exact hs
  cases r with
  | ok a t => exact hr
  | check d t => exact hr
  | exc e t => exact hs
  | wait da t => exact hs

theorem counters_leaveStartup (s : State) :
    (leaveStartup s).vtf.counters = s.vtf.counters := by
  grind [leaveStartup, counters_lockPatches, counters_readyMsg]

theorem counters_mopCmd (op : Nat) (m : MopArgs) (s : State) :
    (mopCmd op m s).vtf.counters = s.vtf.counters := by
  grind [mopCmd, counters_mopWrite]

theorem gated_above (c : Nat) (may : Bool) (e : Exc) (t s : State) (ht : Above v t.vtf.counters) (hs : Above v s.vtf.counters) :
    OutAbove v (gated c may e t s) := by
  refine whenDue_above hs ?_
  split
  · exact ht
  · exact trapAt_above _ _ _ _ s hs

theorem invCmd_above (c : Nat) (op : Nat) (dom : Nat) (s : State) (hs : Above v s.vtf.counters) :
    OutAbove v (invCmd c op dom s) := by
  grind [invCmd, gated_above, counters_invWrite]

theorem sealCmd_above (c : Nat) (op : Nat) (s : State) (hs : Above v s.vtf.counters) :
    OutAbove v (sealCmd c op s) := by
  grind [sealCmd, gated_above, counters_sealCtlWrite]

theorem counters_heapWrite (n : Nat) (a : Nat) (w : Word) (s : State) :
    (heapWrite n a w s).vtf.counters = s.vtf.counters := by
  grind [heapWrite, counters_storeWord]

theorem counters_heapCopy (n : Nat) (src : Nat) (dst : Nat) (k : Nat) (s : State) :
    (heapCopy n src dst k s).vtf.counters = s.vtf.counters := by
  induction k generalizing src dst s with
  | zero => rfl
  | succ k ih => rw [heapCopy, ih, counters_heapWrite]

theorem counters_finishMove (n : Nat) (src : Nat) (dst : Nat) (da : BitVec 32) (s : State) :
    (finishMove n src dst da s).vtf.counters = s.vtf.counters := by
  grind [finishMove, counters_heapCopy, counters_heapWrite]

theorem counters_bypass (ir : BitVec 5) (s : State) :
    (bypass ir s).vtf.counters = s.vtf.counters := by
  grind [bypass]

theorem counters_debugRead (dom : Nat) (da : Nat) (s : State) :
    (debugRead dom da s).vtf.counters = s.vtf.counters := by
  grind [debugRead, counters_drainForLine, counters_takeFresh]

theorem counters_debugWrite (dom : Nat) (da : Nat) (w : Word) (s : State) :
    (debugWrite dom da w s).vtf.counters = s.vtf.counters := by
  grind [debugWrite, counters_storeUncached, counters_drainForLine]

theorem vendorAct_above (a : Vendor) (s : State) (hs : Above v s.vtf.counters) :
    Above v (vendorAct a s).vtf.counters := by
  cases a with
  | writeX c p data => exact portEffect_above _ _ _ _ s hs
  | testMode =>
    simp only [vendorAct]
    split
    · rwa [counters_lockPatches]
    · exact hs
  | _ => simpa only [vendorAct, counters_updCore, counters_debugRead, counters_debugWrite, counters_portRead] using hs

theorem counters_tickNow (s : State) :
    (tickNow s).vtf.counters = s.vtf.counters := by
  grind [tickNow, counters_drainCores]

end Sys2Proof.Machine
end

section
/-! SUPPORT. The counters through the rows of the events. -/
namespace Sys2Proof.Machine
open Sys2Proof

variable {v : Nat → Nat}

theorem next_above {t : State} (ht : Above v t.vtf.counters) : OutAbove v (.next t) := by
  intro u hu
  cases hu
  exact ht

theorem refused_above (r : Refusal) : OutAbove v (.refused r) := by
  intro u hu
  cases hu

theorem execStreamDeletionComplete_above (s : State) (hs : Above v s.vtf.counters) : OutAbove v (execStreamDeletionComplete s) := by
  refine next_above ?_
  grind [deletionDone_above]

theorem execRead_above (r : BootRead) (s : State) (hs : Above v s.vtf.counters) : OutAbove v (execRead r s) := by
  refine next_above ?_
  grind [counters_bootRead]

theorem execFastRead_above (r : BootRead) (s : State) (hs : Above v s.vtf.counters) : OutAbove v (execFastRead r s) := by
  refine next_above ?_
  grind [counters_bootRead]

theorem execQuadOutputFastRead_above (r : BootRead) (s : State) (hs : Above v s.vtf.counters) :
    OutAbove v (execQuadOutputFastRead r s) := by
  refine next_above ?_
  grind [counters_bootRead]

theorem execQuadIoFastRead_above (r : BootRead) (s : State) (hs : Above v s.vtf.counters) : OutAbove v (execQuadIoFastRead r s) := by
  refine next_above ?_
  grind [counters_bootRead]

theorem execReadIdentification_above (n : Nat) (s : State) (hs : Above v s.vtf.counters) : OutAbove v (execReadIdentification n s) :=
  next_above (by rwa [counters_bootDrive _ s rfl])

theorem execReadSfdp_above (r : BootRead) (s : State) (hs : Above v s.vtf.counters) : OutAbove v (execReadSfdp r s) :=
  next_above (by rwa [counters_bootDrive _ s rfl])

theorem execEnter4ByteAddressMode_above (s : State) (hs : Above v s.vtf.counters) : OutAbove v (execEnter4ByteAddressMode s) :=
  next_above (by rwa [counters_bootDrive _ s rfl])

theorem execExit4ByteAddressMode_above (s : State) (hs : Above v s.vtf.counters) : OutAbove v (execExit4ByteAddressMode s) :=
  next_above (by rwa [counters_bootDrive _ s rfl])

theorem execIgnoredFlashCommand_above (s : State) (hs : Above v s.vtf.counters) : OutAbove v (execIgnoredFlashCommand s) :=
  next_above (by rwa [counters_bootDrive _ s rfl])

theorem execUnknownBootOpcode_above (s : State) (hs : Above v s.vtf.counters) : OutAbove v (execUnknownBootOpcode s) :=
  next_above hs

theorem execBootSealVerified_above (s : State) (hs : Above v s.vtf.counters) : OutAbove v (execBootSealVerified s) :=
  whenDue_above hs hs

theorem execBootWindowReady_above (s : State) (hs : Above v s.vtf.counters) : OutAbove v (execBootWindowReady s) :=
  whenDue_above hs (by rwa [counters_windowReady])

theorem execReadStatus_above (r : StatusRead) (s : State) (hs : Above v s.vtf.counters) : OutAbove v (execReadStatus r s) := by
  refine next_above ?_
  rwa [counters_bootDrive _ s]
  cases r.ready with
  | none => rfl
  | some k =>
    dsimp only
    split
    · exact counters_windowReady s
    · rfl

theorem execBootBlockVerify_above (fetched : Bool) (s : State) (hs : Above v s.vtf.counters) :
    OutAbove v (execBootBlockVerify fetched s) := by
  refine next_above ?_
  grind [counters_verifyNext]

theorem execBootWindowClose_above (s : State) (hs : Above v s.vtf.counters) : OutAbove v (execBootWindowClose s) :=
  whenDue_above hs (bootClose_above s hs)

theorem execBootWindowAutoClose_above (s : State) (hs : Above v s.vtf.counters) : OutAbove v (execBootWindowAutoClose s) :=
  whenDue_above hs (bootClose_above s hs)

theorem execBootKeepWrite_above (keep : Bool) (s : State) (hs : Above v s.vtf.counters) : OutAbove v (execBootKeepWrite keep s) :=
  whenDue_above hs (bootKeep_above _ s hs)

theorem execRuleExecutionStart_above (die : Fin 8) (s : State) (hs : Above v s.vtf.counters) :
    OutAbove v (execRuleExecutionStart die s) := by
  refine next_above ?_
  grind [counters_markIssued, counters_setRun]

theorem execAnop_above (die : Fin 8) (w : SlotArgs) (s : State) (hs : Above v s.vtf.counters) : OutAbove v (execAnop die w s) := by
  refine next_above ?_
  grind [slotStep_above, → counters_doNothing]

theorem execAseek_above (die : Fin 8) (w : SlotArgs) (rereads : Nat) (s : State) (hs : Above v s.vtf.counters) :
    OutAbove v (execAseek die w rereads s) := by
  refine next_above ?_
  grind [→ counters_doAseek, slotStep_above]

theorem execArdr_above (die : Fin 8) (w : SlotArgs) (rereads : Nat) (s : State) (hs : Above v s.vtf.counters) :
    OutAbove v (execArdr die w rereads s) := by
  refine next_above ?_
  grind [→ counters_doArdr, slotStep_above]

theorem execAapp_above (die : Fin 8) (w : SlotArgs) (s : State) (hs : Above v s.vtf.counters) : OutAbove v (execAapp die w s) := by
  refine next_above ?_
  grind [→ doAapp_above, slotStep_above]

theorem execSnop_above (die : Fin 8) (w : SlotArgs) (s : State) (hs : Above v s.vtf.counters) : OutAbove v (execSnop die w s) := by
  refine next_above ?_
  grind [slotStep_above, → counters_doNothing]

theorem execSrec_above (die : Fin 8) (w : SlotArgs) (s : State) (hs : Above v s.vtf.counters) : OutAbove v (execSrec die w s) := by
  refine next_above ?_
  grind [→ counters_doSrec, slotStep_above]

theorem execScrc_above (die : Fin 8) (w : SlotArgs) (s : State) (hs : Above v s.vtf.counters) : OutAbove v (execScrc die w s) := by
  refine next_above ?_
  grind [→ counters_doScrc, slotStep_above]

theorem execMnop_above (die : Fin 8) (w : SlotArgs) (s : State) (hs : Above v s.vtf.counters) : OutAbove v (execMnop die w s) := by
  refine next_above ?_
  grind [slotStep_above, → counters_doNothing]

theorem execMhdr_above (die : Fin 8) (w : SlotArgs) (s : State) (hs : Above v s.vtf.counters) : OutAbove v (execMhdr die w s) := by
  refine next_above ?_
  grind [slotStep_above, → counters_doMhdr]

theorem execMcpy_above (die : Fin 8) (w : SlotArgs) (s : State) (hs : Above v s.vtf.counters) : OutAbove v (execMcpy die w s) := by
  refine next_above ?_
  grind [→ counters_doMcpy, slotStep_above]

theorem execMtrg_above (die : Fin 8) (w : SlotArgs) (s : State) (hs : Above v s.vtf.counters) : OutAbove v (execMtrg die w s) := by
  refine next_above ?_
  grind [slotStep_above, → counters_doMtrg]

theorem execMset_above (die : Fin 8) (w : SlotArgs) (s : State) (hs : Above v s.vtf.counters) : OutAbove v (execMset die w s) := by
  refine next_above ?_
  grind [→ counters_doMset, slotStep_above]

theorem execCnop_above (die : Fin 8) (w : SlotArgs) (s : State) (hs : Above v s.vtf.counters) : OutAbove v (execCnop die w s) := by
  refine next_above ?_
  grind [counters_ctlStep]

theorem execCend_above (die : Fin 8) (w : SlotArgs) (s : State) (hs : Above v s.vtf.counters) : OutAbove v (execCend die w s) := by
  refine next_above ?_
  grind [counters_ctlStep]

theorem execCloop_above (die : Fin 8) (w : SlotArgs) (s : State) (hs : Above v s.vtf.counters) : OutAbove v (execCloop die w s) := by
  refine next_above ?_
  grind [counters_ctlStep]

theorem execCbrz_above (die : Fin 8) (w : SlotArgs) (s : State) (hs : Above v s.vtf.counters) : OutAbove v (execCbrz die w s) := by
  refine next_above ?_
  grind [counters_ctlStep]

theorem execCwait_above (die : Fin 8) (w : SlotArgs) (s : State) (hs : Above v s.vtf.counters) : OutAbove v (execCwait die w s) := by
  refine next_above ?_
  grind [counters_ctlStep]

theorem execRuleBudgetWrite_above (w : BitVec 16) (s : State) (hs : Above v s.vtf.counters) : OutAbove v (execRuleBudgetWrite w s) :=
  whenDue_above hs (by rwa [counters_budgetWrite])

theorem execEarlyMergeRetry_above (s : State) (hs : Above v s.vtf.counters) : OutAbove v (execEarlyMergeRetry s) :=
  whenDue_above hs <| foldl_above
    (fun t h ht => above_ite (mergeHalf_above id (fun _ hu => hu) h t ht) ht) _ s hs

theorem execStagingDrainWrite_above (die : Fin 8) (s : State) (hs : Above v s.vtf.counters) :
    OutAbove v (execStagingDrainWrite die s) := by
  refine next_above ?_
  grind [reclaimAll_above, counters_markIssued, placeNext_above, settleSeals_above, counters_flushHome]

theorem execCodewordWriteComplete_above (die : Fin 8) (ok : Bool) (loops : Nat) (s : State) (hs : Above v s.vtf.counters) :
    OutAbove v (execCodewordWriteComplete die ok loops s) := by
  refine next_above ?_
  grind [counters_markIssued, reclaimAll_above, counters_surcharge, writeVerified_above, counters_markDirty, mediaTest_above,
    writeFailed_above, counters_earlyWritten, counters_retryWrite, counters_updDie, counters_earlyRowFailed]

theorem execTailRingAgeTimeout_above (die : Fin 8) (s : State) (hs : Above v s.vtf.counters) :
    OutAbove v (execTailRingAgeTimeout die s) := by
  refine next_above ?_
  grind [counters_markIssued, counters_issueWrite]

theorem execTimedExpiryReclaim_above (s : State) (hs : Above v s.vtf.counters) : OutAbove v (execTimedExpiryReclaim s) := by
  refine next_above ?_
  grind [counters_expireSeg, freeSeg_above]

theorem execCodewordRead_above (g : Nat) (cw : Fin 64) (margin : BitVec 6) (soft reread uncorr : Bool) (s : State) (hs : Above v
    s.vtf.counters) :
    OutAbove v (execCodewordRead g cw margin soft reread uncorr s) :=
  whenDue_above hs (by rwa [counters_codewordRead])

theorem execCodewordRefresh_above (w : Rewrite) (s : State) (hs : Above v s.vtf.counters) : OutAbove v (execCodewordRefresh w s) := by
  refine next_above ?_
  grind [refreshCw_above, counters_updDie]

theorem execRegionRecalibration_above (die : Fin 8) (s : State) (hs : Above v s.vtf.counters) :
    OutAbove v (execRegionRecalibration die s) := by
  refine next_above ?_
  grind [counters_updDie]

theorem execTemperatureRecalibrationTrigger_above (die : Fin 8) (s : State) (hs : Above v s.vtf.counters) :
    OutAbove v (execTemperatureRecalibrationTrigger die s) :=
  whenDue_above hs (by rwa [counters_startRecal])

theorem execArrayRecalibrateStart_above (die : Fin 8) (s : State) (hs : Above v s.vtf.counters) :
    OutAbove v (execArrayRecalibrateStart die s) :=
  whenDue_above hs (by rwa [counters_startRecal])

theorem execPatrolStart_above (die : Fin 8) (s : State) (hs : Above v s.vtf.counters) : OutAbove v (execPatrolStart die s) :=
  whenDue_above hs (by rwa [counters_startPatrol])

theorem execPatrolRead_above (g : Nat) (cw : Fin 64) (margin : BitVec 6) (soft reread uncorr last : Bool) (s : State) (hs : Above v
    s.vtf.counters) :
    OutAbove v (execPatrolRead g cw margin soft reread uncorr last s) := by
  refine next_above ?_
  grind [counters_prioDone, counters_startPatrol, counters_patrolNote, counters_updDie, counters_codewordRead]

theorem execWearLevelMoveStart_above (die : Fin 8) (s : State) (hs : Above v s.vtf.counters) :
    OutAbove v (execWearLevelMoveStart die s) := by
  refine next_above ?_
  grind [counters_startMove]

theorem execSlotEvacuationStart_above (s : State) (hs : Above v s.vtf.counters) : OutAbove v (execSlotEvacuationStart s) := by
  refine next_above ?_
  grind [evacuate_above]

theorem execSharedSegmentCompaction_above (g : Nat) (s : State) (hs : Above v s.vtf.counters) :
    OutAbove v (execSharedSegmentCompaction g s) := by
  refine next_above ?_
  grind [counters_startMove]

theorem execSegmentMoveCopyPassComplete_above (p : CopyPass) (s : State) (hs : Above v s.vtf.counters) :
    OutAbove v (execSegmentMoveCopyPassComplete p s) := by
  refine next_above ?_
  grind [moveCommit_above, counters_barchanTook, copyFailed_above]

theorem execSegmentMoveInvalidationAck_above (engine : Fin 4) (s : State) (hs : Above v s.vtf.counters) :
    OutAbove v (execSegmentMoveInvalidationAck engine s) := by
  refine next_above ?_
  grind [moveDone_above]

theorem execSiroccoSample_above (temp : Int) (s : State) (hs : Above v s.vtf.counters) : OutAbove v (execSiroccoSample temp s) := by
  refine next_above ?_
  grind [counters_raiseFault, counters_mediaMsg]

theorem execInternalResetRelease_above (straps : BitVec 4) (dnu : Bool) (s : State) (hs : Above v s.vtf.counters) :
    OutAbove v (execInternalResetRelease straps dnu s) :=
  whenDue_above hs (release_above _ _ s hs)

theorem execPowerOnReset_above (s : State) (hs : Above v s.vtf.counters) : OutAbove v (execPowerOnReset s) := by
  refine next_above ?_
  grind [counters_applyReset]

theorem execVmainOkFilterExpiry_above (s : State) (hs : Above v s.vtf.counters) : OutAbove v (execVmainOkFilterExpiry s) :=
  whenDue_above hs hs

theorem execVioValidExpiry_above (s : State) (hs : Above v s.vtf.counters) : OutAbove v (execVioValidExpiry s) := by
  refine whenDue_above hs ?_
  grind [counters_faultStateEnd]

theorem execPinReset_above (s : State) (hs : Above v s.vtf.counters) : OutAbove v (execPinReset s) := by
  refine whenDue_above hs ?_
  grind [counters_applyReset, counters_freeTicks]

theorem execFatalRelease_above (s : State) (hs : Above v s.vtf.counters) : OutAbove v (execFatalRelease s) := by
  refine whenDue_above hs ?_
  grind [counters_applyReset]

theorem execSoftReset_above (s : State) (hs : Above v s.vtf.counters) : OutAbove v (execSoftReset s) := by
  refine whenDue_above hs ?_
  grind [counters_applyReset, counters_startCommon]

theorem execCrossingHung_above (island : Fin 13) (s : State) (hs : Above v s.vtf.counters) : OutAbove v (execCrossingHung island s) :=
  whenDue_above hs (above_ite hs hs)

theorem execLinkHotReset_above (s : State) (hs : Above v s.vtf.counters) : OutAbove v (execLinkHotReset s) := by
  refine whenDue_above hs ?_
  grind [linkReset_above]

theorem execWatchdogExpiry_above (s : State) (hs : Above v s.vtf.counters) : OutAbove v (execWatchdogExpiry s) := by
  refine next_above ?_
  grind [counters_raiseFault, counters_applyReset]

theorem execMount_above (s : State) (hs : Above v s.vtf.counters) : OutAbove v (execMount s) := by
  refine whenDue_above hs ?_
  grind [counters_raiseFault, counters_readyMsg, mountNow_above]

theorem execVmainFail_above (s : State) (hs : Above v s.vtf.counters) : OutAbove v (execVmainFail s) := by
  refine next_above ?_
  grind [counters_lossBegin]

theorem execFlushBegin_above (s : State) (hs : Above v s.vtf.counters) : OutAbove v (execFlushBegin s) := by
  refine whenDue_above hs ?_
  grind [counters_flushPartials, counters_dropOpenTrains]

theorem execCLiveEstimate_above (vholdMv chargeNc meanMv : Nat) (s : State) (hs : Above v s.vtf.counters) :
    OutAbove v (execCLiveEstimate vholdMv chargeNc meanMv s) :=
  whenDue_above hs hs

theorem execFlushStopAtVRes_above (s : State) (hs : Above v s.vtf.counters) : OutAbove v (execFlushStopAtVRes s) := by
  refine whenDue_above hs ?_
  grind [counters_stopRuns, closeOut_above]

theorem execFlushComplete_above (s : State) (hs : Above v s.vtf.counters) : OutAbove v (execFlushComplete s) :=
  whenDue_above hs (closeOut_above _ s hs)

theorem execConverterOff_above (floor : Bool) (s : State) (hs : Above v s.vtf.counters) : OutAbove v (execConverterOff floor s) := by
  refine whenDue_above hs ?_
  grind [counters_applyReset]

theorem execVioLow_above (s : State) (hs : Above v s.vtf.counters) : OutAbove v (execVioLow s) := by
  refine next_above ?_
  grind [counters_freeTicks, counters_faultStateBegin]

theorem execWarnEnter_above (s : State) (hs : Above v s.vtf.counters) : OutAbove v (execWarnEnter s) := by
  refine next_above ?_
  grind [counters_freeTicks, counters_windowMsg]

theorem execWarnExit_above (s : State) (hs : Above v s.vtf.counters) : OutAbove v (execWarnExit s) := by
  refine whenDue_above hs ?_
  grind [counters_holdupNext, counters_windowMsg]

theorem execChargerStop_above (s : State) (hs : Above v s.vtf.counters) : OutAbove v (execChargerStop s) := by
  refine whenDue_above hs ?_
  grind [counters_measEnd, counters_wantMeas, counters_recomputeW]

theorem execChargerResume_above (s : State) (hs : Above v s.vtf.counters) : OutAbove v (execChargerResume s) :=
  whenDue_above hs hs

theorem execChgTimeout_above (s : State) (hs : Above v s.vtf.counters) : OutAbove v (execChgTimeout s) := by
  refine next_above ?_
  split
  · refine above_ite ?_ hs
    rwa [counters_raiseFault]
  · exact hs

theorem execVholdOver_above (vholdMv : Nat) (s : State) (hs : Above v s.vtf.counters) : OutAbove v (execVholdOver vholdMv s) := by
  refine whenDue_above hs ?_
  grind [counters_faultStateBegin]

theorem execMeasurementStart_above (s : State) (hs : Above v s.vtf.counters) : OutAbove v (execMeasurementStart s) := by
  refine whenDue_above hs ?_
  grind [counters_recomputeW]

theorem execMeasurementPeriodExpiry_above (s : State) (hs : Above v s.vtf.counters) : OutAbove v (execMeasurementPeriodExpiry s) := by
  refine whenDue_above hs ?_
  grind [counters_wantMeas]

theorem execTemperatureMeasurementTrigger_above (s : State) (hs : Above v s.vtf.counters) :
    OutAbove v (execTemperatureMeasurementTrigger s) :=
  whenDue_above hs (by rwa [counters_wantMeas])

theorem execMeasurementComplete_above (stepMv : Nat) (unc : Uncertainty) (s : State) (hs : Above v s.vtf.counters) :
    OutAbove v (execMeasurementComplete stepMv unc s) := by
  refine whenDue_above hs ?_
  grind [counters_takeMeas, counters_recomputeW]

theorem execMeasurementSkip_above (s : State) (hs : Above v s.vtf.counters) : OutAbove v (execMeasurementSkip s) :=
  whenDue_above hs hs

theorem execHoldupDischargeComplete_above (edelUj : Nat) (s : State) (hs : Above v s.vtf.counters) :
    OutAbove v (execHoldupDischargeComplete edelUj s) :=
  whenDue_above hs hs

theorem execWindowRecompute_above (vholdMv : Nat) (s : State) (hs : Above v s.vtf.counters) :
    OutAbove v (execWindowRecompute vholdMv s) := by
  refine next_above ?_
  grind [counters_faultStateEnd, counters_recomputeW]

theorem execUserMicrocodeCommit_above (s : State) (hs : Above v s.vtf.counters) : OutAbove v (execUserMicrocodeCommit s) := by
  refine next_above ?_
  grind [counters_updCores, counters_finishJob]

theorem execFaultLatch_above (src : Nat) (det : BitVec 32) (persists : Bool) (s : State) (hs : Above v s.vtf.counters) :
    OutAbove v (execFaultLatch src det persists s) := by
  refine whenDue_above hs ?_
  grind [counters_raiseFault, counters_faultStateBegin]

theorem execBrokenWire_above (src : Nat) (level : Bool) (s : State) (hs : Above v s.vtf.counters) :
    OutAbove v (execBrokenWire src level s) := by
  refine whenDue_above hs ?_
  grind [counters_raiseFault]

theorem execBrokenWireRecovered_above (src : Nat) (s : State) (hs : Above v s.vtf.counters) :
    OutAbove v (execBrokenWireRecovered src s) := by
  refine whenDue_above hs ?_
  grind [counters_raiseFault]

theorem execEscalationTimerExpiry_above (cls : Fin 3) (s : State) (hs : Above v s.vtf.counters) :
    OutAbove v (execEscalationTimerExpiry cls s) := by
  refine next_above ?_
  grind [counters_escalate]

theorem execThermHaltTimerExpiry_above (s : State) (hs : Above v s.vtf.counters) : OutAbove v (execThermHaltTimerExpiry s) := by
  refine next_above ?_
  grind [counters_escalate]

theorem execEntropyHealthFail_above (adaptive : Bool) (s : State) (hs : Above v s.vtf.counters) :
    OutAbove v (execEntropyHealthFail adaptive s) := by
  refine whenDue_above hs ?_
  grind [counters_raiseFault]

theorem execFltAckWrite_above (w : BitVec 16) (s : State) (hs : Above v s.vtf.counters) : OutAbove v (execFltAckWrite w s) :=
  whenDue_above hs (by rwa [counters_ackWrite])

theorem execFaultLatchClear_above (k : Fin 6) (w : BitVec 16) (s : State) (hs : Above v s.vtf.counters) :
    OutAbove v (execFaultLatchClear k w s) :=
  whenDue_above hs (by rwa [counters_latchWrite])

theorem execFltHselWrite_above (w : BitVec 16) (s : State) (hs : Above v s.vtf.counters) : OutAbove v (execFltHselWrite w s) :=
  whenDue_above hs (by rwa [counters_hselWrite])

theorem execFltForceWrite_above (k : Fin 6) (w : BitVec 16) (s : State) (hs : Above v s.vtf.counters) :
    OutAbove v (execFltForceWrite k w s) :=
  whenDue_above hs (by rwa [counters_forceWrite])

theorem execSanitizeOverwriteComplete_above (s : State) (hs : Above v s.vtf.counters) : OutAbove v (execSanitizeOverwriteComplete s) := by
  refine whenDue_above hs ?_
  grind [mediaTest_above]

theorem execDebugChallengeExpiry_above (s : State) (hs : Above v s.vtf.counters) : OutAbove v (execDebugChallengeExpiry s) :=
  next_above hs

theorem execQueueHeadAdmit_above (s : State) (hs : Above v s.vtf.counters) : OutAbove v (execQueueHeadAdmit s) := by
  refine whenDue_above hs ?_
  grind [grant_above, counters_settleEntry]

theorem execShortCommandPacket_above (b : List Byte) (s : State) (hs : Above v s.vtf.counters) :
    OutAbove v (execShortCommandPacket b s) :=
  whenDue_above hs (deliver_above _ s hs)

theorem execCreditWaitExpiry_above (s : State) (hs : Above v s.vtf.counters) : OutAbove v (execCreditWaitExpiry s) :=
  whenDue_above hs <| foldl_above (fun t q ht => expireCredit_above q t ht) _ s hs

theorem execCaravanInactivityTimeout_above (s : State) (hs : Above v s.vtf.counters) : OutAbove v (execCaravanInactivityTimeout s) :=
  whenDue_above hs <| foldl_above (fun u t hu => abortTrain_above t _ _ _ _ u hu) _ s hs

theorem execCaravanAbortAnswerEnd_above (s : State) (hs : Above v s.vtf.counters) : OutAbove v (execCaravanAbortAnswerEnd s) :=
  next_above hs

theorem execRestEntryDrained_above (s : State) (hs : Above v s.vtf.counters) : OutAbove v (execRestEntryDrained s) := by
  refine next_above ?_
  grind [counters_cleanCaches, counters_finishJob, counters_settleEntry]

theorem execOffEntryDrained_above (s : State) (hs : Above v s.vtf.counters) : OutAbove v (execOffEntryDrained s) := by
  refine next_above ?_
  grind [counters_cleanCaches, counters_finishJob, counters_settleEntry, writeCkpt_above]

theorem execWakeEvent_above (cause : BitVec 4) (s : State) (hs : Above v s.vtf.counters) : OutAbove v (execWakeEvent cause s) := by
  refine next_above ?_
  grind [counters_wake]

theorem execIdleEntry_above (s : State) (hs : Above v s.vtf.counters) : OutAbove v (execIdleEntry s) :=
  whenDue_above hs hs

theorem execIdleExit_above (s : State) (hs : Above v s.vtf.counters) : OutAbove v (execIdleExit s) :=
  whenDue_above hs (by rwa [counters_noteRequest])

theorem execLinkDetectTs1Start_above (s : State) (hs : Above v s.vtf.counters) : OutAbove v (execLinkDetectTs1Start s) :=
  whenDue_above hs hs

theorem execLinkTs1Received_above (s : State) (hs : Above v s.vtf.counters) : OutAbove v (execLinkTs1Received s) := by
  refine next_above ?_
  grind [counters_wake, counters_toRecovery]

theorem execLinkConfigComplete_above (lanes : BitVec 4) (peer : BitVec 3) (s : State) (hs : Above v s.vtf.counters) :
    OutAbove v (execLinkConfigComplete lanes peer s) := by
  refine whenDue_above hs ?_
  grind [counters_configDone]

theorem execLinkRateChangeIdleEnd_above (s : State) (hs : Above v s.vtf.counters) : OutAbove v (execLinkRateChangeIdleEnd s) :=
  whenDue_above hs hs

theorem execBlockLockLost_above (s : State) (hs : Above v s.vtf.counters) : OutAbove v (execBlockLockLost s) :=
  whenDue_above hs (by rwa [counters_toRecovery])

theorem execLinkRecoveryComplete_above (s : State) (hs : Above v s.vtf.counters) : OutAbove v (execLinkRecoveryComplete s) := by
  refine whenDue_above hs ?_
  grind [counters_linkUp]

theorem execLinkRecoveryTimeout_above (s : State) (hs : Above v s.vtf.counters) : OutAbove v (execLinkRecoveryTimeout s) := by
  refine whenDue_above hs ?_
  grind [counters_raiseFault, linkReset_above]

theorem execLinkRetrain_above (w : BitVec 32) (s : State) (hs : Above v s.vtf.counters) : OutAbove v (execLinkRetrain w s) :=
  whenDue_above hs (by rwa [counters_ctrlWrite])

theorem execLinkCounterClear_above (s : State) (hs : Above v s.vtf.counters) : OutAbove v (execLinkCounterClear s) :=
  whenDue_above hs (by rwa [counters_hwWrite])

theorem execRegwr_above (lseq xtag ofs : BitVec 16) (data : BitVec 32) (s : State) (hs : Above v s.vtf.counters) :
    OutAbove v (execRegwr lseq xtag ofs data s) := by
  refine whenDue_above hs ?_
  grind [rxData_above]

theorem execCmd_above (lseq : BitVec 16) (lfl : Byte) (payload : List Byte) (s : State) (hs : Above v s.vtf.counters) :
    OutAbove v (execCmd lseq lfl payload s) :=
  whenDue_above hs (rxData_above _ _ _ _ _ _ s hs)

theorem execCmdAssemblyTimeout_above (s : State) (hs : Above v s.vtf.counters) : OutAbove v (execCmdAssemblyTimeout s) := by
  refine next_above ?_
  grind [closeAssembly_above]

theorem execHostLinkDataPacket_above (crc : Option (BitVec 32)) (lseq xtag : BitVec 16) (typ lfl : Byte) (payload : List Byte)
    (s : State) (hs : Above v s.vtf.counters) : OutAbove v (execHostLinkDataPacket crc lseq xtag typ lfl payload s) := by
  refine whenDue_above hs (above_ite (rxData_above _ _ _ _ _ _ s hs) (above_ite ?_ hs))
  rwa [counters_takeControl]

theorem execAck_above (n : BitVec 16) (s : State) (hs : Above v s.vtf.counters) : OutAbove v (execAck n s) :=
  whenDue_above hs (by rwa [counters_takeAck])

theorem execNak_above (n : BitVec 16) (s : State) (hs : Above v s.vtf.counters) : OutAbove v (execNak n s) :=
  whenDue_above hs (by rwa [counters_takeNak])

theorem execCredit_above (rdl rhl msl cfl : BitVec 16) (s : State) (hs : Above v s.vtf.counters) :
    OutAbove v (execCredit rdl rhl msl cfl s) :=
  whenDue_above hs (by rwa [counters_takeCredit])

theorem execReplayTimeout_above (s : State) (hs : Above v s.vtf.counters) : OutAbove v (execReplayTimeout s) :=
  whenDue_above hs (by rwa [counters_resend])

theorem execCreditSendTimer_above (s : State) (hs : Above v s.vtf.counters) : OutAbove v (execCreditSendTimer s) :=
  whenDue_above hs hs

theorem execSidebandWrite_above (addr : BitVec 7) (bytes : List Byte) (s : State) (hs : Above v s.vtf.counters) :
    OutAbove v (execSidebandWrite addr bytes s) := by
  refine next_above ?_
  grind [deliver_above, counters_sideArrives, counters_sideReject]

theorem execSidebandRead_above (addr : BitVec 7) (len : Nat) (s : State) (hs : Above v s.vtf.counters) :
    OutAbove v (execSidebandRead addr len s) := by
  refine next_above ?_
  grind []

theorem execSidebandBusTimeout_above (partialWrite : Bool) (s : State) (hs : Above v s.vtf.counters) :
    OutAbove v (execSidebandBusTimeout partialWrite s) :=
  whenDue_above hs (by rwa [counters_sideReject])

theorem execSidebandReplyDiscard_above (s : State) (hs : Above v s.vtf.counters) : OutAbove v (execSidebandReplyDiscard s) :=
  whenDue_above hs hs

theorem execUserInstruction_above (opc : Byte) (f : Fetch) (s : State) (hs : Above v s.vtf.counters) :
    OutAbove v (execUserInstruction opc f s) := by
  simp only [execUserInstruction]
  split
  · exact refused_above _
  · exact whenDue_above hs (runInsn_above _ f _ _ (by rwa [counters_noteInvalid]) fun i t ht => userBody_above _ _ i t ht)

theorem execInterruptEntry_above (core : Fin 16) (req : BitVec 8) (s : State) (hs : Above v s.vtf.counters) :
    OutAbove v (execInterruptEntry core req s) := by
  refine next_above ?_
  grind [counters_assertReq, takeDue_above]

theorem execMachineCheck_above (core : Fin 16) (par : Option (BitVec 15)) (s : State) (hs : Above v s.vtf.counters) :
    OutAbove v (execMachineCheck core par s) := by
  refine next_above ?_
  grind [takeDue_above, microFail_above]

theorem execPowerFailEntry_above (core : Fin 16) (s : State) (hs : Above v s.vtf.counters) : OutAbove v (execPowerFailEntry core s) := by
  refine next_above ?_
  grind [takeDue_above]

theorem execDeferredStoreError_above (core : Fin 16) (fail : StoreFail) (s : State) (hs : Above v s.vtf.counters) :
    OutAbove v (execDeferredStoreError core fail s) := by
  refine next_above ?_
  grind [counters_storeFails, takeDue_above]

theorem execNointExpiry_above (core : Fin 16) (s : State) (hs : Above v s.vtf.counters) : OutAbove v (execNointExpiry core s) := by
  refine next_above ?_
  grind [counters_updCore]

theorem execSpillEngineSpill_above (core : Fin 16) (s : State) (hs : Above v s.vtf.counters) :
    OutAbove v (execSpillEngineSpill core s) := by
  refine next_above ?_
  grind [spillRun_above, engineRun_above]

theorem execSpillEngineRefill_above (core : Fin 16) (s : State) (hs : Above v s.vtf.counters) :
    OutAbove v (execSpillEngineRefill core s) := by
  refine next_above ?_
  grind [engineRun_above, refillRun_above]

theorem execHeapMrkWaitEnd_above (core : Fin 16) (s : State) (hs : Above v s.vtf.counters) : OutAbove v (execHeapMrkWaitEnd core s) := by
  refine next_above ?_
  grind [counters_updCore]

theorem execWatchdogArm_above (core : Fin 16) (k : BitVec 4) (s : State) (hs : Above v s.vtf.counters) :
    OutAbove v (execWatchdogArm core k s) := by
  refine whenDue_above hs ?_
  grind [counters_wdWrite]

theorem execWatchdogKick_above (core : Fin 16) (k : BitVec 4) (s : State) (hs : Above v s.vtf.counters) :
    OutAbove v (execWatchdogKick core k s) := by
  refine whenDue_above hs ?_
  grind [counters_wdWrite]

theorem execTimeCapture_above (s : State) (hs : Above v s.vtf.counters) : OutAbove v (execTimeCapture s) :=
  whenDue_above hs (by rwa [counters_timeCapture])

theorem execCounterSelect_above (w : BitVec 16) (s : State) (hs : Above v s.vtf.counters) : OutAbove v (execCounterSelect w s) :=
  whenDue_above hs (by rwa [counters_cselWrite])

theorem execHostLinkMirrorCapture_above (core : Fin 16) (k : Fin 128) (s : State) (hs : Above v s.vtf.counters) :
    OutAbove v (execHostLinkMirrorCapture core k s) := by
  refine whenDue_above hs ?_
  grind [counters_portRead]

theorem execWakeCauseRead_above (s : State) (hs : Above v s.vtf.counters) : OutAbove v (execWakeCauseRead s) :=
  whenDue_above hs (by rwa [counters_readEffect])

theorem execPatchLock_above (leave : Bool) (s : State) (hs : Above v s.vtf.counters) : OutAbove v (execPatchLock leave s) := by
  refine whenDue_above hs ?_
  grind [counters_leaveStartup, counters_lockPatches]

theorem execPatchWordWrite_above (lo : BitVec 16) (s : State) (hs : Above v s.vtf.counters) : OutAbove v (execPatchWordWrite lo s) :=
  whenDue_above hs (by rwa [counters_patchWord])

theorem execCacheClean_above (m : MopArgs) (s : State) (hs : Above v s.vtf.counters) : OutAbove v (execCacheClean m s) :=
  whenDue_above hs (by rwa [counters_mopCmd])

theorem execCacheInvalidate_above (m : MopArgs) (s : State) (hs : Above v s.vtf.counters) : OutAbove v (execCacheInvalidate m s) :=
  whenDue_above hs (by rwa [counters_mopCmd])

theorem execCacheCleanInvalidate_above (m : MopArgs) (s : State) (hs : Above v s.vtf.counters) :
    OutAbove v (execCacheCleanInvalidate m s) :=
  whenDue_above hs (by rwa [counters_mopCmd])

theorem execCacheMaintenanceComplete_above (s : State) (hs : Above v s.vtf.counters) : OutAbove v (execCacheMaintenanceComplete s) :=
  next_above hs

theorem execCacheWayPowerDown_above (tile : Fin 4) (ways : BitVec 8) (s : State) (hs : Above v s.vtf.counters) :
    OutAbove v (execCacheWayPowerDown tile ways s) := by
  refine whenDue_above hs ?_
  grind [counters_updTile]

theorem execCacheWaySweepComplete_above (tile : Fin 4) (s : State) (hs : Above v s.vtf.counters) :
    OutAbove v (execCacheWaySweepComplete tile s) := by
  refine whenDue_above hs ?_
  grind [counters_sweepEnd, counters_settleEntry]

theorem execCacheWayPowerUp_above (tile : Fin 4) (ways : BitVec 8) (s : State) (hs : Above v s.vtf.counters) :
    OutAbove v (execCacheWayPowerUp tile ways s) := by
  refine whenDue_above hs ?_
  grind [counters_updTile]

theorem execTlbInvalidateDomain_above (core : Fin 16) (dom : BitVec 8) (s : State) (hs : Above v s.vtf.counters) :
    OutAbove v (execTlbInvalidateDomain core dom s) := by
  unfold execTlbInvalidateDomain
  grind [invCmd_above]

theorem execTlbInvalidateAddress_above (core : Fin 16) (dom : BitVec 8) (s : State) (hs : Above v s.vtf.counters) :
    OutAbove v (execTlbInvalidateAddress core dom s) := by
  unfold execTlbInvalidateAddress
  grind [invCmd_above]

theorem execTlbInvalidateAll_above (core : Fin 16) (s : State) (hs : Above v s.vtf.counters) :
    OutAbove v (execTlbInvalidateAll core s) := by
  unfold execTlbInvalidateAll
  grind [invCmd_above]

theorem execTlbInvalidateSegno_above (core : Fin 16) (s : State) (hs : Above v s.vtf.counters) :
    OutAbove v (execTlbInvalidateSegno core s) := by
  unfold execTlbInvalidateSegno
  grind [invCmd_above]

theorem execTlbInvalidationComplete_above (s : State) (hs : Above v s.vtf.counters) : OutAbove v (execTlbInvalidationComplete s) :=
  next_above hs

theorem execSealXtsEncrypt_above (core : Fin 16) (s : State) (hs : Above v s.vtf.counters) : OutAbove v (execSealXtsEncrypt core s) := by
  unfold execSealXtsEncrypt
  grind [sealCmd_above]

theorem execSealXtsDecrypt_above (core : Fin 16) (s : State) (hs : Above v s.vtf.counters) : OutAbove v (execSealXtsDecrypt core s) := by
  unfold execSealXtsDecrypt
  grind [sealCmd_above]

theorem execSealChainExtend_above (core : Fin 16) (s : State) (hs : Above v s.vtf.counters) :
    OutAbove v (execSealChainExtend core s) := by
  unfold execSealChainExtend
  grind [sealCmd_above]

theorem execSealVerify_above (core : Fin 16) (s : State) (hs : Above v s.vtf.counters) : OutAbove v (execSealVerify core s) := by
  unfold execSealVerify
  grind [sealCmd_above]

theorem execSealOperationComplete_above (core : Fin 16) (s : State) (hs : Above v s.vtf.counters) :
    OutAbove v (execSealOperationComplete core s) :=
  whenDue_above hs (sealRun_above _ s hs)

theorem execRegisterWrite_above (host : Bool) (core : Fin 16) (addr : BitVec 16) (w : BitVec 32) (s : State) (hs : Above v s.vtf.counters)
    :
    OutAbove v (execRegisterWrite host core addr w s) := by
  refine whenDue_above hs ?_
  grind [counters_hwWrite, portEffect_above]

theorem execHeapObjectMove_above (engine : Fin 4) (src dst : Nat) (da : BitVec 32) (copied last : Bool) (s0 : State) (hs : Above v
    s0.vtf.counters) :
    OutAbove v (execHeapObjectMove engine src dst da copied last s0) := by
  refine next_above ?_
  grind [counters_finishMove, counters_drainCores, counters_heapWrite]

theorem execCardScan_above (src : Nat) (engine : Fin 4) (s0 : State) (hs : Above v s0.vtf.counters) :
    OutAbove v (execCardScan src engine s0) := by
  refine next_above ?_
  grind [counters_drainCores, counters_unmapSeg, mediaTest_above, counters_tlbDrop]

theorem execJtagExtest_above (cells : BitVec 17) (s : State) (hs : Above v s.vtf.counters) : OutAbove v (execJtagExtest cells s) :=
  whenDue_above hs hs

theorem execJtagIdcode_above (s : State) (hs : Above v s.vtf.counters) : OutAbove v (execJtagIdcode s) :=
  whenDue_above hs hs

theorem execJtagBypass_above (s : State) (hs : Above v s.vtf.counters) : OutAbove v (execJtagBypass s) :=
  whenDue_above hs (by rwa [counters_bypass])

theorem execJtagSamplePreload_above (pins cells : BitVec 17) (s : State) (hs : Above v s.vtf.counters) :
    OutAbove v (execJtagSamplePreload pins cells s) :=
  whenDue_above hs hs

theorem execJtagVendorInstruction_above (ir : BitVec 5) (act : Vendor) (s : State) (hs : Above v s.vtf.counters) :
    OutAbove v (execJtagVendorInstruction ir act s) := by
  simp only [execJtagVendorInstruction]
  split
  · exact refused_above _
  · refine whenDue_above hs (above_ite (vendorAct_above act _ hs) ?_)
    rwa [counters_bypass]

theorem execJtagTapReset_above (s : State) (hs : Above v s.vtf.counters) : OutAbove v (execJtagTapReset s) :=
  next_above hs

end Sys2Proof.Machine
end

section
/-! SUPPORT. No row lowers a counter, and no step. -/
namespace Sys2Proof.Machine
open Sys2Proof

variable {v : Nat → Nat}

theorem exec_above (i : Instr) (s : State) (hs : Above v s.vtf.counters) : OutAbove v (exec i s) := by
  cases i
  case identify | getStatus | sessionOpen | sessionClose | attest | streamCreate | streamOpen | streamClose | streamAppend | streamRead |
    streamSeal | streamTrim | streamInfo | streamDelete | bootStage | bootCommit | bootActivate | ruleLoad | ruleBind | ruleUnload |
    extLoad | uopLoad | faultRead | faultClear | faultInject | powerState | holdupTest | provision | keyRotate | counterBump | sanitize |
    debugUnlock =>
    exact next_above (arrive_above _ _ s hs)
  case iNop | iBr | iWaiti | iCclr =>
    exact insn_above hs (fun i t ht => ht)
  case iDup | iDrop | iSwap | iOver | iRot | iPick | iDup2 | iDrop2 | iSwap2 | iTagof =>
    exact insn_above hs (fun i t ht => permOp_above _ _ i t ht)
  case iSettag | iMkref | iRefadd | iRefpart | iPar | iBrev =>
    exact insn_above hs (fun i t ht => pureOp_above _ _ _ i t ht)
  case iPushnil | iPush8 | iPush16 | iPushr | iPushc | iPushref | iPushcode =>
    exact insn_above hs (fun i t ht => pushOp_above _ i t ht)
  case iSpill8 =>
    exact insn_above hs (fun i t ht => spill8_above i t ht)
  case iAnch =>
    exact insn_above hs (fun i t ht => anch_above i t ht)
  case iAld =>
    exact insn_above hs (fun i t ht => ald_above i t ht)
  case iLd =>
    exact insn_above hs (fun i t ht => loadOp_above i t ht)
  case iSt =>
    exact insn_above hs (fun i t ht => storeOp_above i t ht)
  case iLdp =>
    exact insn_above hs (fun i t ht => loadPair_above i t ht)
  case iStp =>
    exact insn_above hs (fun i t ht => storePair_above i t ht)
  case iLdi =>
    exact insn_above hs (fun i t ht => .ite (loadCode_above i t ht) (loadOp_above i t ht))
  case iIst =>
    exact insn_above hs (fun i t ht => istOp_above i t ht)
  case iLdm =>
    exact insn_above hs (blockOp_above _ fun i a k t ht => ldmOne_above i a k t ht)
  case iStm =>
    exact insn_above hs (blockOp_above _ fun i a k t ht => stmOne_above i a k t ht)
  case iIn =>
    exact insn_above hs (fun i t ht => portIn_above i _ _ t ht)
  case iOut =>
    exact insn_above hs (fun i t ht => (need_above _ _ t ht).andThen fun hu => portOut_above i _ _ _ _ _ hu)
  case iIns =>
    exact insn_above hs (fun i t ht => (inputs_above _ _ _ t ht).andThen fun hu => portIn_above i _ _ _ hu)
  case iOuts =>
    exact insn_above hs (fun i t ht => (need_above _ _ t ht).andThen fun hu => .ite hu (portOut_above i _ _ _ _ _ hu))
  case iAdd | iSub | iMul | iDiv | iMod =>
    exact insn_above hs (fun i t ht => genericOp_above _ i t ht)
  case iNeg =>
    exact insn_above hs (fun i t ht => negOp_above i t ht)
  case iAddw | iSubw | iAdcw | iSbcw | iAnd | iOr | iXor | iShl | iShr | iSar | iRol | iRor =>
    exact insn_above hs (fun i t ht => rawOp_above _ i t ht)
  case iMulw | iMuluw =>
    exact insn_above hs (fun i t ht => mulOp_above _ i t ht)
  case iNegw | iNot =>
    exact insn_above hs (fun i t ht => rawOp1_above _ i t ht)
  case iDivw =>
    exact insn_above hs (fun i t ht => divwOp_above i t ht)
  case iDivuw =>
    exact insn_above hs (fun i t ht => divuwOp_above i t ht)
  case iLadd | iLsub =>
    exact insn_above hs (fun i t ht => longOp_above _ i t ht)
  case iCrcb | iCrcw =>
    exact insn_above hs (fun i t ht => crcOp_above _ i t ht)
  case iCeq | iCne | iClt | iCle | iCltu | iCleu =>
    exact insn_above hs (fun i t ht => cmpOp_above _ _ i t ht)
  case iCtag =>
    exact insn_above hs (fun i t ht => ctagOp_above i t ht)
  case iCst =>
    exact insn_above hs (fun i t ht => by
      show Above v (setPreds _ _ _ t).vtf.counters
      rwa [counters_setPreds])
  case iCall =>
    exact insn_above hs (fun i t ht => callOp_above _ i t ht)
  case iJmpi | iRet =>
    exact insn_above hs (fun i t ht => jumpOp_above i t ht)
  case iCalli =>
    exact insn_above hs (fun i t ht => calliOp_above _ i t ht)
  case iLoop =>
    exact insn_above hs (fun i t ht => loopOp_above _ i t ht)
  case iMovs =>
    exact insn_above hs (stringOp_above fun i t ht => movsOne_above i t ht)
  case iCmps =>
    exact insn_above hs (stringOp_above fun i t ht => cmpsOne_above i t ht)
  case iFill =>
    exact insn_above hs (stringWith_above _ fun i t ht => fillOne_above i t ht)
  case iScan =>
    exact insn_above hs (stringWith_above _ fun i t ht => scanOne_above i t ht)
  case iCrcs =>
    exact insn_above hs (stringWith_above _ fun i t ht => crcsOne_above i t ht)
  case iSwl =>
    exact insn_above hs (fun i t ht => swlOp_above i t ht)
  case iRetl =>
    exact insn_above hs (fun i t ht => retlOp_above i t ht)
  case iNoint =>
    exact insn_above hs (fun i t ht => nointOp_above i t ht)
  case iSetdom =>
    exact insn_above hs (fun i t ht => setdomOp_above i t ht)
  case iRdc =>
    exact insn_above hs (fun i t ht => rdcOp_above i t ht)
  case iWrc =>
    exact insn_above hs (fun i t ht => wrcOp_above i t ht)
  case iPushst =>
    exact insn_above hs (fun i t ht => (replaceTop_above _ _ _ t ht).andThen fun hu => hu)
  case iPopst =>
    exact insn_above hs (fun i t ht => popstOp_above i t ht)
  case iSync =>
    exact insn_above hs (fun i t ht => by
      show Above v (drainCore i.c (applySyncs i.c t)).vtf.counters
      rw [counters_drainCore]
      exact applySyncs_above _ t ht)
  case iSynci =>
    exact insn_above hs (fun i t ht => synciOp_above i t ht)
  case iCderive =>
    exact insn_above hs (fun i t ht => cderiveOp_above i t ht)
  case iCxfer =>
    exact insn_above hs (fun i t ht => cxferOp_above i t ht)
  case iCstore =>
    exact insn_above hs (fun i t ht => cstoreOp_above i t ht)
  case iCload =>
    exact insn_above hs (fun i t ht => cloadOp_above i t ht)
  case streamDeletionComplete =>
    exact execStreamDeletionComplete_above s hs
  case read =>
    exact execRead_above _ s hs
  case fastRead =>
    exact execFastRead_above _ s hs
  case quadOutputFastRead =>
    exact execQuadOutputFastRead_above _ s hs
  case quadIoFastRead =>
    exact execQuadIoFastRead_above _ s hs
  case readIdentification =>
    exact execReadIdentification_above _ s hs
  case readSfdp =>
    exact execReadSfdp_above _ s hs
  case enter4ByteAddressMode =>
    exact execEnter4ByteAddressMode_above s hs
  case exit4ByteAddressMode =>
    exact execExit4ByteAddressMode_above s hs
  case ignoredFlashCommand =>
    exact execIgnoredFlashCommand_above s hs
  case unknownBootOpcode =>
    exact execUnknownBootOpcode_above s hs
  case bootSealVerified =>
    exact execBootSealVerified_above s hs
  case bootWindowReady =>
    exact execBootWindowReady_above s hs
  case readStatus =>
    exact execReadStatus_above _ s hs
  case bootBlockVerify =>
    exact execBootBlockVerify_above _ s hs
  case bootWindowClose =>
    exact execBootWindowClose_above s hs
  case bootWindowAutoClose =>
    exact execBootWindowAutoClose_above s hs
  case bootKeepWrite =>
    exact execBootKeepWrite_above _ s hs
  case ruleExecutionStart =>
    exact execRuleExecutionStart_above _ s hs
  case anop =>
    exact execAnop_above _ _ s hs
  case aseek =>
    exact execAseek_above _ _ _ s hs
  case ardr =>
    exact execArdr_above _ _ _ s hs
  case aapp =>
    exact execAapp_above _ _ s hs
  case snop =>
    exact execSnop_above _ _ s hs
  case srec =>
    exact execSrec_above _ _ s hs
  case scrc =>
    exact execScrc_above _ _ s hs
  case mnop =>
    exact execMnop_above _ _ s hs
  case mhdr =>
    exact execMhdr_above _ _ s hs
  case mcpy =>
    exact execMcpy_above _ _ s hs
  case mtrg =>
    exact execMtrg_above _ _ s hs
  case mset =>
    exact execMset_above _ _ s hs
  case cnop =>
    exact execCnop_above _ _ s hs
  case cend =>
    exact execCend_above _ _ s hs
  case cloop =>
    exact execCloop_above _ _ s hs
  case cbrz =>
    exact execCbrz_above _ _ s hs
  case cwait =>
    exact execCwait_above _ _ s hs
  case ruleBudgetWrite =>
    exact execRuleBudgetWrite_above _ s hs
  case earlyMergeRetry =>
    exact execEarlyMergeRetry_above s hs
  case stagingDrainWrite =>
    exact execStagingDrainWrite_above _ s hs
  case codewordWriteComplete =>
    exact execCodewordWriteComplete_above _ _ _ s hs
  case tailRingAgeTimeout =>
    exact execTailRingAgeTimeout_above _ s hs
  case timedExpiryReclaim =>
    exact execTimedExpiryReclaim_above s hs
  case codewordRead =>
    exact execCodewordRead_above _ _ _ _ _ _ s hs
  case codewordRefresh =>
    exact execCodewordRefresh_above _ s hs
  case regionRecalibration =>
    exact execRegionRecalibration_above _ s hs
  case temperatureRecalibrationTrigger =>
    exact execTemperatureRecalibrationTrigger_above _ s hs
  case arrayRecalibrateStart =>
    exact execArrayRecalibrateStart_above _ s hs
  case patrolStart =>
    exact execPatrolStart_above _ s hs
  case patrolRead =>
    exact execPatrolRead_above _ _ _ _ _ _ _ s hs
  case wearLevelMoveStart =>
    exact execWearLevelMoveStart_above _ s hs
  case slotEvacuationStart =>
    exact execSlotEvacuationStart_above s hs
  case sharedSegmentCompaction =>
    exact execSharedSegmentCompaction_above _ s hs
  case segmentMoveCopyPassComplete =>
    exact execSegmentMoveCopyPassComplete_above _ s hs
  case segmentMoveInvalidationAck =>
    exact execSegmentMoveInvalidationAck_above _ s hs
  case siroccoSample =>
    exact execSiroccoSample_above _ s hs
  case internalResetRelease =>
    exact execInternalResetRelease_above _ _ s hs
  case powerOnReset =>
    exact execPowerOnReset_above s hs
  case vmainOkFilterExpiry =>
    exact execVmainOkFilterExpiry_above s hs
  case vioValidExpiry =>
    exact execVioValidExpiry_above s hs
  case pinReset =>
    exact execPinReset_above s hs
  case fatalRelease =>
    exact execFatalRelease_above s hs
  case softReset =>
    exact execSoftReset_above s hs
  case crossingHung =>
    exact execCrossingHung_above _ s hs
  case linkHotReset =>
    exact execLinkHotReset_above s hs
  case watchdogExpiry =>
    exact execWatchdogExpiry_above s hs
  case mount =>
    exact execMount_above s hs
  case vmainFail =>
    exact execVmainFail_above s hs
  case flushBegin =>
    exact execFlushBegin_above s hs
  case cLiveEstimate =>
    exact execCLiveEstimate_above _ _ _ s hs
  case flushStopAtVRes =>
    exact execFlushStopAtVRes_above s hs
  case flushComplete =>
    exact execFlushComplete_above s hs
  case converterOff =>
    exact execConverterOff_above _ s hs
  case vioLow =>
    exact execVioLow_above s hs
  case warnEnter =>
    exact execWarnEnter_above s hs
  case warnExit =>
    exact execWarnExit_above s hs
  case chargerStop =>
    exact execChargerStop_above s hs
  case chargerResume =>
    exact execChargerResume_above s hs
  case chgTimeout =>
    exact execChgTimeout_above s hs
  case vholdOver =>
    exact execVholdOver_above _ s hs
  case measurementStart =>
    exact execMeasurementStart_above s hs
  case measurementPeriodExpiry =>
    exact execMeasurementPeriodExpiry_above s hs
  case temperatureMeasurementTrigger =>
    exact execTemperatureMeasurementTrigger_above s hs
  case measurementComplete =>
    exact execMeasurementComplete_above _ _ s hs
  case measurementSkip =>
    exact execMeasurementSkip_above s hs
  case holdupDischargeComplete =>
    exact execHoldupDischargeComplete_above _ s hs
  case windowRecompute =>
    exact execWindowRecompute_above _ s hs
  case userMicrocodeCommit =>
    exact execUserMicrocodeCommit_above s hs
  case faultLatch =>
    exact execFaultLatch_above _ _ _ s hs
  case brokenWire =>
    exact execBrokenWire_above _ _ s hs
  case brokenWireRecovered =>
    exact execBrokenWireRecovered_above _ s hs
  case escalationTimerExpiry =>
    exact execEscalationTimerExpiry_above _ s hs
  case thermHaltTimerExpiry =>
    exact execThermHaltTimerExpiry_above s hs
  case entropyHealthFail =>
    exact execEntropyHealthFail_above _ s hs
  case fltAckWrite =>
    exact execFltAckWrite_above _ s hs
  case faultLatchClear =>
    exact execFaultLatchClear_above _ _ s hs
  case fltHselWrite =>
    exact execFltHselWrite_above _ s hs
  case fltForceWrite =>
    exact execFltForceWrite_above _ _ s hs
  case sanitizeOverwriteComplete =>
    exact execSanitizeOverwriteComplete_above s hs
  case debugChallengeExpiry =>
    exact execDebugChallengeExpiry_above s hs
  case queueHeadAdmit =>
    exact execQueueHeadAdmit_above s hs
  case shortCommandPacket =>
    exact execShortCommandPacket_above _ s hs
  case creditWaitExpiry =>
    exact execCreditWaitExpiry_above s hs
  case caravanInactivityTimeout =>
    exact execCaravanInactivityTimeout_above s hs
  case caravanAbortAnswerEnd =>
    exact execCaravanAbortAnswerEnd_above s hs
  case restEntryDrained =>
    exact execRestEntryDrained_above s hs
  case offEntryDrained =>
    exact execOffEntryDrained_above s hs
  case wakeEvent =>
    exact execWakeEvent_above _ s hs
  case idleEntry =>
    exact execIdleEntry_above s hs
  case idleExit =>
    exact execIdleExit_above s hs
  case linkDetectTs1Start =>
    exact execLinkDetectTs1Start_above s hs
  case linkTs1Received =>
    exact execLinkTs1Received_above s hs
  case linkConfigComplete =>
    exact execLinkConfigComplete_above _ _ s hs
  case linkRateChangeIdleEnd =>
    exact execLinkRateChangeIdleEnd_above s hs
  case blockLockLost =>
    exact execBlockLockLost_above s hs
  case linkRecoveryComplete =>
    exact execLinkRecoveryComplete_above s hs
  case linkRecoveryTimeout =>
    exact execLinkRecoveryTimeout_above s hs
  case linkRetrain =>
    exact execLinkRetrain_above _ s hs
  case linkCounterClear =>
    exact execLinkCounterClear_above s hs
  case regwr =>
    exact execRegwr_above _ _ _ _ s hs
  case cmd =>
    exact execCmd_above _ _ _ s hs
  case cmdAssemblyTimeout =>
    exact execCmdAssemblyTimeout_above s hs
  case hostLinkDataPacket =>
    exact execHostLinkDataPacket_above _ _ _ _ _ _ s hs
  case ack =>
    exact execAck_above _ s hs
  case nak =>
    exact execNak_above _ s hs
  case credit =>
    exact execCredit_above _ _ _ _ s hs
  case replayTimeout =>
    exact execReplayTimeout_above s hs
  case creditSendTimer =>
    exact execCreditSendTimer_above s hs
  case sidebandWrite =>
    exact execSidebandWrite_above _ _ s hs
  case sidebandRead =>
    exact execSidebandRead_above _ _ s hs
  case sidebandBusTimeout =>
    exact execSidebandBusTimeout_above _ s hs
  case sidebandReplyDiscard =>
    exact execSidebandReplyDiscard_above s hs
  case userInstruction =>
    exact execUserInstruction_above _ _ s hs
  case interruptEntry =>
    exact execInterruptEntry_above _ _ s hs
  case machineCheck =>
    exact execMachineCheck_above _ _ s hs
  case powerFailEntry =>
    exact execPowerFailEntry_above _ s hs
  case deferredStoreError =>
    exact execDeferredStoreError_above _ _ s hs
  case nointExpiry =>
    exact execNointExpiry_above _ s hs
  case spillEngineSpill =>
    exact execSpillEngineSpill_above _ s hs
  case spillEngineRefill =>
    exact execSpillEngineRefill_above _ s hs
  case heapMrkWaitEnd =>
    exact execHeapMrkWaitEnd_above _ s hs
  case watchdogArm =>
    exact execWatchdogArm_above _ _ s hs
  case watchdogKick =>
    exact execWatchdogKick_above _ _ s hs
  case timeCapture =>
    exact execTimeCapture_above s hs
  case counterSelect =>
    exact execCounterSelect_above _ s hs
  case hostLinkMirrorCapture =>
    exact execHostLinkMirrorCapture_above _ _ s hs
  case wakeCauseRead =>
    exact execWakeCauseRead_above s hs
  case patchLock =>
    exact execPatchLock_above _ s hs
  case patchWordWrite =>
    exact execPatchWordWrite_above _ s hs
  case cacheClean =>
    exact execCacheClean_above _ s hs
  case cacheInvalidate =>
    exact execCacheInvalidate_above _ s hs
  case cacheCleanInvalidate =>
    exact execCacheCleanInvalidate_above _ s hs
  case cacheMaintenanceComplete =>
    exact execCacheMaintenanceComplete_above s hs
  case cacheWayPowerDown =>
    exact execCacheWayPowerDown_above _ _ s hs
  case cacheWaySweepComplete =>
    exact execCacheWaySweepComplete_above _ s hs
  case cacheWayPowerUp =>
    exact execCacheWayPowerUp_above _ _ s hs
  case tlbInvalidateDomain =>
    exact execTlbInvalidateDomain_above _ _ s hs
  case tlbInvalidateAddress =>
    exact execTlbInvalidateAddress_above _ _ s hs
  case tlbInvalidateAll =>
    exact execTlbInvalidateAll_above _ s hs
  case tlbInvalidateSegno =>
    exact execTlbInvalidateSegno_above _ s hs
  case tlbInvalidationComplete =>
    exact execTlbInvalidationComplete_above s hs
  case sealXtsEncrypt =>
    exact execSealXtsEncrypt_above _ s hs
  case sealXtsDecrypt =>
    exact execSealXtsDecrypt_above _ s hs
  case sealChainExtend =>
    exact execSealChainExtend_above _ s hs
  case sealVerify =>
    exact execSealVerify_above _ s hs
  case sealOperationComplete =>
    exact execSealOperationComplete_above _ s hs
  case registerWrite =>
    exact execRegisterWrite_above _ _ _ _ s hs
  case heapObjectMove =>
    exact execHeapObjectMove_above _ _ _ _ _ _ s hs
  case cardScan =>
    exact execCardScan_above _ _ s hs
  case jtagExtest =>
    exact execJtagExtest_above _ s hs
  case jtagIdcode =>
    exact execJtagIdcode_above s hs
  case jtagBypass =>
    exact execJtagBypass_above s hs
  case jtagSamplePreload =>
    exact execJtagSamplePreload_above _ _ s hs
  case jtagVendorInstruction =>
    exact execJtagVendorInstruction_above _ _ s hs
  case jtagTapReset =>
    exact execJtagTapReset_above s hs

theorem step_above (s : State) (hs : Above v s.vtf.counters) : OutAbove v (step s) := by
  unfold step stepWith
  split
  · exact next_above (by rwa [counters_tickNow])
  · next c rest h => exact exec_above c { s with pending := rest } hs

/-- Settles O60: each row's effect keeps every bound, by the functions it calls; only `bumpCounter`, `issueSeal` and `raiseFloor` write a
counter, each no lower than it stood. -/
theorem noStepLowersACounter : Obligations.NoStepLowersACounter := by
  unfold Obligations.NoStepLowersACounter
  intro v s t hs hst
  exact (countersAtLeast_iff v t).mpr (step_above s ((countersAtLeast_iff v s).mp hs) t hst)

end Sys2Proof.Machine
end

section
/-! SUPPORT. The entries into REST and OFF once the device is drained, the wakes, and IDLE; and the statement on them. -/
namespace Sys2Proof.Machine
open Sys2Proof

variable {s t : State} {p : PState} {j : Nat}

/-! ## What the cleaning of the caches and the end of a job leave alone -/

theorem maintainLine_only (op k : Nat) (la : LAddr) (s : State) : OnlyIn [.cache, .mem, .arr] s (maintainLine op k la s) := by
  simp only [maintainLine]
  split
  · exact OnlyIn.refl _ _
  · split
    · exact cleanLine_only _ _ _
    · exact (updTile_only _ _ _).mono (by simp)
    · exact (cleanLine_only _ _ _).trans (updTile_only _ _ _) (by simp) (by simp)

theorem sweepWays_only (k : Nat) (ways : BitVec 8) (drop : Bool) (s : State) : OnlyIn [.cache, .mem, .arr] s (sweepWays k ways drop s) :=
  OnlyIn.foldl (fun u (l : CLine) => maintainLine (if drop then 3 else 1) k l.la u) (fun u l => maintainLine_only _ k l.la u) _ s

theorem cleanCaches_only (drop : Bool) (s : State) : OnlyIn storeRegions s (cleanCaches drop s) :=
  (drainCores_only s).trans (OnlyIn.foldl _ (fun u k => sweepWays_only k 0xFF drop u) _ _) (by simp) (by simp [storeRegions])

theorem ackJob_only (j : Nat) (s : State) : OnlyIn [.store] s (ackJob j s) :=
  OnlyIn.foldl (fun t (e : Nat × Nat) => ackRec e.1 e.2 t) (fun t e => ackRec_only e.1 e.2 t) _ s

/-- The state in which a job's replies are formed: it has ended, and the records of an append leave staging. -/
def jobEnded (x : Job) (j : Nat) (s : State) : State :=
  let s1 := if x.kind = .append then ackJob j s else s
  { s1 with eng.jobs := s1.eng.jobs.filter fun y => y.id != j }

theorem finishJob_of_some {x : Job} (h : jobOf s j = some x) :
    finishJob j s = x.replies.foldl (fun t r => formReply r t) (jobEnded x j s) := by
  simp only [finishJob, h]
  rfl

theorem finishJob_of_none (h : jobOf s j = none) : finishJob j s = s := by
  simp only [finishJob, h]

theorem jobEnded_only (x : Job) (j : Nat) (s : State) : OnlyIn [.store, .eng] s (jobEnded x j s) := by
  have heng (u : State) (l : List Job) : OnlyIn [.eng] u { u with eng.jobs := l } := by
    intro r hr; cases r <;> simp_all [sameIn]
  have hack : OnlyIn [.store] s (if x.kind = .append then ackJob j s else s) := by
    split
    · exact ackJob_only j s
    · exact OnlyIn.refl _ _
  exact hack.trans (heng _ _) (by simp) (by simp)

theorem finishJob_only (j : Nat) (s : State) : OnlyIn [.store, .side, .link, .eng] s (finishJob j s) := by
  cases h : jobOf s j with
  | none =>
    rw [finishJob_of_none h]
    exact OnlyIn.refl _ _
  | some x =>
    rw [finishJob_of_some h]
    exact (jobEnded_only x j s).trans (OnlyIn.foldl _ (fun t r => formReply_only r t) _ _) (by simp) (by simp)

theorem formReply_jobs (r : Reply) (s : State) : (formReply r s).eng.jobs = s.eng.jobs := by
  simp only [formReply]
  split
  · rfl
  · split
    · rfl
    · split <;> rfl

theorem foldl_formReply_jobs (l : List Reply) (s : State) : (l.foldl (fun t r => formReply r t) s).eng.jobs = s.eng.jobs :=
  List.foldlRecOn (motive := fun t => t.eng.jobs = s.eng.jobs) l _ rfl fun t ht r _ => (formReply_jobs r t).trans ht

/-- A job that has ended is gone (R254). -/
theorem finishJob_gone (j : Nat) (s : State) : ∀ x ∈ (finishJob j s).eng.jobs, x.id ≠ j := by
  intro x hx
  cases h : jobOf s j with
  | none =>
    rw [finishJob_of_none h] at hx
    simpa using List.find?_eq_none.1 h x hx
  | some y =>
    rw [finishJob_of_some h, foldl_formReply_jobs] at hx
    simpa using (List.mem_filter.1 hx).2

/-- What an entry into REST or OFF asks of the link: its state, and whether EIOS follows the queued packets. -/
def linkStage (s : State) : LState × Bool := (s.link.ls, s.link.eiosAfter)

/-- A link that is not active sends nothing, and stays as it is. -/
theorem formReply_linkStage (r : Reply) (h : s.link.ls ≠ .active) : linkStage (formReply r s) = linkStage s := by
  simp only [formReply]
  split
  · rfl
  · split
    · rfl
    · split
      · rfl
      · simp only [pump, pumpLink, if_neg h]
        rfl

theorem foldl_formReply_linkStage (l : List Reply) (h : s.link.ls ≠ .active) :
    linkStage (l.foldl (fun t r => formReply r t) s) = linkStage s :=
  List.foldlRecOn (motive := fun t => linkStage t = linkStage s) l _ rfl fun t ht r _ => by
    have hls : t.link.ls = s.link.ls := congrArg Prod.fst ht
    exact (formReply_linkStage r (hls ▸ h)).trans ht

theorem finishJob_linkStage (j : Nat) (h : s.link.ls ≠ .active) : linkStage (finishJob j s) = linkStage s := by
  cases hj : jobOf s j with
  | none => rw [finishJob_of_none hj]
  | some x =>
    have hlink : (jobEnded x j s).link = s.link := jobEnded_only x j s .link (by decide)
    have hstage : linkStage (jobEnded x j s) = linkStage s := by rw [linkStage, hlink, linkStage]
    rw [finishJob_of_some hj, foldl_formReply_linkStage _ (hlink ▸ h), hstage]

/-! ## The last step of an entry (R536, R537) -/

theorem wakeNow_entry (k : Nat) (h : s.pwr.entry = none) : (wakeNow k s).pwr.entry = none := by
  simp only [wakeNow]
  split
  · rfl
  · rfl
  · exact h

theorem wakeNow_phase (k : Nat) (s : State) : (wakeNow k s).pwr.phase = s.pwr.phase := by
  simp only [wakeNow]
  split <;> rfl

theorem entered_entry (p : PState) (s : State) : (entered p s).pwr.entry = none := by
  simp only [entered]
  split
  · split
    · rfl
    · exact wakeNow_entry _ rfl
  · rfl

theorem entered_phase (p : PState) (s : State) : (entered p s).pwr.phase = s.pwr.phase := by
  simp only [entered]
  split
  · split
    · rfl
    · exact wakeNow_phase _ _
  · rfl

/-- No wake is held against OFF. -/
theorem entered_off (s : State) : entered .off s = { s with pwr := { s.pwr with pstate := .off, entry := none } } := by
  simp only [entered, if_true]
  split <;> rfl

/-- An entry under way stays so, or ends. -/
theorem settleEntry_entry (h : s.pwr.entry = some (p, 0)) : (settleEntry s).pwr.entry = some (p, 0) ∨ (settleEntry s).pwr.entry = none :=
    by
  obtain ⟨l, k, hs | ⟨p', -, hs⟩⟩ := settleEntry_cases s
  · exact .inl (hs ▸ h)
  · exact .inr (hs ▸ entered_entry p' _)

theorem settleEntry_phase (s : State) : (settleEntry s).pwr.phase = s.pwr.phase := by
  obtain ⟨l, k, hs | ⟨p, -, hs⟩⟩ := settleEntry_cases s
  · rw [hs]
  · rw [hs, entered_phase]

/-- A link that neither runs nor recovers. -/
def QuietLink (l : LState) : Prop := l ≠ .active ∧ l ≠ .recovery ∧ l ≠ .rate

/-- The link disabled, as an entry into REST or OFF leaves it (R314). -/
def linkDisabled (s : State) : State := { s with link := { s.link with eiosAfter := false, ls := .disabled, ts1 := false } }

theorem settleEntry_quiet (hentry : s.pwr.entry = some (p, 0)) (hp : p ≠ .doze) (heios : s.link.eiosAfter = true) (hq : QuietLink
    s.link.ls) :
    settleEntry s = entered p (linkDisabled s) := by
  obtain ⟨hactive, hrecovery, hrate⟩ := hq
  simp only [settleEntry, hentry, heios, if_true, hactive, hrecovery, hrate, false_or, false_and, if_false]
  rfl

/-! ## The drained entries -/

theorem moves_none (h : ∀ k : Nat, vAt s.arr.moves k = none) : s.arr.moves.toList.all (·.isNone) = true := by
  rw [List.all_eq_true]
  intro x hx
  obtain ⟨i, hi, rfl⟩ := List.mem_iff_getElem.1 hx
  have hlt : i < 4 := by simpa using hi
  simpa [vAt, hlt] using h i

/-- A device at its entry into REST, its caches clean and empty: they lose power (R536). -/
def restReady (s : State) : State :=
  { s with
    cache.tiles := vMap (fun (x : Tile) => { x with powered := 0, sweep := 0 }) s.cache.tiles
    pwr.entry := some (.rest, 0)
    link.eiosAfter := true }

/-- A device at its entry into OFF, its caches clean: a mounted store has its checkpoint (R537). -/
def offReady (s : State) : State :=
  if s.store.mounted then { writeCkpt s with prev := { (writeCkpt s).prev with clean := true, power := false } } else s

/-- The device on its way into OFF, the reply of POWER_STATE formed. -/
def offAnswered (s : State) : State :=
  { s with
    pwr := { s.pwr with phase := .halt, entry := some (.off, 0) }
    link.eiosAfter := true
    oas := { s.oas with charging := false, chgStart := none } }

section
variable (ha : alive s = true) (hd : drained s = true) (hm : ∀ k : Nat, vAt s.arr.moves k = none)
include ha hd hm

theorem exec_restEntryDrained_due (he : s.pwr.entry = some (.rest, j + 1)) :
    exec .restEntryDrained s = .next (settleEntry (finishJob j (restReady (cleanCaches true s)))) := by
  have hdue : (alive s && drained s && s.arr.moves.toList.all (·.isNone)) = true := by rw [ha, hd, moves_none hm]; rfl
  show execRestEntryDrained s = _
  simp only [execRestEntryDrained, he, hdue, if_true]
  rfl

theorem exec_offEntryDrained_due (he : s.pwr.entry = some (.off, j + 1)) :
    exec .offEntryDrained s = .next (settleEntry (offAnswered (finishJob j (offReady (cleanCaches false s))))) := by
  have hdue : (alive s && drained s && s.arr.moves.toList.all (·.isNone)) = true := by rw [ha, hd, moves_none hm]; rfl
  show execOffEntryDrained s = _
  simp only [execOffEntryDrained, he, hdue, if_true, offAnswered, offReady]

end

theorem exec_entryDrained_early (hd : drained s = false) : exec .restEntryDrained s = .next s ∧ exec .offEntryDrained s = .next s := by
  have hwait : (alive s && drained s && s.arr.moves.toList.all (·.isNone)) = false := by simp [hd]
  constructor
  · show execRestEntryDrained s = _
    simp only [execRestEntryDrained, hwait, Bool.false_eq_true, if_false]
    split <;> rfl
  · show execOffEntryDrained s = _
    simp only [execOffEntryDrained, hwait, Bool.false_eq_true, if_false]
    split <;> rfl

theorem restReady_powered (s : State) (k : Fin 4) : (tileOf (restReady s) k.val).powered = 0 := by
  have h : tileOf (restReady s) k.val = { tileOf s k.val with powered := 0, sweep := 0 } := vAt_vMap _ _ _ k.isLt
  rw [h]

theorem finishJob_restReady_pwr (j : Nat) (s : State) : (finishJob j (restReady s)).pwr = { s.pwr with entry := some (.rest, 0) } :=
  finishJob_only j (restReady s) .pwr (by decide)

/-- With the link quiet and no wake held, REST is reached at once. -/
theorem rest_reached (j : Nat) (hq : QuietLink s.link.ls) (hheld : s.pwr.heldWake = none) :
    let t := settleEntry (finishJob j (restReady s))
    t.pwr.pstate = .rest ∧ t.pwr.entry = none ∧ t.link.ls = .disabled ∧ ∀ k : Fin 4, (tileOf t k.val).powered = 0 := by
  have hactive : (restReady s).link.ls ≠ .active := hq.1
  have hcache : (finishJob j (restReady s)).cache = (restReady s).cache := finishJob_only j _ .cache (by decide)
  have hstage : linkStage (finishJob j (restReady s)) = (s.link.ls, true) := finishJob_linkStage j hactive
  have hpwr := finishJob_restReady_pwr j s
  generalize finishJob j (restReady s) = u at hcache hstage hpwr
  obtain ⟨hls, heios⟩ := Prod.mk.inj hstage
  have hentry : u.pwr.entry = some (.rest, 0) := by rw [hpwr]
  have hheld' : (linkDisabled u).pwr.heldWake = none := (congrArg Pwr.heldWake hpwr).trans hheld
  have heq := settleEntry_quiet hentry (by decide) heios (hls ▸ hq)
  dsimp only
  rw [heq, entered_unheld _ hheld']
  refine ⟨rfl, rfl, rfl, fun k => ?_⟩
  have htile : tileOf u k.val = tileOf (restReady s) k.val := congrArg (fun x : Cache => vAt x.tiles k.val) hcache
  exact (congrArg Tile.powered htile).trans (restReady_powered s k)

theorem writeCkpt_only (s : State) : OnlyIn [.vtf, .prev] s (writeCkpt s) := by
  by_cases h : s.vtf.life = .owned
  · rw [writeCkpt_owned h]
    intro r hr; cases r <;> simp_all [sameIn, bumpCounter]
  · rw [writeCkpt_other h]
    exact OnlyIn.refl _ _

theorem offReady_mounted (hm : s.store.mounted = true) :
    offReady s = { writeCkpt s with prev := { (writeCkpt s).prev with clean := true, power := false } } :=
  if_pos hm

theorem offReady_only (s : State) : OnlyIn [.vtf, .prev] s (offReady s) := by
  have hprev (u : State) (e : EndState) : OnlyIn [.prev] u { u with prev := e } := by
    intro r hr; cases r <;> simp_all [sameIn]
  simp only [offReady]
  split
  · exact (writeCkpt_only s).trans (hprev _ _) (by simp) (by simp)
  · exact OnlyIn.refl _ _

/-- A mounted store is left clean, and an owned device with its next checkpoint (R208, R537). -/
theorem offReady_clean (hm : s.store.mounted = true) : (offReady s).prev.clean = true ∧ (offReady s).prev.power = false
    ∧ (s.vtf.life = .owned → (offReady s).prev.ckpt = some (vAt s.vtf.counters 7 + 1)
      ∧ vAt (offReady s).vtf.counters 7 = vAt s.vtf.counters 7 + 1) := by
  have hbump := bumpCounter_same 7 s (by decide)
  rw [offReady_mounted hm]
  refine ⟨rfl, rfl, fun ho => ?_⟩
  rw [writeCkpt_owned ho]
  exact ⟨congrArg some hbump, hbump⟩

/-- With the link quiet, OFF is reached at once. -/
theorem off_reached (hq : QuietLink s.link.ls) :
    let t := settleEntry (offAnswered s)
    t.pwr.pstate = .off ∧ t.pwr.entry = none ∧ t.link.ls = .disabled := by
  have heq : settleEntry (offAnswered s) = entered .off (linkDisabled (offAnswered s)) := settleEntry_quiet rfl (by decide) rfl hq
  dsimp only
  rw [heq, entered_off]
  exact ⟨rfl, rfl, rfl⟩

/-! ## Wakes (R283, R538, R550) -/

/-- What wakes a device for a cause: for cause 4, only at REST. -/
def WakesFor (cause : BitVec 4) (s : State) : Prop :=
  cause = 1 ∨ (cause = 2 ∧ s.side.busy = true) ∨ (cause = 3 ∧ faultIrq s = true)
    ∨ (cause = 4 ∧ slotFailing s = true ∧ s.pwr.pstate = .rest)

theorem exec_wakeEvent_wakes {cause : BitVec 4} (h : WakesFor cause s) : exec (.wakeEvent cause) s = .next (wake cause.toNat s) := by
  show execWakeEvent cause s = _
  rcases h with rfl | ⟨rfl, hb⟩ | ⟨rfl, hi⟩ | ⟨rfl, hf, hr⟩
  · rfl
  · exact congrArg Host.Outcome.next (if_pos hb)
  · exact congrArg Host.Outcome.next (if_pos hi)
  · exact congrArg Host.Outcome.next (if_pos (by simp [hf, hr]))

/-- In RUN, with no entry under way, no cause does anything. -/
theorem wakeNow_run (k : Nat) (h : s.pwr.pstate = .run) : wakeNow k s = s := by
  simp only [wakeNow, h]

theorem wake_now (k : Nat) (h : s.pwr.entry = none) : wake k s = wakeNow k s := by
  simp only [wake, h]

theorem exec_wakeEvent_run (cause : BitVec 4) (he : s.pwr.entry = none) (hrun : s.pwr.pstate = .run) :
    exec (.wakeEvent cause) s = .next s := by
  have hwake (k : Nat) : wake k s = s := (wake_now k he).trans (wakeNow_run k hrun)
  show execWakeEvent cause s = _
  simp only [execWakeEvent, hwake, ite_self]
  split <;> rfl

/-- RUN, with the cause of the wake. -/
def wokenPwr (k : Nat) (s : State) : Pwr :=
  { s.pwr with
    pstate := .run, heldWake := none, entry := none, wakeCause := BitVec.ofNat 4 k
    wakeFrom := decide (s.pwr.pstate = .rest), idleSince := s.tick }

theorem wakeNow_doze (k : Nat) (h : s.pwr.pstate = .doze) : wakeNow k s = { s with
    pwr := wokenPwr k s
    cache.tiles := vMap tileWake s.cache.tiles
    link := if s.link.ls = .lowpower then { s.link with ls := .recovery, recAt := s.tick, rtCnt := satInc s.link.rtCnt } else s.link } :=
      by
  simp only [wakeNow, wokenPwr, h]

/-- A tile whose enabled ways have power again. -/
def tilePowered (x : Tile) : Tile := { x with powered := x.en }

theorem wakeNow_rest (k : Nat) (h : s.pwr.pstate = .rest) : wakeNow k s = { s with
    pwr := wokenPwr k s
    cache.tiles := vMap tilePowered s.cache.tiles
    link := if s.tbx.hung.getLsbD 0 then s.link
      else { linkFresh s.link with ls := if k = 1 then .config else .detect, ts1 := false } } := by
  simp only [wakeNow, wokenPwr, h]
  rfl

/-- A wake out of DOZE or REST: RUN with its cause, and the tiles as that state left them powered (R538). -/
theorem wakeNow_wakes (cause : BitVec 4) (h : s.pwr.pstate = .doze ∨ s.pwr.pstate = .rest) :
    let t := wakeNow cause.toNat s
    t.pwr.pstate = .run ∧ t.pwr.wakeCause = cause ∧ t.pwr.wakeFrom = decide (s.pwr.pstate = .rest)
      ∧ ∀ k : Fin 4, (tileOf t k.val).powered = (if s.pwr.pstate = .rest then (tileOf s k.val).en else (tileOf s k.val).preDoze) := by
  have hcause : BitVec.ofNat 4 cause.toNat = cause := by simp
  rcases h with h | h
  · have heq := wakeNow_doze cause.toNat h
    dsimp only
    rw [heq]
    refine ⟨rfl, hcause, rfl, fun k => ?_⟩
    rw [h]
    exact congrArg Tile.powered (vAt_vMap tileWake s.cache.tiles k.val k.isLt)
  · have heq := wakeNow_rest cause.toNat h
    dsimp only
    rw [heq]
    refine ⟨rfl, hcause, rfl, fun k => ?_⟩
    rw [h]
    exact congrArg Tile.powered (vAt_vMap tilePowered s.cache.tiles k.val k.isLt)

/-! ## IDLE (R533, R534) -/

theorem exec_idleEntry_due (ha : alive s = true) (hrun : s.pwr.pstate = .run) (he : s.pwr.entry = none) (hidle : s.pwr.idleSince + 100 ≤
    s.tick) :
    exec .idleEntry s = .next (if quiet s then { s with pwr.pstate := .idle } else s) := by
  show execIdleEntry s = _
  simp [execIdleEntry, whenDue, ha, hrun, he, hidle]

theorem exec_idleExit_idle (h : s.pwr.pstate = .idle) :
    exec .idleExit s = .next { s with pwr := { s.pwr with pstate := .run, idleSince := s.tick } } := by
  show execIdleExit s = _
  simp [execIdleExit, whenDue, noteRequest, h]

/-! ## The obligation -/

/-- Settles O55: a drained entry ends its job and takes the last step at once where the link is quiet; a wake acts by its cause, and is
    held
while an entry goes on. -/
theorem powerStatesEntered : Obligations.PowerStatesEntered := by
  unfold Obligations.PowerStatesEntered
  intro s j cause
  refine ⟨rfl, fun ha hd hm => ⟨?rest, ?off⟩, exec_entryDrained_early, fun he => ⟨?wakes, ?stays⟩, ?held, exec_idleEntry_due,
    exec_idleExit_idle⟩
  case rest =>
    intro he
    have hclean := cleanCaches_only true s
    have hlink : (cleanCaches true s).link = s.link := hclean .link (by decide)
    have hpwr : (cleanCaches true s).pwr = s.pwr := hclean .pwr (by decide)
    have hdue := exec_restEntryDrained_due ha hd hm he
    generalize cleanCaches true s = u at hlink hpwr hdue
    have heng : (settleEntry (finishJob j (restReady u))).eng = (finishJob j (restReady u)).eng := settleEntry_only _ .eng (by decide)
    have hentry : (finishJob j (restReady u)).pwr.entry = some (.rest, 0) := by rw [finishJob_restReady_pwr]
    refine ⟨_, hdue, ?_, settleEntry_entry hentry, fun hq hheld => rest_reached j (hlink ▸ hq) (hpwr ▸ hheld)⟩
    rw [heng]
    exact finishJob_gone j _
  case off =>
    intro he
    have hclean := cleanCaches_only false s
    have hlink : (cleanCaches false s).link = s.link := hclean .link (by decide)
    have hvtf : (cleanCaches false s).vtf = s.vtf := hclean .vtf (by decide)
    have hstore : (cleanCaches false s).store = s.store := hclean .store (by decide)
    have hdue := exec_offEntryDrained_due ha hd hm he
    generalize cleanCaches false s = u at hlink hvtf hstore hdue
    have hready : (offReady u).link = u.link := offReady_only u .link (by decide)
    have hfin := finishJob_only j (offReady u)
    have hgone := finishJob_gone j (offReady u)
    have hls : QuietLink s.link.ls → QuietLink (finishJob j (offReady u)).link.ls := fun hq => by
      have hstage := finishJob_linkStage (s := offReady u) j (by rw [hready, hlink]; exact hq.1)
      rwa [show (finishJob j (offReady u)).link.ls = s.link.ls from (congrArg Prod.fst hstage).trans (by rw [linkStage, hready, hlink])]
    have hprev : (finishJob j (offReady u)).prev = (offReady u).prev := hfin .prev (by decide)
    have hcount : (finishJob j (offReady u)).vtf = (offReady u).vtf := hfin .vtf (by decide)
    generalize finishJob j (offReady u) = w at hgone hls hprev hcount hdue
    have hset := settleEntry_only (offAnswered w)
    have heng : (settleEntry (offAnswered w)).eng = w.eng := hset .eng (by decide)
    have hprev' : (settleEntry (offAnswered w)).prev = (offReady u).prev := (hset .prev (by decide)).trans hprev
    have hvtf' : (settleEntry (offAnswered w)).vtf = (offReady u).vtf := (hset .vtf (by decide)).trans hcount
    refine ⟨_, hdue, ?_, settleEntry_phase _, ?_, fun hmount => ?_, fun hq => off_reached (hls hq)⟩
    · rw [heng]
      exact hgone
    · exact congrArg Oasis.charging (hset .oas (by decide))
    · rw [hprev', hvtf', ← hvtf]
      exact offReady_clean (hstore ▸ hmount)
  case wakes =>
    intro hp hcause
    obtain ⟨hrun, hwhy, hfrom, hpowered⟩ := wakeNow_wakes cause hp
    exact ⟨_, (exec_wakeEvent_wakes hcause).trans (by rw [wake_now _ he]), hrun, hwhy, hfrom,
      (wakeNow_only _ _).mono (by simp), hpowered⟩
  case stays => exact exec_wakeEvent_run cause he
  case held =>
    intro x hx hheld
    rw [exec_wakeEvent_wakes (.inl rfl)]
    simp only [wake, hx, hheld]
    rfl

end Sys2Proof.Machine
end

section
/-! SUPPORT. What a fault that latches leaves in the collector's registers, what an escalation begins, and the wires that break and
    recover;
and the statement on them. -/
namespace Sys2Proof.Machine
open Sys2Proof

variable {s : State} {src : Nat} {det : BitVec 32} {on : Bool}

/-! ## The registers of a source that latches (R498, R499, R505) -/

/-- The collector's registers with a source latched, its timers apart. -/
def latchedRegs (f : Faults) (src : Nat) (det : BitVec 32) (dt : Nat) : Faults :=
  let e : HistEntry := { ets := dt, src := src, cls := srcClass src, det := det }
  let h := addHist f.hist e
  { f with
    latch := setBit96 f.latch src true
    ack := setBit96 f.ack src false
    latchedPol := vSet f.latchedPol src (vAt f.pol src)
    hist := h.1
    hovf := f.hovf || h.2
    first := match f.first with | some x => some x | none => some e
    legacy := f.legacy || decide (vAt f.pol src = 2) }

theorem latchRegs_timed {f : Faults} (dt now : Nat) (h : vAt f.pol src = 1) :
    latchRegs f src det dt now = startTimers (latchedRegs f src det dt) src now := by
  simp only [latchRegs, h, if_true, latchedRegs] <;> rfl

theorem latchRegs_untimed {f : Faults} (dt now : Nat) (h : vAt f.pol src ≠ 1) :
    latchRegs f src det dt now = latchedRegs f src det dt := by
  simp only [latchRegs, h, if_false, latchedRegs] <;> rfl

/-- A fault whose policy is to wait starts timers and changes nothing else (R505, R507). -/
theorem startTimers_timers (f : Faults) (src now : Nat) :
    ∃ th ce uc fa, startTimers f src now = { f with tmrTherm := th, tmrCe := ce, tmrUc := uc, tmrFa := fa } := by
  simp only [startTimers]
  split
  · exact ⟨_, _, _, _, rfl⟩
  · split <;> exact ⟨_, _, _, _, rfl⟩

theorem latchRegs_timers (f : Faults) (src : Nat) (det : BitVec 32) (dt now : Nat) :
    ∃ th ce uc fa, latchRegs f src det dt now = { latchedRegs f src det dt with tmrTherm := th, tmrCe := ce, tmrUc := uc, tmrFa := fa }
      := by
  by_cases h : vAt f.pol src = 1
  · rw [latchRegs_timed dt now h]
    exact startTimers_timers _ _ _
  · exact ⟨_, _, _, _, latchRegs_untimed dt now h⟩

theorem addHist_room {h : List HistEntry} (e : HistEntry) (hroom : h.length < 32) : addHist h e = (h ++ [e], false) := if_pos hroom

/-- A full history takes no fault below FATAL (R499). -/
theorem addHist_full {h : List HistEntry} {e : HistEntry} (hfull : 32 ≤ h.length) (hcls : e.cls ≠ .fa) : addHist h e = (h, true) := by
  simp only [addHist, if_neg (Nat.not_lt.2 hfull)]

/-- A source has latched: its bit, its place in the history, and the first fault; what shows and what was counted stay (R498, R499). -/
structure LatchedIn (src : Nat) (det : BitVec 32) (dt : Nat) (f g : Faults) : Prop where
  latch : ∀ n, g.latch.getLsbD n = (decide (n = src) || f.latch.getLsbD n)
  ack : g.ack.getLsbD src = false
  dup : g.dup = f.dup
  room : f.hist.length < 32 → g.hist = f.hist ++ [{ ets := dt, src := src, cls := srcClass src, det := det }] ∧ g.hovf = f.hovf
  full : 32 ≤ f.hist.length → srcClass src ≠ .fa → g.hist = f.hist ∧ g.hovf = true
  first : g.first = (if f.first = none then some { ets := dt, src := src, cls := srcClass src, det := det } else f.first)

theorem latchRegs_latchedIn (f : Faults) (det : BitVec 32) (dt now : Nat) (hsrc : src < 96) :
    LatchedIn src det dt f (latchRegs f src det dt now) := by
  obtain ⟨th, ce, uc, fa, heq⟩ := latchRegs_timers f src det dt now
  rw [heq]
  refine ⟨fun n => ?_, ?_, rfl, fun hroom => ?_, fun hfull hcls => ?_, ?_⟩
  · show (setBit96 f.latch src true).getLsbD n = _
    rw [setBit96_getLsbD _ _ _ _ hsrc]
    by_cases hn : n = src <;> simp [hn]
  · show (setBit96 f.ack src false).getLsbD src = false
    rw [setBit96_getLsbD _ _ _ _ hsrc, if_pos rfl]
  · simp only [latchedRegs, addHist_room _ hroom, Bool.or_false]
    trivial
  · simp only [latchedRegs, addHist_full (e := { ets := dt, src := src, cls := srcClass src, det := det }) hfull hcls, Bool.or_true]
    trivial
  · cases hf : f.first <;> simp [latchedRegs, hf]

theorem latchFault_flt (hon : collectorOn s = true) (hl : s.flt.latch.getLsbD src = false) :
    (latchFault src det s).flt = latchRegs s.flt src det s.dtime s.tick := by
  obtain ⟨m, hm, heq⟩ := latchFault_new det hon hl
  have hmflt : m.flt = latchRegs s.flt src det s.dtime s.tick := hm .flt (by decide)
  rw [heq]
  split
  · exact (lossBegin_only true m .flt (by decide)).trans hmflt
  · exact hmflt

theorem latchFault_pwr_stays (hon : collectorOn s = true) (hl : s.flt.latch.getLsbD src = false) (hpol : vAt s.flt.pol src ≠ 2) :
    (latchFault src det s).pwr = s.pwr := by
  obtain ⟨m, hm, heq⟩ := latchFault_new det hon hl
  rw [heq, if_neg hpol]
  exact hm .pwr (by decide)

/-- The power state of a fatal halt begun (R93, R508). -/
def haltedPwr (p : Pwr) : Pwr := { p with seq := .manifest, fatal := true, phase := .halt, entry := none }

theorem collectorOn_pstate (hon : collectorOn s = true) : s.pwr.pstate ≠ .off := by
  simp only [collectorOn, Bool.and_eq_true, decide_eq_true_eq] at hon
  exact hon.2

theorem latchFault_pwr_halts (hon : collectorOn s = true) (hl : s.flt.latch.getLsbD src = false) (hpol : vAt s.flt.pol src = 2)
    (hcalm : s.pwr.seq = .none) : (latchFault src det s).pwr = haltedPwr s.pwr := by
  obtain ⟨m, hm, heq⟩ := latchFault_new det hon hl
  have hpwr : m.pwr = s.pwr := hm .pwr (by decide)
  rw [heq, if_pos hpol, (lossBegin_begins (s := m) true (hpwr ▸ hcalm) (hpwr ▸ collectorOn_pstate hon)).pwr, hpwr]
  rfl

/-! ## A fault source, passing or persisting -/

/-- The state in which a source is seen: where its fault state persists, the collector shows it (R498). -/
def showing (on : Bool) (src : Nat) (det : BitVec 32) (s : State) : State :=
  if on then { s with flt := { s.flt with present := setBit96 s.flt.present src true, detail := put src det s.flt.detail } } else s

theorem exec_faultLatch_seen (hmin : 1 ≤ src) (hmax : src < 80) (hm : s.flt.masked.getLsbD src = false) :
    exec (.faultLatch src det on) s = .next (latchFault src det (showing on src det s)) := by
  have hdue : (decide (1 ≤ src) && decide (src < 80)) = true := by simp [hmin, hmax]
  have hseen : raiseFault src det (showing on src det s) = latchFault src det (showing on src det s) := by
    cases on <;> exact if_neg (ne_true_of_eq_false hm)
  rw [← hseen]
  cases on <;> exact whenDue_of s _ hdue

theorem exec_faultLatch_masked (hmin : 1 ≤ src) (hmax : src < 80) (hm : s.flt.masked.getLsbD src = true) :
    exec (.faultLatch src det false) s = .next s := by
  have hraise : raiseFault src det s = s := if_pos hm
  have hdue := whenDue_of s (raiseFault src det s) (c := decide (1 ≤ src) && decide (src < 80)) (by simp [hmin, hmax])
  rw [hraise] at hdue
  exact (congrArg (whenDue _ s) hraise).trans hdue

/-- A source that latches, with the timers and the halt of its policy (R498, R505, R507, R508). -/
structure Seen (src : Nat) (det : BitVec 32) (s t : State) : Prop where
  regs : LatchedIn src det s.dtime s.flt t.flt
  present : t.flt.present = s.flt.present
  logged : vAt s.flt.pol src = 0 → t.pwr = s.pwr ∧ t.flt.tmrUc = s.flt.tmrUc ∧ t.flt.tmrCe = s.flt.tmrCe ∧ t.flt.tmrFa = s.flt.tmrFa
  timed : vAt s.flt.pol src = 1 → srcClass src = .uc → s.flt.tmrUc = none →
    t.pwr = s.pwr ∧ t.flt.tmrUc = some { due := s.tick + 10 * 2 ^ s.flt.kuc.toNat, src := src }
  halts : vAt s.flt.pol src = 2 → s.pwr.seq = .none →
    t.pwr.seq = .manifest ∧ t.pwr.fatal = true ∧ t.pwr.phase = .halt ∧ t.flt.legacy = true

theorem latchFault_seen (det : BitVec 32) (hon : collectorOn s = true) (hsrc : src < 96) (hl : s.flt.latch.getLsbD src = false) :
    Seen src det s (latchFault src det s) := by
  have hflt := latchFault_flt (det := det) hon hl
  refine ⟨?_, ?_, fun h => ?_, fun h hcls hnone => ?_, fun h hcalm => ?_⟩
  · rw [hflt]
    exact latchRegs_latchedIn _ _ _ _ hsrc
  · rw [hflt]
    exact congrArg Prod.fst (latchRegs_inputs _ _ _ _ _)
  · rw [latchFault_pwr_stays hon hl (by simp [h]), hflt, latchRegs_untimed _ _ (by simp [h])]
    exact ⟨rfl, rfl, rfl, rfl⟩
  · have hseven : src ≠ 7 := by
      rintro rfl
      exact absurd hcls (by decide)
    rw [latchFault_pwr_stays hon hl (by simp [h]), hflt, latchRegs_timed _ _ h]
    refine ⟨rfl, ?_⟩
    simp only [startTimers, hseven, if_false, hcls, latchedRegs, hnone, startEsc, escLen]
  · rw [latchFault_pwr_halts hon hl h hcalm]
    refine ⟨rfl, rfl, rfl, ?_⟩
    rw [hflt, latchRegs_untimed _ _ (by simp [h])]
    simp [latchedRegs, h]

/-- The same of a source seen for the first time, its fault state shown where it persists. -/
theorem showing_seen (on : Bool) (det : BitVec 32) (hon : collectorOn s = true) (hsrc : src < 96) (hl : s.flt.latch.getLsbD src = false) :
    Seen src det (showing on src det s) (latchFault src det (showing on src det s)) := by
  cases on <;> exact latchFault_seen det hon hsrc hl

theorem showing_present (on : Bool) (det : BitVec 32) (s : State) (hsrc : src < 96) (n : Nat) :
    (showing on src det s).flt.present.getLsbD n = (s.flt.present.getLsbD n || (on && decide (n = src))) := by
  cases on with
  | false => simp [showing]
  | true =>
    show (setBit96 s.flt.present src true).getLsbD n = _
    rw [setBit96_getLsbD _ _ _ _ hsrc]
    by_cases hn : n = src <;> simp [hn]

/-! ## A wire that breaks, and one that recovers (R187) -/

/-- A source masked, or seen again. -/
def withMask (src : Nat) (b : Bool) (s : State) : State := { s with flt := { s.flt with masked := setBit96 s.flt.masked src b } }

theorem withMask_only (src : Nat) (b : Bool) (s : State) : OnlyIn [.flt] s (withMask src b s) := by
  intro r hr; cases r <;> simp_all [sameIn, withMask]

theorem withMask_masked (b : Bool) (hsrc : src < 96) (n : Nat) :
    (withMask src b s).flt.masked.getLsbD n = if n = src then b else s.flt.masked.getLsbD n :=
  setBit96_getLsbD _ _ _ _ hsrc

theorem exec_brokenWire_due (on : Bool) (hon : collectorOn s = true) (hmin : 1 ≤ src) (hmax : src < 96) (hm : s.flt.masked.getLsbD src =
    false) :
    exec (.brokenWire src on) s = .next (raiseFault 0 (BitVec.ofNat 32 (src + b2n on * 0x300)) (withMask src true s)) :=
  whenDue_of s _ (by simp only [hon, hmin, hmax, hm, decide_true, Bool.not_false, Bool.and_self])

theorem exec_brokenWireRecovered_due (hon : collectorOn s = true) (hmax : src < 96) (hm : s.flt.masked.getLsbD src = true) :
    exec (.brokenWireRecovered src) s = .next
      (if s.flt.present.getLsbD src then raiseFault src ((look src s.flt.detail).getD 0) (withMask src false s)
      else if s.flt.force.getLsbD src && decide (src < 80) then raiseFault src 0 (withMask src false s)
      else withMask src false s) :=
  whenDue_of s _ (by simp only [hon, hmax, hm, decide_true, Bool.and_self])

/-- What a broken wire leaves: its source masked, and source 0 latched with the wire and its level (R187). -/
theorem brokenWire_latches (on : Bool) (hon : collectorOn s = true) (hmin : 1 ≤ src) (hmax : src < 96) (hmask : s.flt.masked.getLsbD 0 =
    false)
    (hl : s.flt.latch.getLsbD 0 = false) :
    let t := raiseFault 0 (BitVec.ofNat 32 (src + b2n on * 0x300)) (withMask src true s)
    (∀ n, t.flt.masked.getLsbD n = (decide (n = src) || s.flt.masked.getLsbD n)) ∧ t.flt.latch.getLsbD 0 = true
      ∧ (s.flt.hist.length < 32 → t.flt.hist.getLast? = some
        { ets := s.dtime, src := 0, cls := .uc, det := BitVec.ofNat 32 (src + if on then 0x300 else 0) }) := by
  have hseen : (withMask src true s).flt.masked.getLsbD 0 = false := by
    rw [withMask_masked true hmax, if_neg (by omega), hmask]
  have hdet : src + b2n on * 0x300 = src + if on then 0x300 else 0 := by cases on <;> rfl
  have hflt := latchFault_flt (s := withMask src true s) (src := 0) (det := BitVec.ofNat 32 (src + b2n on * 0x300)) hon hl
  have hraise : raiseFault 0 (BitVec.ofNat 32 (src + b2n on * 0x300)) (withMask src true s)
      = latchFault 0 (BitVec.ofNat 32 (src + b2n on * 0x300)) (withMask src true s) := if_neg (ne_true_of_eq_false hseen)
  have hin := latchRegs_latchedIn (src := 0) (withMask src true s).flt (BitVec.ofNat 32 (src + b2n on * 0x300)) s.dtime s.tick (by decide)
  have hmasked := congrArg (fun x => x.2.2) (latchRegs_inputs (withMask src true s).flt 0 (BitVec.ofNat 32 (src + b2n on * 0x300))
    s.dtime s.tick)
  dsimp only [inputsOf] at hmasked
  dsimp only
  rw [hraise, hflt]
  refine ⟨fun n => ?_, ?_, fun hroom => ?_⟩
  · refine (congrArg (fun m => m.getLsbD n) hmasked).trans ((withMask_masked true hmax n).trans ?_)
    by_cases hn : n = src <;> simp [hn]
  · rw [← hflt]
    exact (congrArg (fun g : Faults => g.latch.getLsbD 0) hflt).trans ((hin.latch 0).trans (by simp))
  · have hhist := (hin.room hroom).1
    rw [hdet] at hhist ⊢
    exact (congrArg List.getLast? hhist).trans (by simp [show srcClass 0 = .uc from rfl])

theorem exec_brokenWireRecovered_quiet (hon : collectorOn s = true) (hmax : src < 96) (hm : s.flt.masked.getLsbD src = true)
    (hp : s.flt.present.getLsbD src = false) (hf : s.flt.force.getLsbD src = false) :
    exec (.brokenWireRecovered src) s = .next (withMask src false s) := by
  rw [exec_brokenWireRecovered_due hon hmax hm]
  simp only [hp, hf, Bool.false_eq_true, Bool.false_and, if_false]

theorem exec_brokenWireRecovered_shows (hon : collectorOn s = true) (hmax : src < 96) (hm : s.flt.masked.getLsbD src = true)
    (hp : s.flt.present.getLsbD src = true) :
    exec (.brokenWireRecovered src) s = .next (raiseFault src ((look src s.flt.detail).getD 0) (withMask src false s)) := by
  rw [exec_brokenWireRecovered_due hon hmax hm]
  simp only [hp, if_true]

/-! ## The timers (R505 to R508) -/

/-- An escalation: its source noted, and a fatal halt begun (R508). -/
theorem escalate_halts (n : Nat) (hon : collectorOn s = true) (hcalm : s.pwr.seq = .none) :
    (escalate n s).flt = { s.flt with esc := true, escSrc := n } ∧ (escalate n s).pwr = haltedPwr s.pwr := by
  have hbegin := (lossBegin_begins (s := { s with flt := { s.flt with esc := true, escSrc := n } }) true hcalm (collectorOn_pstate
    hon)).pwr
  exact ⟨lossBegin_only true _ .flt (by decide), hbegin⟩

/-- The class of an escalation timer, by its number. -/
def timerClass (k : Fin 3) : FClass := if k.val = 0 then .ce else if k.val = 1 then .uc else .fa

theorem exec_escalationTimerExpiry_early (k : Fin 3) {e : Esc} (he : escTimer s.flt (timerClass k) = some e) (h : s.tick < e.due) :
    exec (.escalationTimerExpiry k) s = .next s := by
  have hwait : ¬(collectorOn s = true ∧ e.due ≤ s.tick) := fun hdue => absurd hdue.2 (by omega)
  show execEscalationTimerExpiry k s = _
  unfold timerClass at he
  simp only [execEscalationTimerExpiry, he, hwait, if_false]

theorem exec_escalationTimerExpiry_due (k : Fin 3) {e : Esc} (hon : collectorOn s = true) (he : escTimer s.flt (timerClass k) = some e)
    (h : e.due ≤ s.tick) : exec (.escalationTimerExpiry k) s =
      .next (escalate (escSource s.flt (timerClass k) e) { s with flt := stopEsc (timerClass k) s.flt }) := by
  have hdue : collectorOn s = true ∧ e.due ≤ s.tick := ⟨hon, h⟩
  show execEscalationTimerExpiry k s = _
  unfold timerClass at he
  simp only [execEscalationTimerExpiry, he, hdue, and_self, if_true]
  rfl

theorem exec_thermHalt_early {d : Nat} (hd : s.flt.tmrTherm = some d) (h : s.tick < d) : exec .thermHaltTimerExpiry s = .next s := by
  have hwait : ¬(collectorOn s = true ∧ d ≤ s.tick) := fun hdue => absurd hdue.2 (by omega)
  show execThermHaltTimerExpiry s = _
  simp only [execThermHaltTimerExpiry, hd, hwait, if_false]

theorem exec_thermHalt_due {d : Nat} (hon : collectorOn s = true) (hd : s.flt.tmrTherm = some d) (h : d ≤ s.tick) :
    exec .thermHaltTimerExpiry s = .next (escalate 7 { s with flt.tmrTherm := none }) := by
  have hdue : collectorOn s = true ∧ d ≤ s.tick := ⟨hon, h⟩
  show execThermHaltTimerExpiry s = _
  simp only [execThermHaltTimerExpiry, hd, hdue, and_self, if_true]

/-! ## The entropy source (R196) -/

/-- The generator stopped by a failure of its health tests. -/
def entropyFailed (s : State) : State := { s with vtf := { s.vtf with drbgOk := false, entFail := true } }

theorem exec_entropyHealthFail (on : Bool) (hon : collectorOn s = true) :
    exec (.entropyHealthFail on) s = .next (raiseFault 8 (if on then 2 else 1) (entropyFailed s)) :=
  whenDue_of s _ hon

theorem entropyFailed_vtf (det : BitVec 32) (s : State) : (raiseFault 8 det (entropyFailed s)).vtf = (entropyFailed s).vtf :=
  raiseFault_only _ _ _ .vtf (by decide)

/-! ## The obligation -/

/-- Settles O53: a source that is seen latches with its entry, timers and halt; a wire's mask decides whether its source is seen; a timer
that has run out escalates with its source. -/
theorem faultLatchesAndTimers : Obligations.FaultLatchesAndTimers := by
  unfold Obligations.FaultLatchesAndTimers
  intro s src det on
  dsimp only
  intro hon
  refine ⟨fun hmin hmax hm => ⟨?again, ?newly⟩, exec_faultLatch_masked, ?broken, fun hmax hm => ⟨?quiet, ?shows⟩,
    fun e he => ⟨?faEarly, ?faDue⟩, ?ucDue, ?ceDue, fun d hd => ⟨exec_thermHalt_early hd, ?thermDue⟩, ?entropy⟩
  case again =>
    intro hl
    rw [exec_faultLatch_seen hmin hmax hm]
    exact congrArg Host.Outcome.next (latchFault_again src det hon hl)
  case newly =>
    intro hl
    have hsrc : src < 96 := by omega
    have hseen := showing_seen on det hon hsrc hl
    have hpresent (n : Nat) := (congrArg (fun p => p.getLsbD n) hseen.present).trans (showing_present on det s hsrc n)
    have hexec := exec_faultLatch_seen (det := det) (on := on) hmin hmax hm
    obtain ⟨⟨hlatch, hack, hdup, hroom, hfull, hfirst⟩, -, hlog, htimed, hhalt⟩ := hseen
    cases on <;> exact ⟨_, hexec, hlatch, hack, hdup, hpresent, hroom, hfull, hfirst, hlog, htimed, hhalt⟩
  case broken =>
    intro hmin hmax hm hmask hl
    exact ⟨_, exec_brokenWire_due on hon hmin hmax hm, brokenWire_latches on hon hmin hmax hmask hl⟩
  case quiet =>
    intro hp hf
    refine ⟨_, exec_brokenWireRecovered_quiet hon hmax hm hp hf, fun n => ?_, rfl, withMask_only _ _ _⟩
    rw [withMask_masked false hmax]
    by_cases hn : n = src <;> simp [hn]
  case shows =>
    intro hp
    refine ⟨_, exec_brokenWireRecovered_shows hon hmax hm hp, raiseFault_latches _ _ _ hmax ?_ hon⟩
    rw [withMask_masked false hmax, if_pos rfl]
  case faEarly => exact exec_escalationTimerExpiry_early 2 he
  case faDue =>
    intro hdue hcalm
    obtain ⟨hflt, hpwr⟩ := escalate_halts (s := { s with flt := stopEsc .fa s.flt }) e.src hon hcalm
    refine ⟨_, exec_escalationTimerExpiry_due 2 hon he hdue, ?_⟩
    exact ⟨congrArg Faults.esc hflt, congrArg Faults.escSrc hflt, congrArg Faults.tmrFa hflt, congrArg Pwr.seq hpwr, congrArg Pwr.fatal
      hpwr,
      congrArg Pwr.phase hpwr, (congrArg Faults.latch hflt).trans rfl⟩
  case ucDue =>
    intro e n rest he hdue hopen hcalm
    have hsrc : escSource s.flt .uc e = n := by simp only [escSource, hopen, List.head?_cons, Option.getD_some]
    obtain ⟨hflt, hpwr⟩ := escalate_halts (s := { s with flt := stopEsc .uc s.flt }) (escSource s.flt .uc e) hon hcalm
    refine ⟨_, exec_escalationTimerExpiry_due 1 hon he hdue, ?_⟩
    exact ⟨congrArg Faults.esc hflt, (congrArg Faults.escSrc hflt).trans hsrc, congrArg Faults.tmrUc hflt, congrArg Pwr.fatal hpwr⟩
  case ceDue =>
    intro e n rest he hdue hopen hcalm
    have hsrc : escSource s.flt .ce e = n := by simp only [escSource, hopen, List.head?_cons, Option.getD_some]
    obtain ⟨hflt, hpwr⟩ := escalate_halts (s := { s with flt := stopEsc .ce s.flt }) (escSource s.flt .ce e) hon hcalm
    refine ⟨_, exec_escalationTimerExpiry_due 0 hon he hdue, ?_⟩
    exact ⟨congrArg Faults.esc hflt, (congrArg Faults.escSrc hflt).trans hsrc, congrArg Faults.tmrCe hflt, congrArg Pwr.fatal hpwr⟩
  case thermDue =>
    intro hdue hcalm
    obtain ⟨hflt, hpwr⟩ := escalate_halts (s := { s with flt.tmrTherm := none }) 7 hon hcalm
    exact ⟨_, exec_thermHalt_due hon hd hdue, congrArg Faults.esc hflt, congrArg Faults.escSrc hflt, congrArg Faults.tmrTherm hflt,
      congrArg Pwr.fatal hpwr, congrArg Pwr.phase hpwr⟩
  case entropy =>
    refine ⟨_, exec_entropyHealthFail on hon, ?_, ?_, fun hm => raiseFault_latches _ _ _ (by decide) hm hon⟩
    · rw [entropyFailed_vtf]
      rfl
    · rw [entropyFailed_vtf]
      rfl

end Sys2Proof.Machine
end

section
/-! SUPPORT. What a reset restarts and what it keeps, when each kind of reset is taken; and the statement on them. -/
namespace Sys2Proof.Machine
open Sys2Proof

variable {s t u : State} {k : Kind}

/-! ## What no reset changes (R205, R524, R531) -/

theorem KeptByReset.of_only {l : List Region} (h : OnlyIn l s t) (hv : Region.vtf ∉ l) (ha : Region.arr ∉ l) (hu : Region.ucode ∉ l)
    (hd : Region.dtime ∉ l) (ht : Region.tick ∉ l) (hvar : Region.variant ∉ l) (hp : Region.pending ∉ l) : KeptByReset s t := by
  have evtf : t.vtf = s.vtf := h .vtf hv
  have earr : t.arr = s.arr := h .arr ha
  have eucode : t.ucode = s.ucode := h .ucode hu
  have edtime : t.dtime = s.dtime := h .dtime hd
  exact ⟨congrArg _ evtf, congrArg _ evtf, congrArg _ evtf, congrArg _ earr, congrArg _ eucode, edtime.ge, h .tick ht, h .variant hvar,
    h .pending hp⟩

/-- The steps in the order of the terms: the later one first. -/
theorem KeptByReset.after (h' : KeptByReset t u) (h : KeptByReset s t) : KeptByReset s u := by
  obtain ⟨hcount, hkeys, hlife, hmap, hstored, hdtime, htick, hvariant, hpending⟩ := h
  obtain ⟨hcount', hkeys', hlife', hmap', hstored', hdtime', htick', hvariant', hpending'⟩ := h'
  exact ⟨hcount'.trans hcount, hkeys'.trans hkeys, hlife'.trans hlife, hmap'.trans hmap, hstored'.trans hstored, hdtime.trans hdtime',
    htick'.trans htick, hvariant'.trans hvariant, hpending'.trans hpending⟩

/-- What a reset makes of trains and of a loss before it restarts the parts. -/
def resetRegions : List Region := [.store, .eng, .wadi, .flt, .pwr, .link, .oas, .cores, .prev]

theorem unwindTrain_only (tr : Train) (s : State) : OnlyIn resetRegions s (unwindTrain tr s) := by
  unfold unwindTrain
  extract_lets s1 store eng wadi s2
  have h1 : OnlyIn [.store] s s1 := OnlyIn.foldl _ (fun u b => updStream_only u _ _) tr.back s
  have h2 : OnlyIn [.store, .eng, .wadi] s1 s2 := by
    intro r hr; cases r <;> simp_all [sameIn, s2]
  have hlower (u : State) (b : Nat × Nat × List Byte) : OnlyIn [.eng] u (lowerSeals b.1 (b.2.1 - 1) u) := by
    intro r hr; cases r <;> simp_all [sameIn, lowerSeals]
  have h3 := (returnCredits_only (tr.members.map (·.credits)).sum s2).trans
    (OnlyIn.foldl (fun u (b : Nat × Nat × List Byte) => lowerSeals b.1 (b.2.1 - 1) u) hlower tr.back _) (n := resetRegions)
    (by simp [resetRegions]) (by simp [resetRegions])
  have h12 := h1.trans h2 (n := resetRegions) (by simp [resetRegions]) (by simp [resetRegions])
  exact h12.trans h3 (fun _ h => h) (fun _ h => h)

theorem OnlyIn.foldr {α : Type} {l : List Region} (f : α → State → State) (h : ∀ a t, OnlyIn l t (f a t)) (as : List α) (s : State) :
    OnlyIn l s (as.foldr f s) := by
  induction as with
  | nil => exact OnlyIn.refl _ _
  | cons a as ih => exact ih.trans (h a _) (fun _ h => h) (fun _ h => h)

theorem dropOpenTrains_only (s : State) : OnlyIn resetRegions s (dropOpenTrains s) := OnlyIn.foldr _ unwindTrain_only _ s

theorem noteLoss_only (k : Kind) (s : State) : OnlyIn [.prev, .store] s (noteLoss k s) := by
  have hnote (p : EndState) (h : Vector Half 2) : OnlyIn [.prev, .store] s { s with prev := p, store.halves := h } := by
    intro r hr; cases r <;> simp_all [sameIn]
  simp only [noteLoss]
  split
  · exact hnote _ _
  · exact OnlyIn.refl _ _

/-- The state that a reset restarts: open trains dropped, a loss noted (R66, R531). -/
def beforeReset (k : Kind) (s : State) : State := noteLoss k (dropOpenTrains s)

theorem beforeReset_only (k : Kind) (s : State) : OnlyIn resetRegions s (beforeReset k s) :=
  (dropOpenTrains_only s).trans (noteLoss_only k _) (fun _ h => h) (by simp [resetRegions])

theorem resetVtf_kept (k : Kind) (cold : Bool) (v : Trust) : (resetVtf k cold v).counters = v.counters
    ∧ (resetVtf k cold v).keys = v.keys ∧ (resetVtf k cold v).life = v.life ∧ (resetVtf k cold v).sessions = [] := by
  simp only [resetVtf]
  split <;> exact ⟨rfl, rfl, rfl, rfl⟩

theorem resetUcode_stored (k : Kind) (u : Ucode) : (resetUcode k u).stored = u.stored := by
  simp only [resetUcode]
  split <;> rfl

theorem resetFlt_force (k : Kind) (cold : Bool) (f : Faults) : (resetFlt k cold f).force = 0 := by
  simp only [resetFlt]
  split
  · rfl
  · split <;> rfl

theorem applyReset_kept (k : Kind) (s : State) : KeptByReset s (applyReset k s) := by
  have hbefore : KeptByReset s (beforeReset k s) := .of_only (beforeReset_only k s) (by decide) (by decide) (by decide) (by decide)
    (by decide) (by decide) (by decide)
  obtain ⟨hcount, hkeys, hlife, -⟩ := resetVtf_kept k (coldReset k (beforeReset k s)) (beforeReset k s).vtf
  have hreset : KeptByReset (beforeReset k s) (applyReset k s) :=
    ⟨hcount, hkeys, hlife, rfl, resetUcode_stored k _, le_refl _, rfl, rfl, rfl⟩
  exact hreset.after hbefore

/-! ## What a reset restarts (R528, R531) -/

theorem coreOf_applyReset (k : Kind) (s : State) (c : Fin 16) : coreOf (applyReset k s) c.val = Core.reset :=
  vAt_vMap (fun _ => Core.reset) (beforeReset k s).cores c.val c.isLt

theorem queueOf_applyReset (k : Kind) (s : State) (q : Nat) : queueOf (applyReset k s) q = [] := vAt_replicate_default 64 q

/-- Every kind but SOFT leaves the device unreleased, and every core at rest (R530). -/
theorem applyReset_restarted (s : State) (hk : k ≠ .soft) :
    Restarted k (applyReset k s) ∧ (applyReset k s).pwr.released = decide (k = .soft) := by
  obtain ⟨-, -, -, hsessions⟩ := resetVtf_kept k (coldReset k (beforeReset k s)) (beforeReset k s).vtf
  have hforce := resetFlt_force k (coldReset k (beforeReset k s)) (beforeReset k s).flt
  refine ⟨⟨rfl, rfl, rfl, rfl, rfl, rfl, rfl, rfl, hsessions, rfl, rfl, hforce, rfl, queueOf_applyReset k s, fun c => ?_⟩, rfl⟩
  rw [coreOf_applyReset, decide_eq_false fun h => hk h.1]
  rfl

/-- The start of a device, before the half of the early log is chosen (R530). -/
def commonStarted (s : State) : State :=
  { s with
    dtime := s.dtime + 1
    pwr.resume := s.dtime + 1
    store.mountCount := vAt s.vtf.counters 8 + 1
    cores := vUpd s.cores 0 fun c => { c with running := true } }

theorem startCommon_eq (s : State) : startCommon s = startHalf (commonStarted s) := rfl

theorem startHalf_only (s : State) : OnlyIn [.store] s (startHalf s) := by
  have hstore (x : StoreSt) : OnlyIn [.store] s { s with store := x } := by
    intro r hr; cases r <;> simp_all [sameIn]
  simp only [startHalf]
  split <;> exact hstore _

theorem startHalf_mounted (s : State) : (startHalf s).store.mounted = s.store.mounted := by
  simp only [startHalf]
  split <;> rfl

theorem startCommon_kept (s : State) : KeptByReset s (startCommon s) := by
  have hstart : KeptByReset s (commonStarted s) := ⟨rfl, rfl, rfl, rfl, rfl, Nat.le_succ _, rfl, rfl, rfl⟩
  rw [startCommon_eq]
  exact (KeptByReset.of_only (startHalf_only _) (by decide) (by decide) (by decide) (by decide) (by decide) (by decide) (by
    decide)).after hstart

theorem coreOf_commonStarted (s : State) (c : Fin 16) :
    coreOf (commonStarted s) c.val = { coreOf s c.val with running := decide (c.val = 0) || (coreOf s c.val).running } := by
  show vAt (vUpd s.cores 0 fun x => { x with running := true }) c.val = _
  by_cases hc : c.val = 0
  · rw [hc, vAt_vUpd_same _ _ _ (by decide)]
    rfl
  · rw [vAt_vUpd_other _ _ _ _ (Ne.symm hc), decide_eq_false hc, Bool.false_or]
    rfl

/-- A SOFT reset leaves the device released, and core 0 in the start-up code (R527, R530). -/
theorem softReset_restarted (s : State) : Restarted .soft (startCommon (applyReset .soft s))
    ∧ (startCommon (applyReset .soft s)).pwr.released = decide (Kind.soft = .soft) := by
  obtain ⟨-, -, -, hsessions⟩ := resetVtf_kept .soft (coldReset .soft (beforeReset .soft s)) (beforeReset .soft s).vtf
  have hforce := resetFlt_force .soft (coldReset .soft (beforeReset .soft s)) (beforeReset .soft s).flt
  have honly := startHalf_only (commonStarted (applyReset .soft s))
  have hpwr : (startHalf (commonStarted (applyReset .soft s))).pwr = (commonStarted (applyReset .soft s)).pwr := honly .pwr (by decide)
  have hvtf : (startHalf (commonStarted (applyReset .soft s))).vtf = (applyReset .soft s).vtf := honly .vtf (by decide)
  have hflt : (startHalf (commonStarted (applyReset .soft s))).flt = (applyReset .soft s).flt := honly .flt (by decide)
  have heng : (startHalf (commonStarted (applyReset .soft s))).eng = (applyReset .soft s).eng := honly .eng (by decide)
  have hmem : (startHalf (commonStarted (applyReset .soft s))).mem = (applyReset .soft s).mem := honly .mem (by decide)
  have hcores : (startHalf (commonStarted (applyReset .soft s))).cores = (commonStarted (applyReset .soft s)).cores := honly .cores (by
    decide)
  rw [startCommon_eq]
  refine ⟨⟨congrArg Pwr.phase hpwr, congrArg Pwr.kind hpwr, congrArg Pwr.pstate hpwr, congrArg Pwr.seq hpwr, congrArg Pwr.fatal hpwr,
    congrArg Pwr.wdEn hpwr, honly .mmu (by decide), honly .cache (by decide), (congrArg Trust.sessions hvtf).trans hsessions,
    startHalf_mounted _, congrArg MemSt.sram hmem, (congrArg Faults.force hflt).trans hforce, congrArg Engine.jobs heng, fun q => ?_,
    fun c => ?_⟩, congrArg Pwr.released hpwr⟩
  · exact (congrArg (fun e : Engine => vAt e.queues q) heng).trans (queueOf_applyReset .soft s q)
  · refine (congrArg (fun x => vAt x c.val) hcores).trans ((coreOf_commonStarted _ c).trans ?_)
    rw [coreOf_applyReset]
    by_cases hc : c.val = 0 <;> simp [hc, Core.reset]

/-! ## The rows of the resets (R524 to R529) -/

/-- A reset of a kind other than SOFT, taken in a state that keeps what no reset loses. -/
theorem applyReset_due (hk : k ≠ .soft) (h : KeptByReset s u) :
    Restarted k (applyReset k u) ∧ KeptByReset s (applyReset k u) ∧ (applyReset k u).pwr.released = decide (k = .soft) :=
  ⟨(applyReset_restarted u hk).1, (applyReset_kept k u).after h, (applyReset_restarted u hk).2⟩

theorem KeptByReset.pwr (s : State) (p : Pwr) : KeptByReset s { s with pwr := p } := ⟨rfl, rfl, rfl, rfl, rfl, le_refl _, rfl, rfl, rfl⟩

theorem exec_powerOnReset_due (hv : s.pwr.vmainHigh = false) (hq : s.pwr.seq = .none ∨ (s.pwr.seq = .off ∧ s.pwr.fatal = false)) :
    exec .powerOnReset s = .next (applyReset .por { s with pwr.vmainHigh := true, pwr.vmainAt := s.tick }) := by
  show execPowerOnReset s = _
  rcases hq with hq | ⟨hq, hf⟩
  · simp only [execPowerOnReset, hv, hq, Bool.false_eq_true, if_false]
  · simp only [execPowerOnReset, hv, hq, hf, Bool.false_eq_true, if_false]

theorem exec_fatalRelease_due (hq : s.pwr.seq = .off) (hf : s.pwr.fatal = true) :
    exec .fatalRelease s = .next (applyReset .fatal { s with pwr.vmainHigh := true }) :=
  whenDue_of s _ (by simp [hq, hf])

/-- The state that RESETn resets: the end of the pulse is a free value (log 50). -/
def pinPulsed (s : State) : State := { (freeTicks s).2 with pwr.resetUntil := s.tick + (freeTicks s).1 }

theorem exec_pinReset_due (hv : s.pwr.vmainHigh = true) (ht : resetTakes .pin s = true) :
    exec .pinReset s = .next (applyReset .pin (pinPulsed s)) :=
  whenDue_of s _ (by simp [hv, ht])

theorem exec_pinReset_refused (hq : s.pwr.seq ≠ .none) : exec .pinReset s = .next s := by
  have hin : inLoss s = true := decide_eq_true hq
  show execPinReset s = _
  simp [execPinReset, whenDue, resetTakes, hin]

theorem pinPulsed_kept (s : State) : KeptByReset s (pinPulsed s) := ⟨rfl, rfl, rfl, rfl, rfl, le_refl _, rfl, rfl, rfl⟩

theorem exec_softReset_due (hreq : s.link.softReq = true) (hcpls : s.link.cpls = []) (hrel : s.pwr.released = true) (hphase : s.pwr.phase
    ≠ .halt)
    (ht : resetTakes .soft s = true) : exec .softReset s = .next (startCommon (applyReset .soft s)) := by
  have hdue := whenDue_of s (if resetTakes .soft s then startCommon (applyReset .soft s) else { s with link.softReq := false })
    (c := s.link.softReq && s.link.cpls.isEmpty && s.pwr.released && decide (s.pwr.phase ≠ .halt)) (by simp [hreq, hcpls, hrel, hphase])
  rw [if_pos ht] at hdue
  exact (congrArg (whenDue _ s) (if_pos ht)).trans hdue

/-- The state that a watchdog reset restarts: its fault is raised first (R539, R548). -/
def wdogRaised (s : State) : State := raiseFault 77 (BitVec.ofNat 32 s.pwr.wdCore) { s with pwr.wdDue := none }

/-- Where the policy of source 77 is no halt, its fault leaves the power state alone. -/
theorem wdogRaised_pwr (hpol : vAt s.flt.pol 77 ≠ 2) : (wdogRaised s).pwr = { s.pwr with wdDue := none } := by
  simp only [wdogRaised, raiseFault]
  split
  · rfl
  · cases hon : collectorOn { s with pwr.wdDue := none } with
    | false => simp only [latchFault, hon, Bool.not_false, if_true]
    | true =>
      cases hl : s.flt.latch.getLsbD 77 with
      | true =>
        have hl' : { s with pwr.wdDue := none }.flt.latch.getLsbD 77 = true := hl
        simp only [latchFault, hon, hl', Bool.not_true, Bool.false_eq_true, if_false, if_true]
      | false =>
        obtain ⟨m, hm, heq⟩ := latchFault_new (s := { s with pwr.wdDue := none }) (BitVec.ofNat 32 s.pwr.wdCore) hon hl
        rw [heq, if_neg hpol]
        exact hm .pwr (by decide)

theorem wdogRaised_kept (s : State) : KeptByReset s (wdogRaised s) := by
  have hraise := raiseFault_only 77 (BitVec.ofNat 32 s.pwr.wdCore) { s with pwr.wdDue := none }
  have hkept : KeptByReset { s with pwr.wdDue := none } (wdogRaised s) :=
    .of_only hraise (by decide) (by decide) (by decide) (by decide) (by decide) (by decide) (by decide)
  exact hkept.after (.pwr s _)

theorem exec_watchdogExpiry_due {n : Nat} (hdue : s.pwr.wdDue = some n) (hn : n ≤ s.tick) (hen : s.pwr.wdEn = true) (hcalm : s.pwr.seq =
    .none)
    (hon : s.pwr.pstate ≠ .off) (ht : resetTakes .wdog s = true) (hpol : vAt s.flt.pol 77 ≠ 2) :
    exec .watchdogExpiry s = .next (applyReset .wdog (wdogRaised s)) := by
  have hlife : (wdogRaised s).vtf.life = s.vtf.life := congrArg Trust.life (raiseFault_only _ _ _ .vtf (by decide))
  have htakes : resetTakes .wdog (wdogRaised s) = true := by
    rw [← ht]
    simp only [resetTakes, starting, inLoss, wdogRaised_pwr hpol, hlife]
  have hgo : s.pwr.wdEn = true ∧ n ≤ s.tick ∧ inLoss s = false ∧ s.pwr.pstate ≠ .off := ⟨hen, hn, by simp [inLoss, hcalm], hon⟩
  show execWatchdogExpiry s = _
  simp only [execWatchdogExpiry, hdue]
  rw [if_pos hgo]
  exact congrArg Host.Outcome.next (if_pos htakes)

/-! ## The obligation -/

/-- Settles O28: each row, where it is due, applies its kind of reset to a state that keeps what no reset loses. -/
theorem resetsRestartTheDevice : Obligations.ResetsRestartTheDevice := by
  unfold Obligations.ResetsRestartTheDevice
  intro s
  refine ⟨fun hv hq => ⟨_, exec_powerOnReset_due hv hq, applyReset_due (by decide) (.pwr s _)⟩,
    fun hq hf => ⟨_, exec_fatalRelease_due hq hf, applyReset_due (by decide) (.pwr s _)⟩,
    fun hv ht => ⟨_, exec_pinReset_due hv ht, applyReset_due (by decide) (pinPulsed_kept s)⟩, ?soft, ?watchdog, exec_pinReset_refused⟩
  case soft =>
    intro hreq hcpls hrel hphase ht
    obtain ⟨hrestarted, hreleased⟩ := softReset_restarted s
    exact ⟨_, exec_softReset_due hreq hcpls hrel hphase ht, hrestarted, (startCommon_kept _).after (applyReset_kept .soft s), hreleased⟩
  case watchdog =>
    intro n hdue hn hen hcalm hon ht hpol
    exact ⟨_, exec_watchdogExpiry_due hdue hn hen hcalm hon ht hpol, applyReset_due (by decide) (wdogRaised_kept s)⟩

end Sys2Proof.Machine
end

section
/-! SUPPORT. What neither seals, reports, pruned keys nor measurements change of the trust block, with the slots retired and the streams
    there:
the frame of all that a mount or a SANITIZE settles. -/
namespace Sys2Proof.Machine
open Sys2Proof

/-- What of the trust block neither seals, reports, pruned keys nor measurements change: all but keys, seal numbers, measures and the
    counters
other than counter 5. -/
def trustRest (v : Trust) : Trust :=
  { v with
    counters := Vector.replicate 32 (vAt v.counters 5), bumps := Vector.replicate 32 0, sealNext := 0, sealEnd := 0, keys := []
    brInexact := false, ucodeH := [], extH := [] }

/-- The rest of the trust block is `v`, at least `n` slots are retired, and the streams of `ids` exist. -/
def Stays (v : Trust) (n : Nat) (ids : List Nat) (tr : Trust) (retired : Nat) (streams : List (Nat × Stream)) : Prop :=
  trustRest tr = v ∧ n ≤ retired ∧ ∀ k ∈ ids, (look k streams).isSome = true

/-- The same of a state. -/
abbrev StaysIn (v : Trust) (n : Nat) (ids : List Nat) (s : State) : Prop := Stays v n ids s.vtf s.arr.retired s.store.streams

variable {v : Trust} {n : Nat} {ids : List Nat}

theorem Stays.put {tr : Trust} {r : Nat} {l : List (Nat × Stream)} (h : Stays v n ids tr r l) (k : Nat) (st : Stream) :
    Stays v n ids tr r (put k st l) := by
  obtain ⟨htrust, hretired, hids⟩ := h
  refine ⟨htrust, hretired, fun i hi => ?_⟩
  by_cases hk : i = k
  · rw [hk, look_put_same]
    rfl
  · rw [look_put_other _ _ _ _ hk]
    exact hids i hi

theorem Stays.trust {tr tr' : Trust} {r : Nat} {l : List (Nat × Stream)} (h : Stays v n ids tr r l) (heq : trustRest tr' = trustRest tr) :
    Stays v n ids tr' r l := ⟨heq.trans h.1, h.2⟩

theorem Stays.retired {tr : Trust} {r r' : Nat} {l : List (Nat × Stream)} (h : Stays v n ids tr r l) (hle : r ≤ r') :
    Stays v n ids tr r' l := ⟨h.1, h.2.1.trans hle, h.2.2⟩

/-- A step whose frame leaves out store, array and trust block. -/
theorem StaysIn.of_only {l : List Region} {s t : State} (hs : StaysIn v n ids s) (h : OnlyIn l s t) (hst : Region.store ∉ l)
    (ha : Region.arr ∉ l) (hv : Region.vtf ∉ l) : StaysIn v n ids t := by
  have estore : t.store = s.store := h .store hst
  have earr : t.arr = s.arr := h .arr ha
  have evtf : t.vtf = s.vtf := h .vtf hv
  rw [StaysIn, estore, earr, evtf]
  exact hs

theorem StaysIn.foldl {α : Type} {f : State → α → State} (h : ∀ t a, StaysIn v n ids t → StaysIn v n ids (f t a)) (l : List α) (s : State)
    (hs : StaysIn v n ids s) : StaysIn v n ids (l.foldl f s) := by
  induction l generalizing s with
  | nil => exact hs
  | cons a l ih => exact ih (f s a) (h s a hs)

theorem StaysIn.iter {f : State → State} (h : ∀ t, StaysIn v n ids t → StaysIn v n ids (f t)) (k : Nat) (s : State)
    (hs : StaysIn v n ids s) : StaysIn v n ids (iter f k s) := by
  induction k generalizing s with
  | zero => exact hs
  | succ k ih => exact ih (f s) (h s hs)

theorem StaysIn.ite {p : Prop} [Decidable p] {s t : State} (hs : StaysIn v n ids s) (ht : StaysIn v n ids t) :
    StaysIn v n ids (if p then s else t) := by
  split
  · exact hs
  · exact ht

/-- Whatever a merge of an early record leaves. -/
def MergeOut.Stays (v : Trust) (n : Nat) (ids : List Nat) : MergeOut → Prop
  | .merged s => StaysIn v n ids s
  | .dropped | .stays | .waits => True

end Sys2Proof.Machine
end

section
/-! SUPPORT. That frame through the writes, seals and answers of the store: `f_stays` says that `f` keeps it. -/
namespace Sys2Proof.Machine
open Sys2Proof

variable {v : Trust} {n : Nat} {ids : List Nat}

theorem takeFresh_stays (s : State) (hs : StaysIn v n ids s) :
    StaysIn v n ids (takeFresh s).2 := by
  grind [takeFresh]

theorem updDie_stays (s : State) (d : Nat) (f : Die → Die) (hs : StaysIn v n ids s) :
    StaysIn v n ids (updDie s d f) := by
  grind [updDie]

theorem updCore_stays (s : State) (c : Nat) (f : Core → Core) (hs : StaysIn v n ids s) :
    StaysIn v n ids (updCore s c f) := by
  grind [updCore]

theorem updCores_stays (s : State) (f : Core → Core) (hs : StaysIn v n ids s) :
    StaysIn v n ids (updCores s f) := by
  grind [updCores]

theorem updStream_stays (s : State) (sid : Nat) (f : Stream → Stream) (hs : StaysIn v n ids s) :
    StaysIn v n ids (updStream s sid f) := by
  simp only [updStream]
  split
  · exact hs
  · exact hs.put _ _

theorem updSeg_stays (s : State) (g : Nat) (f : SegSt → SegSt) (hs : StaysIn v n ids s) :
    StaysIn v n ids (updSeg s g f) := by
  grind [updSeg]

theorem updSlot_stays (s : State) (k' : Nat) (f : SlotInfo → SlotInfo) (hs : StaysIn v n ids s) :
    StaysIn v n ids (updSlot s k' f) := by
  grind [updSlot]

theorem pump_stays (s : State) (hs : StaysIn v n ids s) :
    StaysIn v n ids (pump s) := by
  grind [pump]

theorem formMsg_stays (typ : Nat) (body : List Byte) (s : State) (hs : StaysIn v n ids s) :
    StaysIn v n ids (formMsg typ body s) := by
  grind [formMsg, pump_stays]

theorem readyMsg_stays (s : State) (earlyOk : Bool) (hs : StaysIn v n ids s) :
    StaysIn v n ids (readyMsg s earlyOk) := by
  grind [readyMsg, formMsg_stays]

theorem formReply_stays (r : Reply) (s : State) (hs : StaysIn v n ids s) :
    StaysIn v n ids (formReply r s) := by
  grind [formReply, pump_stays]

theorem lossBegin_stays (fatal : Bool) (s : State) (hs : StaysIn v n ids s) :
    StaysIn v n ids (lossBegin fatal s) := by
  grind [lossBegin]

theorem latchFault_stays (src : Nat) (det : BitVec 32) (s : State) (hs : StaysIn v n ids s) :
    StaysIn v n ids (latchFault src det s) := by
  grind [latchFault, formMsg_stays, lossBegin_stays]

theorem raiseFault_stays (src : Nat) (det : BitVec 32) (s : State) (hs : StaysIn v n ids s) :
    StaysIn v n ids (raiseFault src det s) := by
  grind [raiseFault, latchFault_stays]

theorem windowMsg_stays (s : State) (hs : StaysIn v n ids s) :
    StaysIn v n ids (windowMsg s) := by
  grind [windowMsg, formMsg_stays]

theorem checkOver_stays (s : State) (hs : StaysIn v n ids s) :
    StaysIn v n ids (checkOver s) := by
  grind [checkOver, windowMsg_stays, raiseFault_stays]

theorem recomputeW_stays (s : State) (hs : StaysIn v n ids s) :
    StaysIn v n ids (recomputeW s) := by
  grind [recomputeW, windowMsg_stays, checkOver_stays]

theorem chargeCredits_stays (k' : Nat) (s : State) (hs : StaysIn v n ids s) :
    StaysIn v n ids (chargeCredits k' s) := by
  grind [chargeCredits]

theorem returnCredits_stays (k' : Nat) (s : State) (hs : StaysIn v n ids s) :
    StaysIn v n ids (returnCredits k' s) := by
  grind [returnCredits, checkOver_stays]

theorem mediaMsg_stays (s : State) (hs : StaysIn v n ids s) :
    StaysIn v n ids (mediaMsg s) := by
  grind [mediaMsg, formMsg_stays]

theorem mapSeg_stays (s : State) (g : Nat) (slot : Nat) (kind : Nat) (hs : StaysIn v n ids s) :
    StaysIn v n ids (mapSeg s g slot kind) := by
  grind [mapSeg, updSlot_stays]

theorem dropMove_stays (m : MoveSt) (s : State) (hs : StaysIn v n ids s) :
    StaysIn v n ids (dropMove m s) := by
  grind [dropMove, updSlot_stays, updDie_stays]

theorem dropMoves_stays (g : Nat) (s : State) (hs : StaysIn v n ids s) :
    StaysIn v n ids (dropMoves g s) := by
  have h : StaysIn v n ids (s.arr.moves.toList.foldl (fun t m => match m with
      | some x => if x.segno = g then dropMove x t else t
      | none => t) s) := StaysIn.foldl (fun t m ht => by grind [dropMove_stays]) _ s hs
  exact h

theorem unmapSeg_stays (s0 : State) (g : Nat) (hs : StaysIn v n ids s0) :
    StaysIn v n ids (unmapSeg s0 g) := by
  grind [unmapSeg, dropMoves_stays, updSlot_stays]

theorem bumpCounter_stays (i : Nat) (hi : i ≠ 5) (s : State) (hs : StaysIn v n ids s) :
    StaysIn v n ids (bumpCounter i s) :=
  hs.trust (by simp only [trustRest, bumpCounter, vAt_vUpd_other _ _ _ _ hi])

theorem issueSeal_stays (s : State) (hs : StaysIn v n ids s) :
    StaysIn v n ids (issueSeal s).2 := by
  simp only [issueSeal]
  split
  · exact hs.trust rfl
  · exact hs.trust (by simp only [trustRest, vAt_vSet_other _ 0 5 _ (by decide)])

theorem addRec_stays (sid : Nat) (r : Rec) (s : State) (hs : StaysIn v n ids s) :
    StaysIn v n ids (addRec sid r s) := by
  simp only [addRec]
  split
  · exact hs
  · exact chargeCredits_stays _ _ (hs.put _ _)

theorem updRec_stays (s : State) (sid : Nat) (seq : Nat) (f : Rec → Rec) (hs : StaysIn v n ids s) :
    StaysIn v n ids (updRec s sid seq f) := by
  grind [updRec, updStream_stays]

theorem writeDev_stays (payload : List Byte) (job : Option Nat) (s : State) (hs : StaysIn v n ids s) :
    StaysIn v n ids (writeDev payload job s) := by
  grind [writeDev, addRec_stays]

theorem releaseWaiting_writeDev_stays (t : State) (j : Option Nat) (p : List Byte) (rest : List (Option Nat × List Byte)) (hs : StaysIn v
    n ids t) :
    StaysIn v n ids (releaseWaiting.writeDev' t j p rest) := by
  grind [releaseWaiting.writeDev', writeDev_stays]

theorem releaseWaiting_stays (s : State) (hs : StaysIn v n ids s) :
    StaysIn v n ids (releaseWaiting s) := by
  exact StaysIn.iter (fun t ht => by grind [releaseWaiting_writeDev_stays]) _ s hs

theorem openSegOn_stays (s : State) (sid : Nat) (st : Stream) (d : Nat) (w : Draw) (hs : StaysIn v n ids s) :
    ∀ a u, openSegOn s sid st d w = some (a, u) → StaysIn v n ids u := by
  grind [openSegOn, mapSeg_stays, updStream_stays]

theorem issueWrite_stays (g : Nat) (cw : Nat) (tail : Bool) (job : Option Nat) (s : State) (hs : StaysIn v n ids s) :
    StaysIn v n ids (issueWrite g cw tail job s) := by
  grind [issueWrite]

theorem sealSegment_stays (g : Nat) (cause : Nat) (job : Option Nat) (s : State) (hs : StaysIn v n ids s) :
    StaysIn v n ids (sealSegment g cause job s).2 := by
  have hw (l : List Nat) (t : State) (ht : StaysIn v n ids t) : StaysIn v n ids (l.foldl (fun t k => issueWrite g k false job t) t) :=
    StaysIn.foldl (fun t k => issueWrite_stays g k false job t) l t ht
  grind [sealSegment, issueSeal_stays, updSeg_stays, updStream_stays]

theorem placeIn_stays (g : Nat) (sid : Nat) (r : Rec) (s : State) (hs : StaysIn v n ids s) :
    StaysIn v n ids (placeIn g sid r s) := by
  have hw (l : List Nat) (t : State) (ht : StaysIn v n ids t) : StaysIn v n ids (l.foldl (fun t k => issueWrite g k false none t) t) :=
    StaysIn.foldl (fun t k => issueWrite_stays g k false none t) l t ht
  grind [placeIn, issueWrite_stays, updSeg_stays, updStream_stays, updRec_stays]

theorem placeNext_stays (sid : Nat) (r : Rec) (g : Option Nat) (d : Nat) (s : State) (hs : StaysIn v n ids s) :
    StaysIn v n ids (placeNext sid r g d s) := by
  cases g with
  | some g => exact placeIn_stays g sid r s hs
  | none =>
    simp only [placeNext]
    split
    · exact hs
    · next st _ =>
      have h1 : StaysIn v n ids (match openSegOf s st with | some old => (sealSegment old 1 none s).2 | none => s) := by
        split
        · exact sealSegment_stays _ _ _ s hs
        · exact hs
      split
      · exact hs
      · next ho => exact placeIn_stays _ _ _ _ (openSegOn_stays _ _ _ _ _ h1 _ _ ho)

theorem updJob_stays (s : State) (j : Nat) (f : Job → Job) (hs : StaysIn v n ids s) :
    StaysIn v n ids (updJob s j f) := by
  grind [updJob]

theorem newJob_stays (waits : Nat) (replies : List Reply) (barrier : Bool) (kind : JobKind) (s : State) (hs : StaysIn v n ids s) :
    StaysIn v n ids (newJob waits replies barrier kind s).2 := by
  grind [newJob]

theorem ackRec_stays (sid : Nat) (seq : Nat) (s : State) (hs : StaysIn v n ids s) :
    StaysIn v n ids (ackRec sid seq s) := by
  grind [ackRec, updRec_stays]

theorem ackJob_stays (j : Nat) (s : State) (hs : StaysIn v n ids s) :
    StaysIn v n ids (ackJob j s) := by
  exact StaysIn.foldl (f := fun t (x : Nat × Nat) => ackRec x.1 x.2 t) (fun t x => ackRec_stays x.1 x.2 t) _ s hs

theorem finishJob_stays (j : Nat) (s : State) (hs : StaysIn v n ids s) :
    StaysIn v n ids (finishJob j s) := by
  have hr (l : List Reply) (t : State) (ht : StaysIn v n ids t) : StaysIn v n ids (l.foldl (fun t r => formReply r t) t) :=
    StaysIn.foldl (fun t r => formReply_stays r t) l t ht
  grind [finishJob, ackJob_stays]

theorem jobWrite_stays (j : Option Nat) (s : State) (hs : StaysIn v n ids s) :
    StaysIn v n ids (jobWrite j s) := by
  cases j <;> grind [jobWrite, finishJob_stays, updJob_stays]

theorem settleTrain_stays (t : Option Nat) (s : State) (hs : StaysIn v n ids s) :
    StaysIn v n ids (settleTrain t s) := by
  cases t <;> grind [settleTrain, returnCredits_stays]

theorem finishHalf_stays (h : Nat) (s : State) (hs : StaysIn v n ids s) :
    StaysIn v n ids (finishHalf h s) := by
  grind [finishHalf, writeDev_stays]

theorem earlyMerged_stays (e : Option (Nat × Nat)) (s : State) (hs : StaysIn v n ids s) :
    StaysIn v n ids (earlyMerged e s) := by
  rcases e with _ | ⟨h, i⟩ <;> grind [earlyMerged, finishHalf_stays]

theorem recWritten_stays (sid : Nat) (r : Rec) (s : State) (hs : StaysIn v n ids s) :
    StaysIn v n ids (recWritten sid r s) := by
  grind [recWritten, updStream_stays, updRec_stays, earlyMerged_stays, returnCredits_stays, releaseWaiting_stays, settleTrain_stays,
    jobWrite_stays]

theorem settleStream_stays (sid : Nat) (s : State) (hs : StaysIn v n ids s) :
    StaysIn v n ids (settleStream sid s) := by
  exact StaysIn.iter (fun t ht => by grind [recWritten_stays]) _ s hs

theorem settleSeals_stays (s : State) (hs : StaysIn v n ids s) :
    StaysIn v n ids (settleSeals s) := by
  exact StaysIn.foldl (fun t j ht => by grind [sealSegment_stays, finishJob_stays, updJob_stays]) _ s hs

theorem tailClear_stays (g : Nat) (cw : Nat) (s : State) (hs : StaysIn v n ids s) :
    StaysIn v n ids (tailClear g cw s) := by
  grind [tailClear]

theorem tailRule2_stays (d : Nat) (s : State) (hs : StaysIn v n ids s) :
    StaysIn v n ids (tailRule2 d s) := by
  simp only [tailRule2]
  split
  · exact hs
  · exact StaysIn.iter (fun t ht => by grind [sealSegment_stays]) _ s hs

theorem writeVerified_stays (w : CwWrite) (s : State) (hs : StaysIn v n ids s) :
    StaysIn v n ids (writeVerified w s) := by
  simp only [writeVerified]
  refine settleSeals_stays _ (jobWrite_stays _ _ (StaysIn.foldl (fun t sid => settleStream_stays sid t) _ _ ?_))
  refine StaysIn.foldl (fun t (e : Nat × Nat) => updRec_stays t e.1 e.2 _) _ _ ?_
  split
  · exact tailRule2_stays _ _ (updDie_stays _ _ _ hs)
  · exact updSeg_stays _ _ _ (tailClear_stays _ _ _ hs)

theorem drainAll_stays (s : State) (hs : StaysIn v n ids s) :
    StaysIn v n ids (drainAll s) := by
  exact StaysIn.iter (fun t ht => by grind [writeVerified_stays]) _ _ (StaysIn.iter (fun t ht => by grind [placeNext_stays]) _ s hs)

theorem loadCtx_stays (sid : Nat) (s : State) (hs : StaysIn v n ids s) :
    ∀ u, loadCtx sid s = some u → StaysIn v n ids u := by
  grind [loadCtx]

theorem holdCtx_stays (sid : Nat) (b : Bool) (s : State) (hs : StaysIn v n ids s) :
    StaysIn v n ids (holdCtx sid b s) := by
  grind [holdCtx]

theorem makeSealed_stays (sid : Nat) (s : State) (hs : StaysIn v n ids s) :
    StaysIn v n ids (makeSealed sid s) := by
  grind [makeSealed, updStream_stays, holdCtx_stays]

end Sys2Proof.Machine
end

section
/-! SUPPORT. That frame through the media state, trains, moves and repairs. -/
namespace Sys2Proof.Machine
open Sys2Proof

variable {v : Trust} {n : Nat} {ids : List Nat}

theorem dropKeys_stays (p : KeyEntry → Bool) (s : State) (hs : StaysIn v n ids s) :
    StaysIn v n ids (dropKeys p s) := 
  hs.trust rfl

theorem mediaTo_stays (dst : Media) (cause : Nat) (subj : Nat) (s : State) (hs : StaysIn v n ids s) :
    StaysIn v n ids (mediaTo dst cause subj s) := by
  have hb : StaysIn v n ids (bumpCounter 2 { s with arr.media := dst }) := bumpCounter_stays 2 (by decide) _ hs
  simp only [mediaTo]
  refine mediaMsg_stays _ ?_
  cases dst <;> dsimp only <;> grind [raiseFault_stays, writeDev_stays, newJob_stays]

theorem mediaTest_stays (s : State) (hs : StaysIn v n ids s) :
    StaysIn v n ids (mediaTest s) := by
  grind [mediaTest, mediaTo_stays]

theorem trimRec_stays (sid : Nat) (first : Nat) (cause : Nat) (job : Option Nat) (s : State) (hs : StaysIn v n ids s) :
    StaysIn v n ids (trimRec sid first cause job s) := by
  grind [trimRec, writeDev_stays]

theorem pruneKeys_stays (sid : Nat) (s : State) (hs : StaysIn v n ids s) :
    StaysIn v n ids (pruneKeys sid s) := by
  grind [pruneKeys, dropKeys_stays, updStream_stays]

theorem freeSeg_stays (g : Nat) (s : State) (hs : StaysIn v n ids s) :
    StaysIn v n ids (freeSeg g s) := by
  have hd (l : List Nat) (t : State) (ht : StaysIn v n ids t) : StaysIn v n ids (l.foldl (fun t sid => updStream t sid (dropSegRecs g))
    t) :=
    StaysIn.foldl (fun t sid => updStream_stays t sid _) l t ht
  have hp (l : List Nat) (t : State) (ht : StaysIn v n ids t) : StaysIn v n ids (l.foldl (fun t sid => pruneKeys sid t) t) :=
    StaysIn.foldl (fun t sid => pruneKeys_stays sid t) l t ht
  grind [freeSeg, mediaTest_stays, unmapSeg_stays]

theorem evictSeg_stays (sid : Nat) (g : Nat) (cause : Nat) (job : Option Nat) (s : State) (hs : StaysIn v n ids s) :
    StaysIn v n ids (evictSeg sid g cause job s) := by
  grind [evictSeg, freeSeg_stays, updStream_stays, trimRec_stays]

theorem sealIfLast_stays (sid : Nat) (s : State) (hs : StaysIn v n ids s) :
    StaysIn v n ids (sealIfLast sid s) := by
  grind [sealIfLast, newJob_stays, makeSealed_stays]

theorem sealEarly_stays (h : Nat) (cause : Nat) (s : State) (hs : StaysIn v n ids s) :
    StaysIn v n ids (sealEarly h cause s) := by
  grind [sealEarly, issueSeal_stays]

theorem lowerSeals_stays (sid : Nat) (last : Nat) (s : State) (hs : StaysIn v n ids s) :
    StaysIn v n ids (lowerSeals sid last s) := by
  grind [lowerSeals]

theorem unloadNow_stays (j : Job) (num : Nat) (bundle : Bool) (shrink : Bool) (s : State) (hs : StaysIn v n ids s) :
    StaysIn v n ids (unloadNow j num bundle shrink s) := by
  grind [unloadNow, recomputeW_stays, finishJob_stays]

theorem settleUnloads_stays (s : State) (hs : StaysIn v n ids s) :
    StaysIn v n ids (settleUnloads s) := by
  exact StaysIn.foldl (fun t j ht => by grind [unloadNow_stays]) _ s hs

theorem unwindTrain_stays (t : Train) (s : State) (hs : StaysIn v n ids s) :
    StaysIn v n ids (unwindTrain t s) := by
  simp only [unwindTrain]
  refine StaysIn.foldl (fun t b => lowerSeals_stays _ _ t) _ _ (returnCredits_stays _ _ ?_)
  exact StaysIn.foldl (fun t b => updStream_stays t _ _) _ s hs

theorem dropOpenTrains_stays (s : State) (hs : StaysIn v n ids s) :
    StaysIn v n ids (dropOpenTrains s) := by
  have h (l : List Train) : StaysIn v n ids (l.foldr unwindTrain s) := by
    induction l with
    | nil => exact hs
    | cons x l ih => exact unwindTrain_stays x _ ih
  exact h _

theorem abortTrain_stays (t : Train) (cause : Nat) (sts : Status) (index : Nat) (more : Bool) (s : State) (hs : StaysIn v n ids s) :
    StaysIn v n ids (abortTrain t cause sts index more s) := by
  simp only [abortTrain]
  refine settleUnloads_stays _ (settleSeals_stays _ (releaseWaiting_stays _ ?_))
  exact StaysIn.foldl (fun t m => formReply_stays _ t) _ _ (unwindTrain_stays t _ hs)

theorem createRec_stays (sid : Nat) (gen : Nat) (a : Attr) (job : Option Nat) (s : State) (hs : StaysIn v n ids s) :
    StaysIn v n ids (createRec sid gen a job s) := by
  grind [createRec, writeDev_stays]

theorem placeStream_stays (sid : Nat) (s : State) (hs : StaysIn v n ids s) :
    StaysIn v n ids (placeStream sid s) := by
  exact StaysIn.iter (fun t ht => by grind [placeNext_stays]) _ s hs

theorem earlyWritten_stays (h : Nat) (idx : Nat) (s : State) (hs : StaysIn v n ids s) :
    StaysIn v n ids (earlyWritten h idx s) := by
  grind [earlyWritten, releaseWaiting_stays, jobWrite_stays, returnCredits_stays]

theorem mergeAdd_stays (h : Nat) (sid : Nat) (e : EarlyRec) (s : State) (hs : StaysIn v n ids s) :
    StaysIn v n ids (mergeAdd h sid e s) := by
  grind [mergeAdd, addRec_stays, updRec_stays, sealIfLast_stays]

theorem mergeOne_stays (h : Nat) (e : EarlyRec) (s : State) (hs : StaysIn v n ids s) :
    (mergeOne h e s).Stays v n ids := by
  have hadd (t : State) (ht : StaysIn v n ids t) :
      (match loadCtx e.sid t with | some u => MergeOut.merged (mergeAdd h e.sid e u) | none => .stays).Stays v n ids := by
    grind [MergeOut.Stays, loadCtx_stays, mergeAdd_stays]
  simp only [mergeOne]
  split
  · trivial
  · split; · trivial
    split; · trivial
    split; · trivial
    split
    · exact hadd s hs
    · exact hadd _ (evictSeg_stays _ _ _ _ s hs)
    · trivial
    · split
      · exact hadd s hs
      · trivial

theorem mergeRecs_stays (f : State → State) (hf : ∀ t, StaysIn v n ids t → StaysIn v n ids (f t)) (h : Nat) (kept : List Nat)
    (es : List EarlyRec) (s : State) (hs : StaysIn v n ids s) : StaysIn v n ids (mergeRecs f h kept es s) := by
  induction es generalizing kept s with
  | nil => exact hs
  | cons e es ih =>
    have hm := mergeOne_stays h e s hs
    simp only [mergeRecs]
    split
    · exact ih _ s hs
    · split
      · exact ih _ _ hs
      · exact ih _ _ hs
      · exact ih _ _ hs
      · next t ht =>
        rw [ht] at hm
        refine ih _ _ ?_
        split
        · exact hs
        · exact hf t hm

theorem mergeHalf_stays (f : State → State) (hf : ∀ t, StaysIn v n ids t → StaysIn v n ids (f t)) (h : Nat) (s : State)
    (hs : StaysIn v n ids s) : StaysIn v n ids (mergeHalf f h s) := by
  grind [mergeHalf, mergeRecs_stays, sealEarly_stays, finishHalf_stays]

theorem retireSlot_stays (k' : Nat) (s : State) (hs : StaysIn v n ids s) :
    StaysIn v n ids (retireSlot k' s) := by
  have h := updSlot_stays s k' (fun i => { i with used := false, failing := false, retired := true, seg := none }) hs
  exact raiseFault_stays _ _ _ (h.retired (Nat.le_succ _))

theorem leaveSlot_stays (m : MoveSt) (s : State) (hs : StaysIn v n ids s) :
    StaysIn v n ids (leaveSlot m s) := by
  grind [leaveSlot, retireSlot_stays, updSlot_stays]

theorem moveDone_stays (k : Nat) (m : MoveSt) (s : State) (hs : StaysIn v n ids s) :
    StaysIn v n ids (moveDone k m s) := by
  grind [moveDone, updCores_stays, leaveSlot_stays, mediaTest_stays]

theorem recoverMove_stays (k : Nat) (s : State) (hs : StaysIn v n ids s) :
    StaysIn v n ids (recoverMove k s) := by
  grind [recoverMove, moveDone_stays, updSlot_stays, updDie_stays]

theorem stripSeg_stays (g : Nat) (s : State) (hs : StaysIn v n ids s) :
    StaysIn v n ids (stripSeg g s) := by
  simp only [stripSeg]
  split
  · exact hs
  · exact StaysIn.foldl (fun t sid => updStream_stays t sid _) _ _ (updSeg_stays s g _ hs)

theorem mendSeg_stays (g : Nat) (lost : List (Nat × Nat × Bool)) (s : State) (hs : StaysIn v n ids s) :
    StaysIn v n ids (mendSeg g lost s) := by
  simp only [mendSeg]
  split
  · exact hs
  · split
    · exact updSeg_stays _ _ _ (stripSeg_stays g s hs)
    · exact updSeg_stays _ _ _ (sealSegment_stays _ _ _ _ (updSeg_stays _ _ _ (stripSeg_stays g s hs)))

theorem reopenSeg_stays (g : Nat) (s : State) (hs : StaysIn v n ids s) :
    StaysIn v n ids (reopenSeg g s) := by
  grind [reopenSeg, updStream_stays, freeSeg_stays, sealSegment_stays]

theorem reissueTrailers_stays (s : State) (hs : StaysIn v n ids s) :
    StaysIn v n ids (reissueTrailers s) := by
  refine StaysIn.foldl (fun t e ht => ?_) _ s hs
  split
  · exact StaysIn.foldl (fun u k => issueWrite_stays e.1 k false none u) _ t ht
  · exact ht

theorem dropLost_stays (r : LostRange) (s : State) (hs : StaysIn v n ids s) :
    StaysIn v n ids (dropLost r s) := by
  grind [dropLost, updStream_stays]

theorem withdrawTrain_stays (t : Train) (s : State) (hs : StaysIn v n ids s) :
    StaysIn v n ids (withdrawTrain t s) := by
  simp only [withdrawTrain]
  refine StaysIn.foldl (fun t p => writeDev_stays p none t) _ _ (writeDev_stays _ _ _ ?_)
  exact StaysIn.foldl (fun t m => updRec_stays t _ _ _) _ s hs

theorem writeBreach_stays (rs : List LostRange) (s : State) (hs : StaysIn v n ids s) :
    StaysIn v n ids (writeBreach rs s) := by
  simp only [writeBreach]
  split
  · exact hs
  · refine windowMsg_stays _ (Stays.trust ?_ rfl)
    exact StaysIn.foldl (fun t p => writeDev_stays _ none t) _ _ (bumpCounter_stays 1 (by decide) s hs)

theorem acceptLoss_stays (s0 : State) (hs : StaysIn v n ids s0) :
    StaysIn v n ids (acceptLoss s0) := by
  simp only [acceptLoss]
  refine writeBreach_stays _ _ ?_
  refine StaysIn.foldl (fun t e => writeDev_stays _ none t) _ _ ?_
  refine StaysIn.foldl (fun t x => withdrawTrain_stays x t) _ _ ?_
  refine StaysIn.foldl (fun t e => sealSegment_stays _ _ _ t) _ _ ?_
  refine reissueTrailers_stays _ ?_
  refine StaysIn.foldl (fun t e => reopenSeg_stays _ t) _ _ ?_
  refine StaysIn.foldl (fun t e => mendSeg_stays _ _ t) _ _ ?_
  refine StaysIn.foldl (fun t r => dropLost_stays r t) _ _ ?_
  exact dropOpenTrains_stays _ hs

theorem drainHalf_stays (h : Nat) (l : List Nat) (s : State) (hs : StaysIn v n ids s) :
    StaysIn v n ids (l.foldl (fun u i => earlyWritten h i u) s) :=
  StaysIn.foldl (fun u i => earlyWritten_stays h i u) l s hs

theorem drainEarly_stays (s : State) (hs : StaysIn v n ids s) : StaysIn v n ids (drainEarly s) := by
  simp only [drainEarly]
  exact drainHalf_stays 1 _ _ (drainHalf_stays 0 _ s hs)

theorem settleAll_stays (s : State) (hs : StaysIn v n ids s) :
    StaysIn v n ids (settleAll s) := by
  exact StaysIn.iter (fun t => drainAll_stays t) _ s hs

theorem startExt_stays (k : Nat) (e : Ext) (s : State) (hs : StaysIn v n ids s) :
    StaysIn v n ids (startExt k e s) := by
  grind [startExt, takeFresh_stays, updCore_stays]

theorem recalAll_stays (s : State) (hs : StaysIn v n ids s) :
    StaysIn v n ids (recalAll s) := by
  grind [recalAll]

theorem mountPilots_stays (s : State) (hs : StaysIn v n ids s) :
    StaysIn v n ids (mountPilots s) := by
  exact StaysIn.foldl (fun t d ht => by grind [updDie_stays, takeFresh_stays]) _ s hs

end Sys2Proof.Machine
end

section
/-! SUPPORT. That frame through a mount, cut into its parts, and through the settling of the commands before a SANITIZE. -/
namespace Sys2Proof.Machine
open Sys2Proof

variable {v : Trust} {n : Nat} {ids : List Nat}

theorem mountRecovered_stays (s : State) (hs : StaysIn v n ids s) : StaysIn v n ids (settleAll (drainEarly (releaseWaiting s))) :=
  settleAll_stays _ (drainEarly_stays _ (releaseWaiting_stays s hs))

theorem mountMerged_stays (s : State) (hs : StaysIn v n ids s) :
    StaysIn v n ids (mediaTest (settleAll ((halvesByAge s).foldl (fun t h => mergeHalf drainAll h t) s))) := by
  refine mediaTest_stays _ (settleAll_stays _ ?_)
  exact StaysIn.foldl (fun t h ht => mergeHalf_stays drainAll drainAll_stays h t ht) _ s hs

theorem mountRead_stays (s : State) (hs : StaysIn v n ids s) :
    StaysIn v n ids (recalAll ((List.range 4).foldl (fun t k => recoverMove k t) s)) :=
  recalAll_stays _ (StaysIn.foldl (fun t k => recoverMove_stays k t) _ s hs)

theorem mountWritten_stays (j : Option Nat) (p : List Byte) (s : State) (hs : StaysIn v n ids s) :
    StaysIn v n ids (settleAll (writeDev p j s)) := settleAll_stays _ (writeDev_stays p j s hs)

theorem mountCounted_stays (s : State) (hs : StaysIn v n ids s) : StaysIn v n ids (mountPilots (bumpCounter 8 s)) :=
  mountPilots_stays _ (bumpCounter_stays 8 (by decide) s hs)

/-- What a mount writes once the records are merged: the mount record, with the notes of the last run dropped. -/
def mountWrites (s : State) : State :=
  let t := { s with
    link := { s.link with brCnt := BitVec.ofNat 24 (vAt s.vtf.counters 1), brInexact := s.vtf.brInexact }
    eng.trains := []
    store.mountCount := vAt s.vtf.counters 8
    prev := { EndState.reset with
      loads := s.prev.loads, ckpt := s.prev.ckpt, ckptBody := s.prev.ckptBody, ckptSig := s.prev.ckptSig } }
  let body := leB 1 (kindNum t.pwr.kind) ++ zeros 7 ++ leB 8 t.pwr.resume ++ leB 4 t.store.mountCount ++ zeros 4
  settleAll (writeDev (devPayload 0x0001 noSubj body) none t)

/-- The store mounted, the device in service unless a loss sequence runs, the extensions measured and the microcode (`raw`) too. -/
def mountedState (raw : List Byte) (s : State) : State :=
  { s with
    store.mounted := true, pwr.phase := if inLoss s then s.pwr.phase else .service, ucode.user := s.ucode.stored
    vtf := { s.vtf with
      ucodeH := s.vtf.ucodeH ++ raw
      extH := s.vtf.extH ++ (s.mem.ext.map fun (e : Nat × Ext) => e.2.file).flatten } }

/-- How a mount ends: the extensions started, the host told. -/
def mountEnds (raw : List Byte) (s : State) : State :=
  readyMsg ((mountedState raw s).mem.ext.foldl (fun (t : State) (e : Nat × Ext) => startExt e.1 e.2 t) (mountedState raw s)) false

/-- What a mount reads and repairs before it merges the early records. -/
def mountReads (s : State) : State :=
  let t := recalAll ((List.range 4).foldl (fun t k => recoverMove k t) s)
  settleAll (drainEarly (releaseWaiting (if t.prev.power then acceptLoss t else t)))

/-- The early records merged. -/
def mountMerges (s : State) : State := mediaTest (settleAll ((halvesByAge s).foldl (fun t h => mergeHalf drainAll h t) s))

theorem mountNow_eq (s : State) :
    ∃ raw, mountNow s = mountEnds raw (mountWrites (mountPilots (bumpCounter 8 (mountMerges (mountReads s))))) := by
  unfold mountNow
  extract_lets s1 s2 s3 s4 s5 _ _ _ _ s6 body s7 _ _ _ _ s8
  have h3 : mountReads s = s3 := rfl
  have h4 : mountMerges s3 = s4 := rfl
  have h5 : mountPilots (bumpCounter 8 s4) = s5 := rfl
  have h7 : mountWrites s5 = s7 := rfl
  rw [h3, h4, h5, h7]
  clear h7
  clear_value s7
  exact ⟨_, rfl⟩

theorem mountReads_stays (s : State) (hs : StaysIn v n ids s) : StaysIn v n ids (mountReads s) := by
  simp only [mountReads]
  apply mountRecovered_stays
  exact StaysIn.ite (acceptLoss_stays _ (mountRead_stays s hs)) (mountRead_stays s hs)

theorem mountMerges_stays (s : State) (hs : StaysIn v n ids s) : StaysIn v n ids (mountMerges s) := mountMerged_stays s hs

theorem mountWrites_stays (s : State) (hs : StaysIn v n ids s) : StaysIn v n ids (mountWrites s) := by
  simp only [mountWrites]
  apply mountWritten_stays
  exact hs

theorem mountEnds_stays (raw : List Byte) (s : State) (hs : StaysIn v n ids s) : StaysIn v n ids (mountEnds raw s) := by
  simp only [mountEnds]
  apply readyMsg_stays
  apply StaysIn.foldl (f := fun (t : State) (e : Nat × Ext) => startExt e.1 e.2 t) fun t e => startExt_stays e.1 e.2 t
  exact hs.trust rfl

theorem mountNow_stays (s : State) (hs : StaysIn v n ids s) : StaysIn v n ids (mountNow s) := by
  obtain ⟨raw, h⟩ := mountNow_eq s
  rw [h]
  apply mountEnds_stays
  apply mountWrites_stays
  apply mountCounted_stays
  apply mountMerges_stays
  exact mountReads_stays s hs

theorem settleJobs_stays (s : State) (hs : StaysIn v n ids s) :
    StaysIn v n ids (settleJobs s) := by
  simp only [settleJobs]
  split
  · refine StaysIn.foldl (fun t j => finishJob_stays _ t) _ _ (settleAll_stays _ ?_)
    exact StaysIn.foldl (fun t x => abortTrain_stays x _ _ _ _ t) _ s hs
  · exact hs

end Sys2Proof.Machine
end

section
/-! SUPPORT. What PROVISION checks and leaves, what SANITIZE erases and leaves; and the statement on them. -/
namespace Sys2Proof.Machine
open Sys2Proof

variable {s t u e : State} {c : Ctx} {opc : BitVec 16} {x : CmdIn} {s2 : State}

/-! ## The two commands are barriers whatever their parameters (R255) -/

theorem provision_barrierBy : BarrierBy 0x0080 (fun c _ => cmdProvision c) fun _ => true :=
  fun _ _ _ _ h => by simp only [isBarrier, dispatch, h]; exact ⟨rfl, rfl⟩

theorem sanitize_barrierBy : BarrierBy 0x0083 (fun c _ => cmdSanitize c) fun _ => true :=
  fun _ _ _ _ h => by simp only [isBarrier, dispatch, h]; exact ⟨rfl, rfl⟩

/-- An admitted barrier packet that its command answers has left its queue with that answer. -/
theorem exec_of_answer_alone {i : Instr} {cmd : Ctx → Nat → State → Verdict} {b : Ctx → Bool} {sts : Status} {res : Nat} {data : List Byte}
    (hrow : exec i s = .next (arrive opc x s)) (hcmd : BarrierBy opc cmd b) (h : AdmittedAlone opc x c s s2)
    (hstream : streamOpc opc.toNat = false) (hb : b c = true) (hd : cmd c x.qid.toNat s2 = answer c sts res data t) :
    exec i s = .next (repliedAlone opc x c sts res data t) := exec_of_fin_alone hrow hcmd h hstream hb hd

/-! ## What a mount leaves -/

theorem startExt_only (k : Nat) (e : Ext) (s : State) : OnlyIn [.fresh, .cores, .mem] s (startExt k e s) := by
  intro r hr
  cases r <;> simp_all [sameIn, startExt, takeFresh, updCore]

theorem mountEnds_only (raw : List Byte) (s : State) : OnlyIn [.fresh, .cores, .mem, .link] (mountedState raw s) (mountEnds raw s) :=
  (OnlyIn.foldl (fun t (e : Nat × Ext) => startExt e.1 e.2 t) (fun t e => startExt_only e.1 e.2 t) _ _).trans (readyMsg_only _ _)
    (by decide) (by decide)

theorem mountEnds_mounted (raw : List Byte) (s : State) : (mountEnds raw s).store.mounted = true := by
  have h : (mountEnds raw s).store = (mountedState raw s).store := mountEnds_only raw s .store (by decide)
  rw [h]
  rfl

theorem mountEnds_phase (raw : List Byte) (s : State) (hrun : inLoss (mountEnds raw s) = false) :
    (mountEnds raw s).pwr.phase = .service := by
  have h : (mountEnds raw s).pwr = (mountedState raw s).pwr := mountEnds_only raw s .pwr (by decide)
  have hs : inLoss s = false := by
    rw [inLoss, h] at hrun
    exact hrun
  rw [h, mountedState, hs]
  rfl

/-! ## PROVISION (R188, R189, R285) -/

/-- The trust block of a device that a key owns, locked, under a policy. -/
def OwnedBy (opub : List Byte) (pol : Nat) (t : Trust) : Prop :=
  t.life = .owned ∧ t.owner = some opub ∧ t.pol = BitVec.ofNat 32 pol ∧ t.debug = 0

theorem ownedBy_of_trustRest {opub : List Byte} {pol : Nat} {a b : Trust} (h : trustRest b = trustRest a) (ha : OwnedBy opub pol a) :
    OwnedBy opub pol b := by
  have hb : OwnedBy opub pol (trustRest b) := h ▸ ha
  exact hb

theorem newKey_ownedBy {opub : List Byte} {pol : Nat} (owner : Option Nat) (h : OwnedBy opub pol s.vtf) :
    OwnedBy opub pol (newKey owner s).2.vtf := h

theorem ownKeys_ownedBy {opub : List Byte} {pol : Nat} (n : Nat) (h : OwnedBy opub pol s.vtf) :
    OwnedBy opub pol (iter ownKey n s).vtf := by
  induction n generalizing s with
  | zero => exact h
  | succ n ih => exact ih (newKey_ownedBy none h)

/-- The device taken by a key under a policy, with no key of its own left (R189). -/
def provisioned (opub : List Byte) (pol : Nat) (s : State) : State :=
  let f := takeFresh s
  { f.2 with
    vtf := { f.2.vtf with
      kwrap := some (Config.drbg f.1 32).toList, keys := [], nextKey := 0, owner := some opub, pol := BitVec.ofNat 32 pol
      debug := 0, porSinceD2 := false, life := .owned, everOwned := true }
    dtime := if s.vtf.everOwned then s.dtime else 0
    arr := { f.2.arr with ceTotal := 0, ucTotal := 0 }
    prev := EndState.reset }

/-- The provisioned device with its five own keys, stream 0 and its CREATE record, and the half that it starts (R185, R189). -/
def provisionedStore (s : State) : State := startHalf (createRec 0 1 Attr.reset none (makeStream 0 Attr.reset (iter ownKey 5 s)))

theorem cmdProvision_accepts (hses : c.pkt.ses = 0) (hlife : s.vtf.life = .unowned) (hdebug : s.vtf.debug ≠ 2)
    (hphase : s.pwr.phase = .recovery) (hdrbg : s.vtf.drbgOk = true) (hent : s.vtf.entFail = false)
    (hcurve : Config.onCurve (bytesAt c.plain 0 64) = true)
    (hsig : Config.ecdsaVerify (bytesAt c.plain 0 64) (ascii "ZZ-PROV-V1" ++ Config.devId.toList ++ leB 8 (vAt s.vtf.counters 5)
      ++ bytesAt c.plain 0 64 ++ leB 4 (pf c 64 4)) (bytesAt c.plain 72 64) = true) :
    cmdProvision c s = answer c .ok 0 [] (mountNow (provisionedStore (provisioned (bytesAt c.plain 0 64) (pf c 64 4) s))) := by
  have hready : drbgReady s = true := by simp [drbgReady, hdrbg, hent]
  unfold cmdProvision
  extract_lets opub pol msg f _ _ _ _ _ s3
  have h3 : provisionedStore (provisioned (bytesAt c.plain 0 64) (pf c 64 4) s) = s3 := rfl
  have hsigned : Config.ecdsaVerify opub msg (bytesAt c.plain 72 64) = true := hsig
  have hpoint : Config.onCurve opub = true := hcurve
  rw [h3]
  clear h3
  clear_value s3
  simp only [hses, hlife, hdebug, hphase, hpoint, hsigned, hready, ne_eq, not_true_eq_false, or_self, if_false, Bool.true_eq_false,
    false_and, Bool.not_true, Bool.false_eq_true]

theorem makeStream_ownedBy {opub : List Byte} {pol : Nat} (sid : Nat) (a : Attr) (h : OwnedBy opub pol s.vtf) :
    OwnedBy opub pol (makeStream sid a s).vtf := h

theorem provisionedStore_ownedBy {opub : List Byte} {pol : Nat} (h : OwnedBy opub pol s.vtf) :
    OwnedBy opub pol (provisionedStore s).vtf := by
  have hmade := makeStream_ownedBy 0 Attr.reset (ownKeys_ownedBy 5 h)
  have hframe : OnlyIn [.store, .oas] (makeStream 0 Attr.reset (iter ownKey 5 s)) (provisionedStore s) :=
    (writeDev_only _ _ _).trans (startHalf_only _) (by decide) (by decide)
  have e : (provisionedStore s).vtf = (makeStream 0 Attr.reset (iter ownKey 5 s)).vtf := hframe .vtf (by decide)
  rw [e]
  exact hmade

theorem startHalf_streams (s : State) : (startHalf s).store.streams = s.store.streams := by
  simp only [startHalf]
  split <;> rfl

theorem provisionedStore_hasStream0 (s : State) : (look 0 (provisionedStore s).store.streams).isSome = true := by
  obtain ⟨v, hv, -⟩ := makeStream_created 0 Attr.reset (iter ownKey 5 s)
  have h := createRec_stays (v := trustRest (makeStream 0 Attr.reset (iter ownKey 5 s)).vtf) (n := 0) (ids := [0]) 0 1 Attr.reset none
    (makeStream 0 Attr.reset (iter ownKey 5 s))
    ⟨rfl, Nat.zero_le _, fun k hk => by rw [List.mem_singleton.mp hk]; exact congrArg Option.isSome hv⟩
  rw [provisionedStore, startHalf_streams]
  exact h.2.2 0 (List.mem_singleton.mpr rfl)

/-- What a mount of a device that a key owns, with a stream 0, leaves. -/
theorem mountNow_owned {opub : List Byte} {pol : Nat} (h : OwnedBy opub pol s.vtf) (h0 : (look 0 s.store.streams).isSome = true) :
    OwnedBy opub pol (mountNow s).vtf ∧ (mountNow s).store.mounted = true ∧ (streamOf (mountNow s) 0).isSome = true
      ∧ (inLoss (mountNow s) = false → (mountNow s).pwr.phase = .service) := by
  obtain ⟨htrust, -, hids⟩ := mountNow_stays (v := trustRest s.vtf) (n := 0) (ids := [0]) s
    ⟨rfl, Nat.zero_le _, fun k hk => by rw [List.mem_singleton.mp hk]; exact h0⟩
  have hmount : (mountNow s).store.mounted = true ∧ (inLoss (mountNow s) = false → (mountNow s).pwr.phase = .service) := by
    obtain ⟨raw, heq⟩ := mountNow_eq s
    rw [heq]
    exact ⟨mountEnds_mounted _ _, mountEnds_phase _ _⟩
  exact ⟨ownedBy_of_trustRest htrust h, hmount.1, hids 0 (List.mem_singleton.mpr rfl), hmount.2⟩

theorem cmdProvision_refuses (h : c.pkt.ses ≠ 0 ∨ s.vtf.life ≠ .unowned) : cmdProvision c s = answer c .noCap 0 [] s := by
  simp only [cmdProvision, h, if_true]
  rfl

theorem cmdProvision_offCurve (hses : c.pkt.ses = 0) (hlife : s.vtf.life = .unowned)
    (hcurve : Config.onCurve (bytesAt c.plain 0 64) = false) :
    cmdProvision c s = answer c .badParam 0 [] s := by
  simp only [cmdProvision, hses, hlife, hcurve, ne_eq, not_true_eq_false, or_self, if_false, if_true]
  rfl

theorem cmdProvision_unsigned (hses : c.pkt.ses = 0) (hlife : s.vtf.life = .unowned) (hdebug : s.vtf.debug ≠ 2)
    (hcurve : Config.onCurve (bytesAt c.plain 0 64) = true)
    (hsig : Config.ecdsaVerify (bytesAt c.plain 0 64) (ascii "ZZ-PROV-V1" ++ Config.devId.toList ++ leB 8 (vAt s.vtf.counters 5)
      ++ bytesAt c.plain 0 64 ++ leB 4 (pf c 64 4)) (bytesAt c.plain 72 64) = false) :
    cmdProvision c s = answer c .auth 0 [] (countAuth s) := by
  simp only [cmdProvision, hses, hlife, hdebug, hcurve, hsig, ne_eq, not_true_eq_false, or_self, if_false, Bool.true_eq_false, false_and,
    Bool.not_false, if_true]
  rfl

/-! ## SANITIZE: what it makes of the state (R212) -/

/-- The state that SANITIZE keeps of `s`, once the commands before it are settled: the store and the trust emptied. -/
def sanitizeErased (debug : Nat) (s : State) : State :=
  let s1 := bumpCounter 5 s
  { s1 with
    store := { StoreSt.reset with mountCount := s.store.mountCount, lastHalf := s.store.lastHalf }
    arr := sanitizeArr s1.arr
    eng := { s1.eng with trains := [], aborts := [], ctx := [], extFile := none }
    oas := { s1.oas with budget := 0, cLast := none, esrLast := none }
    vtf := { s1.vtf with
      life := .unowned, pol := 0, owner := none, hosts := Vector.replicate 4 none, kwrap := none, keys := [], nextKey := 0
      sessions := [], debug := debug, sanitize := some s1.tick }
    wadi := { Wadi.reset with brCnt := s1.wadi.brCnt }
    cores := vMap (fun c => { c with tlb := c.tlb.filter fun e => match e.phys with | .seg _ => false | _ => true }) s1.cores
    cache := { s1.cache with
      mapCache := []
      tiles := vMap (fun t => { t with lines := t.lines.filter fun l => !lineOfSeg l }) s1.cache.tiles }
    ucode := { s1.ucode with user := none, stored := none, commit := none }
    mem := { s1.mem with seg := [], ext := [] }
    pwr := { s1.pwr with phase := if s1.pwr.phase = .service then .recovery else s1.pwr.phase }
    prev := EndState.reset }

/-- The cores of the extensions stopped. -/
def extsStopped (ext : List (Nat × Ext)) (s : State) : State :=
  ext.foldl (fun t e => match e.2.core with
    | some k => updCore t k fun c => { c with running := false }
    | none => t) s

/-- The boot slots dropped, where they are asked for too. -/
def bootDropped (boot : Bool) (s : State) : State :=
  if boot then
    bootClose { s with boot := { s.boot with slots := Vector.replicate 2 BSlot.reset, trialPend := false, fallback := false } }
  else s

/-- The credits returned, the window computed again, and the host told of the store that went. -/
def sanitizeTold (early : Bool) (s : State) : State :=
  let t := recomputeW (returnCredits s.oas.outst s)
  if early then readyMsg t false else t

/-- The state a SANITIZE erases: every command before it is settled, and every move of a segment is over. -/
def sanitizeSettled (s : State) : State := (List.range 4).foldl (fun t k => recoverMove k t) (settleJobs s)

theorem sanitizeNow_eq (boot : Bool) (debug : Nat) (s : State) : sanitizeNow boot debug s = sanitizeTold (earlyAccepted s)
    (bootDropped boot (extsStopped (sanitizeSettled s).mem.ext (sanitizeErased debug (sanitizeSettled s)))) := by
  unfold sanitizeNow
  extract_lets s1
  have h1 : sanitizeSettled s = s1 := rfl
  rw [h1]
  clear_value s1
  rfl

theorem sanitizeSettled_stays (s : State) : StaysIn (trustRest s.vtf) s.arr.retired [] (sanitizeSettled s) :=
  StaysIn.foldl (fun t k => recoverMove_stays k t) _ _ (settleJobs_stays s ⟨rfl, Nat.le_refl _, fun _ hk => absurd hk List.not_mem_nil⟩)

/-- Counter 5 is what it was once the commands before a SANITIZE are settled. -/
theorem sanitizeSettled_counter (s : State) : vAt (sanitizeSettled s).vtf.counters 5 = vAt s.vtf.counters 5 := by
  obtain ⟨h, -, -⟩ := sanitizeSettled_stays s
  have hc : Vector.replicate 32 (vAt (sanitizeSettled s).vtf.counters 5) = Vector.replicate 32 (vAt s.vtf.counters 5) :=
    congrArg Trust.counters h
  simpa using congrArg (fun v : Vector Nat 32 => v[0]) hc

/-- With no store mounted and no move under way there is nothing to settle. -/
theorem sanitizeSettled_idle (hm : s.store.mounted = false) (hmoves : ∀ k : Nat, vAt s.arr.moves k = none) : sanitizeSettled s = s := by
  have hjobs : settleJobs s = s := by simp only [settleJobs, hm, Bool.false_eq_true, if_false]
  have hmove (k : Nat) : recoverMove k s = s := by simp only [recoverMove, hmoves k]
  rw [sanitizeSettled, hjobs]
  exact List.foldl_fixed' hmove _

/-! ## SANITIZE: what the steps after it leave -/

/-- The slots with none held for a boot image; one of which nothing is left is no longer listed. -/
def unheldSlots (l : List (Nat × SlotInfo)) : List (Nat × SlotInfo) :=
  l.filterMap fun e => if { e.2 with held := false } = SlotInfo.reset then none else some (e.1, { e.2 with held := false })

theorem unheldSlots_used {l : List (Nat × SlotInfo)} {e : Nat × SlotInfo} (h : e ∈ unheldSlots l) :
    ∃ i ∈ l, i.1 = e.1 ∧ i.2.used = e.2.used := by
  obtain ⟨i, hi, he⟩ := List.mem_filterMap.mp h
  split at he
  · cases he
  · cases he
    exact ⟨i, hi, rfl, rfl⟩

theorem unheldSlots_look {l : List (Nat × SlotInfo)} {n : Nat} {i : SlotInfo} (h : look n l = some i) (hz : i.zeroing = true) :
    look n (unheldSlots l) = some { i with held := false } := by
  induction l with
  | nil => cases h
  | cons e l ih =>
    obtain ⟨k, j⟩ := e
    simp only [look] at h
    simp only [unheldSlots, List.filterMap_cons]
    split at h
    · next hk =>
      cases h
      have hne : ({ i with held := false } : SlotInfo) ≠ SlotInfo.reset := fun he => by
        have hf : i.zeroing = false := congrArg SlotInfo.zeroing he
        rw [hz] at hf
        cases hf
      simp only [hne, if_false, look, hk, if_true]
    · next hk =>
      split
      · exact ih h
      · next he =>
        split at he
        · cases he
        · cases he
          simp only [look, hk, if_false]
          exact ih h

/-- Slots as SANITIZE leaves them: none but the metadata's is used. -/
def NoneUsed (l : List (Nat × SlotInfo)) : Prop := ∀ e ∈ l, metaSlot e.1 = false → e.2.used = false

/-- From an erased state `e` to `t` nothing of the store came back: the trust block but a counter, the rest of the array but the media state
and the slots held, and what else a SANITIZE erased stand as they did. -/
structure ErasedKept (e t : State) : Prop where
  store : t.store = e.store
  wadi : t.wadi = e.wadi
  ucode : t.ucode = e.ucode
  mem : t.mem = e.mem
  budget : t.oas.budget = e.oas.budget
  vtf : t.vtf = e.vtf ∨ t.vtf = (bumpCounter 2 e).vtf
  arr : ∃ m l, t.arr = { e.arr with media := m, slots := l } ∧ (l = e.arr.slots ∨ l = unheldSlots e.arr.slots)

/-- What a step that leaves those parts alone keeps of it. -/
theorem ErasedKept.after_only {l : List Region} (h : ErasedKept e t) (ho : OnlyIn l t u) (hb : u.oas.budget = t.oas.budget)
    (hl : ∀ r ∈ [Region.store, .wadi, .ucode, .mem, .vtf, .arr], r ∉ l) : ErasedKept e u := by
  have estore : u.store = t.store := ho .store (hl _ (by decide))
  have ewadi : u.wadi = t.wadi := ho .wadi (hl _ (by decide))
  have eucode : u.ucode = t.ucode := ho .ucode (hl _ (by decide))
  have emem : u.mem = t.mem := ho .mem (hl _ (by decide))
  have evtf : u.vtf = t.vtf := ho .vtf (hl _ (by decide))
  have earr : u.arr = t.arr := ho .arr (hl _ (by decide))
  exact ⟨estore.trans h.store, ewadi.trans h.wadi, eucode.trans h.ucode, emem.trans h.mem, hb.trans h.budget, evtf ▸ h.vtf, earr ▸ h.arr⟩

/-- A change of the media state with no stream 0 to record it in leaves every part but these alone. -/
theorem mediaTo_unrecorded (dst : Media) (cause subj : Nat) (h0 : streamOf s 0 = none) :
    OnlyIn [.arr, .vtf, .flt, .pwr, .link, .oas, .cores, .prev] s (mediaTo dst cause subj s)
      ∧ (mediaTo dst cause subj s).oas.budget = s.oas.budget := by
  have hbump : OnlyIn [.arr, .vtf] s (bumpCounter 2 { s with arr.media := dst }) := by
    intro r hr
    cases r <;> simp_all [sameIn, bumpCounter]
  have h0' : streamOf (bumpCounter 2 { s with arr.media := dst }) 0 = none := h0
  simp only [mediaTo, h0']
  generalize ht : bumpCounter 2 { s with arr.media := dst } = t at hbump
  have hbudget : t.oas.budget = s.oas.budget := by rw [hbump .oas (by decide)]
  have hraise (src : Nat) (det : BitVec 32) :
      OnlyIn [.arr, .vtf, .flt, .pwr, .link, .oas, .cores, .prev] s (mediaMsg (raiseFault src det t))
        ∧ (mediaMsg (raiseFault src det t)).oas.budget = s.oas.budget := by
    have hmsg : OnlyIn [.link] (raiseFault src det t) (mediaMsg (raiseFault src det t)) := formMsg_only _ _ _
    have hfault := hbump.trans (raiseFault_only src det t) (n := [.arr, .vtf, .flt, .pwr, .link, .oas, .cores, .prev])
      (by decide) (by decide)
    refine ⟨hfault.trans hmsg (by decide) (by decide), ?_⟩
    rw [hmsg .oas (by decide), (raiseFault_reacted src det t).oasis (·.budget), hbudget]
  cases dst with
  | sabkha => exact hraise _ _
  | readonly => exact hraise _ _
  | normal =>
    have hmsg : OnlyIn [.link] t (mediaMsg t) := formMsg_only _ _ _
    refine ⟨hbump.trans hmsg (by decide) (by decide), ?_⟩
    rw [hmsg .oas (by decide), hbudget]

theorem mediaTest_erased (h : ErasedKept e t) (h0 : t.store.streams = []) (hv : t.vtf = e.vtf) : ErasedKept e (mediaTest t) := by
  rcases mediaTest_cases t with heq | ⟨cause, -, heq⟩
  · rw [heq]
    exact h
  · have hnone : streamOf t 0 = none := by rw [streamOf, h0]; rfl
    obtain ⟨honly, hbudget⟩ := mediaTo_unrecorded .sabkha cause noSubj hnone
    obtain ⟨harr, hvtf⟩ := mediaTo_parts .sabkha cause noSubj t
    have estore : (mediaTo .sabkha cause noSubj t).store = t.store := honly .store (by decide)
    have ewadi : (mediaTo .sabkha cause noSubj t).wadi = t.wadi := honly .wadi (by decide)
    have eucode : (mediaTo .sabkha cause noSubj t).ucode = t.ucode := honly .ucode (by decide)
    have emem : (mediaTo .sabkha cause noSubj t).mem = t.mem := honly .mem (by decide)
    obtain ⟨m, l, hl, hslots⟩ := h.arr
    rw [heq]
    refine ⟨estore.trans h.store, ewadi.trans h.wadi, eucode.trans h.ucode, emem.trans h.mem, hbudget.trans h.budget, .inr ?_,
      .sabkha, l, by rw [harr, hl], hslots⟩
    rw [hvtf, bumpCounter, bumpCounter, hv]

theorem bootDropped_erased (boot : Bool) (h : ErasedKept e t) (h0 : t.store.streams = []) (hv : t.vtf = e.vtf) (ha : t.arr = e.arr) :
    ErasedKept e (bootDropped boot t) := by
  have hboot (b : Boot) : ErasedKept e { t with boot := b } := ⟨h.store, h.wadi, h.ucode, h.mem, h.budget, h.vtf, h.arr⟩
  simp only [bootDropped, bootClose]
  split
  · split
    · refine mediaTest_erased ⟨h.store, h.wadi, h.ucode, h.mem, h.budget, .inl hv, e.arr.media, unheldSlots e.arr.slots, ?_, .inr rfl⟩ h0 hv
      rw [← ha]
      rfl
    · exact hboot _
  · exact h

/-- The cores alone change as the extensions stop. -/
theorem extsStopped_only (ext : List (Nat × Ext)) (s : State) : OnlyIn [.cores] s (extsStopped ext s) := by
  refine OnlyIn.foldl _ (fun t e => ?_) ext s
  split
  · exact updCore_only _ _ _
  · exact OnlyIn.refl _ _

theorem checkOver_outst_zero (h : s.oas.outst = 0) : (checkOver s).oas.outst = 0 := by
  have hover : ¬accountSize s.oas < s.oas.outst := by omega
  simp only [checkOver, hover, decide_false, Bool.false_eq_true, if_false]
  split
  · exact h
  · rw [windowMsg_oas]
    exact h

theorem returnCredits_all (s : State) : (returnCredits s.oas.outst s).oas.outst = 0 := by
  simp only [returnCredits]
  split
  · assumption
  · exact checkOver_outst_zero (Nat.sub_self _)

theorem recomputeW_outst_zero (h : s.oas.outst = 0) : (recomputeW s).oas.outst = 0 := by
  rw [recomputeW_eq]
  refine checkOver_outst_zero ?_
  simp only [windowReported]
  split
  · rw [windowMsg_oas]
    exact h
  · exact h

theorem sanitizeTold_erased (early : Bool) (h : ErasedKept e t) :
    ErasedKept e (sanitizeTold early t) ∧ (sanitizeTold early t).oas.outst = 0 := by
  have hreturned := h.after_only (returnCredits_only t.oas.outst t) ((returnCredits_reacted _ t).oasis (·.budget)) (by decide)
  have hwindow := hreturned.after_only (recomputeW_only _) (recomputeW_oasis (·.budget) _) (by decide)
  have hzero := recomputeW_outst_zero (returnCredits_all t)
  simp only [sanitizeTold]
  generalize recomputeW (returnCredits t.oas.outst t) = r at hwindow hzero
  split
  · have hmsg : OnlyIn [.link] r (readyMsg r false) := readyMsg_only r false
    have hoas : (readyMsg r false).oas = r.oas := hmsg .oas (by decide)
    exact ⟨hwindow.after_only hmsg (by rw [hoas]) (by decide), by rw [hoas]; exact hzero⟩
  · exact ⟨hwindow, hzero⟩

/-- All that a SANITIZE does after it erased keeps the erased parts, and returns every credit. -/
theorem sanitizeNow_erased (boot : Bool) (debug : Nat) (s : State) :
    ErasedKept (sanitizeErased debug (sanitizeSettled s)) (sanitizeNow boot debug s) ∧ (sanitizeNow boot debug s).oas.outst = 0 := by
  rw [sanitizeNow_eq]
  have hrefl (e : State) : ErasedKept e e := ⟨rfl, rfl, rfl, rfl, rfl, .inl rfl, _, _, rfl, .inl rfl⟩
  have honly := extsStopped_only (sanitizeSettled s).mem.ext (sanitizeErased debug (sanitizeSettled s))
  have h0 : (sanitizeErased debug (sanitizeSettled s)).store.streams = [] := rfl
  generalize sanitizeErased debug (sanitizeSettled s) = e at honly h0
  generalize extsStopped (sanitizeSettled s).mem.ext e = t at honly
  have estore : t.store = e.store := honly .store (by decide)
  have eoas : t.oas = e.oas := honly .oas (by decide)
  refine sanitizeTold_erased _ (bootDropped_erased boot ((hrefl e).after_only honly (by rw [eoas]) (by decide)) ?_ (honly .vtf (by decide))
    (honly .arr (by decide)))
  rw [estore, h0]

/-! ## SANITIZE: the slots (R212) -/

/-- A used slot waits to be overwritten, and is used no longer. -/
def slotErased (i : SlotInfo) : SlotInfo := { i with used := false, seg := none, zeroing := i.zeroing || i.used }

theorem look_slotsErased {l : List (Nat × SlotInfo)} {n : Nat} {i : SlotInfo} (hn : metaSlot n = false) (h : look n l = some i) :
    look n (l.map fun e => if metaSlot e.1 then e else (e.1, slotErased e.2)) = some (slotErased i) := by
  induction l with
  | nil => cases h
  | cons e l ih =>
    obtain ⟨k, j⟩ := e
    simp only [look] at h
    simp only [List.map_cons]
    split at h
    · next hk =>
      cases h
      simp [look, hk, hn]
    · next hk =>
      split
      · simpa only [look, hk, if_false] using ih h
      · simpa only [look, hk, if_false] using ih h

theorem sanitizeArr_noneUsed (a : ArraySt) : NoneUsed (sanitizeArr a).slots := by
  intro e he hmeta
  obtain ⟨i, -, rfl⟩ := List.mem_map.mp he
  split at hmeta
  · next hi => rw [hi] at hmeta; cases hmeta
  · next hi => rw [if_neg hi]

theorem unheldSlots_noneUsed {l : List (Nat × SlotInfo)} (h : NoneUsed l) : NoneUsed (unheldSlots l) := by
  intro e he hmeta
  obtain ⟨i, hi, hkey, hused⟩ := unheldSlots_used he
  rw [← hused]
  exact h i hi (hkey ▸ hmeta)

/-- A slot that was in use waits to be overwritten after a SANITIZE that had nothing to settle. -/
theorem sanitized_zeroing {a : ArraySt} {n : Nat} (hn : metaSlot n = false) (h : ((look n a.slots).getD SlotInfo.reset).used = true) :
    ∃ i, look n (sanitizeArr a).slots = some i ∧ i.zeroing = true := by
  cases hl : look n a.slots with
  | none =>
    rw [hl] at h
    cases h
  | some i =>
    rw [hl] at h
    exact ⟨slotErased i, look_slotsErased hn hl, by rw [slotErased, show i.used = true from h, Bool.or_true]⟩

theorem slotOf_zeroing {n : Nat} {l : List (Nat × SlotInfo)} {i : SlotInfo} (h : look n l = some i) (hz : i.zeroing = true)
    (hu : u.arr.slots = l ∨ u.arr.slots = unheldSlots l) : (slotOf u n).zeroing = true := by
  rcases hu with hu | hu
  · rw [slotOf, hu, h]
    exact hz
  · rw [slotOf, hu, unheldSlots_look h hz]
    exact hz

/-- The trust block of a device that a SANITIZE emptied, with counter 5 at `n`. -/
def TrustEmptied (n : Nat) (t : Trust) : Prop :=
  t.life = .unowned ∧ t.keys = [] ∧ t.owner = none ∧ t.sessions = [] ∧ t.kwrap = none ∧ t.sanitize.isSome = true ∧ vAt t.counters 5 = n

theorem sanitizeErased_emptied (debug : Nat) (s : State) : TrustEmptied (vAt s.vtf.counters 5 + 1) (sanitizeErased debug s).vtf :=
  ⟨rfl, rfl, rfl, rfl, rfl, rfl, vAt_vUpd_same _ _ _ (by decide)⟩

theorem bumpCounter_emptied {n : Nat} (h : TrustEmptied n s.vtf) : TrustEmptied n (bumpCounter 2 s).vtf := by
  obtain ⟨hl, hk, ho, hs, hw, hz, hc⟩ := h
  exact ⟨hl, hk, ho, hs, hw, hz, (vAt_vUpd_other _ _ _ _ (by decide)).trans hc⟩

theorem ErasedKept.emptied {n : Nat} (h : ErasedKept e u) (he : TrustEmptied n e.vtf) : TrustEmptied n u.vtf := by
  rcases h.vtf with hv | hv
  · exact hv ▸ he
  · exact hv ▸ bumpCounter_emptied he

/-- What a SANITIZE leaves of the array: the metadata's part of the map, no used slot but the metadata's, and every retired slot. -/
theorem ErasedKept.array {debug : Nat} (h : ErasedKept (sanitizeErased debug s) u) :
    (∀ m ∈ u.arr.map, metaBase ≤ m.1) ∧ u.arr.retired = s.arr.retired ∧ NoneUsed u.arr.slots
      ∧ (u.arr.slots = (sanitizeArr s.arr).slots ∨ u.arr.slots = unheldSlots (sanitizeArr s.arr).slots) := by
  obtain ⟨m, l, ha, hl⟩ := h.arr
  rw [ha]
  refine ⟨fun m hm => of_decide_eq_true (List.mem_filter.mp hm).2, rfl, ?_, hl⟩
  rcases hl with rfl | rfl
  · exact sanitizeArr_noneUsed s.arr
  · exact unheldSlots_noneUsed (sanitizeArr_noneUsed s.arr)

/-- Settles O41: PROVISION's checks come in the order of R285, and what its mount leaves of the trust block and of stream 0 is what the
functions of a mount keep; a SANITIZE settles, erases, and keeps erased (`ErasedKept`). -/
theorem provisionAndSanitize : Obligations.ProvisionAndSanitize := by
  unfold Obligations.ProvisionAndSanitize
  intro s s2 x c
  refine ⟨fun h hses hlife hdebug hphase hdrbg hent => ?_, fun h hbad => ?_, fun h hpar => ?_⟩
  · cases hcurve : Config.onCurve (bytesAt c.plain 0 64) with
    | false =>
      refine ⟨_, exec_of_answer_alone rfl provision_barrierBy h rfl rfl (cmdProvision_offCurve hses hlife hcurve), fun _ => rfl,
        fun hc => ?_, fun hc => ?_⟩ <;> cases hc
    | true =>
      cases hsig : Config.ecdsaVerify (bytesAt c.plain 0 64) (ascii "ZZ-PROV-V1" ++ Config.devId.toList ++ leB 8 (vAt s2.vtf.counters 5)
        ++ bytesAt c.plain 0 64 ++ leB 4 (pf c 64 4)) (bytesAt c.plain 72 64) with
      | false =>
        refine ⟨_, exec_of_answer_alone rfl provision_barrierBy h rfl rfl (cmdProvision_unsigned hses hlife hdebug hcurve hsig),
          fun hc => ?_, fun _ _ => rfl, fun _ hs => ?_⟩
        · cases hc
        · cases hs
      | true =>
        have hstored := provisionedStore_ownedBy (s := provisioned (bytesAt c.plain 0 64) (pf c 64 4) s2)
          (opub := bytesAt c.plain 0 64) (pol := pf c 64 4) ⟨rfl, rfl, rfl, rfl⟩
        obtain ⟨⟨hl, ho, hp, hd⟩, hm, h0, hph⟩ := mountNow_owned hstored (provisionedStore_hasStream0 _)
        refine ⟨_, exec_of_answer_alone rfl provision_barrierBy h rfl rfl
          (cmdProvision_accepts hses hlife hdebug hphase hdrbg hent hcurve hsig), fun hc => ?_, fun _ hs => ?_,
          fun _ _ => ⟨_, rfl, hl, ho, hp, hd, hm, h0, hph⟩⟩
        · cases hc
        · cases hs
  · exact exec_of_answer_alone rfl provision_barrierBy h rfl rfl (cmdProvision_refuses hbad)
  · have hcmd : cmdSanitize c s2 = answer c .ok 0 [] (sanitizeNow (decide (pf c 0 1 = 1)) (if s2.vtf.debug = 2 then 2 else 0) s2) := by
      rw [cmdSanitize, if_neg (by omega)]
    refine ⟨_, exec_of_answer_alone rfl sanitize_barrierBy h rfl rfl hcmd, ?_⟩
    obtain ⟨hkept, houtst⟩ := sanitizeNow_erased (decide (pf c 0 1 = 1)) (if s2.vtf.debug = 2 then 2 else 0) s2
    obtain ⟨hlife, hkeys, howner, hsessions, hkwrap, hsan, hcounter⟩ := hkept.emptied (sanitizeErased_emptied _ _)
    obtain ⟨hmap, hretired, hused, hslots⟩ := hkept.array
    obtain ⟨-, hle, -⟩ := sanitizeSettled_stays s2
    rw [sanitizeSettled_counter] at hcounter
    refine ⟨hlife, hkeys, howner, hsessions, hkwrap, hsan, hcounter, by rw [hkept.store]; rfl, by rw [hkept.store]; rfl,
      by rw [hkept.store]; rfl, hmap, houtst, hkept.budget, by rw [hkept.wadi]; rfl, by rw [hkept.wadi]; rfl, by rw [hkept.ucode]; rfl,
      by rw [hkept.mem]; rfl, hle.trans hretired.ge, hused, fun hm hmoves n hn hslot => ?_⟩
    rw [sanitizeSettled_idle hm hmoves] at hslots
    obtain ⟨i, hi, hz⟩ := sanitized_zeroing hn hslot
    exact slotOf_zeroing hi hz hslots

end Sys2Proof.Machine
end

section
/-! SUPPORT. What sessions, counter raises, key rotations and the debug lock check and leave, command by command; and the statement on them. -/
namespace Sys2Proof.Machine
open Sys2Proof

variable {s t s2 : State} {x : CmdIn} {c : Ctx} {st : Stream} {sid : Nat}

theorem sessionOpen_carriedOut : CarriedOutBy 0x0010 fun c _ => cmdSessionOpen c :=
  fun _ _ _ _ h => by simp only [isBarrier, dispatch, h]; exact ⟨rfl, rfl⟩

theorem sessionClose_carriedOut : CarriedOutBy 0x0011 fun c _ => cmdSessionClose c :=
  fun _ _ _ _ h => by simp only [isBarrier, dispatch, h]; exact ⟨rfl, rfl⟩

theorem counterBump_carriedOut : CarriedOutBy 0x0082 fun c _ => cmdCounterBump c :=
  fun _ _ _ _ h => by simp only [isBarrier, dispatch, h]; exact ⟨rfl, rfl⟩

theorem debugUnlock_carriedOut : CarriedOutBy 0x00F0 fun c _ => cmdDebugUnlock c :=
  fun _ _ _ _ h => by simp only [isBarrier, dispatch, h]; exact ⟨rfl, rfl⟩

/-- Only the transfer of the owner is a barrier among the rotations (R255). -/
theorem keyRotate_barrierBy : BarrierBy 0x0081 (fun c _ => cmdKeyRotate c) fun c => decide (pf c 0 1 = 2) :=
  fun _ _ _ _ h => by simp only [isBarrier, dispatch, h]; exact ⟨rfl, rfl⟩

/-- An admitted rotation that is no barrier has left its queue with its answer. -/
theorem exec_keyRotate {sts : Status} {res : Nat} {data : List Byte} (h : Admitted 0x0081 x c s s2) (hn : pf c 0 1 ≠ 2)
    (hd : cmdKeyRotate c s2 = answer c sts res data t) : exec (.keyRotate x) s = .next (replied 0x0081 x c sts res data t) :=
  exec_of_fin_free rfl keyRotate_barrierBy h (decide_eq_false hn) hd

theorem drbgReady_of (hdrbg : s.vtf.drbgOk = true) (hent : s.vtf.entFail = false) : drbgReady s = true := by
  rw [drbgReady, hdrbg, hent]
  rfl

/-! ## SESSION_OPEN (R194, R195, R265) -/

theorem freeSes_range (s : State) (n : Nat) {k : Nat} (hlow : 1 ≤ k) (hhigh : k ≤ 65535) : 1 ≤ freeSes s n k ∧ freeSes s n k ≤ 65535 := by
  induction n generalizing k with
  | zero => exact ⟨hlow, hhigh⟩
  | succ n ih =>
    simp only [freeSes]
    split
    · exact ih (by omega) (by omega)
    · exact ⟨hlow, hhigh⟩

/-- The number, role and keys of a session as it is opened: nothing of it is replayed yet. -/
structure OpenedAs (role : Nat) (y : Session) : Prop where
  low : 1 ≤ y.ses
  high : y.ses ≤ 65535
  hi : y.hi = 0
  seen : y.seen = []
  keys : y.keys.length = 72
  role : y.role = .owner ↔ role = 1

/-- The transcript that an opening host signs (R194). -/
def openTranscript (c : Ctx) : List Byte :=
  ascii "ZZ-OPEN-V1" ++ leB 1 (pf c 0 1) ++ leB 1 (pf c 1 1) ++ Config.devId.toList ++ bytesAt c.plain 8 64 ++ bytesAt c.plain 72 16

/-- The fields of SESSION_OPEN are ones that a role may ask for, outside any session. -/
structure OpenFields (c : Ctx) : Prop where
  ses : c.pkt.ses = 0
  role : pf c 0 1 ≤ 1
  kid : pf c 1 1 ≤ 3
  owner : pf c 0 1 = 1 → pf c 1 1 = 0

theorem cmdSessionOpen_offCurve (hcurve : Config.onCurve (bytesAt c.plain 8 64) = false) :
    cmdSessionOpen c s = answer c .badParam 0 [] s := by
  simp only [cmdSessionOpen, hcurve, or_true, if_true]
  rfl

theorem cmdSessionOpen_onCurve (h : OpenFields c) (hcurve : Config.onCurve (bytesAt c.plain 8 64) = true) :
    ¬(c.pkt.ses ≠ 0 ∨ 1 < pf c 0 1 ∨ 3 < pf c 1 1 ∨ (pf c 0 1 = 1 ∧ pf c 1 1 ≠ 0) ∨ Config.onCurve (bytesAt c.plain 8 64) = false) := by
  obtain ⟨hses, hrole, hkid, howner⟩ := h
  rintro (hs | hr | hk | ⟨ho, hk⟩ | hc)
  · exact hs hses
  · omega
  · omega
  · exact hk (howner ho)
  · rw [hcurve] at hc
    cases hc

theorem cmdSessionOpen_keyless (h : OpenFields c) (hcurve : Config.onCurve (bytesAt c.plain 8 64) = true)
    (hkey : roleKey s (pf c 0 1) (pf c 1 1) = none) : cmdSessionOpen c s = answer c .noCap 0 [] s := by
  simp only [cmdSessionOpen, if_neg (cmdSessionOpen_onCurve h hcurve), hkey]
  rfl

theorem cmdSessionOpen_unsigned {k : List Byte} (h : OpenFields c) (hcurve : Config.onCurve (bytesAt c.plain 8 64) = true)
    (hkey : roleKey s (pf c 0 1) (pf c 1 1) = some k) (hsig : Config.ecdsaVerify k (openTranscript c) (bytesAt c.plain 88 64) = false) :
    cmdSessionOpen c s = answer c .auth 0 [] (countAuth s) := by
  rw [openTranscript] at hsig
  simp only [cmdSessionOpen, if_neg (cmdSessionOpen_onCurve h hcurve), hkey, hsig, Bool.not_false, if_true]
  rfl

theorem cmdSessionOpen_opens {k : List Byte} (h : OpenFields c) (hcurve : Config.onCurve (bytesAt c.plain 8 64) = true)
    (hkey : roleKey s (pf c 0 1) (pf c 1 1) = some k) (hsig : Config.ecdsaVerify k (openTranscript c) (bytesAt c.plain 88 64) = true)
    (hroom : s.vtf.sessions.length < 16) (hready : drbgReady s = true) :
    ∃ data y u, cmdSessionOpen c s = answer c .ok 0 data u ∧ u.vtf.sessions = s.vtf.sessions ++ [y] ∧ OpenedAs (pf c 0 1) y
      ∧ data.length = 152 := by
  rw [openTranscript] at hsig
  simp only [cmdSessionOpen, if_neg (cmdSessionOpen_onCurve h hcurve), hkey, hsig, Bool.not_true, Bool.false_eq_true, if_false,
    if_neg (Nat.not_le.mpr hroom), hready]
  refine ⟨_, _, _, rfl, rfl, ?_, ?_⟩
  · obtain ⟨hlow, hhigh⟩ := freeSes_range s 16 (k := 1 + (Config.freeBits 16 (takeFresh (takeFresh (takeFresh s).2).2).1).toNat % 65535)
      (by omega) (by omega)
    refine ⟨hlow, hhigh, rfl, rfl, Vector.length_toList, ?_⟩
    by_cases hr : pf c 0 1 = 1 <;> simp [hr]
  · simp

/-! ## SESSION_CLOSE (R199, R266) -/

/-- The session that a SESSION_CLOSE names. -/
def closeSes (c : Ctx) : Nat := if pf c 0 2 = 0 then c.pkt.ses.toNat else pf c 0 2

theorem cmdSessionClose_noCap (hne : closeSes c ≠ c.pkt.ses.toNat) (hrole : c.role ≠ some .owner) :
    cmdSessionClose c s = answer c .noCap 0 [] s := by
  rw [closeSes] at hne
  simp only [cmdSessionClose, if_pos (And.intro hne hrole)]
  rfl

theorem cmdSessionClose_closes (hmay : closeSes c = c.pkt.ses.toNat ∨ c.role = some .owner)
    (hses : ∃ y ∈ s.vtf.sessions, y.ses = closeSes c) :
    cmdSessionClose c s = answer c .ok 0 [] { s with vtf.sessions := s.vtf.sessions.filter fun y => y.ses != closeSes c } := by
  obtain ⟨y, hy, hn⟩ := hses
  rw [closeSes] at hmay hn
  have hmay' : ¬((if pf c 0 2 = 0 then c.pkt.ses.toNat else pf c 0 2) ≠ c.pkt.ses.toNat ∧ c.role ≠ some .owner) := by
    rintro ⟨hne, hrole⟩
    exact hmay.elim hne hrole
  have hany : (s.vtf.sessions.any fun z => z.ses == if pf c 0 2 = 0 then c.pkt.ses.toNat else pf c 0 2) = true :=
    List.any_eq_true.mpr ⟨y, hy, beq_iff_eq.mpr hn⟩
  simp only [cmdSessionClose, if_neg hmay', hany, Bool.not_true, Bool.false_eq_true, if_false]
  rfl

/-! ## COUNTER_BUMP (R205, R287) -/

theorem cmdCounterBump_badParam (h : pf c 0 1 < 16 ∨ 31 < pf c 0 1) : cmdCounterBump c s = answer c .badParam 0 [] s := by
  simp only [cmdCounterBump, h, if_true]
  rfl

theorem cmdCounterBump_quota (hlow : 16 ≤ pf c 0 1) (hhigh : pf c 0 1 ≤ 31) (h : 2 ^ 32 ≤ vAt s.vtf.bumps (pf c 0 1)) :
    cmdCounterBump c s = answer c .quota 0 [] s := by
  simp only [cmdCounterBump, if_neg (show ¬(pf c 0 1 < 16 ∨ 31 < pf c 0 1) by omega), h, if_true]
  rfl

theorem cmdCounterBump_raises (hlow : 16 ≤ pf c 0 1) (hhigh : pf c 0 1 ≤ 31) (h : vAt s.vtf.bumps (pf c 0 1) < 2 ^ 32) :
    cmdCounterBump c s = answer c .ok 0 (leB 8 (vAt s.vtf.counters (pf c 0 1) + 1)) (bumpCounter (pf c 0 1) s) := by
  have hcount : vAt (bumpCounter (pf c 0 1) s).vtf.counters (pf c 0 1) = vAt s.vtf.counters (pf c 0 1) + 1 := vAt_vUpd_same _ _ _ (by omega)
  simp only [cmdCounterBump, if_neg (show ¬(pf c 0 1 < 16 ∨ 31 < pf c 0 1) by omega), if_neg (Nat.not_le.mpr h), hcount]

/-! ## KEY_ROTATE of a stream (R201, R286) -/

/-- A frame that keeps the trust block's rest keeps the number of the next key. -/
theorem nextKey_of_stays {n : Nat} {ids : List Nat} (h : StaysIn (trustRest s.vtf) n ids t) : t.vtf.nextKey = s.vtf.nextKey := by
  obtain ⟨htrust, -, -⟩ := h
  have hkey : (trustRest t.vtf).nextKey = (trustRest s.vtf).nextKey := congrArg Trust.nextKey htrust
  exact hkey

theorem stays_refl (s : State) : StaysIn (trustRest s.vtf) 0 [] s := ⟨rfl, Nat.zero_le _, fun _ hk => absurd hk List.not_mem_nil⟩

/-- Old keys that nothing is held under go; the newest key stays, unless an old one has its number. -/
theorem pruneKeys_newest (h : streamOf s sid = some st) :
    ∃ v, streamOf (pruneKeys sid s) sid = some v ∧ ∀ k l, st.keys = k :: l → k ∉ l → v.keys.head? = some k := by
  simp only [pruneKeys, h]
  split
  · exact ⟨st, h, fun k l hk _ => by rw [hk]; rfl⟩
  · refine ⟨_, (streamOf_updStream_same s sid _).trans (by rw [h]; rfl), fun k l hk hnew => ?_⟩
    simp only [hk, List.drop_succ_cons, List.drop_zero]
    rw [List.filter_cons_of_pos]
    · rfl
    · simp [hnew]

/-- The key just made has the next number, and the number after it is next. -/
theorem newKey_numbered (owner : Option Nat) (s : State) : (newKey owner s).1 = s.vtf.nextKey
    ∧ (newKey owner s).2.vtf.nextKey = s.vtf.nextKey + 1 ∧ (newKey owner s).2.store = s.store := ⟨rfl, rfl, rfl⟩

/-- What a rotation leaves of its stream: the records without a segment placed under the keys there were. -/
def rotationPlaced (sid : Nat) (st : Stream) (s : State) : State := if st.attr.shared then s else placeStream sid s

theorem rotationPlaced_kept (st : Stream) (s : State) :
    HeadKept sid s (rotationPlaced sid st s) ∧ StaysIn (trustRest s.vtf) 0 [] (rotationPlaced sid st s) := by
  simp only [rotationPlaced]
  split
  · exact ⟨HeadKept.refl sid s, stays_refl s⟩
  · exact ⟨placeStream_headKept sid s, placeStream_stays sid s (stays_refl s)⟩

/-- The open segment sealed for a job, if there is one. -/
def openSealed (g : Option Nat) (j : Nat) (s : State) : Nat × State := match g with | some g => sealSegment g 2 (some j) s | none => (0, s)

theorem openSealed_kept (g : Option Nat) (j : Nat) (s : State) :
    HeadKept sid s (openSealed g j s).2 ∧ StaysIn (trustRest s.vtf) 0 [] (openSealed g j s).2 := by
  cases g with
  | none => exact ⟨HeadKept.refl sid s, stays_refl s⟩
  | some g => exact ⟨sealSegment_headKept g 2 _ s, sealSegment_stays g 2 _ s (stays_refl s)⟩

/-- How a rotation ends: the new key first, old keys pruned, and the job answered unless it waits for the seal's writes. -/
def rotationDone (sid key job : Nat) (w : Nat × State) : State :=
  let t := pruneKeys sid (updJob (updStream w.2 sid fun x => { x with keys := key :: x.keys }) job fun y => { y with waits := w.1 })
  if w.1 = 0 then finishJob job t else t

theorem rotationDone_stays (key job : Nat) (w : Nat × State) : StaysIn (trustRest w.2.vtf) 0 [] (rotationDone sid key job w) := by
  have h : StaysIn (trustRest w.2.vtf) 0 []
      (pruneKeys sid (updJob (updStream w.2 sid fun x => { x with keys := key :: x.keys }) job fun y => { y with waits := w.1 })) := pruneKeys_stays _ _ (updJob_stays _ _ _ (updStream_stays _ _ _ (stays_refl _)))
  simp only [rotationDone]
  split
  · exact finishJob_stays _ _ h
  · exact h

theorem rotationDone_newest (key job : Nat) (w : Nat × State) (h : streamOf w.2 sid = some st) :
    ∃ v, streamOf (rotationDone sid key job w) sid = some v ∧ (key ∉ st.keys → v.keys.head? = some key) := by
  have hkeyed : streamOf (updStream w.2 sid fun x => { x with keys := key :: x.keys }) sid = some { st with keys := key :: st.keys } :=
    (streamOf_updStream_same _ _ _).trans (by rw [h]; rfl)
  have hjob : streamOf (updJob (updStream w.2 sid fun x => { x with keys := key :: x.keys }) job fun y => { y with waits := w.1 }) sid
      = some { st with keys := key :: st.keys } := hkeyed
  obtain ⟨v, hv, hhead⟩ := pruneKeys_newest hjob
  simp only [rotationDone]
  split
  · obtain ⟨u, hu, hkeys⟩ := (finishJob_headKept job _).head.entry hv
    refine ⟨u, hu, fun hnew => ?_⟩
    rw [(Prod.mk.inj hkeys).2]
    exact hhead key st.keys rfl hnew
  · exact ⟨v, hv, hhead key st.keys rfl⟩

theorem rotateStream_eq (hlive : liveStream s (pf c 4 4) = some st) (hroom : st.keys.length < 4) (hready : drbgReady s = true) :
    ∃ g job replies, rotateStream c s = .fin (rotationDone (pf c 4 4) (newKey (some (pf c 4 4)) (rotationPlaced (pf c 4 4) st s)).1 job
      (openSealed g job (newJob 0 replies false .plain (newKey (some (pf c 4 4)) (rotationPlaced (pf c 4 4) st s)).2).2)) := by
  simp only [rotateStream, hlive, if_neg (Nat.not_le.mpr hroom), hready, Bool.not_true, Bool.false_eq_true, if_false]
  exact ⟨_, _, _, rfl⟩

theorem rotateStream_rotates (hlive : liveStream s (pf c 4 4) = some st) (hroom : st.keys.length < 4) (hready : drbgReady s = true) :
    ∃ t v, rotateStream c s = .fin t ∧ streamOf t (pf c 4 4) = some v ∧ t.vtf.nextKey = s.vtf.nextKey + 1
      ∧ (s.vtf.nextKey ∉ st.keys → v.keys.head? = some s.vtf.nextKey) := by
  obtain ⟨hst, -⟩ := liveStream_eq_some hlive
  obtain ⟨g, job, replies, heq⟩ := rotateStream_eq hlive hroom hready
  obtain ⟨hplaced, hplacedStays⟩ := rotationPlaced_kept (sid := pf c 4 4) st s
  have hnext := nextKey_of_stays hplacedStays
  generalize rotationPlaced (pf c 4 4) st s = p at heq hplaced hnext
  obtain ⟨hkey, hnumber, hstore⟩ := newKey_numbered (some (pf c 4 4)) p
  generalize newKey (some (pf c 4 4)) p = k at heq hkey hnumber hstore
  have hjob : OnlyIn [.eng] k.2 (newJob 0 replies false .plain k.2).2 := newJob_only _ _ _ _ _
  generalize (newJob 0 replies false .plain k.2).2 = q at heq hjob
  obtain ⟨hsealed, hsealedStays⟩ := openSealed_kept (sid := pf c 4 4) g job q
  have hcount := nextKey_of_stays (rotationDone_stays (sid := pf c 4 4) k.1 job (openSealed g job q))
  have hq : q.store = p.store := (hjob .store (by decide)).trans hstore
  obtain ⟨v, hv, hvkeys⟩ := hplaced.head.entry hst
  have hqv : streamOf q (pf c 4 4) = some v := by rw [streamOf, hq]; exact hv
  obtain ⟨u, hu, hukeys⟩ := hsealed.head.entry hqv
  have hkeys : u.keys = st.keys := (Prod.mk.inj hukeys).2.trans (Prod.mk.inj hvkeys).2
  obtain ⟨y, hy, hhead⟩ := rotationDone_newest k.1 job (openSealed g job q) hu
  have hqvtf : q.vtf = k.2.vtf := hjob .vtf (by decide)
  refine ⟨_, y, heq, hy, ?_, fun hnew => ?_⟩
  · rw [hcount, nextKey_of_stays hsealedStays, hqvtf, hnumber, hnext]
  · rw [hkey, hnext, hkeys] at hhead
    exact hhead hnew

theorem cmdKeyRotate_stream (h : pf c 0 1 = 1) : cmdKeyRotate c s = rotateStream c s := by
  simp only [cmdKeyRotate, h]

theorem cmdKeyRotate_policy (h : pf c 0 1 = 4) :
    cmdKeyRotate c s = answer c .ok 0 [] { s with vtf.pol := BitVec.ofNat 32 (pf c 4 4) } := by
  simp only [cmdKeyRotate, h]

theorem cmdKeyRotate_removes (h : pf c 0 1 = 3) (hslot : pf c 2 1 ≤ 3) (hclear : (pf c 1 1).testBit 1 = true) :
    cmdKeyRotate c s = answer c .ok 0 [] { s with
      vtf.sessions := s.vtf.sessions.filter fun y => !(decide (y.role = .host) && y.kid == pf c 2 1)
      vtf.hosts := vSet s.vtf.hosts (pf c 2 1) none } := by
  simp only [cmdKeyRotate, h, if_neg (show ¬3 < pf c 2 1 by omega), hclear, Bool.true_eq_false, false_and, if_false, if_true]
  rfl

/-! ## KEY_ROTATE of the owner (R191, R286) -/

/-- What a new owner signs (R191). -/
def transferMsg (c : Ctx) (s : State) : List Byte :=
  ascii "ZZ-XFER-V1" ++ Config.devId.toList ++ leB 8 (vAt s.vtf.counters 4) ++ bytesAt c.plain 8 64

/-- The device with its new owner: no session, and no host key where that is asked for. -/
def transferred (c : Ctx) (s : State) : State :=
  { bumpCounter 4 s with vtf := { (bumpCounter 4 s).vtf with
      owner := some (bytesAt c.plain 8 64), sessions := []
      hosts := if (pf c 1 1).testBit 0 then Vector.replicate 4 none else (bumpCounter 4 s).vtf.hosts } }

theorem cmdKeyRotate_offCurve (h : pf c 0 1 = 2) (hcurve : Config.onCurve (bytesAt c.plain 8 64) = false) :
    cmdKeyRotate c s = answer c .badParam 0 [] s := by
  simp only [cmdKeyRotate, h, hcurve, if_true]
  rfl

theorem cmdKeyRotate_unsigned (h : pf c 0 1 = 2) (hcurve : Config.onCurve (bytesAt c.plain 8 64) = true)
    (hsig : Config.ecdsaVerify (bytesAt c.plain 8 64) (transferMsg c s) (bytesAt c.plain 72 64) = false) :
    cmdKeyRotate c s = answer c .auth 0 [] (countAuth s) := by
  rw [transferMsg] at hsig
  simp only [cmdKeyRotate, h, hcurve, hsig, Bool.true_eq_false, if_false, Bool.not_false, if_true]
  rfl

theorem cmdKeyRotate_transfers (h : pf c 0 1 = 2) (hcurve : Config.onCurve (bytesAt c.plain 8 64) = true)
    (hsig : Config.ecdsaVerify (bytesAt c.plain 8 64) (transferMsg c s) (bytesAt c.plain 72 64) = true) :
    cmdKeyRotate c s = answer c .ok 0 [] (transferred c s) := by
  rw [transferMsg] at hsig
  simp only [cmdKeyRotate, h, hcurve, hsig, Bool.true_eq_false, Bool.false_eq_true, if_false, Bool.not_true]
  rfl

theorem transferred_hosts (hclear : (pf c 1 1).testBit 0 = true) (k : Nat) : vAt (transferred c s).vtf.hosts k = none := by
  simp only [transferred, hclear, if_true]
  by_cases hk : k < 4
  · simp [vAt, hk]
  · rw [vAt, Vector.getElem?_eq_none (by omega)]
    rfl

theorem transferred_only (c : Ctx) (s : State) : OnlyIn [.vtf] s (transferred c s) := by
  intro r hr
  cases r <;> simp_all [sameIn, transferred, bumpCounter]

/-! ## DEBUG_UNLOCK (R213, R288) -/

theorem cmdDebugUnlock_noCap (h : 3 ≤ s.vtf.dbgFails) : cmdDebugUnlock c s = answer c .noCap 0 [] s := by
  simp only [cmdDebugUnlock, h, if_true]
  rfl

theorem cmdDebugUnlock_locks (hfails : s.vtf.dbgFails < 3) (hstep : pf c 0 1 = 0) (hlevel : pf c 1 1 = 0) :
    cmdDebugUnlock c s = answer c .ok 0 [] { s with vtf.debug := 0 } := by
  simp only [cmdDebugUnlock, if_neg (Nat.not_le.mpr hfails), hstep, hlevel]
  rfl

/-- A fresh challenge for a level takes the place of the one there was (R213). -/
def challenged (level : Nat) (s : State) : State :=
  { (takeFresh s).2 with
    vtf.chals := otherChals level s ++ [{ level := level, bytes := (Config.drbg (takeFresh s).1 32).toList, due := s.tick + 60000000 }] }

theorem cmdDebugUnlock_challenges (hfails : s.vtf.dbgFails < 3) (hstep : pf c 0 1 = 0) (hlevel : pf c 1 1 = 1 ∨ pf c 1 1 = 2)
    (hready : drbgReady s = true) :
    cmdDebugUnlock c s = answer c .ok 0 (Config.drbg (takeFresh s).1 32).toList (challenged (pf c 1 1) s) := by
  have hfields : ¬(1 < 0 ∨ 2 < pf c 1 1 ∨ (0 = 1 ∧ pf c 1 1 = 0)) := by omega
  have hsome : pf c 1 1 ≠ 0 := by omega
  simp only [cmdDebugUnlock, if_neg (Nat.not_le.mpr hfails), hstep, if_neg hfields, if_true, if_neg hsome, hready, Bool.not_true,
    Bool.false_eq_true, if_false]
  rfl

/-- What a debugger of level 1 signs: the challenge that is open (R213). -/
def debugMsg (ch : Chal) : List Byte := ascii "ZZ-DBG-V1" ++ leB 1 1 ++ Config.devId.toList ++ ch.bytes

/-- Level 1 opened (R213). -/
def unlocked (s : State) : State :=
  { bumpCounter 6 { s with vtf.chals := otherChals 1 s } with
    vtf := { (bumpCounter 6 { s with vtf.chals := otherChals 1 s }).vtf with debug := 1 } }

theorem cmdDebugUnlock_answers {ch : Chal} (hfails : s.vtf.dbgFails < 3) (hstep : pf c 0 1 = 1) (hlevel : pf c 1 1 = 1)
    (hchal : (s.vtf.chals.find? fun v => v.level == 1) = some ch) (hdue : s.tick < ch.due) :
    cmdDebugUnlock c s = if Config.ecdsaVerify (s.vtf.owner.getD []) (debugMsg ch) (bytesAt c.plain 8 64)
      then answer c .ok 0 [] (unlocked s)
      else answer c .auth 0 [] (countAuth { s with vtf.chals := otherChals 1 s, vtf.dbgFails := s.vtf.dbgFails + 1 }) := by
  rw [debugMsg]
  simp only [cmdDebugUnlock, if_neg (Nat.not_le.mpr hfails), hstep, hlevel, Nat.lt_irrefl, Nat.reduceLT, one_ne_zero, and_false,
    or_self, if_false, if_true, hchal, if_neg (Nat.not_le.mpr hdue)]
  cases Config.ecdsaVerify (s.vtf.owner.getD []) (ascii "ZZ-DBG-V1" ++ leB 1 1 ++ Config.devId.toList ++ ch.bytes)
    (bytesAt c.plain 8 64) <;> rfl

/-! ## The statement -/

/-- SESSION_OPEN by the point, the role key and the signature. -/
theorem exec_sessionOpen (h : Admitted 0x0010 x c s s2) (hf : OpenFields c) (hroom : s2.vtf.sessions.length < 16)
    (hready : drbgReady s2 = true) : ∃ t, exec (.sessionOpen x) s = .next t
      ∧ (Config.onCurve (bytesAt c.plain 8 64) = false → t = replied 0x0010 x c .badParam 0 [] s2)
      ∧ (Config.onCurve (bytesAt c.plain 8 64) = true → roleKey s2 (pf c 0 1) (pf c 1 1) = none → t = replied 0x0010 x c .noCap 0 [] s2)
      ∧ ∀ k, Config.onCurve (bytesAt c.plain 8 64) = true → roleKey s2 (pf c 0 1) (pf c 1 1) = some k →
        (Config.ecdsaVerify k (openTranscript c) (bytesAt c.plain 88 64) = false → t = replied 0x0010 x c .auth 0 [] (countAuth s2))
        ∧ (Config.ecdsaVerify k (openTranscript c) (bytesAt c.plain 88 64) = true → ∃ data y u, t = replied 0x0010 x c .ok 0 data u
          ∧ u.vtf.sessions = s2.vtf.sessions ++ [y] ∧ OpenedAs (pf c 0 1) y ∧ data.length = 152) := by
  cases hcurve : Config.onCurve (bytesAt c.plain 8 64) with
  | false => exact ⟨_, exec_of_answer rfl sessionOpen_carriedOut h (cmdSessionOpen_offCurve hcurve), by simp⟩
  | true =>
    cases hkey : roleKey s2 (pf c 0 1) (pf c 1 1) with
    | none => exact ⟨_, exec_of_answer rfl sessionOpen_carriedOut h (cmdSessionOpen_keyless hf hcurve hkey), by simp⟩
    | some key =>
      cases hsig : Config.ecdsaVerify key (openTranscript c) (bytesAt c.plain 88 64) with
      | false => exact ⟨_, exec_of_answer rfl sessionOpen_carriedOut h (cmdSessionOpen_unsigned hf hcurve hkey hsig), by simp [hsig]⟩
      | true =>
        obtain ⟨data, y, u, hcmd, hopened⟩ := cmdSessionOpen_opens hf hcurve hkey hsig hroom hready
        refine ⟨_, exec_of_answer rfl sessionOpen_carriedOut h hcmd, by simp, by simp, fun k _ hk => ?_⟩
        cases hk
        exact ⟨by simp [hsig], fun _ => ⟨data, y, u, rfl, hopened⟩⟩

/-- KEY_ROTATE 2 by the point and the signature. -/
theorem exec_transfer (h : AdmittedAlone 0x0081 x c s s2) (hm : pf c 0 1 = 2) : ∃ t, exec (.keyRotate x) s = .next t
      ∧ (Config.onCurve (bytesAt c.plain 8 64) = false → t = repliedAlone 0x0081 x c .badParam 0 [] s2)
      ∧ (Config.onCurve (bytesAt c.plain 8 64) = true
        → Config.ecdsaVerify (bytesAt c.plain 8 64) (transferMsg c s2) (bytesAt c.plain 72 64) = false
        → t = repliedAlone 0x0081 x c .auth 0 [] (countAuth s2))
      ∧ (Config.onCurve (bytesAt c.plain 8 64) = true
        → Config.ecdsaVerify (bytesAt c.plain 8 64) (transferMsg c s2) (bytesAt c.plain 72 64) = true
        → t = repliedAlone 0x0081 x c .ok 0 [] (transferred c s2)) := by
  have hb : decide (pf c 0 1 = 2) = true := decide_eq_true hm
  cases hcurve : Config.onCurve (bytesAt c.plain 8 64) with
  | false => exact ⟨_, exec_of_answer_alone rfl keyRotate_barrierBy h rfl hb (cmdKeyRotate_offCurve hm hcurve), by simp⟩
  | true =>
    cases hsig : Config.ecdsaVerify (bytesAt c.plain 8 64) (transferMsg c s2) (bytesAt c.plain 72 64) with
    | false => exact ⟨_, exec_of_answer_alone rfl keyRotate_barrierBy h rfl hb (cmdKeyRotate_unsigned hm hcurve hsig), by simp⟩
    | true => exact ⟨_, exec_of_answer_alone rfl keyRotate_barrierBy h rfl hb (cmdKeyRotate_transfers hm hcurve hsig), by simp⟩

/-- DEBUG_UNLOCK of level 1 by the signature on the challenge. -/
theorem exec_debugAnswer {ch : Chal} (h : Admitted 0x00F0 x c s s2) (hfails : s2.vtf.dbgFails < 3) (hstep : pf c 0 1 = 1)
    (hlevel : pf c 1 1 = 1) (hchal : (s2.vtf.chals.find? fun v => v.level == 1) = some ch) (hdue : s2.tick < ch.due) :
    ∃ t, exec (.debugUnlock x) s = .next t
      ∧ (Config.ecdsaVerify (s2.vtf.owner.getD []) (debugMsg ch) (bytesAt c.plain 8 64) = false → t = replied 0x00F0 x c .auth 0 []
        (countAuth { s2 with vtf.chals := otherChals 1 s2, vtf.dbgFails := s2.vtf.dbgFails + 1 }))
      ∧ (Config.ecdsaVerify (s2.vtf.owner.getD []) (debugMsg ch) (bytesAt c.plain 8 64) = true
        → t = replied 0x00F0 x c .ok 0 [] (unlocked s2)) := by
  have hcmd := cmdDebugUnlock_answers hfails hstep hlevel hchal hdue
  cases hsig : Config.ecdsaVerify (s2.vtf.owner.getD []) (debugMsg ch) (bytesAt c.plain 8 64) with
  | false =>
    rw [hsig] at hcmd
    exact ⟨_, exec_of_answer rfl debugUnlock_carriedOut h hcmd, by simp⟩
  | true =>
    rw [hsig] at hcmd
    exact ⟨_, exec_of_answer rfl debugUnlock_carriedOut h hcmd, by simp⟩

/-- Settles O40: each command's checks in the order of R265 to R288, and what it leaves where they pass. A rotation of a stream's key keeps
the new key first (`pruneKeys_newest`), and neither the seal nor its answer touches the number of the next key. -/
theorem sessionsKeysAndCounters : Obligations.SessionsKeysAndCounters := by
  unfold Obligations.SessionsKeysAndCounters
  intro s s2 x c st
  refine ⟨fun h hses hrole hkid howner hroom hdrbg hent => ?_, fun h => ⟨fun hne hrole => ?_, fun hmay hopen => ?_⟩,
    fun h => ⟨fun hbad => ?_, fun hlow hhigh hfull => ?_, fun hlow hhigh hfree => ?_⟩,
    fun h => ⟨fun hm => ?_, fun hm hslot hclear => ?_, fun hm hlive hkeys hdrbg hent => ?_⟩, fun h hm => ?_,
    fun h => ⟨fun hfails => ?_, fun hfails hstep hlevel => ?_, fun hfails hstep hlevel hdrbg hent => ?_,
      fun ch hfails hstep hlevel hchal hdue => ?_⟩⟩
  · obtain ⟨t, hexec, hcurve, hkey, hsig⟩ := exec_sessionOpen h ⟨hses, hrole, hkid, howner⟩ hroom (drbgReady_of hdrbg hent)
    refine ⟨t, hexec, hcurve, hkey, fun k hon hk => ⟨(hsig k hon hk).1, fun hok => ?_⟩⟩
    obtain ⟨data, y, u, hreply, hsessions, hy, hdata⟩ := (hsig k hon hk).2 hok
    exact ⟨data, y, u, hreply, hsessions, hy.low, hy.high, hy.hi, hy.seen, hy.keys, hy.role, hdata⟩
  · exact exec_of_answer rfl sessionClose_carriedOut h (cmdSessionClose_noCap hne hrole)
  · exact exec_of_answer rfl sessionClose_carriedOut h (cmdSessionClose_closes hmay hopen)
  · exact exec_of_answer rfl counterBump_carriedOut h (cmdCounterBump_badParam hbad)
  · exact exec_of_answer rfl counterBump_carriedOut h (cmdCounterBump_quota hlow hhigh hfull)
  · exact exec_of_answer rfl counterBump_carriedOut h (cmdCounterBump_raises hlow hhigh hfree)
  · exact exec_keyRotate h (by omega) (cmdKeyRotate_policy hm)
  · exact exec_keyRotate h (by omega) (cmdKeyRotate_removes hm hslot hclear)
  · obtain ⟨t, v, hcmd, hleft⟩ := rotateStream_rotates hlive hkeys (drbgReady_of hdrbg hent)
    exact ⟨t, v, exec_of_fin_free rfl keyRotate_barrierBy h (decide_eq_false (by omega)) ((cmdKeyRotate_stream hm).trans hcmd), hleft⟩
  · obtain ⟨t, hexec, hcurve, hbad, hok⟩ := exec_transfer h hm
    exact ⟨t, hexec, hcurve, hbad, fun hon hsig =>
      ⟨_, hok hon hsig, rfl, rfl, vAt_vUpd_same _ _ _ (by decide), transferred_hosts, transferred_only c s2⟩⟩
  · exact exec_of_answer rfl debugUnlock_carriedOut h (cmdDebugUnlock_noCap hfails)
  · exact exec_of_answer rfl debugUnlock_carriedOut h (cmdDebugUnlock_locks hfails hstep hlevel)
  · exact ⟨_, _, exec_of_answer rfl debugUnlock_carriedOut h (cmdDebugUnlock_challenges hfails hstep hlevel (drbgReady_of hdrbg hent)),
      Vector.length_toList, rfl, rfl⟩
  · obtain ⟨t, hexec, hbad, hok⟩ := exec_debugAnswer h hfails hstep hlevel hchal hdue
    exact ⟨t, hexec, hbad, fun hsig => ⟨_, hok hsig, rfl, rfl, vAt_vUpd_same _ _ _ (by decide)⟩⟩

end Sys2Proof.Machine
end

section
/-! SUPPORT. What BOOT_STAGE, BOOT_COMMIT and BOOT_ACTIVATE check and leave; and the statement on the boot commands. -/
namespace Sys2Proof.Machine
open Sys2Proof

variable {s s2 : State} {x : CmdIn} {c : Ctx} {k : Nat}

theorem bootStage_carriedOut : CarriedOutBy 0x0030 fun c _ => cmdBootStage c :=
  fun _ _ _ _ h => by simp only [isBarrier, dispatch, h]; exact ⟨rfl, rfl⟩

theorem bootCommit_carriedOut : CarriedOutBy 0x0031 fun c _ => cmdBootCommit c :=
  fun _ _ _ _ h => by simp only [isBarrier, dispatch, h]; exact ⟨rfl, rfl⟩

theorem bootActivate_carriedOut : CarriedOutBy 0x0032 fun c _ => cmdBootActivate c :=
  fun _ _ _ _ h => by simp only [isBarrier, dispatch, h]; exact ⟨rfl, rfl⟩

/-! ## BOOT_STAGE (R222) -/

/-- A slot with the payload written, emptied first where RESTART is set. -/
def stagedSlot (c : Ctx) (b : BSlot) : BSlot :=
  let base : BSlot := if (pf c 4 1).testBit 0 then { BSlot.reset with st := .staging } else b
  { base with image := memPutBytes 0xFF base.image (pf c 0 4) (c.plain.drop 8) }

theorem cmdBootStage_writes (haligned : pf c 0 4 % 4096 = 0) (hlow : pf c 0 4 < 67108864)
    (hend : pf c 0 4 + (c.plain.drop 8).length ≤ 67108864) (hidle : servingSlot s (mirage s) = false)
    (hst : (pf c 4 1).testBit 0 = true ∨ (bslot s (mirage s)).st = .staging) :
    cmdBootStage c s = answer c .ok 0 [] (updBslot s (mirage s) (stagedSlot c)) := by
  have hrange : ¬(pf c 0 4 % 4096 ≠ 0 ∨ 67108864 ≤ pf c 0 4 ∨ 67108864 < pf c 0 4 + (payloadOf c 8).length) := by
    simp only [payloadOf]
    omega
  have hready : ¬((!(pf c 4 1).testBit 0) = true ∧ (bslot s (mirage s)).st ≠ .staging) := by
    rintro ⟨hkeep, hne⟩
    rcases hst with hrestart | hstaging
    · simp [hrestart] at hkeep
    · exact hne hstaging
  simp only [cmdBootStage, if_neg hrange, hidle, Bool.false_eq_true, if_false, if_neg hready]
  rfl

theorem cmdBootStage_badParam (h : pf c 0 4 % 4096 ≠ 0 ∨ 67108864 < pf c 0 4 + (c.plain.drop 8).length ∨ servingSlot s (mirage s) = true) :
    cmdBootStage c s = answer c .badParam 0 [] s := by
  simp only [cmdBootStage]
  split
  · rfl
  · next hrange =>
    have hserving : servingSlot s (mirage s) = true := by
      rcases h with h | h | h
      · exact absurd (.inl h) hrange
      · exact absurd (.inr (.inr h)) hrange
      · exact h
    simp only [hserving, if_true]
    rfl

/-! ## BOOT_COMMIT (R223) -/

/-- The manifest that a BOOT_COMMIT carries (R220). -/
def commitManifest (c : Ctx) : List Byte := c.plain.take 128

/-- Whether the owner signed that manifest (R220). -/
def commitSigned (c : Ctx) (s : State) : Bool :=
  Config.ecdsaVerify (s.vtf.owner.getD []) (ascii "ZZ-BOOT-V1" ++ (commitManifest c).take 64) ((commitManifest c).drop 64)

/-- A slot committed under a manifest: its tree nodes, its seal and VALID. -/
def committedSlot (m : List Byte) (b : BSlot) : BSlot :=
  { b with st := .valid, manifest := m, dsig := (Config.dikSign m).toList, nodes := merkleTree 15 (bootLeaves b.image (mfLength m)) }

/-- The debug level and the MIRAGE slot let a commit through: the checks before the manifest's. -/
structure Staged (s : State) : Prop where
  debug : s.vtf.debug ≠ 2
  staging : (bslot s (mirage s)).st = .staging
  idle : servingSlot s (mirage s) = false

theorem cmdBootCommit_halted (h : s.vtf.debug = 2) : cmdBootCommit c s = answer c .halted 0 [] s := by
  simp only [cmdBootCommit, h, if_true]
  rfl

theorem cmdBootCommit_unstaged (hdebug : s.vtf.debug ≠ 2) (h : (bslot s (mirage s)).st ≠ .staging ∨ servingSlot s (mirage s) = true) :
    cmdBootCommit c s = answer c .badParam 1 [] s := by
  simp only [cmdBootCommit, if_neg hdebug, if_pos h]

/-- The checks of a staged slot's commit, from the manifest's fields on. -/
theorem cmdBootCommit_staged (h : Staged s) : cmdBootCommit c s =
    if !manifestOk (commitManifest c) then answer c .badParam 2 [] s
    else if !commitSigned c s then answer c .auth 3 [] (countAuth s)
    else if mfVersion (commitManifest c) < vAt s.vtf.counters 3 then answer c .badParam 4 [] s
    else if merkleRoot (bslot s (mirage s)).image (mfLength (commitManifest c)) ≠ bytesAt (commitManifest c) 32 32 then
      answer c .badParam 5 [] s
    else answer c .ok 0 [] (updBslot s (mirage s) (committedSlot (commitManifest c))) := by
  obtain ⟨hdebug, hstaging, hidle⟩ := h
  have hslot : ¬((bslot s (mirage s)).st ≠ .staging ∨ servingSlot s (mirage s) = true) := by simp [hstaging, hidle]
  simp only [cmdBootCommit, if_neg hdebug, if_neg hslot]
  rfl

theorem cmdBootCommit_malformed (h : Staged s) (hm : manifestOk (commitManifest c) = false) :
    cmdBootCommit c s = answer c .badParam 2 [] s := by
  rw [cmdBootCommit_staged h, if_pos (by rw [hm]; rfl)]

section
variable (h : Staged s) (hm : manifestOk (commitManifest c) = true)
include h hm

theorem cmdBootCommit_unsigned (hsig : commitSigned c s = false) : cmdBootCommit c s = answer c .auth 3 [] (countAuth s) := by
  simp only [cmdBootCommit_staged h, hm, hsig, Bool.not_true, Bool.not_false, Bool.false_eq_true, if_false, if_true]

theorem cmdBootCommit_old (hsig : commitSigned c s = true) (hv : mfVersion (commitManifest c) < vAt s.vtf.counters 3) :
    cmdBootCommit c s = answer c .badParam 4 [] s := by
  simp only [cmdBootCommit_staged h, hm, hsig, Bool.not_true, Bool.false_eq_true, if_false, if_pos hv]

theorem cmdBootCommit_otherRoot (hsig : commitSigned c s = true) (hv : vAt s.vtf.counters 3 ≤ mfVersion (commitManifest c))
    (hroot : merkleRoot (bslot s (mirage s)).image (mfLength (commitManifest c)) ≠ bytesAt (commitManifest c) 32 32) :
    cmdBootCommit c s = answer c .badParam 5 [] s := by
  simp only [cmdBootCommit_staged h, hm, hsig, Bool.not_true, Bool.false_eq_true, if_false, if_neg (Nat.not_lt.mpr hv), if_pos hroot]

theorem cmdBootCommit_commits (hsig : commitSigned c s = true) (hv : vAt s.vtf.counters 3 ≤ mfVersion (commitManifest c))
    (hroot : merkleRoot (bslot s (mirage s)).image (mfLength (commitManifest c)) = bytesAt (commitManifest c) 32 32) :
    cmdBootCommit c s = answer c .ok 0 [] (updBslot s (mirage s) (committedSlot (commitManifest c))) := by
  simp only [cmdBootCommit_staged h, hm, hsig, Bool.not_true, Bool.false_eq_true, if_false, if_neg (Nat.not_lt.mpr hv),
    if_neg (not_not_intro hroot)]

end

/-- A commit of a well-formed manifest to a staged slot, by the signature, the version and the root. -/
theorem exec_bootCommit (h : Admitted 0x0031 x c s s2) (hstaged : Staged s2) (hm : manifestOk (commitManifest c) = true) :
    ∃ t, exec (.bootCommit x) s = .next t
      ∧ (commitSigned c s2 = false → t = replied 0x0031 x c .auth 3 [] (countAuth s2))
      ∧ (commitSigned c s2 = true → mfVersion (commitManifest c) < vAt s2.vtf.counters 3 → t = replied 0x0031 x c .badParam 4 [] s2)
      ∧ (commitSigned c s2 = true → vAt s2.vtf.counters 3 ≤ mfVersion (commitManifest c)
        → merkleRoot (bslot s2 (mirage s2)).image (mfLength (commitManifest c)) ≠ bytesAt (commitManifest c) 32 32
        → t = replied 0x0031 x c .badParam 5 [] s2)
      ∧ (commitSigned c s2 = true → vAt s2.vtf.counters 3 ≤ mfVersion (commitManifest c)
        → merkleRoot (bslot s2 (mirage s2)).image (mfLength (commitManifest c)) = bytesAt (commitManifest c) 32 32
        → t = replied 0x0031 x c .ok 0 [] (updBslot s2 (mirage s2) (committedSlot (commitManifest c)))) := by
  cases hsig : commitSigned c s2 with
  | false => exact ⟨_, exec_of_answer rfl bootCommit_carriedOut h (cmdBootCommit_unsigned hstaged hm hsig), by simp⟩
  | true =>
    rcases Nat.lt_or_ge (mfVersion (commitManifest c)) (vAt s2.vtf.counters 3) with hold | hnew
    · exact ⟨_, exec_of_answer rfl bootCommit_carriedOut h (cmdBootCommit_old hstaged hm hsig hold), by simp [Nat.not_le.mpr hold]⟩
    · by_cases hroot : merkleRoot (bslot s2 (mirage s2)).image (mfLength (commitManifest c)) = bytesAt (commitManifest c) 32 32
      · exact ⟨_, exec_of_answer rfl bootCommit_carriedOut h (cmdBootCommit_commits hstaged hm hsig hnew hroot),
          by simp [Nat.not_lt.mpr hnew, hroot]⟩
      · exact ⟨_, exec_of_answer rfl bootCommit_carriedOut h (cmdBootCommit_otherRoot hstaged hm hsig hnew hroot),
          by simp [Nat.not_lt.mpr hnew, hroot]⟩

/-! ## BOOT_ACTIVATE (R225, R226) -/

theorem raiseFloor_only (v : Nat) (s : State) : OnlyIn [.vtf] s (raiseFloor v s) := by
  simp only [raiseFloor]
  split
  · intro r hr
    cases r <;> simp_all [sameIn]
  · exact OnlyIn.refl _ _

/-- A floor that is not above a version is raised to it. -/
theorem raiseFloor_counter {v : Nat} (h : vAt s.vtf.counters 3 ≤ v) : vAt (raiseFloor v s).vtf.counters 3 = v := by
  simp only [raiseFloor]
  split
  · exact vAt_vSet_same _ _ _ (by decide)
  · omega

/-- What an activation leaves: the floor raised to the new ACTIVE image's version, where RAISE asks for it. -/
def floorAsked (raise : Bool) (t : State) : State := if raise then raiseFloor (mfVersion (bslot t t.boot.active).manifest) t else t

/-- The answer to an activation that took effect: the floor as it stands then. -/
def activateAnswer (c : Ctx) (t : State) : Verdict :=
  answer c .ok 0 (leB 8 (vAt (floorAsked ((pf c 1 1).testBit 0) t).vtf.counters 3)) (floorAsked ((pf c 1 1).testBit 0) t)

theorem activateAnswer_kept {t : State} (h : (pf c 1 1).testBit 0 = false) :
    activateAnswer c t = answer c .ok 0 (leB 8 (vAt t.vtf.counters 3)) t := by
  simp only [activateAnswer, floorAsked, h, Bool.false_eq_true, if_false]

/-- The MIRAGE image may become ACTIVE: its slot is VALID and its version is not below the floor. -/
structure MirageGood (s : State) : Prop where
  valid : (bslot s (mirage s)).st = .valid
  floor : vAt s.vtf.counters 3 ≤ mfVersion (bslot s (mirage s)).manifest

theorem cmdBootActivate_swaps (hmode : pf c 0 1 = 0) (h : MirageGood s) :
    cmdBootActivate c s = activateAnswer c { s with boot.active := mirage s } := by
  simp only [cmdBootActivate, hmode, h.valid, h.floor, decide_true, Bool.and_self, if_true]
  rfl

theorem cmdBootActivate_marksTrial (hmode : pf c 0 1 = 1) (hraise : (pf c 1 1).testBit 0 = false) (h : MirageGood s) :
    cmdBootActivate c s = activateAnswer c { s with boot.trialPend := true } := by
  simp only [cmdBootActivate, hmode, hraise, h.valid, h.floor, decide_true, Bool.and_self, Bool.not_true, Bool.false_eq_true, or_self, if_false]
  rw [activateAnswer_kept hraise]

theorem cmdBootActivate_confirms (hmode : pf c 0 1 = 2) (hserved : s.boot.served = some k) (htrial : s.boot.trial = true)
    (hfloor : vAt s.vtf.counters 3 ≤ mfVersion (bslot s k).manifest) :
    cmdBootActivate c s = activateAnswer c { s with boot.active := k } := by
  simp only [cmdBootActivate, hmode, hserved, htrial, hfloor, decide_true, Bool.and_self, if_true]
  rfl

theorem cmdBootActivate_badParam (hmode : pf c 0 1 ≤ 1) (hst : (bslot s (mirage s)).st ≠ .valid) :
    cmdBootActivate c s = answer c .badParam 0 [] s := by
  have hcases : pf c 0 1 = 0 ∨ pf c 0 1 = 1 := by omega
  rcases hcases with hm | hm
  · simp only [cmdBootActivate, hm, decide_eq_false hst, Bool.false_and, Bool.false_eq_true, if_false]
    rfl
  · simp only [cmdBootActivate, hm, decide_eq_false hst, Bool.false_and, Bool.not_false, or_true, if_true]
    rfl

/-- A swap that raises the floor leaves it at the new ACTIVE image's version (R225). -/
theorem exec_bootActivate_raises (h : Admitted 0x0032 x c s s2) (hmode : pf c 0 1 = 0) (hgood : MirageGood s2)
    (hraise : (pf c 1 1).testBit 0 = true) : ∃ u, exec (.bootActivate x) s
        = .next (replied 0x0032 x c .ok 0 (leB 8 (mfVersion (bslot s2 (mirage s2)).manifest)) u)
      ∧ u.boot.active = mirage s2 ∧ vAt u.vtf.counters 3 = mfVersion (bslot s2 (mirage s2)).manifest ∧ OnlyIn [.boot, .vtf] s2 u := by
  have hcmd := cmdBootActivate_swaps hmode hgood
  have honly := raiseFloor_only (mfVersion (bslot s2 (mirage s2)).manifest) { s2 with boot.active := mirage s2 }
  have hfloor : vAt (raiseFloor (mfVersion (bslot s2 (mirage s2)).manifest) { s2 with boot.active := mirage s2 }).vtf.counters 3
      = mfVersion (bslot s2 (mirage s2)).manifest := raiseFloor_counter hgood.floor
  have hasked : floorAsked true { s2 with boot.active := mirage s2 }
      = raiseFloor (mfVersion (bslot s2 (mirage s2)).manifest) { s2 with boot.active := mirage s2 } := rfl
  rw [activateAnswer, hraise, hasked, hfloor] at hcmd
  have hactive : OnlyIn [.boot] s2 { s2 with boot.active := mirage s2 } := by
    intro r hr
    cases r <;> simp_all [sameIn]
  exact ⟨_, exec_of_answer rfl bootActivate_carriedOut h hcmd, congrArg Boot.active (honly .boot (by decide)), hfloor,
    hactive.trans honly (by decide) (by decide)⟩

/-- Settles O44: each command's checks in the order of R222, R223 and R225, and what it leaves of the MIRAGE slot, the roles and the floor. -/
theorem bootCommands : Obligations.BootCommands := by
  unfold Obligations.BootCommands
  intro s s2 x c k
  refine ⟨fun h haligned hlow hend hidle hst => ?_, fun h hbad => ?_,
    fun h => ⟨fun hdebug => ?_, fun hdebug hslot => ?_, fun hdebug hst hidle hm => ?_, fun hdebug hst hidle hm => ?_⟩,
    fun h => ⟨fun hmode ⟨hst, hfloor⟩ hraise => ?_, fun hmode ⟨hst, hfloor⟩ hraise => ?_, fun hmode ⟨hst, hfloor⟩ hraise => ?_,
      fun hmode hserved htrial hfloor hraise => ?_, fun hmode hst => ?_⟩⟩
  · exact exec_of_answer rfl bootStage_carriedOut h (cmdBootStage_writes haligned hlow hend hidle hst)
  · exact exec_of_answer rfl bootStage_carriedOut h (cmdBootStage_badParam hbad)
  · exact exec_of_answer rfl bootCommit_carriedOut h (cmdBootCommit_halted hdebug)
  · exact exec_of_answer rfl bootCommit_carriedOut h (cmdBootCommit_unstaged hdebug hslot)
  · exact exec_of_answer rfl bootCommit_carriedOut h (cmdBootCommit_malformed ⟨hdebug, hst, hidle⟩ hm)
  · exact exec_bootCommit h ⟨hdebug, hst, hidle⟩ hm
  · exact exec_of_answer rfl bootActivate_carriedOut h ((cmdBootActivate_swaps hmode ⟨hst, hfloor⟩).trans (activateAnswer_kept hraise))
  · exact exec_bootActivate_raises h hmode ⟨hst, hfloor⟩ hraise
  · exact exec_of_answer rfl bootActivate_carriedOut h
      ((cmdBootActivate_marksTrial hmode hraise ⟨hst, hfloor⟩).trans (activateAnswer_kept hraise))
  · exact exec_of_answer rfl bootActivate_carriedOut h
      ((cmdBootActivate_confirms hmode hserved htrial hfloor).trans (activateAnswer_kept hraise))
  · exact exec_of_answer rfl bootActivate_carriedOut h (cmdBootActivate_badParam hmode hst)

end Sys2Proof.Machine
end

section
/-! SUPPORT. What the boot window's commands drive, and a read byte by byte; and the statement on what the window answers. -/
namespace Sys2Proof.Machine
open Sys2Proof

variable {s : State} {r : BootRead} {a : Nat} {p : Reading}

/-! ## A command of the window (R228) -/

theorem boot_only (s : State) (b : Boot) : OnlyIn [.boot] s { s with boot := b } := by
  intro r hr
  cases r <;> simp_all [sameIn]

theorem bootDrive_silent (f : State → State × List Byte) (h : bootAnswers s = false) : bootDrive f s = { s with boot.out := none } := by
  simp only [bootDrive, h, Bool.false_eq_true, if_false]

theorem bootDrive_drives (f : State → State × List Byte) (h : bootAnswers s = true) :
    bootDrive f s = { (f s).1 with boot.out := some (f s).2 } := by
  simp only [bootDrive, h, if_true]

/-- The four rows that read the image. -/
def readRows : List (BootRead → Instr) := [.read, .fastRead, .quadOutputFastRead, .quadIoFastRead]

theorem exec_readRow {row : BootRead → Instr} (h : row ∈ readRows) (r : BootRead) (s : State) : exec (row r) s = .next (bootRead r s) := by
  simp only [readRows, List.mem_cons, List.not_mem_nil, or_false] at h
  rcases h with rfl | rfl | rfl | rfl <;> rfl

/-- An ignored opcode picks the ignored command, whatever follows it (R231). -/
theorem bootCommand_ignored {opc : Byte} (r : BootRead) (q : StatusRead) (h : opc ∈ ignoredOpcodes) :
    bootCommand opc r q = .ignoredFlashCommand := by
  simp only [ignoredOpcodes, List.mem_cons, List.not_mem_nil, or_false] at h
  rcases h with rfl | rfl | rfl | rfl | rfl | rfl | rfl | rfl | rfl | rfl <;> rfl

/-! ## The SFDP space (R232) -/

/-- The words of the SFDP space. -/
def sfdpWords : List Nat :=
  [0x50444653, 0xFF000100, 0x09010000, 0xFF000010, 0xFFE2FFE7, 0x1FFFFFFF, 0x6B08EB44, 0x00000000, 0xFFFFFFEE, 0x0000FFFF,
   0x0000FFFF, 0xFF00FF00, 0xFF00FF00]

/-- What a read of the SFDP space drives. -/
def sfdpRead (r : BootRead) : List Byte := (List.range r.len).map fun i => (sfdp[(r.addr.toNat + i) % 2 ^ 24]?).getD 0xFF

theorem sfdp_word : ∀ k : Fin 13, ((List.range 4).map fun i => (sfdp[((BitVec.ofNat 32 (4 * k.val)).toNat + i) % 2 ^ 24]?).getD 0xFF)
    = leB 4 (sfdpWords[k.val]?.getD 0) := by decide

theorem sfdpRead_word (k : Fin 13) (haddr : r.addr = BitVec.ofNat 32 (4 * k.val)) (hlen : r.len = 4) :
    sfdpRead r = leB 4 (sfdpWords[k.val]?.getD 0) := by
  rw [sfdpRead, hlen, haddr]
  exact sfdp_word k

theorem sfdpRead_beyond (hlow : 0x34 ≤ r.addr.toNat) (hend : r.addr.toNat + r.len ≤ 2 ^ 24) :
    sfdpRead r = List.replicate r.len 0xFF := by
  have hlength : sfdp.length = 0x34 := by decide
  refine List.eq_replicate_iff.mpr ⟨by simp [sfdpRead], fun b hb => ?_⟩
  simp only [sfdpRead, List.mem_map, List.mem_range] at hb
  obtain ⟨i, hi, rfl⟩ := hb
  rw [Nat.mod_eq_of_lt (by omega), List.getElem?_eq_none (by omega)]
  rfl

/-! ## One byte of a read (R229, R234 to R236) -/

/-- A byte inside the image, of a block that the verifier has not been through yet. -/
def EarlyAt (b : Boot) (a : Nat) : Prop := a < mfLength b.manifest ∧ a / 4096 ∉ b.verified ∧ a / 4096 ∉ b.failed

/-- What the window gives for an address: the image's byte in a block that has verified, FILL elsewhere. -/
def windowByte (b : Boot) (a : Nat) : Byte :=
  if a < mfLength b.manifest ∧ a / 4096 ∈ b.verified ∧ a / 4096 ∉ b.failed then memGet 0xFF b.image a else bootFill b

theorem readByte_fills (h : mfLength p.1.boot.manifest ≤ a ∨ a / 4096 ∈ p.2.1 ∨ a / 4096 ∈ p.1.boot.failed) :
    readByte a p = (p.1, p.2.1, p.2.2 ++ [bootFill p.1.boot]) := by
  simp only [readByte]
  exact if_pos (by simpa [or_assoc] using h)

theorem readByte_reads (hin : a < mfLength p.1.boot.manifest) (hfill : a / 4096 ∉ p.2.1) (hok : a / 4096 ∉ p.1.boot.failed)
    (hver : a / 4096 ∈ p.1.boot.verified) (hleaf : leafKept p.1.boot (a / 4096) = true) :
    readByte a p = (p.1, p.2.1, p.2.2 ++ [memGet 0xFF p.1.boot.image a]) := by
  simp only [readByte]
  rw [if_neg (by simp [Nat.not_le.mpr hin, hfill, hok]), if_pos (by simpa using hver), if_pos hleaf]

theorem readByte_early (h : EarlyAt p.1.boot a) (hfill : a / 4096 ∉ p.2.1) :
    readByte a p = (readEarly (a / 4096) p.1, a / 4096 :: p.2.1, p.2.2 ++ [bootFill p.1.boot]) := by
  obtain ⟨hin, hver, hok⟩ := h
  simp only [readByte]
  rw [if_neg (by simp [Nat.not_le.mpr hin, hfill, hok]), if_neg (by simpa using hver)]

/-! ## A read as a whole -/

/-- The boot window without what a read changes of it: the early reads it counts and where it sends the verifier. -/
def windowRest (b : Boot) : Boot := { b with early := false, earlyCnt := 0, jump := none }

/-- A read has been through the bytes at `l`, counting one early read for each block that it filled. -/
structure ReadThrough (s : State) (l : List Nat) (p : Reading) : Prop where
  only : OnlyIn [.boot] s p.1
  rest : windowRest p.1.boot = windowRest s.boot
  filled : ∀ k, k ∈ p.2.1 ↔ ∃ a ∈ l, EarlyAt s.boot a ∧ a / 4096 = k
  bytes : p.2.2 = l.map (windowByte s.boot)
  early : p.1.boot.early = (s.boot.early || !p.2.1.isEmpty)
  count : p.1.boot.earlyCnt.toNat = min 0xFFFF (s.boot.earlyCnt.toNat + p.2.1.length)

theorem ReadThrough.start (s : State) : ReadThrough s [] (s, [], []) :=
  ⟨OnlyIn.refl _ _, rfl, by simp, rfl, by simp, by
    have := s.boot.earlyCnt.isLt
    simp only [List.length_nil]
    omega⟩

variable {l : List Nat}

/-- What does not look at the fields that a read changes is as it was. -/
theorem ReadThrough.kept {α : Type} (h : ReadThrough s l p) (f : Boot → α) (hf : ∀ b, f (windowRest b) = f b := by exact fun _ => rfl) :
    f p.1.boot = f s.boot := by rw [← hf, h.rest, hf]

/-- A byte that fills no block anew is driven and changes nothing else. -/
theorem ReadThrough.driven (h : ReadThrough s l p) (hseen : EarlyAt s.boot a → a / 4096 ∈ p.2.1) :
    ReadThrough s (l ++ [a]) (p.1, p.2.1, p.2.2 ++ [windowByte s.boot a]) := by
  refine ⟨h.only, h.rest, fun k => ?_, by simp [h.bytes], h.early, h.count⟩
  have hnew : EarlyAt s.boot a ∧ a / 4096 = k → ∃ a' ∈ l, EarlyAt s.boot a' ∧ a' / 4096 = k := by
    rintro ⟨hearly, rfl⟩
    exact (h.filled _).mp (hseen hearly)
  simp only [h.filled, List.mem_append, List.mem_singleton, or_and_right, exists_or, exists_eq_left]
  exact ⟨.inl, fun hk => hk.elim id hnew⟩

/-- A byte of a block that is early for the first time in a read: FILL, one early read more, and the verifier goes there (R235). -/
theorem ReadThrough.counted (h : ReadThrough s l p) (hearly : EarlyAt s.boot a) :
    ReadThrough s (l ++ [a]) (readEarly (a / 4096) p.1, a / 4096 :: p.2.1, p.2.2 ++ [windowByte s.boot a]) := by
  refine ⟨h.only.trans (boot_only _ _) (by decide) (by decide), h.rest, fun k => ?_, by simp [h.bytes], by simp [readEarly], ?_⟩
  · simp only [List.mem_cons, h.filled, List.mem_append, List.not_mem_nil, or_false, or_and_right, exists_or, exists_eq_left, hearly, true_and]
    rw [or_comm, eq_comm (a := k)]
  · simp only [readEarly, satAdd, BitVec.toNat_ofNat, h.count, List.length_cons]
    omega

theorem ReadThrough.next (h : ReadThrough s l p) (hleaf : ∀ k, k ∈ s.boot.verified → leafKept s.boot k = true) (a : Nat) :
    ReadThrough s (l ++ [a]) (readByte a p) := by
  have hman : p.1.boot.manifest = s.boot.manifest := h.kept (·.manifest)
  have hver : p.1.boot.verified = s.boot.verified := h.kept (·.verified)
  have hfailed : p.1.boot.failed = s.boot.failed := h.kept (·.failed)
  have himage : p.1.boot.image = s.boot.image := h.kept (·.image)
  have hkept (k : Nat) : leafKept p.1.boot k = leafKept s.boot k := h.kept (leafKept · k)
  have hfillByte : bootFill p.1.boot = bootFill s.boot := h.kept bootFill
  have hearlyAt : EarlyAt p.1.boot a ↔ EarlyAt s.boot a := by rw [EarlyAt, EarlyAt, hman, hver, hfailed]
  by_cases hfill : mfLength s.boot.manifest ≤ a ∨ a / 4096 ∈ p.2.1 ∨ a / 4096 ∈ s.boot.failed
  case pos =>
    have hbyte : windowByte s.boot a = bootFill s.boot := by
      refine if_neg fun ⟨hin, hv, hok⟩ => ?_
      rcases hfill with hout | hfilled | hbad
      · omega
      · obtain ⟨a', -, ⟨-, hnot, -⟩, hk⟩ := (h.filled _).mp hfilled
        exact hnot (hk ▸ hv)
      · exact hok hbad
    rw [readByte_fills (by rwa [hman, hfailed]), hfillByte, ← hbyte]
    refine h.driven fun ⟨hin, _, hok⟩ => ?_
    rcases hfill with hout | hfilled | hbad
    · omega
    · exact hfilled
    · exact absurd hbad hok
  case neg =>
    obtain ⟨hin, hnew, hok⟩ : a < mfLength s.boot.manifest ∧ a / 4096 ∉ p.2.1 ∧ a / 4096 ∉ s.boot.failed := by
      simpa [not_or] using hfill
    by_cases hv : a / 4096 ∈ s.boot.verified
    · have hbyte : windowByte s.boot a = memGet 0xFF s.boot.image a := if_pos ⟨hin, hv, hok⟩
      rw [readByte_reads (by rwa [hman]) hnew (by rwa [hfailed]) (by rwa [hver]) (by rw [hkept, hleaf _ hv]), himage, ← hbyte]
      exact h.driven fun ⟨_, hnot, _⟩ => absurd hv hnot
    · have hbyte : windowByte s.boot a = bootFill s.boot := if_neg fun ⟨_, hv', _⟩ => hv hv'
      rw [readByte_early (hearlyAt.mpr ⟨hin, hv, hok⟩) hnew, hfillByte, ← hbyte]
      exact h.counted ⟨hin, hv, hok⟩

/-- A read during which the verifier takes no block has been through its addresses. -/
theorem readBytes_through (hduring : r.during = 0) (hleaf : ∀ k, k ∈ s.boot.verified → leafKept s.boot k = true) :
    ReadThrough s ((List.range r.len).map (bootAddr s.boot r)) (readBytes r s) := by
  have hfold (is l : List Nat) (p : Reading) (h : ReadThrough s l p) : ReadThrough s (l ++ is.map (bootAddr s.boot r))
      (is.foldl (fun p i => readByte (bootAddr p.1.boot r i)
        (iter (verifyNext true) (i * r.during / r.len - (i - 1) * r.during / r.len) p.1, p.2)) p) := by
    induction is generalizing l p with
    | nil => simpa using h
    | cons i is ih =>
      have haddr : bootAddr p.1.boot r i = bootAddr s.boot r i := h.kept (bootAddr · r i)
      have hstay : i * r.during / r.len - (i - 1) * r.during / r.len = 0 := by simp [hduring]
      have hbyte := ih _ _ (h.next hleaf (bootAddr s.boot r i))
      rw [List.append_assoc] at hbyte
      rw [List.foldl_cons, hstay, haddr]
      exact hbyte
  exact hfold _ _ _ (ReadThrough.start s)

/-! ## The rows that read the image -/

theorem bootRead_unready (hon : bootAnswers s = true) (h : s.boot.ready = false) :
    bootRead r s = { s with boot.out := some (List.replicate r.len 0xFF) } := by
  rw [bootRead, bootDrive_drives _ hon]
  simp only [h, Bool.not_false, if_true]

theorem bootRead_closed (hon : bootAnswers s = true) (hready : s.boot.ready = true) (h : s.boot.isOpen = false ∨ s.boot.served = none) :
    bootRead r s = { s with boot.out := some (List.replicate r.len (bootFill s.boot)) } := by
  have hshut : (!s.boot.isOpen || s.boot.served.isNone) = true := by simpa using h
  rw [bootRead, bootDrive_drives _ hon]
  simp only [hready, hshut, Bool.not_true, Bool.false_eq_true, if_false, if_true]

theorem bootRead_open (hon : bootAnswers s = true) (hready : s.boot.ready = true) (hopen : s.boot.isOpen = true)
    (hserved : s.boot.served ≠ none) : bootRead r s = { (readBytes r s).1 with boot.out := some (readBytes r s).2.2 } := by
  have hshut : (!s.boot.isOpen || s.boot.served.isNone) = false := by
    simp [hopen, Option.isSome_iff_ne_none, hserved]
  rw [bootRead, bootDrive_drives _ hon]
  simp only [hready, hshut, Bool.not_true, Bool.false_eq_true, if_false]

/-- A window ready, open and serving drives the byte of each address, and counts early reads exactly where it reaches such blocks. -/
theorem bootRead_image (hon : bootAnswers s = true) (hready : s.boot.ready = true) (hopen : s.boot.isOpen = true)
    (hserved : s.boot.served ≠ none) (hduring : r.during = 0) (hleaf : ∀ k, k ∈ s.boot.verified → leafKept s.boot k = true) :
    ∃ t out, bootRead r s = t ∧ t.boot.out = some out ∧ out.length = r.len ∧ OnlyIn [.boot] s t ∧ t.boot.image = s.boot.image
      ∧ t.boot.verified = s.boot.verified ∧ (∀ i, i < r.len → out[i]? = some (windowByte s.boot (bootAddr s.boot r i)))
      ∧ ((∃ i, i < r.len ∧ EarlyAt s.boot (bootAddr s.boot r i)) → t.boot.early = true
        ∧ (s.boot.earlyCnt ≠ 0xFFFF → s.boot.earlyCnt.toNat < t.boot.earlyCnt.toNat))
      ∧ ((∀ i, ¬(i < r.len ∧ EarlyAt s.boot (bootAddr s.boot r i))) → t.boot.early = s.boot.early ∧ t.boot.earlyCnt = s.boot.earlyCnt) := by
  have h := readBytes_through (s := s) (r := r) hduring hleaf
  have hreached (k : Nat) : k ∈ (readBytes r s).2.1 ↔ ∃ i < r.len, EarlyAt s.boot (bootAddr s.boot r i) ∧ bootAddr s.boot r i / 4096 = k := by
    simp [h.filled]
  refine ⟨_, _, bootRead_open hon hready hopen hserved, rfl, by simp [h.bytes], h.only.trans (boot_only _ _) (by decide) (by decide),
    h.kept (·.image), h.kept (·.verified), fun i hi => by simp [h.bytes, hi], ?_, fun hnone => ?_⟩
  · rintro ⟨i, hi, hearly⟩
    have hne : (readBytes r s).2.1 ≠ [] := List.ne_nil_of_mem ((hreached _).mpr ⟨i, hi, hearly, rfl⟩)
    refine ⟨h.early.trans (by simp [hne]), fun hroom => ?_⟩
    have hlength := List.length_pos_of_ne_nil hne
    have hbelow : s.boot.earlyCnt.toNat < 0xFFFF := by
      have hword := s.boot.earlyCnt.isLt
      have hne : s.boot.earlyCnt.toNat ≠ 0xFFFF := fun he => hroom (BitVec.eq_of_toNat_eq he)
      omega
    have hcount : (readBytes r s).1.boot.earlyCnt.toNat = _ := h.count
    show _ < (readBytes r s).1.boot.earlyCnt.toNat
    omega
  · have hnil : (readBytes r s).2.1 = [] := List.eq_nil_iff_forall_not_mem.mpr fun k hk => by
      obtain ⟨i, hi, hearly, -⟩ := (hreached k).mp hk
      exact hnone i ⟨hi, hearly⟩
    refine ⟨h.early.trans (by simp [hnil]), BitVec.eq_of_toNat_eq (h.count.trans ?_)⟩
    have hword := s.boot.earlyCnt.isLt
    rw [hnil, List.length_nil]
    omega

/-! ## The other rows -/

theorem exec_readStatus_plain (n : Nat) (hon : bootAnswers s = true) : exec (.readStatus ⟨n, none⟩) s
    = .next { s with boot.out := some (List.replicate n (if s.boot.ready then 0x00 else 0x01)) } :=
  congrArg Host.Outcome.next (bootDrive_drives _ hon)

theorem exec_readStatus_becomesReady (n k : Nat) (hon : bootAnswers s = true) (h : readyDue s = true) :
    exec (.readStatus ⟨n, some k⟩) s = .next { s with boot := { s.boot with
      ready := true, readyAt := s.tick, out := some (List.replicate (min k n) 0x01 ++ List.replicate (n - k) 0x00) } } := by
  refine congrArg Host.Outcome.next ((bootDrive_drives _ hon).trans ?_)
  simp only [h, if_true]
  rfl

theorem exec_readIdentification (n : Nat) (hon : bootAnswers s = true) : exec (.readIdentification n) s
    = .next { s with boot.out := some ((0x3D :: 0xC5 :: 0x1A :: List.replicate n 0xFF).take n) } := by
  refine congrArg Host.Outcome.next ((bootDrive_drives _ hon).trans ?_)
  simp [List.flatMap_replicate]

theorem exec_readSfdp (r : BootRead) (hon : bootAnswers s = true) : exec (.readSfdp r) s = .next { s with boot.out := some (sfdpRead r) } :=
  congrArg Host.Outcome.next (bootDrive_drives _ hon)

theorem exec_enter4ByteAddressMode (hon : bootAnswers s = true) :
    exec .enter4ByteAddressMode s = .next { s with boot := { s.boot with addr4 := true, out := some [] } } :=
  congrArg Host.Outcome.next (bootDrive_drives _ hon)

theorem exec_exit4ByteAddressMode (hon : bootAnswers s = true) :
    exec .exit4ByteAddressMode s = .next { s with boot := { s.boot with addr4 := false, out := some [] } } :=
  congrArg Host.Outcome.next (bootDrive_drives _ hon)

theorem exec_ignoredFlashCommand (hon : bootAnswers s = true) : exec .ignoredFlashCommand s = .next { s with boot.out := some [] } :=
  congrArg Host.Outcome.next (bootDrive_drives _ hon)

theorem bootFill_eq (b : Boot) : bootFill b = if b.served.isSome then (b.manifest[5]?).getD 0xFF else 0xFF := by
  rw [bootFill]
  cases b.served <;> rfl

/-- Settles O50: the rows that read the image give each address its byte, block by block (`ReadThrough`); the others drive what R230 to R232
name. -/
theorem bootWindowReads : Obligations.BootWindowReads := by
  unfold Obligations.BootWindowReads
  intro s r n
  simp only [← bootFill_eq]
  refine ⟨rfl, fun hoff row hrow => ?_, fun hon => ⟨fun row hrow => ⟨fun hready => ?_, fun hready hshut => ?_,
    fun hready hopen hserved hduring hleaf => ?_⟩, exec_readStatus_plain n hon, fun k => exec_readStatus_becomesReady n k hon,
    exec_readIdentification n hon, fun k haddr hlen => ?_, fun hlow hend => ?_, exec_enter4ByteAddressMode hon,
    exec_exit4ByteAddressMode hon, exec_ignoredFlashCommand hon, fun opc q hopc => ?_⟩⟩
  · rw [exec_readRow hrow, bootRead, bootDrive_silent _ hoff]
  · rw [exec_readRow hrow, bootRead_unready hon hready]
  · rw [exec_readRow hrow, bootRead_closed hon hready hshut]
  · obtain ⟨t, out, rfl, hread⟩ := bootRead_image hon hready hopen hserved hduring hleaf
    exact ⟨_, out, exec_readRow hrow r s, hread⟩
  · rw [exec_readSfdp r hon, sfdpRead_word k haddr hlen]
    rfl
  · rw [exec_readSfdp r hon, sfdpRead_beyond hlow hend]
  · rw [bootCommand_ignored r q hopc, exec_ignoredFlashCommand hon]

end Sys2Proof.Machine
end

section
/-! SUPPORT. What the verifier takes and leaves, ready, and the window's close; and the statement on them. -/
namespace Sys2Proof.Machine
open Sys2Proof

variable {s : State} {b : Boot} {k : Nat}

/-! ## Blocks (R221, R234, R235) -/

theorem lt_ceilDiv_4096 {k n : Nat} : k < ceilDiv n 4096 ↔ 4096 * k < n := by
  simp only [ceilDiv]
  omega

theorem blockEarly_iff : blockEarly b k = true ↔ k ∉ b.verified ∧ k ∉ b.failed := by
  simp [blockEarly]

theorem blockEarly_eq_false (h : k ∈ b.verified ∨ k ∈ b.failed) : blockEarly b k = false := by
  rw [← Bool.not_eq_true, blockEarly_iff]
  tauto

/-- The first PREVER bytes have been through the verifier (R233). -/
theorem preDone_of (h : b.served = none ∨ (b.sealOk = true ∧ ∀ i, 4096 * (i + 1) ≤ fieldAt b.manifest 16 4 →
    4096 * i < mfLength b.manifest → i ∈ b.verified ∨ i ∈ b.failed)) : preDone b = true := by
  rcases h with hnone | ⟨hseal, hblocks⟩
  · simp only [preDone, hnone]
  · simp only [preDone]
    split
    · rfl
    · simp only [hseal, Bool.true_and, List.all_eq_true, List.mem_range, preBlocks, mfBlocks, lt_min_iff, lt_ceilDiv_4096]
      rintro i ⟨hpre, hin⟩
      rw [blockEarly_eq_false (hblocks i (by omega) hin)]
      rfl

theorem nextBlock_of_jump (hjump : b.jump = some k) (hearly : blockEarly b k = true) : nextBlock b = some k := by
  simp only [nextBlock, hjump, Option.filter_some, hearly, if_true]

/-- With no block named, the verifier takes the first block from its place on that it has not been through. -/
theorem nextBlock_ascending (hjump : b.jump = none) (hin : 4096 * k < mfLength b.manifest) (hearly : blockEarly b k = true)
    (hle : b.nextBlk ≤ k) (hfirst : ∀ i, b.nextBlk ≤ i → i < k → i ∈ b.verified ∨ i ∈ b.failed) : nextBlock b = some k := by
  have hfind : ((List.range (mfBlocks b.manifest)).filter (blockEarly b)).find? (fun j => decide (b.nextBlk ≤ j)) = some k := by
    rw [List.find?_filter, List.find?_range_eq_some]
    refine ⟨by simp [hearly, hle], List.mem_range.mpr (lt_ceilDiv_4096.mpr hin), fun j hj => ?_⟩
    rcases Nat.lt_or_ge j b.nextBlk with hlow | hhigh
    · simp [Nat.not_le.mpr hlow]
    · simp [blockEarly_eq_false (hfirst j hhigh hj)]
  simp only [nextBlock, hjump, Option.filter_none, hfind]

/-! ## The verifier (R234, R236) -/

/-- Whether a block's bytes verify against ROOT through the tree nodes. -/
def blockGood (b : Boot) (k : Nat) : Bool := (climb b.nodes b.tree (bytesAt b.manifest 32 32) 16 0 k (bootLeaf b.image (mfLength b.manifest) k)).1

/-- The window with the verifier past a block. -/
def pastBlock (k : Nat) (b : Boot) : Boot := { b with jump := none, nextBlk := k + 1 }

theorem blockVerified_good (h : blockGood s.boot k = true) : ∃ t d, blockVerified true k s
    = { s with boot := { pastBlock k s.boot with verified := k :: s.boot.verified, tree := t, done := d } } := by
  rw [blockGood] at h
  simp only [blockVerified, h, Bool.and_self, if_true]
  exact ⟨_, _, rfl⟩

theorem blockVerified_bad {got : Bool} (h : got = false ∨ blockGood s.boot k = false) :
    blockVerified got k s = blockFailed k { s with boot := pastBlock k s.boot } := by
  have hnot : (got && blockGood s.boot k) = false := by
    rcases h with h | h <;> simp [h]
  rw [blockGood] at hnot
  simp only [blockVerified, hnot, Bool.false_eq_true, if_false]
  rfl

/-- The window with a block failed: it is verified no more, it is the first that failed unless there is one, and the next start falls back. -/
def failedBoot (k : Nat) (b : Boot) : Boot :=
  { b with failed := b.failed ++ [k], verified := b.verified.filter (· != k), failBlk := b.failBlk <|> some k, fallback := true }

theorem blockFailed_boot (k : Nat) (s : State) : (blockFailed k s).boot = failedBoot k s.boot := by
  refine (raiseFault_only _ _ _ .boot (by decide)).trans ?_
  rw [failedBoot]
  cases s.boot.failBlk <;> rfl

theorem blockFailed_latches (hon : collectorOn s = true) (hm : s.flt.masked.getLsbD 10 = false) :
    (blockFailed k s).flt.latch.getLsbD 10 = true := raiseFault_latches _ _ _ (by decide) hm hon

/-- BOOT_BLOCK_VERIFY of a served slot whose seal is good takes the verifier's next block. -/
theorem exec_bootBlockVerify (got : Bool) (hal : alive s = true) (hserved : s.boot.served ≠ none) (hseal : s.boot.sealOk = true)
    (hnext : nextBlock s.boot = some k) : exec (.bootBlockVerify got) s = .next (blockVerified got k s) := by
  have hgo : (alive s && s.boot.served.isSome && s.boot.sealOk) = true := by simp [hal, hseal, Option.isSome_iff_ne_none, hserved]
  show Host.Outcome.next (verifyNext got s) = _
  simp only [verifyNext, hgo, if_true, hnext]

/-- A block that verifies. -/
theorem exec_bootBlockVerify_good (hexec : exec (.bootBlockVerify true) s = .next (blockVerified true k s)) (h : blockGood s.boot k = true) :
    ∃ t, exec (.bootBlockVerify true) s = .next t ∧ t.boot.verified = k :: s.boot.verified ∧ t.boot.nextBlk = k + 1 ∧ t.boot.jump = none
      ∧ t.boot.failed = s.boot.failed ∧ OnlyIn [.boot] s t := by
  obtain ⟨tree, done, heq⟩ := blockVerified_good h
  exact ⟨_, hexec.trans (congrArg _ heq), rfl, rfl, rfl, rfl, boot_only _ _⟩

/-- A block that was not fetched intact, or does not verify. -/
theorem exec_bootBlockVerify_bad {got : Bool} (hexec : exec (.bootBlockVerify got) s = .next (blockVerified got k s))
    (hal : alive s = true) (hnew : k ∉ s.boot.verified) (h : got = false ∨ blockGood s.boot k = false) :
    ∃ t, exec (.bootBlockVerify got) s = .next t ∧ t.boot.verified = s.boot.verified ∧ t.boot.failed = s.boot.failed ++ [k]
      ∧ t.boot.failBlk = (if s.boot.failBlk = none then some k else s.boot.failBlk) ∧ t.boot.fallback = true ∧ t.boot.slots = s.boot.slots
      ∧ (s.pwr.pstate ≠ .off → s.flt.masked.getLsbD 10 = false → t.flt.latch.getLsbD 10 = true) := by
  obtain ⟨⟨hreleased, -⟩, -⟩ : (s.pwr.released = true ∧ (!inLoss s) = true) ∧ _ := by simpa only [alive, Bool.and_eq_true] using hal
  have hkeep : s.boot.verified.filter (· != k) = s.boot.verified :=
    List.filter_eq_self.mpr fun i hi => bne_iff_ne.mpr fun heq => hnew (heq ▸ hi)
  have hboot : (blockFailed k { s with boot := pastBlock k s.boot }).boot = failedBoot k (pastBlock k s.boot) := blockFailed_boot _ _
  rw [blockVerified_bad h] at hexec
  refine ⟨_, hexec, ?_, ?_, ?_, ?_, ?_, fun hoff hm => blockFailed_latches (by simp [collectorOn, hreleased, hoff]) hm⟩
  · exact (congrArg Boot.verified hboot).trans hkeep
  · exact congrArg Boot.failed hboot
  · refine (congrArg Boot.failBlk hboot).trans ?_
    simp only [failedBoot, pastBlock]
    cases s.boot.failBlk <;> rfl
  · exact congrArg Boot.fallback hboot
  · exact (congrArg Boot.slots hboot :)

/-! ## The seal and ready (R233) -/

theorem exec_bootSealVerified (hal : alive s = true) (h : s.boot.served ≠ none) :
    exec .bootSealVerified s = .next { s with boot.sealOk := true } :=
  whenDue_of s _ (by simp [hal, Option.isSome_iff_ne_none, h])

theorem exec_bootWindowReady (h : readyDue s = true) : exec .bootWindowReady s = .next { s with boot.ready := true, boot.readyAt := s.tick } :=
  whenDue_of s _ h

/-! ## The close (R237, R238, R241) -/

theorem mediaTo_boot (dst : Media) (cause subj : Nat) (s : State) : (mediaTo dst cause subj s).boot = s.boot := by
  unfold mediaTo
  extract_lets arr s1 body pay j s2 s3
  have h2 : s2.boot = s1.boot := by
    dsimp only [s2]
    split
    · rfl
    · exact (writeDev_only _ _ _ .boot (by decide)).trans (newJob_only _ _ _ _ _ .boot (by decide))
  have h3 : s3.boot = s2.boot := by
    dsimp only [s3]
    split
    · exact raiseFault_only _ _ _ .boot (by decide)
    · exact raiseFault_only _ _ _ .boot (by decide)
    · rfl
  exact (formMsg_only _ _ s3 .boot (by decide)).trans (h3.trans h2)

theorem releaseHeldSlots_boot (s : State) : (releaseHeldSlots s).boot = s.boot := by
  rw [releaseHeldSlots]
  rcases mediaTest_cases { s with arr.slots := s.arr.slots.filterMap fun e =>
    let i := { e.2 with held := false }
    if i = SlotInfo.reset then none else some (e.1, i) } with h | ⟨cause, -, h⟩
  · rw [h]
  · rw [h, mediaTo_boot]

theorem bootClose_boot (s : State) : (bootClose s).boot = { s.boot with isOpen := false } := by
  rw [bootClose]
  split
  · rw [releaseHeldSlots_boot]
  · next h =>
    rw [Bool.not_eq_true] at h
    rw [← h]

theorem bootAutoPoint_iff : bootAutoPoint s = true ↔ s.boot.ready = true ∧ s.boot.readyAt + 60000000 ≤ s.tick := by
  simp [bootAutoPoint]

theorem exec_bootWindowClose (hal : alive s = true) : exec .bootWindowClose s = .next (bootClose s) := whenDue_of s _ hal

theorem exec_bootWindowAutoClose_due (hal : alive s = true) (hlate : bootAutoPoint s = true) (hkeep : s.boot.keep = false) :
    exec .bootWindowAutoClose s = .next (bootClose s) := whenDue_of s _ (by simp [hal, hlate, hkeep])

theorem exec_bootWindowAutoClose_notDue (h : ¬bootAutoPoint s = true ∨ s.boot.keep = true) : exec .bootWindowAutoClose s = .next s := by
  have hnot : (alive s && bootAutoPoint s && !s.boot.keep) = false := by
    rcases h with h | h <;> simp [h]
  show whenDue _ s (bootClose s) = _
  simp only [whenDue, hnot, Bool.false_eq_true, if_false]

theorem exec_bootKeepWrite (keep : Bool) (hal : alive s = true) : exec (.bootKeepWrite keep) s = .next (bootKeep keep s) := whenDue_of s _ hal

theorem bootKeep_closes (hlate : bootAutoPoint s = true) : (bootKeep false s).boot = { s.boot with keep := false, isOpen := false } := by
  simp only [bootKeep, hlate, Bool.not_false, Bool.and_self, if_true, bootClose_boot]

theorem bootKeep_keeps {keep : Bool} (h : ¬bootAutoPoint s = true ∨ keep = true) :
    (bootKeep keep s).boot = { s.boot with keep := keep } := by
  have hnot : (!keep && bootAutoPoint s) = false := by
    rcases h with h | h <;> simp [h]
  simp only [bootKeep, hnot, Bool.false_eq_true, if_false]

/-- KEEP written: the window closes where the point of the automatic close has passed and KEEP becomes 0, and else stays as it is. -/
theorem bootKeep_boot (keep : Bool) (s : State) : (bootKeep keep s).boot.keep = keep
    ∧ (bootAutoPoint s = true → keep = false → (bootKeep keep s).boot.isOpen = false)
    ∧ (¬bootAutoPoint s = true ∨ keep = true → (bootKeep keep s).boot.isOpen = s.boot.isOpen) := by
  by_cases h : ¬bootAutoPoint s = true ∨ keep = true
  · rw [bootKeep_keeps h]
    exact ⟨rfl, fun hlate hkeep => by simp [hlate, hkeep] at h, fun _ => rfl⟩
  · obtain ⟨hlate, rfl⟩ : bootAutoPoint s = true ∧ keep = false := by simpa using h
    rw [bootKeep_closes hlate]
    exact ⟨rfl, fun _ _ => rfl, fun h' => absurd h' h⟩

/-- Settles O51: the seal and ready where they are due, the block that the verifier takes and what it leaves by whether that verifies, and
the close, which changes nothing of the window but OPEN. -/
theorem bootWindowVerifiesAndCloses : Obligations.BootWindowVerifiesAndCloses := by
  unfold Obligations.BootWindowVerifiesAndCloses
  intro s k keep hal
  simp only [← bootAutoPoint_iff]
  refine ⟨exec_bootSealVerified hal, fun hanswering hready hpre => ?_, fun hserved hseal hin hver hfailed hturn => ?_,
    ⟨_, exec_bootWindowClose hal, ?_⟩, fun hlate hkeep => ⟨_, exec_bootWindowAutoClose_due hal hlate hkeep, ?_⟩,
    exec_bootWindowAutoClose_notDue, ⟨_, exec_bootKeepWrite keep hal, bootKeep_boot keep s⟩⟩
  · exact exec_bootWindowReady (by simp [readyDue, hal, hanswering, hready, preDone_of hpre])
  · have hearly : blockEarly s.boot k = true := blockEarly_iff.mpr ⟨hver, hfailed⟩
    have hnext : nextBlock s.boot = some k := by
      rcases hturn with hjump | ⟨hjump, hle, hfirst⟩
      · exact nextBlock_of_jump hjump hearly
      · exact nextBlock_ascending hjump hin hearly hle hfirst
    have hexec (got : Bool) := exec_bootBlockVerify got hal hserved hseal hnext
    exact ⟨exec_bootBlockVerify_good (hexec true), fun got hbad => exec_bootBlockVerify_bad (hexec got) hal hver hbad⟩
  · rw [bootClose_boot]
    exact ⟨rfl, rfl, rfl⟩
  · rw [bootClose_boot]

end Sys2Proof.Machine
end

section
/-! SUPPORT. How a command packet comes to its queue and what refuses it there: one lemma per place it comes to, one per check in the order of
R247; and the statement on packets queued and checked. -/
namespace Sys2Proof.Machine
open Sys2Proof

/-! ## The checks refused, in their order (R247) -/

section Checks
variable {s : State} {p : Packet} {o : OpInfo} {c : Ctx}

theorem checkPacket_halted (train : Bool) (h : s.pwr.phase = .halt) : checkPacket p train s = .refused (plainReply p .halted) s := if_pos h

/-- A host packet of a known opcode, outside HALT and with a queue of its own, comes to the checks of its flags, its length and its session. -/
theorem checkPacket_host (hphase : s.pwr.phase ≠ .halt) (hq : p.qid.toNat < 64) (hchan : p.chan = .host) (ho : opInfo p.opc.toNat = some o)
    (hchain : fChain p = false) : checkPacket p false s =
      if 32 ≤ p.flg.toNat ∨ fLast p = true then .refused (plainReply p .badParam) s
      else if ¬(p.body.length = p.plen.toNat + (if fAuth p then 16 else 0) ∧ o.psize + o.lo ≤ p.plen.toNat ∧ p.plen.toNat ≤ o.psize + o.hi) then
        .refused (plainReply p .badLen) s
      else checkSession p s := by
  have hqueue : ¬(63 < p.qid.toNat ∨ (p.chan = .sideband ∧ p.qid ≠ 0)) := by
    rintro (h | ⟨h, -⟩)
    · omega
    · simp [hchan] at h
  have hside : ¬(p.chan = .sideband ∧ o.sb = false) := by simp [hchan]
  rw [checkPacket, if_neg hphase, if_neg hqueue, ho]
  simp only [if_neg hside, hchain, Bool.false_eq_true, false_and, false_or, and_true, true_and, not_and_or, not_le, ne_eq]

/-- A host packet with a tag but no session, or a session but no tag, is counted and refused (R192, R218). -/
theorem checkSession_unpaired (hchan : p.chan = .host) (h : fAuth p = true ↔ p.ses = 0) :
    checkSession p s = .refused (plainReply p .auth) (countAuth s) := by
  by_cases hses : p.ses = 0
  · simp [checkSession, hchan, hses, h.mpr hses]
  · have hauth : fAuth p = false := by simpa using mt h.mp hses
    simp only [checkSession, hchan, hses, hauth, reduceCtorEq, Bool.not_false, if_false, if_true]

/-- A host packet outside a session goes on to the last checks in plaintext. -/
theorem checkSession_anonymous (hchan : p.chan = .host) (hses : p.ses = 0) (hauth : fAuth p = false) : checkSession p s =
    checkLate { pkt := p, plain := p.body.take p.plen.toNat, keys := [], role := none, owner := [] } s := by
  simp [checkSession, hchan, hses, hauth]

theorem checkLate_unowned (hlife : s.vtf.life = .unowned) (h : unownedTakes s c = false) :
    checkLate c s = .refused (ctxReply c .noCap 0 []) s := if_pos ⟨hlife, h⟩

theorem checkLate_rollback (hlife : s.vtf.life = .rollback) (h : rollbackTakes c = false) :
    checkLate c s = .refused (ctxReply c .halted 0 []) s := by
  simp [checkLate, hlife, h]

theorem satisfies_none {need : Option Role} (h : need ≠ none) : satisfies none need = false := by
  match need, h with
  | some .host, _ => rfl
  | some .owner, _ => rfl

theorem checkLate_unauthorized (hlife : s.vtf.life = .owned) (hrole : c.role = none) (h : needs s c ≠ none) :
    checkLate c s = .refused (ctxReply c .noCap 0 []) s := by
  simp [checkLate, hlife, hrole, satisfies_none h]

theorem checkLate_reserved (hlife : s.vtf.life = .owned) (h : needs s c = none) (hres : reservedOk c = false) :
    checkLate c s = .refused (ctxReply c .badParam 0 []) s := by
  simp [checkLate, hlife, h, satisfies, hres]

end Checks

/-! ## The head of a queue refused (R247, R248) -/

section Heads
variable {s t : State} {q : Nat} {p : QPkt} {rest : List QPkt} {r : Reply}

theorem checkHead_short (hhead : queueOf s q = p :: rest) (hpassed : p.passed = false) (hshort : p.short = true)
    (htrain : trainOfQueue s q = none) :
    checkHead q s = (true, dropHead q p (formReply (plainReply p.pkt (if s.pwr.phase = .halt then .halted else .badLen)) s)) := by
  simp only [checkHead, hhead, hpassed, htrain, hshort, Bool.false_eq_true, if_false, if_true]

/-- A head that fails a check leaves with its reply alone, unless it is a CHAIN packet outside HALT. -/
theorem checkHead_refused (hhead : queueOf s q = p :: rest) (hpassed : p.passed = false) (hshort : p.short = false)
    (htrain : trainOfQueue s q = none) (hchain : fChain p.pkt = false ∨ s.pwr.phase = .halt)
    (hcheck : checkPacket p.pkt false s = .refused r t) : checkHead q s = (true, dropHead q p (formReply r t)) := by
  have halone : ((decide (p.pkt.chan = .host) && fChain p.pkt && !false) && decide (s.pwr.phase ≠ .halt)) = false := by
    rcases hchain with h | h <;> simp [h]
  simp only [checkHead, hhead, hpassed, htrain, hshort, Option.isSome_none, hcheck, halone, Bool.false_eq_true, if_false]

end Heads

/-! ## A packet comes to its queue (R251, R259) -/

section Arrivals
variable {s t : State} {p : QPkt} {opc : BitVec 16} {x : CmdIn} {r : Reply}

theorem exec_hostRow {e : (CmdIn → Instr) × BitVec 16} (he : e ∈ hostRows) (x : CmdIn) (s : State) :
    exec (e.1 x) s = .next (arrive e.2 x s) := by
  fin_cases he <;> rfl

theorem arrive_host (h : x.chan = .host) : arrive opc x s = deliver (hostPkt opc x) s := by
  cases x
  cases h
  rfl

section Delivered
variable (hon : engineOn s = true) (hoff : s.pwr.pstate ≠ .off) (hchan : p.pkt.chan = .host)
include hon hoff hchan

/-- A packet whose queue is in use waits at its end. -/
theorem deliver_behind (hq : p.pkt.qid.toNat < 64) (hbusy : queueOf s p.pkt.qid.toNat ≠ []) :
    deliver p s = setQueue (renewAbort p.pkt.qid.toNat p (noteRequest s)) p.pkt.qid.toNat
      (queueOf s p.pkt.qid.toNat ++ [{ p with owner := s.vtf.owner.getD [] }]) := by
  have hqueue : queueOf (noteRequest s) p.pkt.qid.toNat = queueOf s p.pkt.qid.toNat := rfl
  have hlt : ¬63 < p.pkt.qid.toNat := by omega
  simp only [deliver, hon, hoff, hchan, hqueue, hlt, List.isEmpty_iff, hbusy, reduceCtorEq, decide_false, Bool.not_true, Bool.or_false,
    Bool.false_eq_true, if_false]
  rfl

/-- Outside HALT a packet of no credits that names no queue is answered at once with ST_BADPARAM. -/
theorem deliver_noQueue (hq : 63 < p.pkt.qid.toNat) (hphase : s.pwr.phase ≠ .halt) (hch : p.ch = 0) (hcd : p.cd = 0) :
    deliver p s = pump (formReply (plainReply p.pkt .badParam) (noteRequest s)) := by
  have hphase' : (noteRequest s).pwr.phase ≠ .halt := hphase
  simp only [deliver, hon, hoff, hchan, hq, hphase', hch, hcd, reduceCtorEq, decide_false, Bool.not_true, Bool.or_false, Bool.false_eq_true,
    if_false, if_true, Nat.sub_zero]

/-- A packet alone in its queue that the checks answer leaves it, and its queue counts as the one last served. -/
theorem deliver_answered (hq : p.pkt.qid.toNat < 64) (hempty : queueOf s p.pkt.qid.toNat = [])
    (hcheck : checkHead p.pkt.qid.toNat (setQueue (renewAbort p.pkt.qid.toNat p (noteRequest s)) p.pkt.qid.toNat
      [{ p with owner := s.vtf.owner.getD [] }]) = (true, t)) :
    deliver p s = settleEntry (served p.pkt.qid.toNat (fUrg p.pkt) t) := by
  have hqueue : queueOf (noteRequest s) p.pkt.qid.toNat = [] := hempty
  have howner : (noteRequest s).vtf.owner = s.vtf.owner := rfl
  have hlt : ¬63 < p.pkt.qid.toNat := by omega
  simp only [deliver, hon, hoff, hchan, hqueue, howner, hlt, hcheck, List.isEmpty_nil, reduceCtorEq, decide_false, Bool.not_true,
    Bool.or_false, Bool.false_eq_true, if_false, if_true]

end Delivered

theorem queueOf_joined (hq : x.qid.toNat < 64) : queueOf (joined opc x s) x.qid.toNat = [queued opc x s] :=
  vAt_vSet_same _ _ _ hq

theorem trainOfQueue_joined (q : Nat) : trainOfQueue (joined opc x s) q = trainOfQueue s q := by
  obtain ⟨l, hl⟩ := joined_eng opc x s
  simp only [trainOfQueue, hl]

end Arrivals

/-- A whole host packet comes alone into its queue, in which no train is open (R251). -/
structure ComesAlone (x : CmdIn) (s : State) : Prop where
  on : engineOn s = true
  awake : s.pwr.pstate ≠ .off
  host : x.chan = .host
  queue : x.qid.toNat < 64
  empty : queueOf s x.qid.toNat = []
  noTrain : trainOfQueue s x.qid.toNat = none

section Refusals
variable {s t : State} {opc : BitVec 16} {x : CmdIn} {r : Reply} {o : OpInfo}

/-- A packet that comes alone and fails a check is answered with the reply of that check and has left its queue. -/
theorem arrive_refused (h : ComesAlone x s) (hchain : x.flg.getLsbD 1 = false ∨ s.pwr.phase = .halt)
    (hcheck : checkPacket (hostPkt opc x).pkt false (joined opc x s) = .refused r t) : arrive opc x s = refusedWith opc x r t := by
  have htrain : trainOfQueue (joined opc x s) x.qid.toNat = none := (trainOfQueue_joined _).trans h.noTrain
  have hchain' : fChain (queued opc x s).pkt = false ∨ (joined opc x s).pwr.phase = .halt := by
    rwa [(joined_pwr opc x s).1]
  have hhead : checkHead x.qid.toNat (joined opc x s) = (true, dropHead x.qid.toNat (queued opc x s) (formReply r t)) :=
    checkHead_refused (queueOf_joined h.queue) rfl rfl htrain hchain' hcheck
  exact (arrive_host h.host).trans (deliver_answered (p := hostPkt opc x) h.on h.awake h.host h.queue h.empty hhead)

/-- The first checks of a packet that comes alone outside HALT with no CHAIN flag: flags, then length, then session. -/
theorem checkPacket_joined (h : ComesAlone x s) (hphase : s.pwr.phase ≠ .halt) (ho : opInfo opc.toNat = some o) (hchain : x.flg.getLsbD 1 = false) :
    checkPacket (hostPkt opc x).pkt false (joined opc x s) =
      if 32 ≤ x.flg.toNat ∨ x.flg.getLsbD 2 = true then .refused (plainReply (hostPkt opc x).pkt .badParam) (joined opc x s)
      else if ¬(x.body.length = x.plen.toNat + (if x.flg.getLsbD 0 then 16 else 0) ∧ o.psize + o.lo ≤ x.plen.toNat ∧ x.plen.toNat ≤ o.psize + o.hi) then
        .refused (plainReply (hostPkt opc x).pkt .badLen) (joined opc x s)
      else checkSession (hostPkt opc x).pkt (joined opc x s) :=
  checkPacket_host (p := (hostPkt opc x).pkt) (by rwa [(joined_pwr opc x s).1]) h.queue h.host ho hchain

end Refusals

/-! ## Packets of fewer than 16 bytes (R247) -/

section Short
variable {s : State} {b : List Byte}

/-- Such a packet as it joins its queue. -/
def shortQPkt (b : List Byte) : QPkt := { QPkt.reset with pkt := shortPacket .host b, short := true }

theorem exec_shortCommandPacket (h : b.length < 16) : exec (.shortCommandPacket b) s = .next (deliver (shortQPkt b) s) :=
  whenDue_of s _ (decide_eq_true h)

theorem exec_shortCommandPacket_whole (h : 16 ≤ b.length) : exec (.shortCommandPacket b) s = .next s := by
  show whenDue (decide (b.length < 16)) s _ = _
  simp [whenDue, Nat.not_lt.mpr h]

theorem shortPacket_qid_lt (b : List Byte) : (shortPacket .host b).qid.toNat < 64 := by
  simp only [shortPacket]
  split
  · decide
  · next h => simp only [BitVec.toNat_ofNat]; omega

theorem renewAbort_short {q : Nat} {p : QPkt} (h : p.short = true) : renewAbort q p s = s := by
  simp [renewAbort, h]

/-- Such a packet alone in its queue. -/
def shortJoined (b : List Byte) (s : State) : State :=
  setQueue (noteRequest s) (shortPacket .host b).qid.toNat [{ shortQPkt b with owner := s.vtf.owner.getD [] }]

theorem queueOf_shortJoined : queueOf (shortJoined b s) (shortPacket .host b).qid.toNat = [{ shortQPkt b with owner := s.vtf.owner.getD [] }] :=
  vAt_vSet_same _ _ _ (shortPacket_qid_lt b)

/-- Alone in its queue outside HALT it is answered with ST_BADLEN. -/
theorem deliver_short (hon : engineOn s = true) (hoff : s.pwr.pstate ≠ .off) (hphase : s.pwr.phase ≠ .halt)
    (hempty : queueOf s (shortPacket .host b).qid.toNat = []) (htrain : trainOfQueue s (shortPacket .host b).qid.toNat = none) :
    deliver (shortQPkt b) s = settleEntry (served (shortPacket .host b).qid.toNat (fUrg (shortPacket .host b))
      (dropHead (shortPacket .host b).qid.toNat (shortQPkt b) (formReply (plainReply (shortPacket .host b) .badLen) (shortJoined b s)))) := by
  have hphase' : (shortJoined b s).pwr.phase ≠ .halt := hphase
  have hhead := checkHead_short (s := shortJoined b s) queueOf_shortJoined rfl rfl htrain
  rw [if_neg hphase'] at hhead
  refine deliver_answered (p := shortQPkt b) hon hoff rfl (shortPacket_qid_lt b) hempty ?_
  rw [renewAbort_short rfl]
  exact hhead

end Short

/-! ## The statement on packets queued and checked -/

section Alone
variable {s t : State} {e : (CmdIn → Instr) × BitVec 16} {x : CmdIn} {r : Reply} {o : OpInfo}

theorem exec_hostRow_refused (he : e ∈ hostRows) (h : ComesAlone x s) (hchain : x.flg.getLsbD 1 = false ∨ s.pwr.phase = .halt)
    (hcheck : checkPacket (hostPkt e.2 x).pkt false (joined e.2 x s) = .refused r t) :
    exec (e.1 x) s = .next (refusedWith e.2 x r t) := by
  rw [exec_hostRow he, arrive_refused h hchain hcheck]

end Alone

/-- Settles O47: a packet comes to one of three places by its queue; one alone there is refused by the first check of R247 that it fails. -/
theorem packetsQueuedAndChecked : Obligations.PacketsQueuedAndChecked := by
  unfold Obligations.PacketsQueuedAndChecked
  intro s hon hoff
  refine ⟨fun e he x o => ?_, fun b => ⟨fun hlen hempty htrain hphase => ?_, exec_shortCommandPacket_whole⟩⟩
  · intro q p n out fits c hchan ho
    have hrow : exec (e.1 x) s = .next (deliver (hostPkt e.2 x) s) := by rw [exec_hostRow he, arrive_host hchan]
    refine ⟨fun hq hbusy => ?_, fun hq hphase => ?_, fun hq hempty htrain => ?_⟩
    · rw [hrow, deliver_behind (p := hostPkt e.2 x) hon hoff hchan hq hbusy]
      rfl
    · rw [hrow, deliver_noQueue (p := hostPkt e.2 x) hon hoff hchan hq hphase rfl rfl]
    have halone : ComesAlone x s := ⟨hon, hoff, hchan, hq, hempty, htrain⟩
    refine ⟨fun hhalt => ?_, fun hphase hsingle => ?_⟩
    · exact exec_hostRow_refused he halone (.inr hhalt) (checkPacket_halted _ ((joined_pwr e.2 x s).1.trans hhalt))
    have hrefused {r : Reply} {t : State} (h : checkPacket p false (joined e.2 x s) = .refused r t) : out r t :=
      exec_hostRow_refused he halone (.inl hsingle) h
    have hcheck := checkPacket_joined halone hphase ho hsingle
    have hvtf : (joined e.2 x s).vtf = s.vtf := joined_only e.2 x s .vtf (by decide)
    have hlength (hflags : x.flg.toNat < 32) (hlast : x.flg.getLsbD 2 = false) : checkPacket p false (joined e.2 x s) =
        if ¬fits then .refused (plainReply p .badLen) (joined e.2 x s) else checkSession p (joined e.2 x s) :=
      hcheck.trans (if_neg (not_or.2 ⟨Nat.not_le.2 hflags, ne_true_of_eq_false hlast⟩))
    have hsession (hflags : x.flg.toNat < 32) (hlast : x.flg.getLsbD 2 = false) (hfits : fits) :
        checkPacket p false (joined e.2 x s) = checkSession p (joined e.2 x s) :=
      (hlength hflags hlast).trans (if_neg (not_not.2 hfits))
    refine ⟨fun hflags => ?_, fun hflags hlast hmisfit => ?_, fun hflags hlast hfits hpair => ?_, fun hflags hlast hfits hauth hses => ?_⟩
    · exact hrefused (hcheck.trans (if_pos hflags))
    · exact hrefused ((hlength hflags hlast).trans (if_pos hmisfit))
    · exact hrefused ((hsession hflags hlast hfits).trans (checkSession_unpaired hchan hpair))
    have hlate : checkPacket p false (joined e.2 x s) = checkLate c (joined e.2 x s) :=
      (hsession hflags hlast hfits).trans (checkSession_anonymous hchan hses hauth)
    rw [← hvtf]
    exact ⟨fun h hnot => hrefused (hlate.trans (checkLate_unowned h hnot)), fun h hnot => hrefused (hlate.trans (checkLate_rollback h hnot)),
      fun h hneeds => hrefused (hlate.trans (checkLate_unauthorized h rfl hneeds)),
      fun h hneeds hres => hrefused (hlate.trans (checkLate_reserved h hneeds hres))⟩
  · exact (exec_shortCommandPacket hlen).trans (congrArg _ (deliver_short hon hoff hphase hempty htrain))

end Sys2Proof.Machine
end

section
/-! SUPPORT. A release that falls into a halt: a worn part whose media fault is set to halt, and the refutation of the statement
on release. -/
namespace Sys2Proof.Machine
open Sys2Proof

/-- A device that waits for its release, NORMAL with so many slots retired that S is below the Sabkha threshold (R136), and with the policy
of SABKHA_ENTER, source 17, set to halt (R497, R505). -/
def wornStart : State :=
  { State.reset with pwr.vmainOk := true, pwr.vioOk := true, flt.pol := vSet State.reset.flt.pol 17 2, arr.retired := 60000 }

theorem wornStart_below : spareCap wornStart < sabkhaT := by decide +kernel

theorem exec_release_wornStart : exec (.internalResetRelease 0 false) wornStart = .next (release 0 false wornStart) :=
  whenDue_of wornStart _ (by decide)

/-- The release gives the slots held for the boot window back, which tests the media state (R139, R237): the device goes to SABKHA, and the
fault of that begins a sealed halt. -/
theorem release_wornStart_halts : (release 0 false wornStart).arr.media = .sabkha ∧ (release 0 false wornStart).pwr.phase = .halt := by
  constructor <;> decide +kernel

/-- Refutes O29: its first clause excludes a halt by BOOT_NOIMG alone, source 11. The release also tests the media state, and where
SABKHA_ENTER, source 17, halts the device, the phase that the release leaves is HALT and not STARTUP. -/
theorem not_releaseMountAndCrossings : ¬ Obligations.ReleaseMountAndCrossings := by
  unfold Obligations.ReleaseMountAndCrossings
  rintro ⟨hrelease, -⟩
  obtain ⟨hdue, -⟩ := hrelease wornStart 0 false 0
  obtain ⟨t, ht, -, -, hphase, -⟩ := hdue rfl rfl (by decide) rfl rfl rfl rfl
  obtain rfl : release 0 false wornStart = t := Host.Outcome.next.inj (exec_release_wornStart.symm.trans ht)
  obtain ⟨hstartup, -⟩ := hphase (by decide +kernel)
  obtain ⟨-, hhalt⟩ := release_wornStart_halts
  exact absurd (hhalt.symm.trans hstartup) (by decide)

end Sys2Proof.Machine
end

section
/-! SUPPORT. Sideband transfers by address, frame and outstanding reply, and the TAP by debug level; and the statement on them. -/
namespace Sys2Proof.Machine
open Sys2Proof

variable {s : State} {addr : BitVec 7} {p l rep : List Byte} {len : Nat} {ir : BitVec 5} {a : Vendor}

/-! ## The frame of a write (R316, R317) -/

/-- Bytes with their CRC behind them, as a sideband transfer carries them. -/
def withCrc (l : List Byte) : List Byte := l ++ crcBytes l

theorem crcBytes_length (l : List Byte) : (crcBytes l).length = 4 := leB_length 4 _

/-- A write whose last four bytes are `l` carries a packet if its length is in range and they are the CRC of the others. -/
theorem sideGood_iff (hl : l.length = 4) :
    sideGood (1 :: p ++ l) = true ↔ 16 ≤ p.length ∧ p.length ≤ 59 ∧ l = crcBytes (1 :: p) := by
  have hlen : (1 :: p ++ l).length = p.length + 5 := by simp [hl]
  have hdrop : (1 :: p ++ l).drop (p.length + 5 - 4) = l := List.drop_left
  have htake : (1 :: p ++ l).take (p.length + 5 - 4) = 1 :: p := List.take_left (l₁ := 1 :: p)
  simp only [sideGood, hlen, hdrop, htake, Bool.and_eq_true, decide_eq_true_eq]
  constructor
  · rintro ⟨⟨⟨hmin, hmax⟩, -⟩, hcrc⟩
    exact ⟨by omega, by omega, hcrc⟩
  · rintro ⟨hmin, hmax, hcrc⟩
    exact ⟨⟨⟨by omega, by omega⟩, rfl⟩, hcrc⟩

/-- The packet between the first byte of a write and its CRC. -/
theorem sidePacket_eq (hl : l.length = 4) : ((1 :: p ++ l).drop 1).take ((1 :: p ++ l).length - 5) = p := by
  have hlong : (1 :: p ++ l).length - 5 = p.length := by simp [hl]
  rw [hlong]
  exact List.take_left

/-! ## A write that is not acknowledged, rejected or taken (R317) -/

theorem exec_sidebandWrite_unacked (b : List Byte) (hon : sideOn s = true) (h : addr.toNat ≠ sideAddr s ∨ s.side.busy = true) :
    exec (.sidebandWrite addr b) s = .next { s with side.ack := false } := by
  show execSidebandWrite addr b s = _
  simp only [execSidebandWrite, hon, Bool.not_true, Bool.false_eq_true, if_false, if_pos h]

section Addressed
variable (hon : sideOn s = true) (haddr : addr.toNat = sideAddr s) (hfree : s.side.busy = false)
include hon haddr hfree

theorem exec_sidebandWrite_addressed (b : List Byte) : exec (.sidebandWrite addr b) s = .next (if sideGood b then
    deliver { QPkt.reset with pkt := packetOf .sideband ((b.drop 1).take (b.length - 5)) }
      (sideArrives { s with side := { s.side with rejected := false, ack := true } })
    else sideReject s) := by
  show execSidebandWrite addr b s = _
  simp only [execSidebandWrite, hon, haddr, hfree, ne_eq, not_true_eq_false, Bool.not_true, Bool.false_eq_true, or_self, if_false]

theorem exec_sidebandWrite_rejects (hl : l.length = 4) (h : ¬(16 ≤ p.length ∧ p.length ≤ 59 ∧ l = crcBytes (1 :: p))) :
    exec (.sidebandWrite addr (1 :: p ++ l)) s = .next (sideReject s) := by
  rw [exec_sidebandWrite_addressed hon haddr hfree, if_neg (mt (sideGood_iff hl).mp h)]

theorem exec_sidebandWrite_takes (hmin : 16 ≤ p.length) (hmax : p.length ≤ 59) : exec (.sidebandWrite addr (withCrc (1 :: p))) s =
    .next (deliver { QPkt.reset with pkt := packetOf .sideband p }
      (sideArrives { s with side := { s.side with rejected := false, ack := true } })) := by
  have hcrc := crcBytes_length (1 :: p)
  rw [withCrc, exec_sidebandWrite_addressed hon haddr hfree, if_pos ((sideGood_iff hcrc).mpr ⟨hmin, hmax, rfl⟩), sidePacket_eq hcrc]

end Addressed

/-! ## The packet of a write in its queue (R317, R533) -/

theorem wake_only (k : Nat) (s : State) : OnlyIn [.pwr, .link, .cache] s (wake k s) := by
  have hpwr (v : Pwr) : OnlyIn [.pwr, .link, .cache] s { s with pwr := v } := by
    intro r hr; cases r <;> simp_all [sameIn]
  simp only [wake]
  split
  · exact hpwr _
  · exact OnlyIn.refl _ _
  · exact wakeNow_only k s

/-- A wake neither releases the device nor ends a loss sequence, and leaves OFF alone. -/
theorem wake_power (k : Nat) (s : State) : (wake k s).pwr.released = s.pwr.released ∧ (wake k s).pwr.seq = s.pwr.seq
    ∧ ((wake k s).pwr.pstate = .off → s.pwr.pstate = .off) := by
  simp only [wake]
  split
  · exact ⟨rfl, rfl, id⟩
  · exact ⟨rfl, rfl, id⟩
  · simp only [wakeNow]
    split
    · exact ⟨rfl, rfl, by simp⟩
    · exact ⟨rfl, rfl, by simp⟩
    · exact ⟨rfl, rfl, id⟩

/-- The sideband held for the reply to a packet that has arrived. -/
def sideHeld (s : State) : State := { s with side := { s.side with busy := true } }

theorem sideArrives_eq (s : State) : sideArrives s = wake 2 (sideHeld s) := rfl

theorem sideArrives_only (s : State) : OnlyIn [.side, .pwr, .link, .cache] s (sideArrives s) := by
  have hheld : OnlyIn [.side] s (sideHeld s) := by
    intro r hr; cases r <;> simp_all [sameIn, sideHeld]
  exact hheld.trans (wake_only 2 _) (by decide) (by decide)

theorem sideArrives_side (s : State) : (sideArrives s).side = { s.side with busy := true } := wake_only 2 _ .side (by decide)

/-- A sideband packet whose queue is in use waits at its end. -/
theorem deliver_sideband_behind {q : QPkt} (hon : engineOn s = true) (hoff : s.pwr.pstate ≠ .off) (hchan : q.pkt.chan = .sideband)
    (hbusy : queueOf s 0 ≠ []) :
    deliver q s = setQueue (noteRequest s) 0 (queueOf s 0 ++ [{ q with owner := s.vtf.owner.getD [] }]) := by
  have hqueue : queueOf (noteRequest s) 0 = queueOf s 0 := rfl
  have hrenew : renewAbort 0 q (noteRequest s) = noteRequest s := by simp [renewAbort, hchan]
  have hlt : ¬63 < 0 := by decide
  simp only [deliver, hon, hoff, hchan, hqueue, hlt, hrenew, List.isEmpty_iff, hbusy, decide_false, Bool.not_true, Bool.or_false,
    Bool.false_eq_true, if_false, if_true]
  rfl

theorem sideOn_iff : sideOn s = true ↔
    s.pwr.released = true ∧ inLoss s = false ∧ s.pwr.vioLow = false ∧ s.pwr.pstate ≠ .off ∧ s.jtag.ir ≠ 0 := by
  simp [sideOn, and_assoc]

/-- A sideband packet behind others in queue 0: it waits there, the sideband is held for its reply, and a device in REST wakes. -/
theorem deliver_sideArrives (hon : sideOn s = true) (hbusy : queueOf s 0 ≠ []) :
    let t := deliver { QPkt.reset with pkt := packetOf .sideband p } (sideArrives s)
    queueOf t 0 = queueOf s 0 ++ [{ QPkt.reset with pkt := packetOf .sideband p, owner := s.vtf.owner.getD [] }]
      ∧ t.side = { s.side with busy := true }
      ∧ (s.pwr.pstate = .rest → s.pwr.entry = none → t.pwr.pstate = .run ∧ t.pwr.wakeCause = 2 ∧ t.pwr.wakeFrom = true) := by
  obtain ⟨hrel, hloss, -, hoff, -⟩ := sideOn_iff.mp hon
  obtain ⟨hrel', hseq', hoff'⟩ := wake_power 2 (sideHeld s)
  have heng : (sideArrives s).eng = s.eng := sideArrives_only s .eng (by decide)
  have hvtf : (sideArrives s).vtf = s.vtf := sideArrives_only s .vtf (by decide)
  have hqueue : queueOf (sideArrives s) 0 = queueOf s 0 := congrArg (fun e : Engine => vAt e.queues 0) heng
  have hengine : engineOn (sideArrives s) = true := by
    have hcalm : s.pwr.seq = .none := by simpa [inLoss] using hloss
    simp only [engineOn, inLoss, sideArrives_eq, hrel', hseq']
    simp [sideHeld, hrel, hcalm]
  intro t
  have ht : t = setQueue (noteRequest (sideArrives s)) 0
      (queueOf s 0 ++ [{ QPkt.reset with pkt := packetOf .sideband p, owner := s.vtf.owner.getD [] }]) := by
    have hbehind := deliver_sideband_behind (q := { QPkt.reset with pkt := packetOf .sideband p }) hengine (mt hoff' hoff) rfl (hqueue ▸ hbusy)
    rwa [hqueue, hvtf] at hbehind
  rw [ht]
  refine ⟨vAt_vSet_same _ _ _ (by decide), sideArrives_side s, fun hrest hentry => ?_⟩
  have hwoken : (sideArrives s).pwr = wokenPwr 2 s := by
    rw [sideArrives_eq, wake_now (s := sideHeld s) 2 hentry, wakeNow_rest (s := sideHeld s) 2 hrest]
    rfl
  show (noteRequest (sideArrives s)).pwr.pstate = _ ∧ (sideArrives s).pwr.wakeCause = _ ∧ (sideArrives s).pwr.wakeFrom = _
  simp only [noteRequest, hwoken, wokenPwr, hrest]
  exact ⟨rfl, rfl, rfl⟩

/-! ## Reads (R316, R317) -/

/-- What a read of `len` bytes leaves that drives the frame `f`, the sideband's registers otherwise `y`. -/
def sideDriven (f : List Byte) (len : Nat) (y : Side) (s : State) : State :=
  { s with side := { y with out := f.take len ++ List.replicate (len - f.length) 0xFF, ack := true, rejected := false } }

theorem exec_sidebandRead_unacked (hon : sideOn s = true) (h : addr.toNat ≠ sideAddr s) :
    exec (.sidebandRead addr len) s = .next { s with side.ack := false } := by
  show execSidebandRead addr len s = _
  simp only [execSidebandRead, hon, Bool.not_true, Bool.false_eq_true, if_false, if_pos h]

section Read
variable (hon : sideOn s = true) (haddr : addr.toNat = sideAddr s)
include hon haddr

/-- A read drives the frame, and releases the reply that it drives whole. -/
theorem exec_sidebandRead : exec (.sidebandRead addr len) s = .next (
    if !s.side.rejected && s.side.reply.isSome && decide ((sideFrame s.side).length ≤ len) then
      sideDriven (sideFrame s.side) len { s.side with reply := none, busy := false } s
    else sideDriven (sideFrame s.side) len s.side s) := by
  show execSidebandRead addr len s = _
  simp only [execSidebandRead, hon, haddr, ne_eq, not_true_eq_false, Bool.not_true, Bool.false_eq_true, if_false]
  rfl

theorem exec_sidebandRead_rejected (h : s.side.rejected = true) :
    exec (.sidebandRead addr len) s = .next (sideDriven (withCrc [2, 0, 0]) len s.side s) := by
  have hframe : sideFrame s.side = withCrc [2, 0, 0] := by simp only [sideFrame, h, if_true, withCrc]
  rw [exec_sidebandRead hon haddr, hframe, h]
  rfl

theorem exec_sidebandRead_empty (h : s.side.rejected = false) (hrep : s.side.reply = none) :
    exec (.sidebandRead addr len) s = .next (sideDriven (withCrc [0, 0, 0]) len s.side s) := by
  have hframe : sideFrame s.side = withCrc [0, 0, 0] := by simp only [sideFrame, h, hrep, Bool.false_eq_true, if_false, withCrc]
  rw [exec_sidebandRead hon haddr, hframe, h, hrep]
  rfl

theorem exec_sidebandRead_reply (h : s.side.rejected = false) (hrep : s.side.reply = some rep) :
    exec (.sidebandRead addr len) s = .next (sideDriven (withCrc (1 :: leB 2 rep.length ++ rep)) len
      (if rep.length + 7 ≤ len then { s.side with reply := none, busy := false } else s.side) s) := by
  have hframe : sideFrame s.side = withCrc (1 :: leB 2 rep.length ++ rep) := by
    simp only [sideFrame, h, hrep, Bool.false_eq_true, if_false, withCrc, List.singleton_append]
  have hlen : (withCrc (1 :: leB 2 rep.length ++ rep)).length = rep.length + 7 := by
    simp [withCrc, crcBytes_length]
    omega
  rw [exec_sidebandRead hon haddr, hframe, hlen]
  by_cases hwhole : rep.length + 7 ≤ len <;> simp [h, hrep, hwhole]

end Read

/-! ## The time-outs of the sideband (R317) -/

theorem exec_sidebandBusTimeout_partial (hon : sideOn s = true) (hfree : s.side.busy = false) :
    exec (.sidebandBusTimeout true) s = .next (sideReject s) :=
  whenDue_of s _ (by simp [hon, hfree])

theorem exec_sidebandBusTimeout_none : exec (.sidebandBusTimeout false) s = .next s := by
  show whenDue (sideOn s && false && !s.side.busy) s _ = _
  simp [whenDue]

theorem exec_sidebandReplyDiscard_reply (h : s.side.reply ≠ none) : exec .sidebandReplyDiscard s = .next (
    if s.side.readyAt + 1000000 ≤ s.tick then { s with side := { s.side with reply := none, busy := false } } else s) := by
  have hsome : s.side.reply.isSome = true := Option.isSome_iff_ne_none.mpr h
  show whenDue (s.side.reply.isSome && decide (s.side.readyAt + 1000000 ≤ s.tick)) s _ = _
  simp only [whenDue, hsome, Bool.true_and, decide_eq_true_eq]

/-! ## Vendor instructions of the TAP (R213, R341) -/

theorem exec_jtagVendor_public (h : ir = 0 ∨ ir = 1 ∨ ir = 2 ∨ ir = 0x1F) :
    exec (.jtagVendorInstruction ir a) s = .refused (.illFormed "JTAG_VENDOR_INSTRUCTION") := by
  rcases h with rfl | rfl | rfl | rfl <;> rfl

section Vendor
variable (hon : tapOn s = true) (hrel : s.pwr.released = true) (hmin : 3 ≤ ir.toNat) (hmax : ir.toNat ≤ 30)
include hon hrel hmin hmax

theorem exec_jtagVendor : exec (.jtagVendorInstruction ir a) s =
    .next (if vendorOpen s.vtf.debug a then vendorAct a { s with jtag.ir := ir } else bypass ir s) := by
  have hprivate : ¬(ir.toNat ≤ 2 ∨ ir.toNat = 31) := by omega
  show execJtagVendorInstruction ir a s = _
  rw [execJtagVendorInstruction, if_neg hprivate]
  exact whenDue_of s _ (by simp [hon, hrel])

theorem exec_jtagVendor_open (h : vendorOpen s.vtf.debug a = true) :
    exec (.jtagVendorInstruction ir a) s = .next (vendorAct a { s with jtag.ir := ir }) := by
  rw [exec_jtagVendor hon hrel hmin hmax, if_pos h]

theorem exec_jtagVendor_closed (h : vendorOpen s.vtf.debug a = false) : exec (.jtagVendorInstruction ir a) s = .next (bypass ir s) := by
  rw [exec_jtagVendor hon hrel hmin hmax, if_neg (ne_true_of_eq_false h)]

end Vendor

/-- Debug level 2 opens every vendor action, and level 1 those that do not name a secret port or test mode. -/
theorem vendorOpen_level {n : Nat} (hmin : 1 ≤ n) (hmax : n ≤ 2) (h : vendorOpen 1 a = true) : vendorOpen n a = true := by
  obtain rfl | rfl : n = 1 ∨ n = 2 := by omega
  · exact h
  · rfl

/-! ## The statement -/

/-- Settles O52: a write by what its address, the outstanding reply and its frame say, a read by the frame it drives, and a vendor
instruction by whether the debug level opens it. -/
theorem sidebandAndTap : Obligations.SidebandAndTap := by
  unfold Obligations.SidebandAndTap
  intro s addr p rep len cells pins ir a core dom da port v x crc answers rejects vendor on
  refine ⟨fun hon => ⟨fun haddr => ⟨exec_sidebandWrite_unacked p hon (.inl haddr), exec_sidebandRead_unacked hon haddr⟩,
    fun _ hbusy => exec_sidebandWrite_unacked p hon (.inr hbusy), fun haddr hfree => ⟨fun hlen => ?_, fun l hl hlen => ?_,
      fun hmin hmax hqueue => ⟨_, exec_sidebandWrite_takes hon haddr hfree hmin hmax, deliver_sideArrives hon hqueue⟩⟩,
    fun haddr => ⟨exec_sidebandRead_rejected hon haddr, exec_sidebandRead_empty hon haddr, exec_sidebandRead_reply hon haddr⟩,
    exec_sidebandBusTimeout_partial hon, exec_sidebandBusTimeout_none⟩, exec_sidebandReplyDiscard_reply, rfl, exec_jtagVendor_public,
    fun hon => ⟨whenDue_of s _ hon, whenDue_of s _ hon, whenDue_of s _ hon, whenDue_of s _ hon, fun hrel hmin hmax => ?_⟩⟩
  · refine exec_sidebandWrite_rejects hon haddr hfree (crcBytes_length _) ?_
    omega
  · exact exec_sidebandWrite_rejects hon haddr hfree hlen fun h => hl h.2.2
  have hopen {act : Vendor} (h : vendorOpen s.vtf.debug act = true) := exec_jtagVendor_open hon hrel hmin hmax h
  have hclosed {act : Vendor} (h : vendorOpen s.vtf.debug act = false) := exec_jtagVendor_closed hon hrel hmin hmax h
  refine ⟨fun hlevel => hclosed (by rw [hlevel]; rfl), fun hlevel => ⟨fun hport => hclosed ?_, hclosed (by rw [hlevel]; rfl)⟩,
    fun hlow hhigh => ?_, fun hlevel => ⟨hopen (by rw [hlevel]; rfl), _, hopen (by rw [hlevel]; rfl), rfl, rfl⟩⟩
  · simp [hlevel, vendorOpen, secretPort, hport]
  · have hlevel {act : Vendor} (h : vendorOpen 1 act = true) := hopen (vendorOpen_level hlow hhigh h)
    exact ⟨hlevel rfl, hlevel rfl, hlevel rfl, hlevel rfl⟩

end Sys2Proof.Machine
end

section
/-! SUPPORT. What the link sends when it may: from one state of the link to the next packets move into the replay buffer, and the rest stays. -/
namespace Sys2Proof.Machine
open Sys2Proof

variable {s t u : State} {l m n : Link} {now : Nat}

/-! ## The packets that wait, and those sent (R301, R310) -/

/-- The link without what sending changes: the replay buffer, what waits, the credits used and the limits last given. -/
def linkRest (l : Link) : Link :=
  { l with
    replay := [], advAt := 0, txSeq := 0, cpls := [], msgs := [], mseq := 0, msCum := 0, rdCum := 0, rhCum := 0, replies := []
    rplOff := 0, lastCred := (0, 0, 0), credAt := 0 }

/-- A completion waits, or is sent and held for replay. -/
def Carries (l : Link) (x : TxPkt) : Prop :=
  (∃ o, (o, x) ∈ l.cpls) ∨ ∃ q ∈ l.replay, q.typ = 3 ∧ q.xtag = x.xtag ∧ q.payload = x.payload

/-- From `l` to `m` packets were sent at the tick `now`, or none: the replay buffer only grew, and no completion is lost. -/
structure Sends (now : Nat) (l m : Link) : Prop where
  rest : linkRest m = linkRest l
  replay : ∃ x, m.replay = l.replay ++ x
  advAt : l.advAt = now → m.advAt = now
  carries : ∀ x, Carries l x → Carries m x

theorem Sends.refl (now : Nat) (l : Link) : Sends now l l := ⟨rfl, ⟨[], by simp⟩, id, fun _ h => h⟩

/-- The steps in the order of the terms: the later one first. -/
theorem Sends.after (k : Sends now m n) (h : Sends now l m) : Sends now l n := by
  obtain ⟨x, hx⟩ := h.replay
  obtain ⟨y, hy⟩ := k.replay
  exact ⟨k.rest.trans h.rest, ⟨x ++ y, by rw [hy, hx, List.append_assoc]⟩, fun ha => k.advAt (h.advAt ha),
    fun c hc => k.carries c (h.carries c hc)⟩

/-- What is read off the rest of the link reads as before. -/
theorem Sends.reads {α : Type} (h : Sends now l m) (p : Link → α) (hp : ∀ x, p (linkRest x) = p x := by exact fun _ => rfl) : p m = p l := by
  rw [← hp m, h.rest, hp]

theorem Sends.iter (f : Link → Link) (h : ∀ l, Sends now l (f l)) (k : Nat) (l : Link) : Sends now l (iter f k l) := by
  induction k generalizing l with
  | zero => exact .refl now l
  | succ k ih => exact (ih (f l)).after (h l)

/-- A packet sent stands last in the replay buffer (R301). -/
theorem sendData_sends (l : Link) (typ lfl : BitVec 8) (xtag : BitVec 16) (payload : List Byte) (now : Nat) :
    Sends now l (sendData l typ lfl xtag payload now) := by
  refine ⟨rfl, ⟨_, rfl⟩, fun h => ?_, fun x hx => hx.imp_right fun ⟨q, hq, hsame⟩ => ⟨q, List.mem_append_left _ hq, hsame⟩⟩
  simp only [sendData, h, ite_self]

/-- The oldest completion leaves those that wait and is held for replay. -/
theorem sendCpl_sends (l : Link) (now : Nat) : Sends now l (sendCpl l now) := by
  unfold sendCpl
  split
  · next o p rest hcpls =>
    have hsend := sendData_sends { l with cpls := rest } 3 0 p.xtag p.payload now
    refine ⟨hsend.rest, hsend.replay, hsend.advAt, fun x hx => ?_⟩
    rcases hx with ⟨o', hmem⟩ | hsent
    · rw [hcpls, List.mem_cons] at hmem
      rcases hmem with hhead | hmem
      · obtain ⟨-, rfl⟩ := Prod.mk.inj hhead
        exact .inr ⟨_, List.mem_append_right _ (List.mem_singleton_self _), rfl, rfl, rfl⟩
      · exact .inl ⟨o', hmem⟩
    · exact hsend.carries x (.inr hsent)
  · exact .refl now l

theorem sendMsg_sends (l : Link) (now : Nat) : Sends now l (sendMsg l now) := by
  unfold sendMsg
  split
  · exact (sendData_sends _ _ _ _ _ _).after ⟨rfl, ⟨[], by simp⟩, id, fun _ => id⟩
  · exact .refl now l

theorem sendRpl_sends (l : Link) (now : Nat) : Sends now l (sendRpl l now) := by
  unfold sendRpl
  split
  · exact (sendData_sends _ _ _ _ _ _).after ⟨rfl, ⟨[], by simp⟩, id, fun _ => id⟩
  · exact .refl now l

theorem pumpOne_sends (l : Link) (now : Nat) : Sends now l (pumpOne l now) := by
  unfold pumpOne
  extract_lets c m r
  split
  · exact sendCpl_sends l now
  · split
    · exact sendMsg_sends l now
    · clear_value r
      split
      · exact sendRpl_sends l now
      · exact .refl now l

theorem sendCredit_sends (l : Link) (now : Nat) : Sends now l (sendCredit l now) := by
  constructor
  · simp only [linkRest, sendCredit]
  · exact ⟨[], by simp only [sendCredit, List.append_nil]⟩
  · simp only [sendCredit, imp_self]
  · simp only [Carries, sendCredit, imp_self, implies_true]

theorem creditOnReturn_sends (l : Link) (now : Nat) : Sends now l (creditOnReturn l now) := by
  simp only [creditOnReturn]
  split
  · exact sendCredit_sends l now
  · exact .refl now l

theorem pump_sends (s : State) : Sends s.tick s.link (pump s).link := by
  simp only [pump, pumpLink]
  split
  · exact (creditOnReturn_sends _ _).after (.iter _ (fun l => pumpOne_sends l s.tick) _ _)
  · exact .refl _ _

/-- What is read off the rest of the link reads after sending as before. -/
theorem pump_reads {α : Type} (s : State) (p : Link → α) (hp : ∀ x, p (linkRest x) = p x := by exact fun _ => rfl) :
    p (pump s).link = p s.link := (pump_sends s).reads p hp

/-! ## Messages, faults and replies (R249, R312, R498) -/

section Reads
variable {α : Type} (p : Link → α) (hp : ∀ x, p (linkRest x) = p x)
include hp

/-- A message formed changes, beside what is sent, the messages and their marks. -/
theorem formMsg_reads (typ : Nat) (body : List Byte) (s : State) (hm : ∀ l m g o, p { l with msgs := m, msgp := g, ordNext := o } = p l) :
    p (formMsg typ body s).link = p s.link := by
  simp only [formMsg]
  split
  · exact (pump_reads _ p hp).trans (hm _ _ _ _)
  · rfl

/-- A fault changes of the link, beside a message, what a loss sequence changes that it begins. -/
theorem raiseFault_reads (src : Nat) (det : BitVec 32) (s : State) (hm : ∀ l m g o, p { l with msgs := m, msgp := g, ordNext := o } = p l)
    (hloss : vAt s.flt.pol src = 2 → ∀ l, p { l with ls := .disabled, ts1 := false, softReq := false, msgs := [] } = p l) :
    p (raiseFault src det s).link = p s.link := by
  have hbegin (hpol : vAt s.flt.pol src = 2) (t : State) : p (lossBegin true t).link = p t.link := by
    simp only [lossBegin]
    split
    · rfl
    · exact hloss hpol t.link
  have hmsg (b : Bool) (body : List Byte) (t : State) : p (if b then formMsg 3 body t else t).link = p t.link := by
    split
    · exact formMsg_reads p hp 3 body t hm
    · rfl
  simp only [raiseFault, latchFault]
  split
  · rfl
  split
  · rfl
  split
  · rfl
  split
  · next hpol => exact (hbegin hpol _).trans (hmsg _ _ _)
  · exact hmsg _ _ _

theorem formReply_reads (r : Reply) (s : State) (hr : ∀ l x o, p { l with replies := x, ordNext := o } = p l) :
    p (formReply r s).link = p s.link := by
  simp only [formReply]
  split
  · rfl
  split
  · rfl
  split
  · rfl
  · exact (pump_reads _ p hp).trans (hr _ _ _)

end Reads

theorem raiseFault_pol (src : Nat) (det : BitVec 32) (s : State) : (raiseFault src det s).flt.pol = s.flt.pol := by
  cases hmask : s.flt.masked.getLsbD src with
  | true => rw [raiseFault, if_pos hmask]
  | false =>
    rw [raiseFault, if_neg (ne_true_of_eq_false hmask)]
    cases hon : collectorOn s with
    | false => simp only [latchFault, hon, Bool.not_false, if_true]
    | true =>
      cases hl : s.flt.latch.getLsbD src with
      | true => simp only [latchFault, hon, hl, Bool.not_true, Bool.false_eq_true, if_false, if_true]
      | false =>
        obtain ⟨th, ce, uc, fa, hregs⟩ := latchRegs_timers s.flt src det s.dtime s.tick
        rw [latchFault_flt hon hl, hregs]
        rfl

theorem settleEntry_none (h : s.pwr.entry = none) : settleEntry s = s := by
  simp only [settleEntry, h]

end Sys2Proof.Machine
end

section
/-! SUPPORT. What the reset of the link's transaction layer leaves of the link's state, of the policies and of the latches. -/
namespace Sys2Proof.Machine
open Sys2Proof

variable {s t u : State}

/-! ## What goes on behind a reset of the link (R257, R313, R526) -/

/-- From `s` to `t` no latch was cleared and no policy set, and the link is in the state it was, where HOLD_OVER does not halt the device. -/
structure LinkHeld (s t : State) : Prop where
  pol : t.flt.pol = s.flt.pol
  latch : ∀ i, s.flt.latch.getLsbD i = true → t.flt.latch.getLsbD i = true
  ls : vAt s.flt.pol 4 ≠ 2 → t.link.ls = s.link.ls

theorem LinkHeld.refl (s : State) : LinkHeld s s := ⟨rfl, fun _ h => h, fun _ => rfl⟩

/-- The steps in the order of the terms: the later one first. -/
theorem LinkHeld.after (k : LinkHeld t u) (h : LinkHeld s t) : LinkHeld s u :=
  ⟨k.pol.trans h.pol, fun i hi => k.latch i (h.latch i hi), fun hpol => (k.ls (h.pol ▸ hpol)).trans (h.ls hpol)⟩

theorem LinkHeld.of_link (hf : t.flt = s.flt) (hls : t.link.ls = s.link.ls) : LinkHeld s t :=
  ⟨by rw [hf], by rw [hf]; exact fun _ h => h, fun _ => hls⟩

theorem LinkHeld.of_only {l : List Region} (h : OnlyIn l s t) (hf : Region.flt ∉ l) (hl : Region.link ∉ l) : LinkHeld s t :=
  .of_link (h .flt hf) (congrArg Link.ls (h .link hl))

theorem LinkHeld.foldl {α : Type} (f : State → α → State) (h : ∀ t a, LinkHeld t (f t a)) (as : List α) (s : State) :
    LinkHeld s (as.foldl f s) := by
  induction as generalizing s with
  | nil => exact .refl s
  | cons a as ih => exact (ih (f s a)).after (h s a)

theorem LinkHeld.foldr {α : Type} (f : α → State → State) (h : ∀ a t, LinkHeld t (f a t)) (as : List α) (s : State) :
    LinkHeld s (as.foldr f s) := by
  induction as with
  | nil => exact .refl s
  | cons a as ih => exact (h a _).after ih

theorem windowMsg_held (s : State) : LinkHeld s (windowMsg s) :=
  .of_link (windowMsg_only s .flt (by decide)) (formMsg_reads Link.ls (fun _ => rfl) _ _ _ fun _ _ _ _ => rfl)

theorem overRaised_held (det : BitVec 32) (s : State) : LinkHeld s (raiseFault 4 det s) :=
  ⟨raiseFault_pol 4 det s, (raiseFault_runs (F := fun _ => False) (W := False) 4 det s).wear.latch,
    fun hpol => raiseFault_reads Link.ls (fun _ => rfl) 4 det s (fun _ _ _ _ => rfl) fun h => absurd h hpol⟩

theorem checkOver_held (s : State) : LinkHeld s (checkOver s) := by
  have hmsg (b : Bool) : LinkHeld s (windowMsg { s with oas.overV := b }) := (windowMsg_held _).after (.of_link rfl rfl)
  simp only [checkOver]
  split
  · exact .refl s
  · split
    · exact (overRaised_held _ _).after (hmsg _)
    · exact hmsg _

theorem returnCredits_held (n : Nat) (s : State) : LinkHeld s (returnCredits n s) := by
  simp only [returnCredits]
  split
  · exact .refl s
  · exact (checkOver_held _).after (.of_link rfl rfl)

theorem recomputeW_held (s : State) : LinkHeld s (recomputeW s) := by
  have hreported : LinkHeld s (windowReported s) := by
    simp only [windowReported]
    split
    · exact (windowMsg_held _).after (.of_link rfl rfl)
    · exact .of_link rfl rfl
  exact recomputeW_eq s ▸ (checkOver_held _).after hreported

theorem formReply_held (r : Reply) (s : State) : LinkHeld s (formReply r s) :=
  .of_link (formReply_only r s .flt (by decide)) (formReply_reads Link.ls (fun _ => rfl) r s fun _ _ _ => rfl)

theorem finishJob_held (j : Nat) (s : State) : LinkHeld s (finishJob j s) := by
  cases h : jobOf s j with
  | none =>
    rw [finishJob_of_none h]
    exact .refl s
  | some x =>
    rw [finishJob_of_some h]
    exact LinkHeld.after (.foldl _ (fun t r => formReply_held r t) _ _) (.of_only (jobEnded_only x j s) (by decide) (by decide))

theorem lowerSeals_held (sid last : Nat) (s : State) : LinkHeld s (lowerSeals sid last s) := .of_link rfl rfl

theorem unwindTrain_held (tr : Train) (s : State) : LinkHeld s (unwindTrain tr s) := by
  unfold unwindTrain
  extract_lets s1 store eng wadi s2
  have h1 : LinkHeld s s1 := .foldl _ (fun u (b : Nat × Nat × List Byte) => .of_only (updStream_only u b.1 _) (by decide) (by decide)) _ s
  have h2 : LinkHeld s s2 := LinkHeld.after (t := s1) (.of_link rfl rfl) h1
  exact .after (.foldl _ (fun u (b : Nat × Nat × List Byte) => lowerSeals_held b.1 _ u) _ _) ((returnCredits_held _ _).after h2)

theorem dropOpenTrains_held (s : State) : LinkHeld s (dropOpenTrains s) := .foldr _ unwindTrain_held _ s

theorem settleSeals_held (s : State) : LinkHeld s (settleSeals s) := by
  have hjob (u : State) (j : Nat) (f : Job → Job) : LinkHeld u (updJob u j f) := .of_only (updJob_only j f u) (by decide) (by decide)
  refine .foldl _ (fun t j => ?_) _ s
  split
  · split
    · exact .refl t
    · dsimp only
      split
      · split
        · exact (finishJob_held _ _).after (hjob _ _ _)
        · exact (hjob _ _ _).after (.of_only (sealSegment_only _ _ _ t) (by decide) (by decide))
      · exact .refl t
  · exact .refl t

theorem unloadNow_held (j : Job) (num : Nat) (bundle shrink : Bool) (s : State) : LinkHeld s (unloadNow j num bundle shrink s) := by
  unfold unloadNow
  extract_lets set wadi s1 oas s2
  have h2 : LinkHeld s1 s2 := by
    dsimp only [s2]
    split
    · exact (recomputeW_held _).after (.of_link rfl rfl)
    · exact .refl s1
  exact (finishJob_held j.id s2).after (h2.after (.of_link rfl rfl))

theorem settleUnloads_held (s : State) : LinkHeld s (settleUnloads s) := by
  refine .foldl _ (fun t j => ?_) _ s
  split
  · split
    · exact unloadNow_held _ _ _ _ t
    · exact .refl t
  · exact .refl t

theorem linkReset_held (s : State) : LinkHeld s (linkReset s) := by
  have hsettled : LinkHeld s (releaseWaiting (settleUnloads (settleSeals (dropOpenTrains s)))) :=
    LinkHeld.after (.of_only (releaseWaiting_only _) (by decide) (by decide))
      ((settleUnloads_held _).after ((settleSeals_held _).after (dropOpenTrains_held s)))
  exact LinkHeld.after (t := releaseWaiting (settleUnloads (settleSeals (dropOpenTrains s)))) ⟨rfl, fun _ h => h, fun _ => rfl⟩ hsettled

end Sys2Proof.Machine
end

section
/-! SUPPORT. The training of the host link, row by row; and the statement on it. -/
namespace Sys2Proof.Machine
open Sys2Proof

variable {s : State} {lanes : BitVec 4} {peer : BitVec 3} {v : BitVec 32} {w : Nat}

/-! ## Widths and rates (R289, R290) -/

theorem lanesGood_iff : lanesGood lanes w = true ↔ ∀ i, i < w → lanes.getLsbD i = true := by
  simp [lanesGood]

theorem lanesGood_bad (h : ∃ i, i < w ∧ lanes.getLsbD i = false) : lanesGood lanes w = false := by
  obtain ⟨i, hi, hbad⟩ := h
  rw [← Bool.not_eq_true, lanesGood_iff]
  exact fun hall => by simp [hall i hi] at hbad

/-- The widest width that the cap admits and whose lanes all train. -/
theorem trainWidth_widest {cap : Nat} (hw : w = 1 ∨ w = 2 ∨ w = 4) (hcap : w ≤ cap) (hgood : ∀ i, i < w → lanes.getLsbD i = true)
    (hbad : ∀ x, x = 2 ∨ x = 4 → w < x → x ≤ cap → ∃ i, i < x ∧ lanes.getLsbD i = false) : trainWidth cap lanes = some w := by
  have hall : lanesGood lanes w = true := lanesGood_iff.mpr hgood
  have hskip (x : Nat) (hx : x = 2 ∨ x = 4) (hlt : w < x) : decide (decide (x ≤ cap) = true ∧ lanesGood lanes x = true) = false := by
    by_cases h : x ≤ cap
    · simp [lanesGood_bad (hbad x hx hlt h)]
    · simp [h]
  have htake : decide (decide (w ≤ cap) = true ∧ lanesGood lanes w = true) = true := by simp [hcap, hall]
  rw [trainWidth, List.find?_filter]
  rcases hw with rfl | rfl | rfl
  · simp only [List.find?_cons, hskip 4 (.inr rfl) (by decide), hskip 2 (.inl rfl) (by decide), htake]
  · simp only [List.find?_cons, hskip 4 (.inr rfl) (by decide), htake]
  · simp only [List.find?_cons, htake]

theorem capWidth_eq (s : State) : capWidth s = if s.variant = .ib then min 2 (strapWidth s) else strapWidth s := by
  cases h : s.variant <;> simp [capWidth, h]

/-! ## The link comes up (R296, R306) -/

/-- The link as ACTIVE begins, before anything is sent. -/
def linkRaised (s : State) : Link := { s.link with ls := .active, target := s.link.rate, retrain := false, advAt := s.tick }

/-- What is read off the rest of the link is as ACTIVE began. -/
theorem linkUp_reads {α : Type} (hentry : s.pwr.entry = none) (p : Link → α) (hp : ∀ x, p (linkRest x) = p x := by exact fun _ => rfl) :
    p (linkUp s).link = p (linkRaised s) := by
  have hup : linkUp s = settleEntry (pump { s with link := sendCredit (linkRaised s) s.tick }) := rfl
  rw [hup, settleEntry_none (s := pump { s with link := sendCredit (linkRaised s) s.tick }) hentry, pump_reads _ p hp]
  exact (sendCredit_sends _ _).reads p hp

/-! ## TS1 (R295, R314, R328) -/

theorem exec_linkDetectTs1Start (hon : linkOn s = true) (hls : s.link.ls = .detect) (hts : s.link.ts1 = false) (hphase : s.pwr.phase ≠ .test) :
    exec .linkDetectTs1Start s = .next (if s.link.recAt + 1000 ≤ s.tick then { s with link.ts1 := true } else s) := by
  show execLinkDetectTs1Start s = _
  simp [execLinkDetectTs1Start, whenDue, hon, hls, hts, hphase]

section Ts1
variable (hon : linkOn s = true) (hphase : s.pwr.phase ≠ .test)
include hon hphase

theorem exec_linkTs1Received_trains (hls : s.link.ls = .detect ∨ s.link.ls = .hotreset) :
    exec .linkTs1Received s = .next { s with link := { s.link with ls := .config, rate := 0 } } := by
  show execLinkTs1Received s = _
  rcases hls with hls | hls <;> simp [execLinkTs1Received, hon, hphase, hls]

/-- TS1 wakes a device in DOZE from LOWPOWER and one in REST from DISABLED (R314). -/
theorem exec_linkTs1Received_wakes (hentry : s.pwr.entry = none)
    (h : (s.link.ls = .lowpower ∧ s.pwr.pstate = .doze) ∨ (s.link.ls = .disabled ∧ s.pwr.pstate = .rest)) :
    exec .linkTs1Received s = .next (wakeNow 1 s) := by
  show execLinkTs1Received s = _
  rcases h with ⟨hls, hp⟩ | ⟨hls, hp⟩ <;> simp [execLinkTs1Received, hon, hphase, hls, hp, wake_now 1 hentry]

end Ts1

theorem linkOn_iff : linkOn s = true ↔
    s.pwr.released = true ∧ inLoss s = false ∧ s.pwr.pstate ≠ .off ∧ s.tbx.hung.getLsbD 0 = false := by
  simp [linkOn, and_assoc]

theorem wakeNow_doze_link (hdoze : s.pwr.pstate = .doze) (hls : s.link.ls = .lowpower) : (wakeNow 1 s).link.ls = .recovery := by
  rw [wakeNow_doze 1 hdoze]
  exact congrArg Link.ls (if_pos hls)

theorem wakeNow_rest_link (hrest : s.pwr.pstate = .rest) (hung : s.tbx.hung.getLsbD 0 = false) : (wakeNow 1 s).link.ls = .config := by
  rw [wakeNow_rest 1 hrest]
  exact congrArg Link.ls (if_neg (ne_true_of_eq_false hung))

/-! ## CONFIG and RATE (R296) -/

/-- The link as CONFIG has found its lanes. -/
def linkTrained (w : Nat) (lanes : BitVec 4) (peer : BitVec 3) (s : State) : Link :=
  { s.link with
    width := w, narrow := decide (w < capWidth s), laneOk := lanes &&& BitVec.ofNat 4 (2 ^ capWidth s - 1), peer := peer }

/-- The same where CONFIG has just ended: the rate is 0 and no TS1 is sent. -/
def linkConfigured (w : Nat) (lanes : BitVec 4) (peer : BitVec 3) (s : State) : Link :=
  { linkTrained w lanes peer s with rate := 0, ts1 := false }

theorem configDone_rate (hls : s.link.ls = .rate) (hw : trainWidth (capWidth s) lanes = some w) :
    configDone lanes peer s = linkUp { s with link := linkTrained w lanes peer s } := by
  simp only [configDone, hw, ← capWidth_eq, hls, if_true, linkTrained]

theorem configDone_config (hls : s.link.ls = .config) (hw : trainWidth (capWidth s) lanes = some w) : configDone lanes peer s =
    if agreedRate { s.link with peer := peer } = 0 then linkUp { s with link := linkConfigured w lanes peer s }
    else { s with link :=
      { linkConfigured w lanes peer s with ls := .rate, target := agreedRate { s.link with peer := peer }, recAt := s.tick } } := by
  simp only [configDone, hw, ← capWidth_eq, hls, reduceCtorEq, if_false]
  rfl

theorem exec_linkConfigComplete (hon : linkOn s = true) (h : s.link.ls = .config ∨ (s.link.ls = .rate ∧ s.link.rate = s.link.target)) :
    exec (.linkConfigComplete lanes peer) s = .next (configDone lanes peer s) :=
  whenDue_of s _ (by simp only [hon, Bool.true_and, Bool.or_eq_true, Bool.and_eq_true, decide_eq_true_eq]; exact h)

/-- CONFIG ends with the lanes found, in ACTIVE at rate 0 or in RATE towards the agreed rate. -/
theorem configDone_configured (hentry : s.pwr.entry = none) (hls : s.link.ls = .config) (hw : trainWidth (capWidth s) lanes = some w) :
    let t := configDone lanes peer s
    let r := agreedRate { s.link with peer := peer }
    t.link.width = w ∧ t.link.narrow = decide (w < capWidth s) ∧ t.link.peer = peer ∧ t.link.rate = 0
      ∧ (r = 0 → t.link.ls = .active) ∧ (r ≠ 0 → t.link.ls = .rate ∧ t.link.target = r ∧ t.link.recAt = s.tick) := by
  intro t r
  have ht : t = if r = 0 then linkUp { s with link := linkConfigured w lanes peer s }
      else { s with link := { linkConfigured w lanes peer s with ls := .rate, target := r, recAt := s.tick } } := configDone_config hls hw
  by_cases hr : r = 0
  · rw [ht, if_pos hr]
    have hup {α : Type} (p : Link → α) (hp : ∀ x, p (linkRest x) = p x := by exact fun _ => rfl) :=
      linkUp_reads (s := { s with link := linkConfigured w lanes peer s }) hentry p hp
    exact ⟨hup (·.width), hup (·.narrow), hup (·.peer), hup (·.rate), fun _ => hup (·.ls), fun h => absurd hr h⟩
  · rw [ht, if_neg hr]
    exact ⟨rfl, rfl, rfl, rfl, fun h => absurd h hr, fun _ => ⟨rfl, rfl, rfl⟩⟩

theorem exec_linkRateChangeIdleEnd (hon : linkOn s = true) (hls : s.link.ls = .rate) : exec .linkRateChangeIdleEnd s =
    .next (if s.link.recAt + 10 ≤ s.tick then { s with link.rate := s.link.target } else s) := by
  show execLinkRateChangeIdleEnd s = _
  simp [execLinkRateChangeIdleEnd, whenDue, hon, hls]

/-! ## RECOVERY (R293, R295, R298) -/

theorem exec_blockLockLost (hon : linkOn s = true) (hls : s.link.ls = .active) : exec .blockLockLost s = .next (toRecovery s) :=
  whenDue_of s _ (by simp [hon, hls])

theorem exec_linkRecoveryComplete (hon : linkOn s = true) (hls : s.link.ls = .recovery) : exec .linkRecoveryComplete s = .next (
    if s.link.retrain = true ∧ agreedRate s.link ≠ s.link.rate then
      { s with link := { s.link with ls := .rate, target := agreedRate s.link, recAt := s.tick } }
    else linkUp s) :=
  whenDue_of s _ (by simp [hon, hls])

/-- LINK_DOWN raised, the link in DETECT (R298). -/
def linkLost (s : State) : State :=
  raiseFault 12 (BitVec.ofNat 32 (lstateNum .recovery)) { s with link := { s.link with ls := .detect, rate := 0 } }

theorem exec_linkRecoveryTimeout (hon : linkOn s = true) (hls : s.link.ls = .recovery) (hdue : s.link.recAt + 2000 ≤ s.tick) :
    exec .linkRecoveryTimeout s = .next (linkReset (linkLost s)) :=
  whenDue_of s _ (by simp [hon, hls, hdue])

/-- The loss of the link is latched, and neither it nor what the reset of the link settles leaves DETECT. -/
theorem linkReset_linkLost (hon : linkOn s = true) (hover : vAt s.flt.pol 4 ≠ 2) (hdown : vAt s.flt.pol 12 ≠ 2)
    (hm : s.flt.masked.getLsbD 12 = false) :
    (linkReset (linkLost s)).link.ls = .detect ∧ (linkReset (linkLost s)).flt.latch.getLsbD 12 = true := by
  obtain ⟨hrel, -, hoff, -⟩ := linkOn_iff.mp hon
  have hheld := linkReset_held (linkLost s)
  have hpol : vAt (linkLost s).flt.pol 4 ≠ 2 := by rwa [linkLost, raiseFault_pol]
  have hdetect : (linkLost s).link.ls = .detect :=
    raiseFault_reads Link.ls (fun _ => rfl) 12 _ _ (fun _ _ _ _ => rfl) fun h => absurd h hdown
  exact ⟨(hheld.ls hpol).trans hdetect, hheld.latch 12 (raiseFault_latches 12 _ _ (by decide) hm (by simp [collectorOn, hrel, hoff]))⟩

/-! ## HW_CTRL and HW_LINK (R322, R323) -/

theorem exec_linkRetrain (hon : linkOn s = true) (hls : s.link.ls = .active) (hv : v.getLsbD 7 = true) :
    exec (.linkRetrain v) s = .next (ctrlWrite v s) :=
  whenDue_of s _ (by simp [hon, hls, hv])

theorem link_only (s : State) (l : Link) : OnlyIn [.link] s { s with link := l } := by
  intro r hr; cases r <;> simp_all [sameIn]

/-- RETRAIN written in ACTIVE: RECOVERY, from which the link trains again. -/
theorem ctrlWrite_retrains (hls : s.link.ls = .active) (hv : v.getLsbD 7 = true) (hre : s.link.retrain = false) :
    (ctrlWrite v s).link.ls = .recovery ∧ (ctrlWrite v s).link.retrain = true ∧ (ctrlWrite v s).link.rtCnt = satInc s.link.rtCnt
      ∧ OnlyIn [.link] s (ctrlWrite v s) := by
  have hgo : (v.getLsbD 7 && !s.link.retrain && decide (s.link.ls = .active)) = true := by simp [hv, hre, hls]
  simp only [ctrlWrite, hgo, if_true]
  exact ⟨rfl, rfl, rfl, link_only s _⟩

theorem exec_linkCounterClear (hon : linkOn s = true) (hls : s.link.ls = .active) :
    exec .linkCounterClear s = .next { s with link := { s.link with rtCnt := 0, rpCnt := 0 } } :=
  whenDue_of s _ (by simp [hon, hls])

/-! ## The statement -/

/-- Settles O48: each row by the state the link is in; the time-out of RECOVERY by what the faults and the reset behind it leave. -/
theorem hostLinkTraining : Obligations.HostLinkTraining := by
  unfold Obligations.HostLinkTraining
  intro s lanes peer v w l hon hentry
  obtain ⟨-, -, -, hung⟩ := linkOn_iff.mp hon
  have hup {α : Type} (p : Link → α) (hp : ∀ x, p (linkRest x) = p x := by exact fun _ => rfl) := linkUp_reads hentry p hp
  refine ⟨exec_linkDetectTs1Start hon, fun hphase => ⟨exec_linkTs1Received_trains hon hphase, fun hls hdoze => ?_, fun hls hrest => ?_⟩,
    fun hls hw hcap hgood hbad => ?_, exec_linkRateChangeIdleEnd hon, fun hls hrate hw => ?_, exec_blockLockLost hon,
    fun hls hre hne => ?_, fun hls hsame => ?_, fun hls hdue hover hdown hm => ?_, fun hls hv hre => ?_, exec_linkCounterClear hon⟩
  · obtain ⟨hrun, hcause, hfrom, -⟩ := wakeNow_wakes (s := s) 1 (.inl hdoze)
    exact ⟨_, exec_linkTs1Received_wakes hon hphase hentry (.inl ⟨hls, hdoze⟩), wakeNow_doze_link hdoze hls, hrun, hcause,
      hfrom.trans (by simp [hdoze])⟩
  · obtain ⟨hrun, hcause, hfrom, -⟩ := wakeNow_wakes (s := s) 1 (.inr hrest)
    exact ⟨_, exec_linkTs1Received_wakes hon hphase hentry (.inr ⟨hls, hrest⟩), wakeNow_rest_link hrest hung, hrun, hcause,
      hfrom.trans (by simp [hrest])⟩
  · exact ⟨_, exec_linkConfigComplete hon (.inl hls), configDone_configured hentry hls (trainWidth_widest hw hcap hgood hbad)⟩
  · have htrained {α : Type} (p : Link → α) (hp : ∀ x, p (linkRest x) = p x := by exact fun _ => rfl) :=
      linkUp_reads (s := { s with link := linkTrained w lanes peer s }) hentry p hp
    refine ⟨_, exec_linkConfigComplete hon (.inr ⟨hls, hrate⟩), ?_⟩
    rw [configDone_rate hls hw]
    exact ⟨htrained (·.ls), htrained (·.rate), htrained (·.width)⟩
  · exact (exec_linkRecoveryComplete hon hls).trans (congrArg _ (if_pos ⟨hre, hne⟩))
  · have hstay : ¬(s.link.retrain = true ∧ agreedRate s.link ≠ s.link.rate) :=
      fun ⟨hre, hne⟩ => hsame.elim (fun h => absurd hre (ne_true_of_eq_false h)) hne
    exact ⟨_, (exec_linkRecoveryComplete hon hls).trans (congrArg _ (if_neg hstay)), hup (·.ls), hup (·.rate), hup (·.retrain)⟩
  · obtain ⟨hdetect, hlatch⟩ := linkReset_linkLost hon hover hdown hm
    exact ⟨_, exec_linkRecoveryTimeout hon hls hdue, hdetect, hlatch, rfl, rfl, rfl⟩
  · exact ⟨_, exec_linkRetrain hon hls hv, ctrlWrite_retrains hls hv hre⟩

end Sys2Proof.Machine
end

section
/-! SUPPORT. How a link packet is received: refused, repeated or in turn; register accesses and CMD packets that are in turn. -/
namespace Sys2Proof.Machine
open Sys2Proof

variable {s t u : State} {crc : Option (BitVec 32)} {lseq xtag : BitVec 16} {typ lfl : Byte} {b : List Byte} {first last : Bool}

/-! ## The order of data packets (R302) -/

/-- How far a packet number lies behind the one expected next. -/
def seqBehind (s : State) (lseq : BitVec 16) : Nat := (s.link.rxE + 65536 - lseq.toNat) % 65536

/-- The state in which a packet in turn is acted on: it is acknowledged, and it is a request (R302, R533). -/
def accepted (s : State) : State := noteRequest { s with
  link := { s.link with rxE := (s.link.rxE + 1) % 65536, nakOut := false, lastAck := some (false, s.link.rxE) } }

/-- The receiver's part of the link. -/
def rxOf (l : Link) : Nat × Bool × Option (Bool × Nat) := (l.rxE, l.nakOut, l.lastAck)

theorem taken_of_rxOf (h : rxOf t.link = rxOf (accepted s).link) :
    t.link.rxE = (s.link.rxE + 1) % 65536 ∧ t.link.nakOut = false ∧ t.link.lastAck = some (false, s.link.rxE) :=
  ⟨congrArg Prod.fst h, congrArg (·.2.1) h, congrArg (·.2.2) h⟩

theorem rxData_refused {good : Bool} (h : good = false ∨ 4096 < seqBehind s lseq) : rxData good lseq xtag typ lfl b s =
    if s.link.nakOut then s else { s with link :=
      { s.link with nakOut := true, lastAck := some (true, (s.link.rxE + 65535) % 65536) } } := by
  have hturn : ¬(good && decide ((s.link.rxE + 65536 - lseq.toNat) % 65536 = 0)) = true := by
    rcases h with rfl | h
    · simp
    · rw [seqBehind] at h
      simp only [Bool.and_eq_true, decide_eq_true_eq]
      omega
  have hagain : ¬(good && decide ((s.link.rxE + 65536 - lseq.toNat) % 65536 ≤ 4096)) = true := by
    rcases h with rfl | h
    · simp
    · rw [seqBehind] at h
      simp only [Bool.and_eq_true, decide_eq_true_eq]
      omega
  simp only [rxData, if_neg hturn, if_neg hagain]

theorem rxData_repeated (hpos : 0 < seqBehind s lseq) (hnear : seqBehind s lseq ≤ 4096) : rxData true lseq xtag typ lfl b s =
    { s with link.lastAck := some (false, (s.link.rxE + 65535) % 65536) } := by
  have hturn : ¬(s.link.rxE + 65536 - lseq.toNat) % 65536 = 0 := Nat.pos_iff_ne_zero.mp hpos
  have hagain : (s.link.rxE + 65536 - lseq.toNat) % 65536 ≤ 4096 := hnear
  simp only [rxData, hturn, hagain, decide_false, decide_true, Bool.and_false, Bool.and_true, Bool.false_eq_true, if_false, if_true]

theorem rxData_inTurn (h : seqBehind s lseq = 0) : rxData true lseq xtag typ lfl b s = settleEntry (takeData xtag typ lfl b
    { s with link := { s.link with rxE := (s.link.rxE + 1) % 65536, nakOut := false, lastAck := some (false, s.link.rxE) } }) := by
  have hturn : (s.link.rxE + 65536 - lseq.toNat) % 65536 = 0 := h
  simp only [rxData, hturn, decide_true, Bool.and_true, if_true]

/-! ## The rows that carry link packets (R299, R300) -/

theorem linkFlows_iff : linkFlows s = true ↔ linkOn s = true ∧ s.link.ls = .active := by simp [linkFlows]

section Rows
variable (hflow : linkFlows s = true)
include hflow

theorem exec_dataPacket (hdata : isControl typ = false) : exec (.hostLinkDataPacket crc lseq xtag typ lfl b) s =
    .next (rxData (decide (crc = some (linkCrc typ lfl lseq.toNat xtag.toNat b))) lseq xtag typ lfl b s) := by
  refine (whenDue_of s _ hflow).trans ?_
  simp only [hdata, Bool.not_false, if_true]

theorem exec_dataPacket_sound (hdata : isControl typ = false) (hcrc : crc = some (linkCrc typ lfl lseq.toNat xtag.toNat b)) :
    exec (.hostLinkDataPacket crc lseq xtag typ lfl b) s = .next (rxData true lseq xtag typ lfl b s) := by
  rw [exec_dataPacket hflow hdata, decide_eq_true hcrc]

theorem exec_dataPacket_refused (hdata : isControl typ = false)
    (h : ¬crc = some (linkCrc typ lfl lseq.toNat xtag.toNat b) ∨ 4096 < seqBehind s lseq) :
    exec (.hostLinkDataPacket crc lseq xtag typ lfl b) s = .next (if s.link.nakOut then s
      else { s with link := { s.link with nakOut := true, lastAck := some (true, (s.link.rxE + 65535) % 65536) } }) := by
  rw [exec_dataPacket hflow hdata, rxData_refused (h.imp_left fun hbad => decide_eq_false hbad)]

theorem exec_controlPacket (hctl : isControl typ = true) : exec (.hostLinkDataPacket crc lseq xtag typ lfl b) s =
    .next (if crc = some (linkCrc typ lfl lseq.toNat xtag.toNat b) then takeControl lseq xtag typ lfl b s else s) := by
  refine (whenDue_of s _ hflow).trans ?_
  simp only [hctl, Bool.not_true, Bool.false_eq_true, if_false, decide_eq_true_eq]

/-- A control packet that is damaged, or whose LFL or XTAG is not 0, is discarded silently (R300). -/
theorem exec_controlPacket_discarded (hctl : isControl typ = true)
    (h : ¬crc = some (linkCrc typ lfl lseq.toNat xtag.toNat b) ∨ lfl ≠ 0 ∨ xtag ≠ 0) :
    exec (.hostLinkDataPacket crc lseq xtag typ lfl b) s = .next s := by
  rw [exec_controlPacket hflow hctl]
  split
  · next hcrc =>
    have hset : lfl ≠ 0 ∨ xtag ≠ 0 := h.resolve_left (not_not.2 hcrc)
    rw [takeControl, if_pos hset]
  · rfl

theorem exec_ack (n : BitVec 16) : exec (.ack n) s = .next (takeAck n.toNat s) := whenDue_of s _ hflow

theorem exec_nak (n : BitVec 16) : exec (.nak n) s = .next (takeNak n.toNat s) := whenDue_of s _ hflow

theorem exec_controlPacket_ack (hcrc : crc = some (linkCrc 0x80 0 lseq.toNat (0 : BitVec 16).toNat [])) :
    exec (.hostLinkDataPacket crc lseq 0 0x80 0 []) s = exec (.ack lseq) s := by
  rw [exec_controlPacket hflow (by decide), if_pos hcrc, exec_ack hflow]
  rfl

theorem exec_controlPacket_nak (hcrc : crc = some (linkCrc 0x81 0 lseq.toNat (0 : BitVec 16).toNat [])) :
    exec (.hostLinkDataPacket crc lseq 0 0x81 0 []) s = exec (.nak lseq) s := by
  rw [exec_controlPacket hflow (by decide), if_pos hcrc, exec_nak hflow]
  rfl

theorem exec_regwr (ofs : BitVec 16) (data : BitVec 32) : exec (.regwr lseq xtag ofs data) s =
    .next (rxData true lseq xtag 2 0 (leB 2 ofs.toNat ++ zeros 2 ++ leB 4 data.toNat) s) := whenDue_of s _ hflow

theorem exec_cmd : exec (.cmd lseq lfl b) s = .next (rxData true lseq 0 0x10 lfl b s) := whenDue_of s _ hflow

end Rows

/-! ## Register accesses (R308) -/

theorem takeData_read (ofs : BitVec 16) (s : State) :
    takeData xtag 1 0 (leB 2 ofs.toNat ++ [0, 0]) s = regAccess ofs.toNat xtag none (noteRequest s) := by
  have hclear : bytesAt (leB 2 ofs.toNat ++ [0, 0]) 2 2 = [0, 0] := bytesAt_append_right _ 2 (by simp)
  have hofs : fieldAt (leB 2 ofs.toNat ++ [0, 0]) 0 2 = ofs.toNat := (fieldAt_leB 2 _ _).trans (Nat.mod_eq_of_lt ofs.isLt)
  have hdue : (leB 2 ofs.toNat ++ [0, 0]).length = 4 ∧ (0 : Byte) = 0 ∧ allZero [(0 : Byte), 0] = true := ⟨by simp, rfl, rfl⟩
  rw [takeData, hclear, hofs]
  exact if_pos hdue

theorem takeData_write (ofs : BitVec 16) (data : BitVec 32) (s : State) : takeData xtag 2 0 (leB 2 ofs.toNat ++ zeros 2 ++ leB 4 data.toNat) s =
    regAccess ofs.toNat xtag (some data) (noteRequest s) := by
  have hclear : bytesAt (leB 2 ofs.toNat ++ zeros 2 ++ leB 4 data.toNat) 2 2 = [0, 0] := by
    rw [List.append_assoc, bytesAt_append_right _ 2 (by simp)]
    exact bytesAt_append_left _ rfl
  have hofs : fieldAt (leB 2 ofs.toNat ++ zeros 2 ++ leB 4 data.toNat) 0 2 = ofs.toNat := by
    rw [List.append_assoc, fieldAt_leB]
    exact Nat.mod_eq_of_lt ofs.isLt
  have hdata : fieldAt (leB 2 ofs.toNat ++ zeros 2 ++ leB 4 data.toNat) 4 4 = data.toNat := by
    rw [fieldAt_append_right _ 4 (by simp), ← List.append_nil (leB 4 data.toNat)]
    exact (fieldAt_leB 4 _ []).trans (Nat.mod_eq_of_lt data.isLt)
  have hdue : (leB 2 ofs.toNat ++ zeros 2 ++ leB 4 data.toNat).length = 8 ∧ (0 : Byte) = 0 ∧ allZero [(0 : Byte), 0] = true :=
    ⟨by simp, rfl, rfl⟩
  rw [takeData, hclear, hofs, hdata, BitVec.ofNat_toNat, BitVec.setWidth_eq]
  exact if_pos hdue

/-- The completion of a register access (R308). -/
def regReply (ofs : Nat) (xtag : BitVec 16) (v : Nat) : TxPkt :=
  { TxPkt.reset with typ := 3, xtag := xtag, payload := leB 2 ofs ++ [0, 0] ++ leB 4 v }

/-- A completion that joins those that wait, and what may be sent is sent. -/
def completed (x : TxPkt) (s : State) : State := pump { s with link := { s.link with
  rgCum := (s.link.rgCum + 1) % 65536, cpls := s.link.cpls ++ [(s.link.ordNext, x)], ordNext := s.link.ordNext + 1 } }

theorem completed_carries (x : TxPkt) (s : State) : Carries (completed x s).link x :=
  (pump_sends _).carries x (.inl ⟨s.link.ordNext, List.mem_append_right _ (List.mem_singleton_self _)⟩)

theorem completed_reads {α : Type} (x : TxPkt) (s : State) (p : Link → α) (hp : ∀ l, p (linkRest l) = p l := by exact fun _ => rfl)
    (hx : ∀ l r c o, p { l with rgCum := r, cpls := c, ordNext := o } = p l := by exact fun _ _ _ _ => rfl) :
    p (completed x s).link = p s.link := (pump_reads _ p hp).trans (hx _ _ _ _)

section Access
variable {ofs : Nat} (hmax : ofs < 4096) (hword : ofs % 4 = 0)
include hmax hword

theorem regAccess_read (s : State) : regAccess ofs xtag none s = completed (regReply ofs xtag (hwRead ofs s)) s := by
  have hok : (decide (ofs % 4 ≠ 0) || decide (4096 ≤ ofs)) = false := by simp [hword, hmax]
  simp only [regAccess, hok, Bool.false_eq_true, if_false]
  rfl

theorem regAccess_write (data : BitVec 32) (s : State) :
    regAccess ofs xtag (some data) s = completed (regReply ofs xtag 0) (hwWrite ofs data s) := by
  have hok : (decide (ofs % 4 ≠ 0) || decide (4096 ≤ ofs)) = false := by simp [hword, hmax]
  simp only [regAccess, hok, Bool.false_eq_true, if_false, ite_self]
  rfl

end Access

/-- No word of the host window shows the receiver. -/
theorem hwRead_accepted (ofs : Nat) (s : State) : hwRead ofs (accepted s) = hwRead ofs (noteRequest s) := rfl

theorem ctrlWrite_only (v : BitVec 32) (s : State) : OnlyIn [.link] s (ctrlWrite v s) := by
  simp only [ctrlWrite]
  split <;> exact link_only s _

theorem ctrlWrite_rxOf (v : BitVec 32) (s : State) : rxOf (ctrlWrite v s).link = rxOf s.link := by
  simp only [ctrlWrite]
  split <;> rfl

/-- A word of the host window written changes the credit wait of Oasis, or a register of the link other than the receiver's. -/
theorem hwWrite_keeps (ofs : Nat) (v : BitVec 32) (s : State) : (hwWrite ofs v s).pwr = s.pwr ∧ rxOf (hwWrite ofs v s).link = rxOf s.link := by
  unfold hwWrite
  split
  case h_2 => exact ⟨ctrlWrite_only v s .pwr (by decide), ctrlWrite_rxOf v s⟩
  all_goals exact ⟨rfl, rfl⟩

/-- HW_FAULTEN as written: its three fields (R325). -/
theorem hwWrite_enables (v : BitVec 32) (s : State) : let l := (hwWrite 0x024 v s).link
    l.hirqEn = v.getLsbD 31 ∧ l.fthr.toNat = v.toNat / 2 ^ 29 % 4 ∧ l.msgEn = v.setWidth 4 := by
  refine ⟨rfl, ?_, rfl⟩
  show (BitVec.ofNat 2 (v.toNat / 2 ^ 29 % 2 ^ 2)).toNat = _
  simp

/-! ## CMD packets (R305, R309) -/

theorem takeData_cmd (s : State) (hmin : 1 ≤ b.length) (hmax : b.length ≤ 1024) (hlfl : lfl.toNat < 4) :
    takeData 0 0x10 lfl b s = cmdLink (lfl.getLsbD 0) (lfl.getLsbD 1) b (noteRequest s) := by
  rw [takeData]
  exact if_pos ⟨hmin, hmax, hlfl, rfl⟩

/-- The assembly with a packet's bytes added. -/
def assembled (first : Bool) (b : List Byte) (s : State) : Assembly :=
  let old := s.link.asm.getD Assembly.reset
  { bytes := old.bytes ++ b, ch := old.ch + b2n first, cd := old.cd + cmdCharge first b.length, due := s.tick + 10000 }

/-- The link that has charged a CMD packet (R305). -/
def cmdCharged (first : Bool) (n : Nat) (l : Link) : Link :=
  { l with chCum := (l.chCum + b2n first) % 65536, cdCum := (l.cdCum + cmdCharge first n) % 65536 }

/-- The state that holds a CMD packet in its assembly. -/
def cmdHeld (first : Bool) (b : List Byte) (s : State) : State :=
  let l := cmdCharged first b.length s.link
  { s with link := { l with
    chUsed := l.chUsed + b2n first, cdUsed := l.cdUsed + cmdCharge first b.length, asm := some (assembled first b s) } }

theorem closeAssembly_none (h : s.link.asm = none) : closeAssembly s = s := by
  simp only [closeAssembly, h]

theorem closeAssembly_some {a : Assembly} (h : s.link.asm = some a) :
    closeAssembly s = deliverBytes .host a.bytes a.ch a.cd { s with link.asm := none } := by
  simp only [closeAssembly, h]

/-- The first packet where no assembly is open, or a later one of an open assembly. -/
def Continues (first : Bool) (s : State) : Prop := (first = true ∧ s.link.asm = none) ∨ (first = false ∧ s.link.asm.isSome = true)

theorem cmdLink_held (h : Continues first s) (hroom : (assembled first b s).cd < 1024) : cmdLink first false b s = cmdHeld first b s := by
  have hsmall : ¬1024 ≤ (s.link.asm.getD Assembly.reset).cd + cmdCharge first b.length := Nat.not_le.mpr hroom
  rcases h with ⟨rfl, hasm⟩ | ⟨rfl, hasm⟩
  · simp only [cmdLink, closeAssembly_none hasm, if_true, Bool.not_true, Bool.false_and, Bool.false_eq_true, if_false, hsmall]
    rfl
  · have hopen : s.link.asm.isNone = false := by simpa [Option.isSome_iff_ne_none] using hasm
    simp only [cmdLink, hopen, Bool.and_false, Bool.false_eq_true, if_false, hsmall]
    rfl

theorem cmdLink_whole (hasm : s.link.asm = none) : cmdLink true true b s = closeAssembly (cmdHeld true b s) := by
  simp only [cmdLink, closeAssembly_none hasm, if_true, Bool.not_true, Bool.false_and, Bool.false_eq_true, if_false]
  rfl

/-- A packet that continues no assembly breaks the rules (R300, R309). -/
theorem cmdLink_stray (hasm : s.link.asm = none) :
    cmdLink false last b s = pump (linkProto 0x10 { s with link := cmdCharged false b.length s.link }) := by
  have hopen : s.link.asm.isNone = true := by rw [hasm]; rfl
  simp only [cmdLink, hopen, Bool.not_false, Bool.and_true, Bool.false_eq_true, if_false, if_true]
  rfl

theorem assembled_first (hasm : s.link.asm = none) :
    assembled true b s = { bytes := b, ch := 1, cd := (b.length - 192 + 63) / 64, due := s.tick + 10000 } := by
  simp [assembled, hasm, Assembly.reset, cmdCharge, ceilDiv, b2n]

theorem assembled_next {a : Assembly} (hasm : s.link.asm = some a) :
    assembled false b s = { bytes := a.bytes ++ b, ch := a.ch, cd := a.cd + (b.length + 63) / 64, due := s.tick + 10000 } := by
  simp [assembled, hasm, cmdCharge, ceilDiv, b2n]

end Sys2Proof.Machine
end

section
/-! SUPPORT. Packets in turn acted on, what ACK and NAK release, the resend and the link's timers; and O49. -/
namespace Sys2Proof.Machine
open Sys2Proof

variable {s t u : State} {lseq xtag : BitVec 16} {lfl : Byte} {b : List Byte}

/-! ## Register accesses in turn (R302, R308) -/

section Registers
variable {ofs : BitVec 16} (hflow : linkFlows s = true) (hentry : s.pwr.entry = none) (hturn : seqBehind s lseq = 0)
  (hmax : ofs.toNat < 4096) (hword : ofs.toNat % 4 = 0)
include hflow hentry hturn hmax hword

theorem exec_regRead_inTurn :
    exec (.hostLinkDataPacket (some (linkCrc 1 0 lseq.toNat xtag.toNat (leB 2 ofs.toNat ++ [0, 0]))) lseq xtag 1 0 (leB 2 ofs.toNat ++ [0, 0])) s =
    .next (completed (regReply ofs.toNat xtag (hwRead ofs.toNat (noteRequest s))) (accepted s)) := by
  rw [exec_dataPacket_sound hflow (by decide) rfl, rxData_inTurn hturn, takeData_read, regAccess_read hmax hword]
  exact congrArg Host.Outcome.next (settleEntry_none hentry)

theorem exec_regwr_inTurn (data : BitVec 32) : exec (.regwr lseq xtag ofs data) s =
    .next (completed (regReply ofs.toNat xtag 0) (hwWrite ofs.toNat data (accepted s))) := by
  have hkept : (hwWrite ofs.toNat data (accepted s)).pwr.entry = none := by
    rw [(hwWrite_keeps _ _ _).1]
    exact hentry
  rw [exec_regwr hflow, rxData_inTurn hturn, takeData_write, regAccess_write hmax hword]
  exact congrArg Host.Outcome.next (settleEntry_none hkept)

end Registers

theorem hwWrite_msgp (v : BitVec 32) (s : State) : (hwWrite 0x008 v s).link.msgp = s.link.msgp &&& ~~~(v.setWidth 4) := rfl

theorem hwWrite_counts (v : BitVec 32) (s : State) : (hwWrite 0x018 v s).link.rtCnt = 0 ∧ (hwWrite 0x018 v s).link.rpCnt = 0 := ⟨rfl, rfl⟩

section Written
variable {ofs : BitVec 16} (x : TxPkt) (data : BitVec 32) (s : State)

/-- A register access leaves the receiver as it was when the packet was accepted. -/
theorem written_rxOf : rxOf (completed x (hwWrite ofs.toNat data (accepted s))).link = rxOf (accepted s).link :=
  (completed_reads x _ rxOf).trans (hwWrite_keeps _ _ _).2

theorem written_msgp (h : ofs = 0x008) :
    (completed x (hwWrite ofs.toNat data (accepted s))).link.msgp = s.link.msgp &&& ~~~(data.setWidth 4) :=
  h ▸ (completed_reads x _ Link.msgp).trans (hwWrite_msgp data (accepted s))

theorem written_cwait (h : ofs = 0x010) : (completed x (hwWrite ofs.toNat data (accepted s))).oas.cwait = data.toNat / 2 ^ 20 := by
  have hoas : (completed x (hwWrite ofs.toNat data (accepted s))).oas = (hwWrite ofs.toNat data (accepted s)).oas := rfl
  rw [hoas, h]
  exact congrArg (·.oas.cwait) (hwWrite_cwait data (accepted s))

theorem written_enables (h : ofs = 0x024) : let l := (completed x (hwWrite ofs.toNat data (accepted s))).link
    l.hirqEn = data.getLsbD 31 ∧ l.fthr.toNat = data.toNat / 2 ^ 29 % 4 ∧ l.msgEn = data.setWidth 4 := by
  subst h
  obtain ⟨hirq, hthr, hmsg⟩ := hwWrite_enables data (accepted s)
  exact ⟨(completed_reads x _ Link.hirqEn).trans hirq, (completed_reads x _ fun l => l.fthr.toNat).trans hthr,
    (completed_reads x _ Link.msgEn).trans hmsg⟩

theorem written_counts (h : ofs = 0x018) : let l := (completed x (hwWrite ofs.toNat data (accepted s))).link
    l.rtCnt = 0 ∧ l.rpCnt = 0 := by
  subst h
  obtain ⟨hrt, hrp⟩ := hwWrite_counts data (accepted s)
  exact ⟨(completed_reads x _ Link.rtCnt).trans hrt, (completed_reads x _ Link.rpCnt).trans hrp⟩

end Written

theorem accepted_off (h : s.pwr.pstate ≠ .off) : (accepted s).pwr.pstate ≠ .off := by
  simp only [accepted, noteRequest]
  split
  · decide
  · exact h

/-! ## CMD packets in turn (R302, R309) -/

theorem renewAbort_keeps (q : Nat) (p : QPkt) (s : State) : (renewAbort q p s).link = s.link ∧ (renewAbort q p s).pwr = s.pwr := by
  simp only [renewAbort]
  split <;> exact ⟨rfl, rfl⟩

/-- A fault begins no entry into a power state. -/
theorem raiseFault_entry (src : Nat) (det : BitVec 32) (h : s.pwr.entry = none) : (raiseFault src det s).pwr.entry = none := by
  have hbegin (u : State) (hu : u.pwr.entry = none) : (lossBegin true u).pwr.entry = none := by
    simp only [lossBegin]
    split
    · exact hu
    · rfl
  have hmsg (c : Bool) (body : List Byte) (u : State) (hu : u.pwr.entry = none) : (if c then formMsg 3 body u else u).pwr.entry = none := by
    split
    · exact formMsg_only 3 body u .pwr (by decide) ▸ hu
    · exact hu
  simp only [raiseFault, latchFault]
  split
  · exact h
  split
  · exact h
  split
  · exact h
  split
  · exact hbegin _ (hmsg _ _ _ h)
  · exact hmsg _ _ _ h

/-- The packet that a CMD packet of at least 16 bytes, whole in itself, delivers. -/
def wholeCmd (b : List Byte) : QPkt := { QPkt.reset with pkt := packetOf .host b, ch := 1, cd := (b.length - 192 + 63) / 64 }

/-- The state whose assembly is delivered: a whole CMD packet in turn has been charged, and no assembly is open any more. -/
def cmdWhole (b : List Byte) (s : State) : State := { cmdHeld true b (accepted s) with link.asm := none }

/-- The state after a whole CMD packet in turn whose queue is in use. -/
def cmdQueued (b : List Byte) (s : State) : State :=
  setQueue (renewAbort (fieldAt b 3 1) (wholeCmd b) (noteRequest (cmdWhole b s))) (fieldAt b 3 1)
    (queueOf s (fieldAt b 3 1) ++ [{ wholeCmd b with owner := s.vtf.owner.getD [] }])

theorem wholeCmd_qid (hq : fieldAt b 3 1 < 64) : (wholeCmd b).pkt.qid.toNat = fieldAt b 3 1 := by
  show (BitVec.ofNat 8 (fieldAt b 3 1)).toNat = _
  rw [BitVec.toNat_ofNat, Nat.mod_eq_of_lt (by omega)]

theorem cmdWhole_keeps (b : List Byte) (s : State) : (cmdWhole b s).eng = s.eng ∧ (cmdWhole b s).vtf = s.vtf
    ∧ (cmdWhole b s).pwr = (accepted s).pwr := by
  refine ⟨?_, ?_, ?_⟩ <;> simp only [cmdWhole, cmdHeld, accepted, noteRequest]

theorem engineOn_cmdWhole (hon : engineOn s = true) : engineOn (cmdWhole b s) = true := by
  obtain ⟨-, -, hpwr⟩ := cmdWhole_keeps b s
  rw [engineOn, inLoss, hpwr]
  exact hon

theorem queueOf_cmdWhole (b : List Byte) (s : State) (q : Nat) : queueOf (cmdWhole b s) q = queueOf s q := by
  obtain ⟨heng, -, -⟩ := cmdWhole_keeps b s
  rw [queueOf, heng, queueOf]

theorem deliver_cmdWhole (hon : engineOn s = true) (hoff : s.pwr.pstate ≠ .off) (hq : fieldAt b 3 1 < 64)
    (hbusy : queueOf s (fieldAt b 3 1) ≠ []) : deliver (wholeCmd b) (cmdWhole b s) = cmdQueued b s := by
  obtain ⟨-, howner, hpwr⟩ := cmdWhole_keeps b s
  have hoff' : (cmdWhole b s).pwr.pstate ≠ .off := hpwr ▸ accepted_off hoff
  have hqid := wholeCmd_qid hq
  have hbusy' : queueOf (cmdWhole b s) (wholeCmd b).pkt.qid.toNat ≠ [] := by rwa [hqid, queueOf_cmdWhole]
  rw [deliver_behind (engineOn_cmdWhole hon) hoff' rfl (hqid ▸ hq) hbusy', hqid, queueOf_cmdWhole, howner, cmdQueued]

theorem closeAssembly_cmdHeld (hon : engineOn s = true) (hoff : s.pwr.pstate ≠ .off) (hasm : s.link.asm = none) (hmin : 16 ≤ b.length)
    (hq : fieldAt b 3 1 < 64) (hbusy : queueOf s (fieldAt b 3 1) ≠ []) :
    closeAssembly (cmdHeld true b (accepted s)) = cmdQueued b s := by
  have hopen : (cmdHeld true b (accepted s)).link.asm = some { bytes := b, ch := 1, cd := (b.length - 192 + 63) / 64, due := s.tick + 10000 } :=
    congrArg some (assembled_first (s := accepted s) hasm)
  rw [closeAssembly_some hopen, deliverBytes, if_neg (Nat.not_lt.mpr hmin)]
  exact deliver_cmdWhole hon hoff hq hbusy

theorem cmdQueued_link (b : List Byte) (s : State) : (cmdQueued b s).link = { (cmdHeld true b (accepted s)).link with asm := none } :=
  (renewAbort_keeps _ _ _).1

theorem cmdQueued_rxOf (b : List Byte) (s : State) : rxOf (cmdQueued b s).link = rxOf (accepted s).link := by
  rw [cmdQueued_link]
  rfl

theorem cmdQueued_entry (h : s.pwr.entry = none) : (cmdQueued b s).pwr.entry = none :=
  (congrArg Pwr.entry (renewAbort_keeps _ _ _).2).trans h

theorem queueOf_cmdQueued (hq : fieldAt b 3 1 < 64) : queueOf (cmdQueued b s) (fieldAt b 3 1) =
    queueOf s (fieldAt b 3 1) ++ [{ wholeCmd b with owner := s.vtf.owner.getD [] }] := vAt_vSet_same _ _ _ hq

/-- The state after a CMD packet in turn that continues no assembly. -/
def cmdStray (b : List Byte) (s : State) : State :=
  pump (linkProto 0x10 { accepted s with link := cmdCharged false b.length (accepted s).link })

theorem cmdStray_rxOf (b : List Byte) (s : State) : rxOf (cmdStray b s).link = rxOf (accepted s).link :=
  (pump_reads _ rxOf).trans (raiseFault_reads rxOf (fun _ => rfl) 13 _ _ (fun _ _ _ _ => rfl) fun _ _ => rfl)

theorem cmdStray_entry (h : s.pwr.entry = none) : (cmdStray b s).pwr.entry = none :=
  raiseFault_entry 13 _ (s := { accepted s with link := cmdCharged false b.length (accepted s).link }) h

theorem collectorOn_accepted (h : linkOn s = true) : collectorOn (accepted s) = true := by
  obtain ⟨hrel, -, hoff, -⟩ := linkOn_iff.1 h
  have hrel' : (accepted s).pwr.released = true := hrel
  rw [collectorOn, hrel', decide_eq_true (accepted_off hoff)]
  rfl

theorem cmdStray_latch (hon : linkOn s = true) (hmask : s.flt.masked.getLsbD 13 = false) : (cmdStray b s).flt.latch.getLsbD 13 = true :=
  raiseFault_latches 13 _ { accepted s with link := cmdCharged false b.length (accepted s).link } (by decide) hmask
    (collectorOn_accepted hon)

section Commands
variable (hflow : linkFlows s = true) (hturn : seqBehind s lseq = 0) (hmin : 1 ≤ b.length) (hmax : b.length ≤ 1024)
include hflow hturn hmin hmax

theorem exec_cmd_inTurn (hlfl : lfl.toNat < 4) (ht : cmdLink (lfl.getLsbD 0) (lfl.getLsbD 1) b (accepted s) = t)
    (hentry : t.pwr.entry = none) : exec (.cmd lseq lfl b) s = .next t := by
  rw [exec_cmd hflow, rxData_inTurn hturn, takeData_cmd _ hmin hmax hlfl]
  subst ht
  exact congrArg Host.Outcome.next (settleEntry_none hentry)

variable (hentry : s.pwr.entry = none)
include hentry

theorem exec_cmd_first (hasm : s.link.asm = none) : exec (.cmd lseq 1 b) s = .next (cmdHeld true b (accepted s)) := by
  have hroom : (assembled true b (accepted s)).cd < 1024 := by
    rw [assembled_first (s := accepted s) hasm]
    show (b.length - 192 + 63) / 64 < 1024
    omega
  exact exec_cmd_inTurn hflow hturn hmin hmax (by decide) (cmdLink_held (s := accepted s) (.inl ⟨rfl, hasm⟩) hroom) hentry

theorem exec_cmd_next {a : Assembly} (hasm : s.link.asm = some a) (hroom : a.cd + (b.length + 63) / 64 < 1024) :
    exec (.cmd lseq 0 b) s = .next (cmdHeld false b (accepted s)) := by
  have hopen : (accepted s).link.asm.isSome = true := Option.isSome_of_eq_some hasm
  have hcd : (assembled false b (accepted s)).cd < 1024 := by
    rw [assembled_next (s := accepted s) hasm]
    exact hroom
  exact exec_cmd_inTurn hflow hturn hmin hmax (by decide) (cmdLink_held (s := accepted s) (.inr ⟨rfl, hopen⟩) hcd) hentry

theorem exec_cmd_whole (hasm : s.link.asm = none) (hlong : 16 ≤ b.length) (hq : fieldAt b 3 1 < 64) (hbusy : queueOf s (fieldAt b 3 1) ≠ []) :
    exec (.cmd lseq 3 b) s = .next (cmdQueued b s) := by
  obtain ⟨hrel, hloss, hoff, -⟩ := linkOn_iff.1 (linkFlows_iff.1 hflow).1
  have hon : engineOn s = true := by rw [engineOn, hrel, hloss]; rfl
  exact exec_cmd_inTurn hflow hturn hmin hmax (by decide) ((cmdLink_whole (s := accepted s) hasm).trans
    (closeAssembly_cmdHeld hon hoff hasm hlong hq hbusy)) (cmdQueued_entry hentry)

theorem exec_cmd_stray (hasm : s.link.asm = none) : exec (.cmd lseq 0 b) s = .next (cmdStray b s) :=
  exec_cmd_inTurn hflow hturn hmin hmax (by decide) (cmdLink_stray (s := accepted s) hasm) (cmdStray_entry hentry)

end Commands

theorem exec_cmdAssemblyTimeout {a : Assembly} (hon : linkOn s = true) (h : s.link.asm = some a) : exec .cmdAssemblyTimeout s = .next (
    if a.due ≤ s.tick then deliverBytes .host a.bytes a.ch a.cd { s with link.asm := none } else s) := by
  show execCmdAssemblyTimeout s = _
  simp only [execCmdAssemblyTimeout, h, hon, closeAssembly_some h, Bool.true_and, decide_eq_true_eq]

/-! ## ACK, NAK and the replay buffer (R303) -/

/-- How far a number named by ACK or NAK lies beyond the oldest packet held. -/
def ackAhead (n : BitVec 16) (p : TxPkt) : Nat := (n.toNat + 65536 - p.lseq) % 65536

/-- The packet as sent once more. -/
def resent (x : TxPkt) : TxPkt := { x with sent := x.sent + 1 }

section Replay
variable {n : BitVec 16} {p q : TxPkt} {r rest : List TxPkt} (hreplay : s.link.replay = p :: rest)

theorem resend_first (h : s.link.replay = q :: r) (hfew : q.sent < 4) :
    resend s = { s with link := { s.link with rpCnt := satInc s.link.rpCnt, advAt := s.tick, replay := resent q :: r } } := by
  simp only [resend, h, Nat.not_le.mpr hfew, if_false]
  rfl

include hreplay

theorem released_some (hd : ackAhead n p ≤ rest.length) :
    released s.link n.toNat s.tick = some { s.link with replay := rest.drop (ackAhead n p), advAt := s.tick } := by
  have hheld : (n.toNat + 65536 - p.lseq) % 65536 < (p :: rest).length := Nat.lt_succ_of_le hd
  simp only [released, hreplay, hheld, if_true, List.drop_succ_cons]
  rfl

theorem released_none (hd : rest.length < ackAhead n p) : released s.link n.toNat s.tick = none := by
  have hbeyond : ¬(n.toNat + 65536 - p.lseq) % 65536 < (p :: rest).length := Nat.not_lt.mpr hd
  simp only [released, hreplay, hbeyond, if_false]

theorem takeAck_released (hentry : s.pwr.entry = none) (hd : ackAhead n p ≤ rest.length) : takeAck n.toNat s =
    pump { s with link := { s.link with replay := rest.drop (ackAhead n p), advAt := s.tick } } := by
  simp only [takeAck, released_some hreplay hd]
  exact settleEntry_none hentry

/-- A NAK sends again from the packet after the one it names. -/
theorem takeNak_released (hentry : s.pwr.entry = none) (hd : ackAhead n p ≤ rest.length) (hnext : rest.drop (ackAhead n p) = q :: r)
    (hfew : q.sent < 4) : takeNak n.toNat s =
    pump { s with link := { s.link with rpCnt := satInc s.link.rpCnt, advAt := s.tick, replay := resent q :: r } } := by
  simp only [takeNak, released_some hreplay hd]
  rw [resend_first (s := { s with link := { s.link with replay := rest.drop (ackAhead n p), advAt := s.tick } }) hnext hfew]
  exact settleEntry_none hentry

theorem takeAck_unheld (hd : rest.length < ackAhead n p) : takeAck n.toNat s = s := by
  simp only [takeAck, released_none hreplay hd]

theorem takeNak_unheld (hd : rest.length < ackAhead n p) : takeNak n.toNat s = s := by
  simp only [takeNak, released_none hreplay hd]

/-- After the fourth resend of the oldest packet: RECOVERY, and the fault LINK_REPLAY. -/
theorem resend_fourth (hmany : 4 ≤ p.sent) : resend s = raiseFault 14 (BitVec.ofNat 32 p.lseq) (toRecovery { s with link :=
    { s.link with rpCnt := satInc s.link.rpCnt, advAt := s.tick, replay := { p with sent := 1 } :: rest } }) := by
  simp only [resend, hreplay, hmany, if_true]

theorem resend_fourth_latch (hon : linkOn s = true) (hmany : 4 ≤ p.sent) (hmask : s.flt.masked.getLsbD 14 = false) :
    (resend s).flt.latch.getLsbD 14 = true := by
  obtain ⟨hrel, -, hoff, -⟩ := linkOn_iff.1 hon
  have hcol : collectorOn s = true := by rw [collectorOn, hrel, decide_eq_true hoff]; rfl
  rw [resend_fourth hreplay hmany]
  exact raiseFault_latches 14 _ _ (by decide) hmask hcol

theorem resend_fourth_ls (hmany : 4 ≤ p.sent) (hpol : vAt s.flt.pol 14 ≠ 2) : (resend s).link.ls = .recovery := by
  rw [resend_fourth hreplay hmany]
  exact raiseFault_reads Link.ls (fun _ => rfl) 14 _ _ (fun _ _ _ _ => rfl) fun h => absurd h hpol

end Replay

section Timers
variable (hflow : linkFlows s = true)
include hflow

theorem exec_replayTimeout {p : TxPkt} {rest : List TxPkt} (hreplay : s.link.replay = p :: rest) :
    exec .replayTimeout s = .next (if s.link.advAt + 10 ≤ s.tick then resend s else s) := by
  show execReplayTimeout s = _
  simp only [execReplayTimeout, hflow, hreplay, whenDue, List.isEmpty_cons, Bool.not_false, Bool.true_and, decide_eq_true_eq]

/-! ## CREDIT (R306) -/

theorem exec_credit (rdl rhl msl cfl : BitVec 16) :
    exec (.credit rdl rhl msl cfl) s = .next (takeCredit rdl.toNat rhl.toNat msl.toNat cfl.toNat s) := whenDue_of s _ hflow

theorem exec_creditSendTimer (hdue : s.link.credAt + 10 ≤ s.tick) :
    exec .creditSendTimer s = .next { s with link := { s.link with lastCred := credLimits s.link, credAt := s.tick } } := by
  refine (whenDue_of s _ (by rw [hflow, decide_eq_true hdue]; rfl)).trans ?_
  simp only [sendCredit]

end Timers

/-- The link with the limits that a CREDIT packet gives. -/
def limitsSet (rdl rhl msl cfl : BitVec 16) (l : Link) : Link :=
  { l with
    credSeen := true, rdLim := rdl.toNat, rhLim := rhl.toNat, msLim := msl.toNat
    rdInf := cfl.getLsbD 0, rhInf := cfl.getLsbD 1, msInf := cfl.getLsbD 2 }

theorem takeCredit_set {rdl rhl msl cfl : BitVec 16} (hentry : s.pwr.entry = none) (h : cfl.toNat < 8) :
    takeCredit rdl.toNat rhl.toNat msl.toNat cfl.toNat s = pump { s with link := limitsSet rdl rhl msl cfl s.link } := by
  rw [takeCredit, if_neg (Nat.not_le.mpr h)]
  exact settleEntry_none hentry

theorem takeCredit_discarded {rdl rhl msl cfl : Nat} (h : 8 ≤ cfl) : takeCredit rdl rhl msl cfl s = s := by
  rw [takeCredit, if_pos h]

/-! ## O49 -/

/-- Settles O49: the packets that are in turn are those whose number is the one expected, and every other clause follows the branches of
the receiver and of the replay buffer. -/
theorem hostLinkPackets : Obligations.HostLinkPackets := by
  intro s crc lseq xtag ofs n rdl rhl msl cfl typ lfl data b l e prev back first sound readB again answered taken hflow hentry
  have hon : linkOn s = true := (linkFlows_iff.1 hflow).1
  refine ⟨exec_dataPacket_refused hflow, fun hdata hsound hpos hnear => ?_, exec_controlPacket_discarded hflow, ?_, ?_, ?_, ?_,
    fun a => exec_cmdAssemblyTimeout hon, ?_, fun hfew => ?_, fun hmany => ?_, exec_creditSendTimer hflow⟩
  case refine_1 => rw [exec_dataPacket_sound hflow hdata hsound, rxData_repeated hpos hnear]
  case refine_2 =>
    rintro rfl rfl rfl rfl hsound
    exact exec_controlPacket_ack hflow hsound
  case refine_3 =>
    rintro rfl rfl rfl rfl hsound
    exact exec_controlPacket_nak hflow hsound
  case refine_4 =>
    intro hturn hmax hword
    exact ⟨⟨_, exec_regRead_inTurn hflow hentry hturn hmax hword, taken_of_rxOf (completed_reads _ _ rxOf), _, rfl, rfl, rfl,
        completed_carries _ _⟩,
      _, exec_regwr_inTurn hflow hentry hturn hmax hword data, taken_of_rxOf (written_rxOf _ data s),
      ⟨_, rfl, rfl, rfl, completed_carries _ _⟩,
      written_msgp _ data s, written_cwait _ data s, written_enables _ data s, written_counts _ data s⟩
  case refine_5 =>
    intro hturn hmin hmax
    refine ⟨fun hasm => ?_, fun a hasm hroom => ?_, fun hasm hlong hq hbusy => ?_, fun hasm => ?_⟩
    · exact ⟨_, exec_cmd_first hflow hturn hmin hmax hentry hasm, taken_of_rxOf (s := s) rfl,
        congrArg some (assembled_first (s := accepted s) hasm)⟩
    · exact ⟨_, exec_cmd_next hflow hturn hmin hmax hentry hasm hroom, taken_of_rxOf (s := s) rfl,
        congrArg some (assembled_next (s := accepted s) hasm)⟩
    · exact ⟨_, exec_cmd_whole hflow hturn hmin hmax hentry hasm hlong hq hbusy, taken_of_rxOf (cmdQueued_rxOf b s),
        congrArg Link.asm (cmdQueued_link b s), queueOf_cmdQueued hq⟩
    · exact ⟨_, exec_cmd_stray hflow hturn hmin hmax hentry hasm, taken_of_rxOf (cmdStray_rxOf b s), cmdStray_latch hon⟩
  case refine_6 =>
    intro p rest hreplay
    refine ⟨fun hd => ⟨?_, fun q r hnext hfew => ?_⟩, fun hd => ?_, fun hearly => ?_, fun hdue hfew => ?_, fun hdue hmany => ?_⟩
    · obtain ⟨m, hm⟩ := (pump_sends { s with link := { s.link with replay := rest.drop (ackAhead n p), advAt := s.tick } }).replay
      exact ⟨_, m, (exec_ack hflow n).trans (congrArg _ (takeAck_released hreplay hentry hd)), hm, (pump_sends _).advAt rfl⟩
    · obtain ⟨m, hm⟩ := (pump_sends { s with link :=
        { s.link with rpCnt := satInc s.link.rpCnt, advAt := s.tick, replay := resent q :: r } }).replay
      exact ⟨_, m, (exec_nak hflow n).trans (congrArg _ (takeNak_released hreplay hentry hd hnext hfew)), hm, pump_reads _ Link.rpCnt⟩
    · rw [exec_ack hflow, exec_nak hflow, takeAck_unheld hreplay hd, takeNak_unheld hreplay hd]
      exact ⟨rfl, rfl⟩
    · rw [exec_replayTimeout hflow hreplay, if_neg (Nat.not_le.mpr hearly)]
    · rw [exec_replayTimeout hflow hreplay, if_pos hdue, resend_first hreplay hfew]
      rfl
    · exact ⟨_, (exec_replayTimeout hflow hreplay).trans (congrArg _ (if_pos hdue)), resend_fourth_latch hreplay hon hmany,
        resend_fourth_ls hreplay hmany⟩
  case refine_7 =>
    exact ⟨_, (exec_credit hflow rdl rhl msl cfl).trans (congrArg _ (takeCredit_set hentry hfew)), pump_reads _ Link.credSeen,
      pump_reads _ Link.rdLim, pump_reads _ Link.rhLim, pump_reads _ Link.msLim, pump_reads _ Link.rdInf, pump_reads _ Link.rhInf,
      pump_reads _ Link.msInf⟩
  case refine_8 => rw [exec_credit hflow, takeCredit_discarded hmany]

end Sys2Proof.Machine
end
